-- ==== Sys2Proof/Word.lean ====
section
/-! DEFINITION. Word types of the 8620: bytes, 32-bit register words (R15), 64-bit instruction and general-register words (R107, R108), bit-vector shapes of streams (R116) and descriptors (R112). -/

namespace Sys2Proof

/-- One byte of memory or of a message. -/
abbrev Byte := BitVec 8
/-- A register of a page is 32 bits wide (R15). -/
abbrev Word := BitVec 32
/-- A general register or a Case word (R77, R108). -/
abbrev DWord := BitVec 64
/-- Bits [55:0] of an instruction word; bits [63:56] are the opcode, which the constructor names (R107). -/
abbrev Body := BitVec 56
/-- An address stream: 32 bytes (R116). -/
abbrev StreamWord := BitVec 256
/-- A tile descriptor: 64 bytes (R112). -/
abbrev DescWord := BitVec 512
/-- A list of bytes, in increasing address order. -/
abbrev Bytes := List Byte

end Sys2Proof
end

