-- ==== Sys2Proof/Messages.lean ====
section
/-! DEFINITION. The contents of the commands that bring something from outside the block: memory errors that an access meets, packets and messages of other modules, frames of the host. -/

namespace Sys2Proof

/-- An error that a Case read meets (R77): the 64-bit word's byte address, and whether it is uncorrectable. -/
structure CaseErr where
  addr : Nat
  ue   : Bool
  deriving DecidableEq, Repr

/-- What the cache access of a look-up meets (R192): how many data words are corrected, whether one is uncorrectable, the ways of the set whose tag fails its parity. -/
structure CacheEcc where
  ce   : Nat
  ue   : Bool
  tags : List (Fin 16)
  deriving DecidableEq, Repr

/-- A fabric packet (R311): the fields of its header, its payload, and whether its CHK holds. -/
structure Packet where
  type    : Nat
  lane    : Nat
  dclass  : Nat
  slot    : Nat
  resend  : Bool
  epoch   : Nat
  dst     : Nat
  src     : Nat
  tag     : Nat
  layout  : Nat
  addr    : Nat
  arg     : Nat
  payload : Bytes
  good    : Bool
  deriving DecidableEq, Repr

/-- A Courier flit (R305). -/
structure Flit where
  data  : Bytes
  lseq  : Nat
  lack  : Nat
  lane  : Nat
  dclass : Nat
  null  : Bool
  nak   : Bool
  crvl  : Nat
  crcnt : Nat
  crc   : Nat
  deriving DecidableEq, Repr

/-- The codewords of RS(544,514) that a port has decoded since the flit before (R302): corrected ones, and ones that it could not correct. -/
structure FecCount where
  corrected : Nat
  failed    : Nat
  deriving DecidableEq, Repr

/-- What the training of a port found (R303): lanes good on both sides, the other side's version bitmap, chip and port numbers, precoding, its last LSEQ accepted, the duration in microseconds. -/
structure TrainResult where
  lanes    : Nat
  versions : Nat
  chip     : Nat
  port     : Nat
  precode  : Bool
  lack     : Nat
  micros   : Nat
  deriving DecidableEq, Repr

/-- What an Ethernet frame of the host brings beside its message (R396 to R400): whether MACsec protects and validates it, whether it is CE-marked and due a CNP, how many PFC frames its arrival makes the port send on its priority. -/
structure FrameInfo where
  prot : Bool
  cnp  : Bool
  pfc  : Nat
  deriving DecidableEq, Repr

/-- Why a received frame is discarded (R396 to R398): FCS, ICRC, MACsec validation, or a form that the port does not take. -/
inductive Discard where
  | fcs | icrc | macsec | form
  deriving DecidableEq, Repr

/-- Where the module places the areas of a new table (R168, R202, R230, R414): channel offsets in every Inker's parameter region, and the DRAM offset of each Folio's PUT data area for the first TIER table. -/
structure Placement where
  seg   : Nat
  delta : Nat
  jrn   : Nat
  mig   : Nat
  promo : Nat
  res   : Nat
  put0  : Nat
  put1  : Nat
  deriving DecidableEq, Repr

end Sys2Proof
end

