-- ==== Sys2Proof/Syntax.lean ====
section
/-! DEFINITION. The commands of the block: one constructor per row of spec/opcode_table.json, with the content that the command brings from outside the block as its operands. -/

namespace Sys2Proof

/-- A command. Press instructions carry the physical tile and bits [55:0] of the instruction word (R107). -/
inductive Instr where
  /-- NOP (R107). The sequencer issues a NOP instruction, which does nothing. -/
  | nop (t : Fin 136) (b : Body)
  /-- LOOP (R120). The sequencer opens a counted loop level, or skips the body when the count is 0. -/
  | loop (t : Fin 136) (b : Body)
  /-- BR (R120). The sequencer evaluates a branch condition and, when it holds, transfers control to PC plus OFF. -/
  | br (t : Fin 136) (b : Body)
  /-- YIELD (R99). The sequencer stops issuing and begins a switch to the next context of the slice table. -/
  | yield (t : Fin 136) (b : Body)
  /-- CONTEXT_SWITCH (R99). Once the outgoing context's work has completed, the tile saves its record, restores the incoming context and resumes. -/
  | contextSwitch (t : Fin 136) (errs : List CaseErr)
  /-- END (R121). The context finishes its sheet and continues at the next sheet, yields, or leaves the tile IDLE. -/
  | endSheet (t : Fin 136) (b : Body)
  /-- TRAP (R121). The tile faults with code TRAP. -/
  | trap (t : Fin 136) (b : Body)
  /-- ALU (R122). The sequencer computes a 64-bit register-register operation. -/
  | alu (t : Fin 136) (b : Body)
  /-- ALUI (R122). The sequencer computes a 64-bit operation with a sign-extended immediate. -/
  | alui (t : Fin 136) (b : Body)
  /-- MOVI (R122). The sequencer writes an immediate into a register, whole or into its upper half. -/
  | movi (t : Fin 136) (b : Body)
  /-- LDG (R122). The sequencer loads a 64-bit word from the Case into a register. -/
  | ldg (t : Fin 136) (b : Body) (errs : List CaseErr)
  /-- STG (R122). The sequencer stores a 64-bit register word into the Case. -/
  | stg (t : Fin 136) (b : Body)
  /-- SYSR (R122). The sequencer reads a system value such as the step number, slot or epoch into a register. -/
  | sysr (t : Fin 136) (b : Body)
  /-- DLD (R123). The sequencer loads a 64-byte tile descriptor from the Case. -/
  | dld (t : Fin 136) (b : Body) (errs : List CaseErr)
  /-- DSET (R123). The sequencer writes one 32-bit word of a tile descriptor. -/
  | dset (t : Fin 136) (b : Body)
  /-- SLD (R123). The sequencer loads a 32-byte address stream from the Case. -/
  | sld (t : Fin 136) (b : Body) (errs : List CaseErr)
  /-- SSET (R123). The sequencer writes one 32-bit word of an address stream. -/
  | sset (t : Fin 136) (b : Body)
  /-- MMA (R124). The Platen is issued the K slices of A times B into a Galley bank. -/
  | mma (t : Fin 136) (b : Body) (errs : List CaseErr)
  /-- PRODUCT_ENTRY (R60). At T11, a K slice's products are entered into the bank's accumulators with LOSS, OVF and non-finite handling. -/
  | productEntry (t : Fin 136) (residue : Bool)
  /-- ZERO (R125). A Galley bank is zeroed with an immediate or scale-derived anchor. -/
  | zero (t : Fin 136) (b : Body)
  /-- DRAIN (R125). A Galley bank is converted row by row into an output tensor in the Case. -/
  | drain (t : Fin 136) (b : Body)
  /-- DRAIN_COMPLETE (R83). The drain ends, so LOSS totals are added, PRS_OVF and PRS_LOSS latch, and the bank is zeroed when the instruction asks. -/
  | drainComplete (t : Fin 136) (bank : Bool)
  /-- MERGE (R86). The other bank or a Case image is added exactly into a destination bank. -/
  | merge (t : Fin 136) (b : Body) (errs : List CaseErr)
  /-- HOLD (R87). A bank is marked as held. -/
  | hold (t : Fin 136) (b : Body)
  /-- VOP (R126). The Stick applies one 64-lane FP32 operation to COUNT vectors. -/
  | vop (t : Fin 136) (b : Body) (errs : List CaseErr)
  /-- VRED (R127). The Stick reduces a vector stream in lane order and then in a fixed tree into a register. -/
  | vred (t : Fin 136) (b : Body) (errs : List CaseErr)
  /-- TOPK (R127). The Stick selects the k largest values and their positions from a stream. -/
  | topk (t : Fin 136) (b : Body) (errs : List CaseErr)
  /-- DRAW (R127). The Stick evaluates keyed_draw into a register. -/
  | draw (t : Fin 136) (b : Body)
  /-- SAMPLE (R127). The Stick samples an index from a weight vector with a 24-bit draw. -/
  | sample (t : Fin 136) (b : Body) (errs : List CaseErr)
  /-- CVT (R128). The Fount path converts a Case tensor, with an optional error term and statistics. -/
  | cvt (t : Fin 136) (b : Body) (errs : List CaseErr)
  /-- TLY_ASSIGN (R129). A Tally slot takes a tensor id, and its bins are cleared. -/
  | tlyAssign (t : Fin 136) (b : Body)
  /-- TLY_COUNT (R129). The exponents of a stream's vectors are counted into a Tally slot. -/
  | tlyCount (t : Fin 136) (b : Body) (errs : List CaseErr)
  /-- MOV (R130). The movement engine is issued a copy between the local Case and a global address. -/
  | mov (t : Fin 136) (b : Body) (errs : List CaseErr)
  /-- GATH (R130). The movement engine is issued a gather of lines of a named edition from the shard owner. -/
  | gath (t : Fin 136) (b : Body)
  /-- SIGNAL (R130). The movement engine is issued an atomic add to a flag word in space 1. -/
  | signal (t : Fin 136) (b : Body)
  /-- BKT (R130). The movement engine is issued a bucket contribution to the Collator. -/
  | bkt (t : Fin 136) (b : Body) (errs : List CaseErr)
  /-- SPOST (R130). The tile posts a Sorter descriptor to a Sorter of its Folio. -/
  | spost (t : Fin 136) (b : Body) (errs : List CaseErr)
  /-- MOVE_COMPLETE (R131). A movement, collation or Sorter operation of a completion group completes, possibly with an error that faults the tile. -/
  | moveComplete (t : Fin 136) (serial : Nat) (errs : List CaseErr)
  /-- WAIT_GROUPS (R132). The sequencer begins to hold issue until masked completion groups have completed. -/
  | waitGroups (t : Fin 136) (b : Body)
  /-- WAIT_FLAG (R132). The sequencer begins to hold issue until a flag word compares as required. -/
  | waitFlag (t : Fin 136) (b : Body) (errs : List CaseErr)
  /-- FENCE (R132). The sequencer begins to hold issue until the named units' operations have completed and become visible. -/
  | fence (t : Fin 136) (b : Body)
  /-- WAIT_SATISFIED (R132). The condition of a waiting WAIT or FENCE holds, and issue resumes. -/
  | waitSatisfied (t : Fin 136) (errs : List CaseErr)
  /-- BAR (R132). The context fences and arrives at a barrier, yielding when members are not resident. -/
  | bar (t : Fin 136) (b : Body)
  /-- BARRIER_RELEASE (R132). Every member has reached the barrier, so all members are released. -/
  | barrierRelease (t : Fin 136)
  /-- PHASE_BEGIN (R133). A phase opens and selects the layout for the tile's later fabric requests. -/
  | phaseBegin (t : Fin 136) (b : Body)
  /-- PHASE_END (R133). A phase closes, and the tile faults with HELD_OPEN when a bank is held at the end of BWD. -/
  | phaseEnd (t : Fin 136) (b : Body)
  /-- LAYOUT_SWITCH_DONE (R288). The layout switch completes, and the requests that waited in the tile proceed. -/
  | layoutSwitchDone (t : Fin 136)
  /-- TILE_STOP (R103). A write of PRS.CTRL.STOP stops the tile at its next instruction boundary, or resumes it. -/
  | tileStop (t : Fin 136) (stop : Bool)
  /-- TILE_RETIRE_REQUEST (R103). A write of PRS.CTRL.RETIRE marks the tile for retirement at the step boundary. -/
  | tileRetireRequest (t : Fin 136) (retire : Bool)
  /-- SPARE_READY (R75). The spare has wiped its Case and banks, and PRS_SPARE_READY latches. -/
  | spareReady (t : Fin 136)
  /-- SHEET_LOAD (R135). The Foreman checks a sheet image in DRAM and holds it in its sheet store. -/
  | sheetLoad (q : Fin 64)
  /-- SHEET_INSTALL (R136). The Foreman checks an install record and accepts it for a later boundary. -/
  | sheetInstall (q : Fin 64)
  /-- SHEET_INSTALL_APPLY (R136). At the first boundary with every enabled tile IDLE, sheets and slice tables are copied into the tiles and OK is replied. -/
  | sheetInstallApply
  /-- SCALE_RECORD_WRITE (R137). NUM writes the scale record of a forming step into both record rings once its slot is free. -/
  | scaleRecordWrite
  /-- LS_CFG_LOAD (R146). A write of NUM.LS_CFG with LOAD reloads the loss scale and the feedback slot at the next boundary. -/
  | lsCfgLoad (v : Word)
  /-- TT_INDEX_WRITE (R167). A write of TT_INDEX loads the staging registers from the selected tensor-table entry. -/
  | ttIndexWrite (v : Word)
  /-- TT_COMMIT (R167). A write of TT_DATA3.COMMIT captures the staged entry fields for placement at the next boundary. -/
  | ttCommit
  /-- TABLE_CREATE (R168). The module checks a table.create and allocates the table's areas for the next boundary. -/
  | tableCreate (q : Fin 64) (place : Option Placement)
  /-- TABLE_CREATE_APPLY (R168). At a step boundary, the table's directory entry and Inker descriptors take effect and its records are initialised. -/
  | tableCreateApply
  /-- TABLE_DELETE (R204). The module checks a table.delete and accepts it. -/
  | tableDelete (q : Fin 64)
  /-- TABLE_DELETE_APPLY (R204). At a boundary with no step forming or unreleased, the table's entries and areas are freed and OK is replied. -/
  | tableDeleteApply
  /-- SORTER_POST_ACCEPT (R173). A Sorter copies a posted descriptor into its queue and checks it. -/
  | sorterPostAccept (sorter : Fin 8)
  /-- PASS_START (R184). A Sorter starts the next continuation pass of a queued descriptor. -/
  | passStart (sorter : Fin 8) (errs : List (Fin 136 × CaseErr))
  /-- LOOKUP_ISSUE (R178). A Sorter issues one look-up to the cache, a local Inker or a remote home. -/
  | lookupIssue (sorter : Fin 8) (ecc : CacheEcc) (errs : List (Fin 136 × CaseErr))
  /-- LOOKUP_REPLY (R175). A row image arrives and is pooled exactly into its bag's accumulator. -/
  | lookupReply (sorter : Fin 8) (i : Nat)
  /-- DESCRIPTOR_COMPLETE (R174). A descriptor has finished, and its completion record is written. -/
  | descriptorComplete (sorter : Fin 8)
  /-- PGH_HALVING (R189). Every 2^20 accesses, all use counters and sketch counters are halved. -/
  | pghHalving (sorter : Fin 8) (ecc : CacheEcc) (errs : List (Fin 136 × CaseErr))
  /-- PGH_FILL_COMPLETE (R190). A fill completes, so the entry becomes visible to hits and the joined look-ups receive the reply. -/
  | pghFillComplete (folio : Fin 2)
  /-- TIER_FETCH_ISSUE (R179). The tier agent reserves a Pending Update Table entry and issues the RDMA READ of a remote-tier row. -/
  | tierFetchIssue (i : Nat)
  /-- TIER_FETCH_COMPLETE (R179). A remote-tier RDMA READ completes, and the row returns to the requester and, when promoted, to the Inker. -/
  | tierFetchComplete (i : Nat) (data : Bytes) (err : Bool)
  /-- PUT_ENTRY_GRANT (R39). A freed Pending Update Table entry lets a waiting look-up of a later step issue. -/
  | putEntryGrant (folio : Fin 2)
  /-- INKER_READ (R205). An Inker serves a whole-row READ from DRAM, a promotion slot or the remote tier. -/
  | inkerRead (ink : Fin 128)
  /-- INKER_CONTRIB (R212). An Inker converts a contribution exactly and adds it into a Delta slot. -/
  | inkerContrib (ink : Fin 128)
  /-- INKER_GATHER (R224). An Inker serves lines of the buffer that holds the named edition, or replies EDITION_RETIRED. -/
  | inkerGather (ink : Fin 128)
  /-- DENSE_SUM (R209). An Inker writes a delivered bucket-sum chunk into a shard's gradient buffer. -/
  | denseSum (ink : Fin 128)
  /-- INKER_COMMIT (R220). An Inker commits one row or shard: journal, optimiser, moments, payload, header, then the parity delta. -/
  | inkerCommit (ink : Fin 128)
  /-- COMMIT_BUFFER_RESUME (R225). A construction buffer frees, so a waiting shard commit proceeds. -/
  | commitBufferResume (ink : Fin 128)
  /-- ROW_LOCK_RESUME (R210). A write sequence ends and releases its row lock, so a waiting READ, GATHER or SHIP proceeds. -/
  | rowLockResume (ink : Fin 128)
  /-- INKER_RESTORE (R221). An Inker restores journaled records of a rolled-back step, clears its Delta half and abandons construction buffers. -/
  | inkerRestore (ink : Fin 128)
  /-- STEP_REOPEN (R269). A rolled-back step reopens for its next attempt once no earlier step is in OPEN or ROLLING_BACK and the report ring has room. -/
  | stepReopen
  /-- TIER_WRITEBACK_COMPLETE (R231). A remote-tier RDMA WRITE completes, so the half is cleared and the entry may be freed. -/
  | tierWritebackComplete (i : Nat) (err : Bool)
  /-- TIER_WRITEBACK_RETRY (R231). Every 1 ms, a failed remote-tier write-back is retried. -/
  | tierWritebackRetry (i : Nat)
  /-- ROW_REPLACE (R226). The home Inkers copy the staged rows into their replacement areas. -/
  | rowReplace (q : Fin 64)
  /-- TABLE_MIGRATE (R228). The current home takes a forwarding entry and sends MIG_RESERVE toward the destination. -/
  | tableMigrate (q : Fin 64)
  /-- MIG_RESERVE (R228). The destination Inker reserves a migration slot or refuses. -/
  | migReserve
  /-- SHIP (R228). The destination installs the shipped record and adds the Delta slots, then acknowledges. -/
  | ship
  /-- FORWARD (R312). A forwarded packet arrives at the new home and is executed there. -/
  | forward
  /-- STEP_OPEN (R266). The step.open command forms a step, which opens when its conditions hold. -/
  | stepOpen (q : Fin 64)
  /-- MB_SUBMIT (R265). A micro-batch is staged in a slot. -/
  | mbSubmit (q : Fin 64)
  /-- STEP_ABORT (R278). A step is withdrawn, its staged slots are cleared, or an abort is sent to the leader. -/
  | stepAbort (q : Fin 64)
  /-- STEP_OPENING (R269). A forming step's open conditions hold at a boundary, so it writes its step block, pins, starts its contexts and replies OK. -/
  | stepOpening
  /-- STEP_MICRO_BATCHES_ENDED (R269). Every micro-batch has ended, so READY is sent to the leader and deputy and the step enters COLLATING. -/
  | stepMicroBatchesEnded
  /-- READY (R272). The leader receives a member's READY, arms the deadline and sends ALL_IN when everything has arrived. -/
  | ready
  /-- COLLATION_DEADLINE (R272). The deadline of an attempt expires first, so the attempt is late and slow members may be reported. -/
  | collationDeadline (n : Nat)
  /-- ALL_IN (R269). A member's Inkers close the Delta half, and the replicated exchange begins. -/
  | allIn
  /-- NORM_PARTIAL_SEND (R354). After its replicated exchange, a member forms E_r and sends C_NORM to the leader. -/
  | normPartialSend
  /-- C_NORM (R354). The leader receives a member's norm partial and, when all are in, forms G2 and the noise values. -/
  | cNorm
  /-- NORM_DEADLINE (R354). A C_NORM is still missing FMN.DEADLINE ms after ALL_IN, so the attempt is late. -/
  | normDeadline (n : Nat)
  /-- DECISION (R269). A member receives COMMIT, SKIP, REPEAT, ABORT or SUSPEND and moves its steps accordingly. -/
  | decision
  /-- COMMIT_DONE (R277). The leader receives COMMIT_DONE or COMMIT_FAIL and sends RELEASE once every member is done. -/
  | commitDone
  /-- RELEASE (R269). A member releases parity deltas and journals, does deferred work, publishes editions and drops pins. -/
  | release
  /-- RESUME (R269). A member receives RESUME and opens the steps held for repeat. -/
  | resume
  /-- ABORT_REQ (R278). The leader receives a member's abort request for a step. -/
  | abortReq
  /-- RPT_TAIL_WRITE (R290). A write of FMN.RPT_TAIL frees report slots, which may let held steps open. -/
  | rptTailWrite (v : Word)
  /-- STEP_NEXT_WRITE (R261). A write of FMN.STEP_NEXT is accepted in JOINED with no step forming, or refused. -/
  | stepNextWrite (hi : Bool) (v : Word)
  /-- IMPOSITION_STAGE (R283). The Foreman checks an imposition image and copies it into the imposition controller. -/
  | impositionStage (q : Fin 64)
  /-- IMPOSITION_ACTIVATE (R284). An epoch activation is accepted, and old-epoch steps are kept from opening. -/
  | impositionActivate (q : Fin 64)
  /-- EPOCH_DRAIN_COMPLETE (R284). The member's old-epoch steps and traffic have drained, so it sends DRAINED to the coordinator. -/
  | epochDrainComplete
  /-- DRAINED (R284). The coordinator receives DRAINED and sends ACTIVATE once all required members have sent it. -/
  | drained
  /-- ACTIVATE (R284). A member receives ACTIVATE for the staged epoch. -/
  | activate
  /-- EPOCH_ACTIVATION (R284). At a boundary within 200 µs of ACTIVATE, the member activates the epoch, delivers poste restante and sends CONFIRM. -/
  | epochActivation
  /-- CONFIRM (R284). The new leader receives CONFIRM and broadcasts CONFIRMED when all have arrived. -/
  | confirm
  /-- CONFIRMED (R284). A member receives CONFIRMED and sets IMP.EPOCH_CONFIRMED. -/
  | confirmed
  /-- FLIT_TRANSMIT (R306). A port sends the next sequenced flit once it holds credit and replay-buffer room. -/
  | flitTransmit (port : Fin 12)
  /-- FLIT_RECEIVE (R308). A port checks an arriving flit, accepts or discards it, and takes LACK, NAK and credit. -/
  | flitReceive (port : Fin 12) (f : Flit) (uncorr : Bool) (fec : FecCount)
  /-- REPLAY_TIMEOUT (R308). LACK has not advanced for REPLAY_TIMEOUT, so the transmitter resends from the oldest entry. -/
  | replayTimeout (port : Fin 12)
  /-- LANE_FAULT (R309). A lane loses lock, flits stop for 1 µs, or eight resends fail, so the port holds traffic and retrains. -/
  | laneFault (port : Fin 12)
  /-- PORT_RETRAIN_REQUEST (R329). A write of PPT.CTRL.RETRAIN starts a retraining with all lanes. -/
  | portRetrainRequest (port : Fin 12)
  /-- TRAINING_DONE (R303). Port training ends with a width and version, or leaves the port DOWN. -/
  | trainingDone (port : Fin 12) (r : TrainResult)
  /-- PACKET_INJECT (R319). A block injects a packet, which is refused with NO_ROUTE when the destination is not INJECT. -/
  | packetInject (i : Nat)
  /-- PACKET_FORWARD (R320). At a hop, the router forwards a packet by its layout's table and chooses port and class. -/
  | packetForward
  /-- PACKET_EJECT (R311). A packet is ejected at its destination and checked for CHK, DST, epoch and tag. -/
  | packetEject
  /-- READ (R312). A fabric READ of space 0 to 3 is served at the target. -/
  | read (errs : List CaseErr)
  /-- WRITE (R312). A fabric WRITE of space 0 to 2 is performed at the target. -/
  | write
  /-- ADD32 (R312). The target adds a value atomically to a 32-bit flag word. -/
  | add32 (errs : List CaseErr)
  /-- ROW_READ (R312). A home module receives a row-read request and queues it at the row's home Inker. -/
  | rowRead
  /-- CONTRIB (R312). A home module receives a gradient contribution and queues it at the home Inker. -/
  | contrib
  /-- GATHER (R312). An owner receives a GATHER request and queues it at the shard's Inker. -/
  | gather
  /-- RESPONSE (R316). A requester accepts the first reply for a tag and discards later ones. -/
  | response
  /-- E2E_RESEND (R318). The oldest unreplied packet has waited E2E_TIMEOUT, so all unreplied packets to that target are resent. -/
  | e2eResend (chip : Nat) (lane : Nat)
  /-- E2E_FAIL (R318). After E2E_LIMIT resends, a packet completes with NO_ROUTE. -/
  | e2eFail (chip : Nat) (lane : Nat)
  /-- WIN_DATA_WRITE (R324). A write of RTE.WIN_DATA overwrites a route table entry in IDLE with no imposition, or is refused. -/
  | winDataWrite (v : Word)
  /-- RTE_SELF_WRITE (R301). A write of RTE.SELF sets the chip number and stores it in the Ledger, or is refused. -/
  | rteSelfWrite (v : Word)
  /-- RTE_SHAPE_WRITE (R301). A write of RTE.SHAPE sets the system shape and stores it in the Ledger, or is refused. -/
  | rteShapeWrite (v : Word)
  /-- PRBS_INJECT (R328). A write of PRF.CTRL.INJECT inverts one bit on each enabled lane. -/
  | prbsInject (i : Fin 13)
  /-- PRBS_CLEAR (R328). A write of PRF.CTRL.CLEAR clears the Proof unit counters. -/
  | prbsClear (i : Fin 13)
  /-- BKT_COLLATOR_READ (R345). The Collator reads and checks a BKT, accepts it into its leaf, or refuses it. -/
  | bktCollatorRead (t : Fin 136) (serial : Nat) (errs : List CaseErr)
  /-- C_UP (R350). A node host stores an input chunk, or adds it to the stored one to form the output. -/
  | cUp
  /-- C_TOPK_TG (R349). A parent host receives a top-k Telegram contribution and decodes it. -/
  | cTopkTg
  /-- C_SIGN_TG (R349). A parent host receives a sign Telegram contribution and decodes it. -/
  | cSignTg
  /-- COLLATION_OUTPUT_SEND (R350). A ready output chunk is sent to the parent or delivered once lane credit is available. -/
  | collationOutputSend
  /-- C_DELIVER (R351). The owner's Collator receives a sum chunk and passes it to the shard's Inker. -/
  | cDeliver
  /-- C_DONE (R352). The leader counts a GRAD bucket complete and checks its count, NOTABLE and NF. -/
  | cDone
  /-- C_REPL (R353). The leader adds a replicated-table Delta slot exactly into its own. -/
  | cRepl
  /-- C_REPL_DOWN (R353). A member replaces its replicated Delta slots with the combined slots and forwards them. -/
  | cReplDown
  /-- C_RESULT (R356). A member writes the TOPK result and flag and forwards the result along the broadcast list. -/
  | cResult
  /-- A2A_COUNT (R357). An expert home writes a source's count and source slots. -/
  | a2aCount
  /-- A2A_DATA (R357). An expert home writes rows of a source segment and, when it is delivered, writes the flag. -/
  | a2aData
  /-- A2A_RET (R358). A source member writes returned expert rows at their slots and, when complete, writes the flag. -/
  | a2aRet
  /-- PARITY_DELTA (R380). A parity home receives a delta and holds it or applies it at once. -/
  | parityDelta
  /-- HEARTBEAT_PERIOD (R371). Every PERIOD, the Postmaster sends HEARTBEAT to each torus neighbour. -/
  | heartbeatPeriod
  /-- HEARTBEAT (R371). A neighbour receives a HEARTBEAT. -/
  | heartbeat
  /-- HEARTBEAT_TIMEOUT (R371). No heartbeat from a neighbour for TIMEOUT, so SUSPECT is sent to the leader and deputy. -/
  | heartbeatTimeout (chip : Nat)
  /-- ISOLATION_TIMEOUT (R370). No heartbeat on any port for HB_TIMEOUT, so the module fences itself with cause ISOLATED. -/
  | isolationTimeout
  /-- SUSPECT (R371). The leader receives SUSPECT and sends PROBE to the suspected module. -/
  | suspect
  /-- PROBE (R371). The Postmaster of the suspected module answers a PROBE. -/
  | probe
  /-- PROBE_RETRY (R371). A PROBE is unanswered after 5 ms, so it is sent once more. -/
  | probeRetry (chip : Nat)
  /-- PROBE_TIMEOUT (R371). No PROBE is answered within 10 ms, so the leader fences the module. -/
  | probeTimeout (chip : Nat)
  /-- FENCE_ORDER (R372). A member or neighbour receives FENCE_ORDER and takes its ports toward the chip out of service, or fences itself. -/
  | fenceOrder
  /-- FENCED_NOTICE (R372). A neighbour receives FENCED_NOTICE and takes its ports toward the module out of service. -/
  | fencedNotice
  /-- MODULE_FENCE (R373). A module enters FENCED, sends FENCED_NOTICE, stops issuing and takes its ports out of service. -/
  | moduleFence
  /-- SPINE_LINE_REPLAY (R368). A line that fails its Spine CRC is replayed. -/
  | spineLineReplay (seg : Fin 4)
  /-- SPINE_SUBLINK_FAILURE (R368). A sub-link fails, so the segment is degraded or taken out of service, possibly fencing the module. -/
  | spineSublinkFailure (seg : Fin 4) (us : Nat)
  /-- PAR_BUSY (R385). A member receives PAR_BUSY and holds step opening and window writes. -/
  | parBusy
  /-- SLICE_QUIET_REACHED (R385). Every step of the member is released, ended or held, so it sends QUIET. -/
  | sliceQuietReached
  /-- QUIET (R385). The leader receives QUIET, and once all are quiet the work of the reason runs. -/
  | quiet
  /-- PARITY_WORK_DONE (R385). A member finishes the quiet-period work and sends PAR_DONE. -/
  | parityWorkDone (ms : Nat)
  /-- PAR_DONE (R385). The leader receives PAR_DONE and sends PAR_READY once every one has arrived. -/
  | parDone
  /-- PAR_READY (R385). A member receives PAR_READY, ends the hold and performs the held RDMA WRITEs. -/
  | parReady
  /-- STATE_SYNC (R387). A replacement takes the held steps, the loss scale and the feedback slot from the leader. -/
  | stateSync
  /-- UNIT_READ (R386). A member returns lines of a data unit or parity slot, or ILLEGAL_IN_STATE outside a quiet period. -/
  | unitRead
  /-- REPAIR_REQ (R369). The leader receives a repair request and starts a quiet period with reason REPAIR. -/
  | repairReq
  /-- LINE_OPERATION (R243). A line access enters its channel's Inker queue and is performed atomically with the check-code decode. -/
  | lineOperation (wr : Bool) (off : Nat) (n : Nat) (data : Bytes) (errs : List (Nat × Byte)) (grp : List (Fin 15 × List (Nat × Byte)))
  /-- MR4_POLL (R250). Every 32 ms, the controller reads MR4 and sets the refresh rate, latching MEM_TEMP when hot. -/
  | mr4Poll (ch : Fin 128) (temp : Byte) (mult : Fin 3) (above : Bool)
  /-- REFRESH (R250). A per-bank refresh falls due and takes precedence over queued accesses. -/
  | refresh
  /-- RFM (R238). The device's mode registers require refresh management, and an RFM command is issued. -/
  | rfm (ch : Fin 128)
  /-- SCRUB_READ (R251). The scrubber reads and decodes a data line when no queued access needs the channel. -/
  | scrubRead (m : Fin 16) (errs : List (Nat × Byte))
  /-- SCRUB_PERIOD_END (R251). A scrub period completes, latching MEM_SCRUB_DONE, counting lateness and clearing weak row-error entries. -/
  | scrubPeriodEnd (m : Fin 16) (late : Bool)
  /-- WCK2DQ_ADJUST (R254). Every 32 ms, the oscillator is read and the WCK-to-DQ timing is adjusted. -/
  | wck2dqAdjust
  /-- MEMORY_TRAINING (R253). During BOOT, the controllers run ZQ, command-address, levelling and DQ training. -/
  | memoryTraining (m : Fin 16) (us : Nat) (failed : Byte) (avail : List Nat)
  /-- HARD_REPAIR (R253). During BOOT, the rows on each pending-repair list are repaired by hard PPR. -/
  | hardRepair (m : Fin 16) (lacking : List (Nat × Nat))
  /-- DRAM_WIPE (R255). The wipe writes every data line with zero and valid check bytes. -/
  | dramWipe
  /-- WIPE_COMPLETE (R255). The wipe completes and is reported in MEM.STATE. -/
  | wipeComplete (m : Fin 16) (failed : Bool) (f0 : Nat) (f1 : Nat)
  /-- RDMA_WRITE (R402). The port performs a host RDMA WRITE and acknowledges it once the lines are written, or holds it during a quiet period. -/
  | rdmaWrite (qp : Nat) (rkey : Nat) (off : Nat) (data : Bytes) (f : FrameInfo)
  /-- RDMA_READ (R401). The port serves a host RDMA READ of a memory region. -/
  | rdmaRead (qp : Nat) (rkey : Nat) (off : Nat) (len : Nat) (f : FrameInfo)
  /-- COMMAND_SEND (R411). A SEND on a COMMAND queue pair takes a queue entry, or is answered with an RNR NAK. -/
  | commandSend (qp : Nat) (msg : Bytes) (f : FrameInfo)
  /-- CM_REQ (R399). A CM REQ connects a queue pair of the named role, or is rejected. -/
  | cmReq (qp : Nat) (role : Nat) (pad : Nat) (slot : Nat) (mtu : Nat) (f : FrameInfo)
  /-- CM_RTU (R399). A CM RTU completes the establishment of a queue pair. -/
  | cmRtu (qp : Nat) (f : FrameInfo)
  /-- CM_DREQ (R399). A CM DREQ disconnects a queue pair. -/
  | cmDreq (qp : Nat) (f : FrameInfo)
  /-- ARP_REQUEST (R396). Otaraqua answers an ARP request for the module's address. -/
  | arpRequest (ip : Bytes) (f : FrameInfo)
  /-- NEIGHBOUR_SOLICITATION (R396). Otaraqua answers IPv6 neighbour discovery for the module's addresses. -/
  | neighbourSolicitation (ip : Bytes) (f : FrameInfo)
  /-- ICMP_ECHO (R396). Otaraqua answers an ICMP or ICMPv6 echo request. -/
  | icmpEcho (ip : Bytes) (data : Bytes) (f : FrameInfo)
  /-- PFC_PAUSE_RECEIVE (R396). A received PFC frame pauses or resumes transmission on its priorities. -/
  | pfcPauseReceive (times : List (Fin 8 × Nat))
  /-- MAC_PAUSE_RECEIVE (R395). A received MAC pause frame is counted and discarded. -/
  | macPauseReceive
  /-- CNP_RECEIVE (R398). A received CNP halves the queue pair's rate, at most once per 50 µs. -/
  | cnpReceive (qp : Nat) (early : Bool)
  /-- CNP_RATE_RECOVERY (R398). Every 55 µs without a CNP, a queue pair's rate recovers by one eighth of the line rate. -/
  | cnpRateRecovery (qp : Nat)
  /-- ACK_TIMEOUT (R398). The local ACK timeout expires, so the module retransmits as requester. -/
  | ackTimeout (qp : Nat) (n : Nat) (exceeded : Bool)
  /-- PTP_EVENT_MESSAGE (R396). An IEEE 1588 event message is timestamped with the Dateline. -/
  | ptpEventMessage (f : FrameInfo)
  /-- PTP_OFFSET_MEASUREMENT (R506). A PTP offset measurement completes, aligning the Dateline when armed. -/
  | ptpOffsetMeasurement (off : Int)
  /-- ETH_AUTONEG (R395). The Ethernet port runs Clause 73 auto-negotiation and brings the link up at the highest common rate. -/
  | ethAutoneg (partner : Fin 32)
  /-- ETH_LINK_DOWN (R395). The Ethernet link goes down. -/
  | ethLinkDown
  /-- ETH_TEST_ENTER (R423). A write of ETH.CTRL.TEST in SERVICE takes the link down into the test state, or is ignored. -/
  | ethTestEnter
  /-- ETH_TEST_END (R423). TEST_MS expires, so the port clears TEST and restarts auto-negotiation. -/
  | ethTestEnd
  /-- ETH_RESTART (R424). A write of ETH.CTRL.RESTART disconnects every queue pair and restarts auto-negotiation. -/
  | ethRestart
  /-- HEARTBEAT_LETTER (R421). Every HB_INTERVAL, a HEARTBEAT letter is sent to each subscribed queue. -/
  | heartbeatLetter
  /-- SUMMARY_LETTER (R422). Letter space frees, so each page that withheld letters sends a SUMMARY letter. -/
  | summaryLetter (n : Nat)
  /-- SESSION_HELLO (R407). A session starts on a queue with a negotiated version and a fresh nonce. -/
  | sessionHello (q : Fin 64)
  /-- SESSION_AUTH (R408). An operator key and signature authenticate the session, or fail. -/
  | sessionAuth (q : Fin 64)
  /-- SESSION_CLOSE (R413). The queue's session ends, keeping NEXT and the cache. -/
  | sessionClose (q : Fin 64)
  /-- STATE_QUERY (R413). The module returns its state summary. -/
  | stateQuery (q : Fin 64)
  /-- REG_READ (R415). The module returns up to 64 register words. -/
  | regRead (q : Fin 64)
  /-- REG_WRITE (R415). The module checks every named register and then writes them in increasing offset. -/
  | regWrite (q : Fin 64)
  /-- EVENT_SUBSCRIBE (R420). The queue's subscription is replaced. -/
  | eventSubscribe (q : Fin 64)
  /-- MEM_MAP (R401). A DRAM range becomes a memory region with an rkey. -/
  | memMap (q : Fin 64)
  /-- MEM_UNMAP (R401). A memory region ends. -/
  | memUnmap (q : Fin 64)
  /-- FENCE_SELF (R416). The module fences itself, or the leader fences a named member. -/
  | fenceSelf (q : Fin 64)
  /-- FIRMWARE_STAGE (R467). The Seal checks an image and writes it into the inactive flash slot. -/
  | firmwareStage (q : Fin 64) (bad : Bool) (fails : Nat)
  /-- FIRMWARE_ACTIVATE (R468). The Seal re-checks the staged slot, records it active and prepares the live handover. -/
  | firmwareActivate (q : Fin 64) (fails : Nat)
  /-- ATTEST_QUOTE (R472). The Seal reserves an LMS index and signs a quote. -/
  | attestQuote (q : Fin 64) (f0 : Nat) (f1 : Nat) (f2 : Nat)
  /-- LIFECYCLE_SET (R475). A token-authorised life-cycle transition is carried out. -/
  | lifecycleSet (q : Fin 64) (f0 : Nat) (f1 : Nat)
  /-- WIPE (R477). Every memory of the module is wiped without a life-cycle change. -/
  | wipe (q : Fin 64)
  /-- TIME_ARM (R506). The Dateline is armed for alignment at once, at PPS or by PTP. -/
  | timeArm (q : Fin 64)
  /-- MODULE_RESET (R500). The module replies and then resets. -/
  | moduleReset (q : Fin 64)
  /-- REGISTER_WRITE (R433). A write of a register that has no row of its own is checked and applied atomically. -/
  | registerWrite (page : Fin 512) (off : Fin 1024) (v : Word) (path : Fin 4)
  /-- EVT_SET_INJECT (R443). A write of EVT_SET latches the event for test, without the block's response. -/
  | evtSetInject (page : Fin 512) (v : Word)
  /-- ERR_CODE_READ (R439). A read of ERR_CODE captures both ERR_INFO registers. -/
  | errCodeRead (page : Fin 512)
  /-- LO_HALF_READ (R17). A read of a _LO register captures the whole 64-bit value for a following _HI read. -/
  | loHalfRead (page : Fin 512) (off : Fin 1024)
  /-- DOMAIN_POWER_REQUEST (R494). A write of PWR.REQ requests a switchable domain on or off, or is refused. -/
  | domainPowerRequest (page : Fin 512) (req : Bool)
  /-- PMK_INIT (R457). A write of PMK.CTRL.INIT loads the running value with the initial value. -/
  | pmkInit (u : Fin 16)
  /-- PMK_COMPARE (R456). A write of PMK.CTRL.CMP compares RESULT with EXPECT. -/
  | pmkCompare (u : Fin 16)
  /-- PMK_DATA (R453). A write of PMK.DATA feeds four bytes into the running value. -/
  | pmkData (u : Fin 16) (v : Word)
  /-- PMK_DATA_TAIL (R460). A write of PMK.DATA_TAIL feeds one to three bytes into the running value. -/
  | pmkDataTail (u : Fin 16) (v : Word)
  /-- PMK_VALUE_WRITE (R460). A write of VALUE sets or stages the running value of a general unit. -/
  | pmkValueWrite (u : Fin 16) (hi : Bool) (v : Word)
  /-- LDG_SYNC (R487). A write of LDG.CTRL.SYNC requests a record with the current counters. -/
  | ldgSync
  /-- LDG_CFG_COMMIT (R487). A write of LDG.CTRL.CFG_COMMIT places the staged configuration bytes into the next record. -/
  | ldgCfgCommit
  /-- LEDGER_UPDATE_REQUEST (R480). The Postmaster sends a section update to the Seal, which merges or refuses it. -/
  | ledgerUpdateRequest (off : Fin 16384) (data : Bytes)
  /-- LEDGER_WRITE (R481). The Seal programs, reads back and verifies the next record, retrying in the other bank on failure. -/
  | ledgerWrite (fails : Nat)
  /-- LEDGER_HOURLY_RECORD (R489). An hour passes, so a record with the counters is written. -/
  | ledgerHourlyRecord (fails : Nat)
  /-- POUCH_WRITE (R446). A producer writes a word into a Pouch when a slot is writable. -/
  | pouchWrite (page : Fin 512) (index : Fin 256) (data : Bytes) (last : Bool) (poison : Bool)
  /-- POUCH_READ (R448). A consumer reads a readable word from a Pouch and checks its parity. -/
  | pouchRead (page : Fin 512) (index : Fin 256) (bad : Bool)
  /-- POUCH_IDLE_TIMEOUT (R451). A large Pouch has been non-empty and unread for POUCH_IDLE, so the consumer begins to read. -/
  | pouchIdleTimeout (page : Fin 512) (index : Fin 256)
  /-- POWER_GOOD_RISE (R491). PWR_GOOD and RESET_N are both high, so the module starts and samples its straps. -/
  | powerGoodRise (straps : Fin 4) (auxLost : Bool)
  /-- POWER_GOOD_FALL (R491). PWR_GOOD falls, so flash programming stops and the module becomes COLD. -/
  | powerGoodFall
  /-- RESET_PIN (R500). RESET_N is held low for 10 µs, so the module resets. -/
  | resetPin
  /-- SEAL_BOOT (R466). The Seal senses fuses, selects the Ledger record, verifies firmware, derives identity and releases the Postmaster. -/
  | sealBoot (fuseErr : Bool) (us : Nat) (pf : Nat) (af : Nat) (f0 : Nat) (f1 : Nat)
  /-- OTARAQUA_START (R502). Otaraqua loads the repair map and configuration and powers the domains in order. -/
  | otaraquaStart
  /-- OTARAQUA_RUN_TIMEOUT (R502). Otaraqua does not report running within 50 ms, so the Seal restarts from the other slot. -/
  | otaraquaRunTimeout (af : Nat) (f0 : Nat) (f1 : Nat)
  /-- TILE_SELF_TEST (R503). Every enabled and spare tile tests its Case and Platen, and failing tiles are retired or replaced. -/
  | tileSelfTest (failing : List (Fin 136))
  /-- WIPE_TO_IDLE (R504). The wipe is done and the fabric and Ethernet links are up, so the module enters IDLE. -/
  | wipeToIdle
  /-- CLOCK_LOSS (R492). A reference clock stops or drifts, so the module trips and fences. -/
  | clockLoss (fails : Nat)
  /-- DOMAIN_POWER_ON_DONE (R495). A domain has powered on and wiped its memories, and enters STATUS ON. -/
  | domainPowerOnDone (d : Fin 186)
  /-- DOMAIN_FAULT (R495). A domain regulator reports a fault, so a tile is retired or the module fences. -/
  | domainFault (d : Fin 186)
  /-- OPP_CHANGE (R496). A tile's operating point in force changes, with voltage and clock moved in order. -/
  | oppChange (t : Fin 136)
  /-- THROTTLE_RISE (R498). A 100 µs interval ends with a hot, over-power or MEM_TEMP condition, so the Folio's level rises. -/
  | throttleRise (f : Fin 2) (temps : List (Fin 56 × Nat)) (watts : Nat)
  /-- THROTTLE_FALL (R498). A 1 ms interval ends with every limit clear by its margin, so the Folio's level falls. -/
  | throttleFall (f : Fin 2) (temps : List (Fin 56 × Nat)) (watts : Nat)
  /-- TEMPERATURE_TRIP (R499). A sensor reaches 115 °C, so the module trips, fences and asserts THERM_TRIP_N. -/
  | temperatureTrip (sensor : Fin 56) (temp : Nat) (fails : Nat)
  /-- PERSIST_TRIP (R499). A Folio's level has stood at 7 for 1 s while hot, so the module trips. -/
  | persistTrip (f : Fin 2) (fails : Nat)
  /-- RAIL_TRIP (R499). A rail is outside its band for more than 2 µs, so the module trips. -/
  | railTrip (fails : Nat)
  /-- DATELINE_TICK (R505). In each Dateline cycle, the time advances with the ADJ correction. -/
  | datelineTick
  /-- PPS_EDGE (R507). A rising PPS_IN edge is captured and, when armed, aligns the Dateline. -/
  | ppsEdge
  /-- PPS_SERVO_SECOND (R507). Once per second, Otaraqua forms the offset and writes ADJ. -/
  | ppsServoSecond (mean : Int)
  /-- PPS_LOSS (R507). No PPS edge arrives within 1.1 s, so the Dateline enters HOLDOVER. -/
  | ppsLoss
  /-- PTP_LOSS (R507). The PTP master is lost for 3 s, so the Dateline enters HOLDOVER. -/
  | ptpLoss
  /-- HANDOVER_PAUSE_START (R508). At a suitable boundary, the engine pauses and the old Otaraqua writes its handover block. -/
  | handoverPauseStart
  /-- HANDOVER_COMPLETE (R508). The new Otaraqua reports running, so the pause ends and the Seal commits revocations and SVN. -/
  | handoverComplete (us : Nat) (f0 : Nat) (f1 : Nat)
  /-- HANDOVER_TIMEOUT (R509). The new Otaraqua misses 20 ms, so the cores restart in the old bank and the activation fails. -/
  | handoverTimeout (us : Nat) (fails : Nat)
  /-- WATCHDOG_MISS (R509). Otaraqua misses its 100 ms watchdog, so the module fences with cause MANAGEMENT. -/
  | watchdogMiss
  /-- TAP_RESET (R534). TRST_N low or Test-Logic-Reset resets the TAP. -/
  | tapReset
  /-- TAP_INSTRUCTION (R535). A TAP instruction is executed, or is replaced by BYPASS when access is closed. -/
  | tapInstruction (code : Fin 6)
  /-- OPCODE_FAULT (R118). The sequencer issues an instruction word with a reserved opcode, which faults the tile with OPCODE. -/
  | opcodeFault (t : Fin 136)
  /-- UNKNOWN_OPCODE (R413). The Sprinov engine starts a command whose OPCODE is unknown and refuses it with BAD_ARGUMENT. -/
  | unknownOpcode
  /-- CHECKER_LOCK (R328). A Proof unit checker locks by itself onto the PRBS stream of a lane and begins counting errors. -/
  | checkerLock (i : Fin 13) (lane : Fin 8)
  /-- PWR_HOT (R498). A sensor reaches or leaves 105 °C, so the state event PWR_HOT begins or stops holding. -/
  | pwrHot (temps : List (Fin 56 × Nat))
  /-- FRAME_DISCARD (R396). A received Ethernet frame fails its FCS, ICRC or MACsec validation, or carries a fragment, option, extension header or stacked tag, and is discarded and counted. -/
  | frameDiscard (why : Discard)
  /-- MKA_FRAME (R396). An MKA frame arrives, and Otaraqua runs key agreement, which makes the MACsec session live or ends it. -/
  | mkaFrame (live : Bool)
  deriving DecidableEq, Repr

end Sys2Proof
end

