-- ==== Sys2Proof/Machine/Bits.lean ====
section
/-! DEFINITION. Bit fields, little-endian bytes (R10), sign extension and small counting helpers. -/

namespace Sys2Proof.Machine

/-- `len` bits of `x` from bit `lo` up. -/
def fld (x lo len : Nat) : Nat := (x >>> lo) % 2 ^ len

/-- `x` with its `len` bits from `lo` up replaced by the low bits of `v`. -/
def setFld (x lo len v : Nat) : Nat :=
  x - (fld x lo len) * 2 ^ lo + (v % 2 ^ len) * 2 ^ lo

/-- Bit `i` of `x`. -/
def bitOf (x i : Nat) : Bool := Nat.testBit x i

/-- The integer that the low `len` bits of `x` stand for in two's complement. -/
def sext (len x : Nat) : Int :=
  let v := x % 2 ^ len
  if v < 2 ^ (len - 1) then (v : Int) else (v : Int) - ((2 ^ len : Nat) : Int)

/-- The `len`-bit two's-complement code of `x`, wrapping. -/
def wrapN (len : Nat) (x : Int) : Nat := (x % ((2 ^ len : Nat) : Int)).toNat

/-- 64-bit wrapping of a natural number. -/
def wrap64 (x : Nat) : Nat := x % 2 ^ 64

/-- Field of a register word. -/
def wfld (w : Word) (lo len : Nat) : Nat := fld w.toNat lo len
/-- Register word with one field replaced. -/
def wset (w : Word) (lo len v : Nat) : Word := BitVec.ofNat 32 (setFld w.toNat lo len v)
/-- Bit of a register word. -/
def wbit (w : Word) (i : Nat) : Bool := w.getLsbD i
/-- Field of an instruction body. -/
def bfld (b : Body) (lo len : Nat) : Nat := fld b.toNat lo len
/-- Bit of an instruction body. -/
def bbit (b : Body) (i : Nat) : Bool := b.getLsbD i

/-- Little-endian value of a byte list (R10). -/
def leNat : Bytes → Nat
  | [] => 0
  | b :: r => b.toNat + 256 * leNat r

/-- The `n` little-endian bytes of a value (R10). -/
def toLE : Nat → Nat → Bytes
  | 0, _ => []
  | n + 1, v => BitVec.ofNat 8 v :: toLE n (v / 256)

/-- `n` bytes of a message or record from offset `off`; bytes past its end read as 0. -/
def sliceB (bs : Bytes) (off n : Nat) : Bytes :=
  let s := (bs.drop off).take n
  s ++ List.replicate (n - s.length) 0

/-- `n` bytes at `off`, as a little-endian number. -/
def leAt (bs : Bytes) (off n : Nat) : Nat := leNat ((bs.drop off).take n)

/-- A byte list with the bytes from `off` on replaced. -/
def patchB (bs : Bytes) (off : Nat) (new : Bytes) : Bytes :=
  bs.take off ++ new ++ bs.drop (off + new.length)

/-- Every byte is 0. -/
def allZero (bs : Bytes) : Bool := bs.all (· == 0)

/-- One when true. -/
def b2n (b : Bool) : Nat := if b then 1 else 0

/-- Rounded-up quotient. -/
def ceilDiv (a b : Nat) : Nat := (a + b - 1) / b

/-- Addition of register counters that saturates at 0xFFFF_FFFF (R106 and others). -/
def satAdd32 (a b : Nat) : Nat := min (a + b) 0xFFFFFFFF

/-- Addition that saturates at 2^64 - 1. -/
def satAdd64 (a b : Nat) : Nat := min (a + b) 0xFFFFFFFFFFFFFFFF

/-- Addition of 32-bit words that saturates. -/
def wsat (a : Word) (n : Nat) : Word := BitVec.ofNat 32 (satAdd32 a.toNat n)

/-- The number of set bits among the low `n` bits. -/
def popcount : Nat → Nat → Nat
  | 0, _ => 0
  | n + 1, x => x % 2 + popcount n (x / 2)

/-- The bytes of a 32-byte bitmap as bits: the numbers below `n` whose bit is set. -/
def bitsSet (n x : Nat) : List Nat := (List.range n).filter (fun i => bitOf x i)

/-- The lowest number of a list. -/
def lowest : List Nat → Option Nat
  | [] => none
  | a :: r => match lowest r with
    | none => some a
    | some b => some (min a b)

end Sys2Proof.Machine
end

