-- ==== Sys2Proof/Machine/Crc.lean ====
section
/-! DEFINITION. The check values of the Postmark units (R452, R453). -/

namespace Sys2Proof.Machine

/-- Width of an algorithm in bits (R452). -/
def algWidth (alg : Nat) : Nat := if alg = 2 then 64 else if alg = 3 then 16 else 32
/-- Polynomial of an algorithm, bit-reversed for the reflected ones (R452, R453). -/
def algPoly (alg : Nat) : Nat :=
  if alg = 0 then 0x82F63B78 else if alg = 1 then 0xEDB88320 else if alg = 2 then 0x42F0E1EBA9EA3693 else 0x1021
/-- The XOR-out value (R452). -/
def algXor (alg : Nat) : Nat := if alg = 0 ∨ alg = 1 then 0xFFFFFFFF else 0
/-- The initial value (R452). -/
def algStart (alg : Nat) : Nat := if alg = 0 ∨ alg = 1 then 0xFFFFFFFF else if alg = 2 then 0 else 0xFFFF

/-- `n` bit steps of a reflected algorithm. -/
def crcRefl (poly : Nat) : Nat → Nat → Nat
  | 0, v => v
  | n + 1, v => crcRefl poly n (if v % 2 = 1 then (v / 2) ^^^ poly else v / 2)

/-- `n` bit steps of an algorithm that is not reflected. -/
def crcFwd (poly width : Nat) : Nat → Nat → Nat
  | 0, v => v
  | n + 1, v => crcFwd poly width n
      (if bitOf v (width - 1) then ((v * 2) ^^^ poly) % 2 ^ width else (v * 2) % 2 ^ width)

/-- R453: one byte into the running value. -/
def pmByte (alg v : Nat) (b : Byte) : Nat :=
  if alg = 0 ∨ alg = 1 then crcRefl (algPoly alg) 8 (v ^^^ b.toNat)
  else crcFwd (algPoly alg) (algWidth alg) 8 (v ^^^ (b.toNat * 2 ^ (algWidth alg - 8)))

/-- Bytes into the running value, in increasing address order (R453). -/
def pmBytes (alg v : Nat) (bs : Bytes) : Nat := bs.foldl (pmByte alg) v

/-- The check value of a byte string. -/
def checkValue (alg : Nat) (bs : Bytes) : Nat := pmBytes alg (algStart alg) bs ^^^ algXor alg

/-- CRC-32C. -/
def crc32c (bs : Bytes) : Nat := checkValue 0 bs

end Sys2Proof.Machine
end

