-- ==== Sys2Proof/Machine/Pages.lean ====
section
/-! DEFINITION. The register page map (R431): page numbers, block codes, instances. -/

namespace Sys2Proof.Machine

/-- The blocks that have pages (R431). -/
inductive Blk where
  | glb | prs | srt | ink | mem | pgh | spn | ppt | rte | col | eth | spv | pms | sel | ldg | dtl | pwr | prf | pmk | fmn | imp | num
  deriving DecidableEq, Repr

/-- ID.BLOCK (R431). -/
def Blk.code : Blk → Nat
  | .glb => 1 | .prs => 2 | .srt => 3 | .ink => 4 | .mem => 5 | .pgh => 6 | .spn => 7 | .ppt => 8 | .rte => 9 | .col => 10 | .eth => 11
  | .spv => 12 | .pms => 13 | .sel => 14 | .ldg => 15 | .dtl => 16 | .pwr => 17 | .prf => 18 | .pmk => 19 | .fmn => 20 | .imp => 21 | .num => 22

def pgGLB : Nat := 0x000
def pgPRS (p : Nat) : Nat := if p < 68 then 0x010 + p else 0x060 + (p - 68)
def pgSRT (i : Nat) : Nat := 0x0B0 + i
def pgINK (i : Nat) : Nat := 0x0C0 + i
def pgMEM (i : Nat) : Nat := 0x140 + i
def pgPGH (i : Nat) : Nat := 0x150 + i
def pgSPN : Nat := 0x160
def pgPPT (i : Nat) : Nat := 0x170 + i
def pgRTE : Nat := 0x17C
def pgCOL : Nat := 0x17D
def pgETH : Nat := 0x180
def pgSPV : Nat := 0x181
def pgPMS : Nat := 0x190
def pgSEL : Nat := 0x1A0
def pgLDG : Nat := 0x1A1
def pgDTL : Nat := 0x1B0
def pgPWR : Nat := 0x1B1
def pgPRF (i : Nat) : Nat := 0x1C0 + i
def pgPMK (i : Nat) : Nat := 0x1D0 + i
def pgFMN : Nat := 0x1E0
def pgIMP : Nat := 0x1E1
def pgNUM : Nat := 0x1F0

/-- The block and instance of a page, none for a page that R431 does not list. -/
def pageBlk (p : Nat) : Option (Blk × Nat) :=
  if p = 0 then some (.glb, 0)
  else if 0x010 ≤ p ∧ p ≤ 0x053 then some (.prs, p - 0x010)
  else if 0x060 ≤ p ∧ p ≤ 0x0A3 then some (.prs, p - 0x060 + 68)
  else if 0x0B0 ≤ p ∧ p ≤ 0x0B7 then some (.srt, p - 0x0B0)
  else if 0x0C0 ≤ p ∧ p ≤ 0x13F then some (.ink, p - 0x0C0)
  else if 0x140 ≤ p ∧ p ≤ 0x14F then some (.mem, p - 0x140)
  else if 0x150 ≤ p ∧ p ≤ 0x151 then some (.pgh, p - 0x150)
  else if p = 0x160 then some (.spn, 0)
  else if 0x170 ≤ p ∧ p ≤ 0x17B then some (.ppt, p - 0x170)
  else if p = 0x17C then some (.rte, 0)
  else if p = 0x17D then some (.col, 0)
  else if p = 0x180 then some (.eth, 0)
  else if p = 0x181 then some (.spv, 0)
  else if p = 0x190 then some (.pms, 0)
  else if p = 0x1A0 then some (.sel, 0)
  else if p = 0x1A1 then some (.ldg, 0)
  else if p = 0x1B0 then some (.dtl, 0)
  else if p = 0x1B1 then some (.pwr, 0)
  else if 0x1C0 ≤ p ∧ p ≤ 0x1CC then some (.prf, p - 0x1C0)
  else if 0x1D0 ≤ p ∧ p ≤ 0x1DF then some (.pmk, p - 0x1D0)
  else if p = 0x1E0 then some (.fmn, 0)
  else if p = 0x1E1 then some (.imp, 0)
  else if p = 0x1F0 then some (.num, 0)
  else none

/-- Event bits that a block implements (R437). -/
def Blk.events : Blk → Nat
  | .glb => 2 | .prs => 8 | .srt => 8 | .ink => 11 | .mem => 10 | .pgh => 6 | .spn => 3 | .ppt => 9 | .rte => 8 | .col => 6 | .eth => 8
  | .spv => 8 | .pms => 10 | .sel => 8 | .ldg => 5 | .dtl => 6 | .pwr => 7 | .prf => 0 | .pmk => 3 | .fmn => 10 | .imp => 5 | .num => 7

end Sys2Proof.Machine
end

