-- ==== Sys2Proof/Machine/Maps.lean ====
section
/-! DEFINITION. Sparse tables: a list of key and value pairs, and sets of numbers as rising lists. An unlisted key reads as the default its user names. -/

namespace Sys2Proof.Machine

/-- A sparse table keyed by a number. -/
abbrev AMap (α : Type) := List (Nat × α)

/-- The value listed for a key. -/
def kvFind {α : Type} : AMap α → Nat → Option α
  | [], _ => none
  | (k, v) :: r, j => if j = k then some v else kvFind r j

/-- The value of a key, the default where it is not listed. -/
def kvGet {α : Type} (m : AMap α) (k : Nat) (d : α) : α := (kvFind m k).getD d

/-- Sets the value of a key; keys stay in rising order. -/
def kvSet {α : Type} : AMap α → Nat → α → AMap α
  | [], k, v => [(k, v)]
  | (j, w) :: r, k, v =>
    if k < j then (k, v) :: (j, w) :: r
    else if k = j then (k, v) :: r
    else (j, w) :: kvSet r k v

/-- Removes a key. -/
def kvDel {α : Type} (m : AMap α) (k : Nat) : AMap α := m.filter (fun p => p.1 != k)

/-- Changes the value of a key. -/
def kvMod {α : Type} (m : AMap α) (k : Nat) (d : α) (f : α → α) : AMap α := kvSet m k (f (kvGet m k d))

/-- The key is listed. -/
def kvHas {α : Type} (m : AMap α) (k : Nat) : Bool := (kvFind m k).isSome

/-- Adds a number to a rising list without repeats. -/
def setIns : List Nat → Nat → List Nat
  | [], k => [k]
  | j :: r, k => if k < j then k :: j :: r else if k = j then j :: r else j :: setIns r k

/-- Removes a number. -/
def setDel (m : List Nat) (k : Nat) : List Nat := m.filter (· != k)

/-- Replaces the n-th item of a list. -/
def setNth {α : Type} : List α → Nat → α → List α
  | [], _, _ => []
  | _ :: r, 0, v => v :: r
  | x :: r, n + 1, v => x :: setNth r n v

end Sys2Proof.Machine
end

