-- ==== Sys2Proof/Machine/FabricTypes.lean ====
section
/-! DEFINITION. State of the fabric: packets in the blocks and in the router, tags and windows, ports (R303 to R320). -/

namespace Sys2Proof.Machine

/-- Who waits for the reply of a request of this module; `duplicate` marks a delivered request that its target had executed before (R317). -/
inductive Origin where
  | none
  | duplicate
  | move (tile serial : Nat) (off : Nat)
  | lookup (sorter id : Nat)
  | parity (inker : Nat) (step : Nat) (serial : Nat)
  | slice (kind step attempt : Nat)
  | migrate (table row : Nat) (phase : Nat)
  | repair (serial : Nat)
  | forward (src lane tag layout : Nat)
  deriving DecidableEq, Repr

/-- A packet that a block has handed to the fabric, with the one that waits for its reply; a reply that the module makes itself carries its request. `paired` and `bound`: its wait is counted in PAIR_WAIT, in STALL_OUT. -/
structure OutPkt where
  pkt : Packet
  org : Origin
  req : Option Packet := Option.none
  paired : Bool := false
  bound  : Bool := false
  deriving DecidableEq, Repr

/-- A tagged packet without a reply yet (R315, R318): resends so far. -/
structure Unreplied where
  pkt     : Packet
  org     : Origin
  resends : Nat
  deriving DecidableEq, Repr

/-- The duplicate window of a source chip and lane (R317): BASE, tags executed, recorded statuses, keyed by tag. -/
structure Window where
  base   : Nat
  done   : List Nat
  status : AMap Nat
  deriving DecidableEq, Repr

/-- A packet in the router and the port it came in by; 12 for this module's own injection. `stalled`: its credit is withheld and counted (R285). -/
structure InRouter where
  pkt    : Packet
  inPort : Nat
  stalled : Bool := false
  deriving DecidableEq, Repr

/-- A Post port (R303 to R310). Lane and class pairs are numbered lane * 2 + class. `short`: pairs whose front packet is counted as held for credit; `full`: the flit that the full replay buffer holds back is counted. -/
structure Port where
  hold     : Bool
  replay   : List Flit
  txSeq    : Nat
  resendQ  : List Flit
  resends  : Nat
  nakSeen  : Option Nat
  rxNext   : Nat
  nakEp    : Bool
  nakNow   : Bool
  credit   : AMap Nat
  crLast   : AMap Nat
  crOut    : AMap Nat
  crTurn   : Nat
  laneTurn : Nat
  queue    : List Packet
  short    : List Nat
  full     : Bool
  txBytes  : AMap (List (BitVec 8))
  rxBytes  : AMap (List (BitVec 8))
  lanesOk  : Nat
  lastTx   : Option Flit
  deriving DecidableEq, Repr

/-- A port after reset: the full 32 KiB pool of credit for each lane and class, in 16-byte units (R306). -/
def Port.reset : Port :=
  { hold := false, replay := [], txSeq := 0, resendQ := [], resends := 0, nakSeen := none, rxNext := 1, nakEp := false,
    nakNow := false, credit := [], crLast := [], crOut := [], crTurn := 0, laneTurn := 0, queue := [], short := [], full := false, txBytes := [], rxBytes := [], lanesOk := 15, lastTx := none }

/-- Credit units of a fresh lane and class pair (R306). -/
def creditPool : Nat := 2048

/-- The fabric side of the module. -/
structure Fabric where
  out       : List OutPkt
  router    : List InRouter
  arrived   : List OutPkt
  unreplied : List Unreplied
  nextTag   : AMap Nat
  windows   : AMap Window
  ports     : AMap Port
  win       : AMap (BitVec 32)
  deriving DecidableEq, Repr

def Fabric.reset : Fabric :=
  { out := [], router := [], arrived := [], unreplied := [], nextTag := [], windows := [], ports := [], win := [] }

end Sys2Proof.Machine
end

