-- ==== Sys2Proof/Config.lean ====
section
/-! DEFINITION. What the spec leaves open, as constants without a body: nothing in Lean can evaluate them, so a statement about one holds for every value. Also the functions of published standards that the spec names and does not define (SHA-384, ECDSA, LMS, HMAC). -/

namespace Sys2Proof.Config

/-- The n-th free value: a value the spec leaves open, read with the counter `freeCtr` of State (log entry 7). -/
opaque freeValue : Nat → BitVec 512

/-- The 112-bit image of an accumulator whose result under R61 is NaN, +Inf or -Inf: R56 gives it no number (log entry 9). -/
opaque nonFiniteImage : Nat → BitVec 112

/-- A Stick function of R89 where the spec states no result, the logarithm of 0: function number and operand (log entry 10). -/
opaque stickApprox : Nat → BitVec 32 → BitVec 32
/-- Which of the values within the stated bound a table-based Stick function gives (R89): function number and operand. -/
opaque stickChoice : Nat → BitVec 32 → Nat

/-- SHA-384 of a byte string (48 bytes). The standard is named, not defined, by the spec (log entry 8). -/
opaque sha384 : Bytes → Bytes
/-- HMAC-SHA-384 of key and message. -/
opaque hmacSha384 : Bytes → Bytes → Bytes
/-- ECDSA P-384: does the signature verify for this public key and this message. -/
opaque ecdsaVerify : Bytes → Bytes → Bytes → Bool
/-- LMS/HSS: does the signature verify for this public key and this message. -/
opaque lmsVerify : Bytes → Bytes → Bytes → Bool
/-- ECDSA P-384 signature by a private key over a message, with the nonce the Seal draws. -/
opaque ecdsaSign : Bytes → Bytes → Bytes → Bytes
/-- LMS signature with the one-time key of an index. -/
opaque lmsSign : Bytes → Nat → Bytes → Bytes
/-- Public keys derived from a secret by label (device and alias identities). -/
opaque derivePublic : Bytes → Bytes → Bytes

/-- The unique device secret blown at provisioning (R462): any 384 bits (log entry 3). -/
opaque factoryUds : Bytes
/-- Hashes of the firmware keys in the fuses at reset: 0 the ECDSA key of slot 0, 1 the LMS key of slot 0 (R462, log entry 3). -/
opaque factoryKeyHash : Nat → Bytes
/-- What a firmware slot of the flash holds at reset (R463, log entry 3). -/
opaque factoryImage : Nat → Bytes
/-- What a firmware slot holds after a write whose read-back differed (R467): any bytes. -/
opaque flashContent : Nat → Bytes
/-- What the entropy source of the Seal gives (R474): the UDS that it blows. -/
opaque entropy : Nat → Bytes
/-- What a home-list entry reads as that the imposition does not bring, by epoch and entry (R170, R282, log entry 22). -/
opaque absentHome : Nat → Nat → BitVec 14
/-- How the 64-byte tag of a Pending Update Table slot holds table id, local row, home Inker, steps of its halves and state: R230 gives no places (log entry 95). -/
opaque putTag (table row ink step0 step1 state : Nat) : BitVec 512
/-- The number m of a Pouch, which holds 2^m words (R445), by page and index. -/
opaque pouchLog2 : Nat → Nat → Nat

end Sys2Proof.Config
end

