-- ==== Sys2Proof/Machine/Flt.lean ====
section
/-! DEFINITION. Exact values and rounding: the formats of R49, the conversions of R65 and R66, the FP32 arithmetic of R89, the keyed mixer of R67 to R69. -/

namespace Sys2Proof.Machine

/-- An exact value: NaN, an infinity, or (-1)^neg * mant * 2^exp. -/
inductive FVal where
  | nan
  | inf (neg : Bool)
  | fin (neg : Bool) (mant : Nat) (exp : Int)
  deriving DecidableEq, Repr

/-- Positive zero. -/
def FVal.zero : FVal := .fin false 0 0

/-- The value is not finite. -/
def FVal.nonFinite : FVal → Bool
  | .nan => true
  | .inf _ => true
  | .fin _ _ _ => false

/-- The value is a NaN. -/
def FVal.isNaN : FVal → Bool
  | .nan => true
  | _ => false

/-- The value is a zero of either sign. -/
def FVal.isZero : FVal → Bool
  | .fin _ m _ => m == 0
  | _ => false

/-- The sign bit of the value (false for NaN). -/
def FVal.sign : FVal → Bool
  | .nan => false
  | .inf s => s
  | .fin s _ _ => s

/-- An integer times a power of two. -/
def FVal.ofInt (n : Int) (e : Int) : FVal := .fin (decide (n < 0)) n.natAbs e

/-- The opposite value (R126: only the sign bit changes). -/
def FVal.neg : FVal → FVal
  | .nan => .nan
  | .inf s => .inf (!s)
  | .fin s m e => .fin (!s) m e

/-- The magnitude. -/
def FVal.abs : FVal → FVal
  | .nan => .nan
  | .inf _ => .inf false
  | .fin _ m e => .fin false m e

/-- The value times 2^k, exactly. -/
def FVal.scale (k : Int) : FVal → FVal
  | .fin s m e => .fin s m (e + k)
  | v => v

/-- The signed mantissa at exponent `lo`, for `lo` at or below the value's own. -/
def FVal.at (lo : Int) : FVal → Int
  | .fin s m e => let n : Int := ((m <<< (e - lo).toNat : Nat) : Int); if s then -n else n
  | _ => 0

/-- The exact product; Inf times 0 is NaN (R60). -/
def FVal.mul : FVal → FVal → FVal
  | .nan, _ => .nan
  | _, .nan => .nan
  | .inf s, .inf t => .inf (s != t)
  | .inf s, .fin t m _ => if m = 0 then .nan else .inf (s != t)
  | .fin s m _, .inf t => if m = 0 then .nan else .inf (s != t)
  | .fin s m e, .fin t n f => .fin (s != t) (m * n) (e + f)

/-- The exact sum; an exact zero sum is +0 unless both terms are negative zeros. -/
def FVal.add : FVal → FVal → FVal
  | .nan, _ => .nan
  | _, .nan => .nan
  | .inf s, .inf t => if s = t then .inf s else .nan
  | .inf s, .fin _ _ _ => .inf s
  | .fin _ _ _, .inf t => .inf t
  | .fin s m e, .fin t n f =>
    let lo := min e f
    let z := FVal.at lo (.fin s m e) + FVal.at lo (.fin t n f)
    if z = 0 then .fin (s && t) 0 0 else FVal.ofInt z lo

/-- The exact difference. -/
def FVal.sub (a b : FVal) : FVal := a.add b.neg

/-- a * b + c, exact (R89: FMA rounds once). -/
def FVal.fma (a b c : FVal) : FVal := (a.mul b).add c

/-- a < b as numbers; false when either is NaN. -/
def FVal.lt : FVal → FVal → Bool
  | .nan, _ => false
  | _, .nan => false
  | .inf s, .inf t => s && !t
  | .inf s, .fin _ _ _ => s
  | .fin _ _ _, .inf t => !t
  | .fin s m e, .fin t n f =>
    let lo := min e f
    decide (FVal.at lo (.fin s m e) < FVal.at lo (.fin t n f))

/-- Equal as numbers (the zeros are equal); false when either is NaN. -/
def FVal.numEq (a b : FVal) : Bool := !a.isNaN && !b.isNaN && !a.lt b && !b.lt a

/-- a <= b with -0 ordered below +0, for values that are not NaN. -/
def FVal.leZ (a b : FVal) : Bool := a.lt b || (a.numEq b && (!(a.isZero && b.isZero) || a.sign || !b.sign))

/-- The smaller value: -0 below +0, NaN when either is NaN (R126). -/
def FVal.min (a b : FVal) : FVal := if a.isNaN || b.isNaN then .nan else if a.leZ b then a else b

/-- The larger value: -0 below +0, NaN when either is NaN (R126). -/
def FVal.max (a b : FVal) : FVal := if a.isNaN || b.isNaN then .nan else if a.leZ b then b else a

/-- The exponent of the leading bit of a finite value (0 for zero). -/
def FVal.lead : FVal → Int
  | .fin _ m e => if m = 0 then 0 else (m.log2 : Int) + e
  | _ => 0

/-- Rounding modes of R65. -/
inductive RMode where
  | rne
  | rtz
  | sr
  deriving DecidableEq, Repr

/-- R66: the magnitude m * 2^e rounded to a multiple of the unit 2^q; answers the kept integer and q. `r24` is the draw of R69. -/
def roundMag (p : Nat) (emin : Int) (mode : RMode) (r24 m : Nat) (e : Int) : Nat × Int :=
  if m = 0 then (0, emin - ((p - 1 : Nat) : Int))
  else
    let lead : Int := (m.log2 : Int) + e
    let top := if lead < emin then emin else lead
    let q := top - ((p - 1 : Nat) : Int)
    if q ≤ e then (m <<< (e - q).toNat, q)
    else
      let sh := (q - e).toNat
      let t := m >>> sh
      let rem := m % 2 ^ sh
      let f := if 24 ≤ sh then rem >>> (sh - 24) else rem <<< (24 - sh)
      let half := 2 ^ (sh - 1)
      let up := match mode with
        | .rne => decide (half < rem) || (decide (rem = half) && decide (t % 2 = 1))
        | .sr => decide (r24 < f)
        | .rtz => false
      (if up then t + 1 else t, q)

/-- A binary floating-point format (R49, R65): significand bits with the hidden bit, smallest normal exponent, bias, exponent field width, largest finite value as mant * 2^exp, infinities, NaN code. -/
structure FFmt where
  p      : Nat
  emin   : Int
  bias   : Int
  ebits  : Nat
  maxM   : Nat
  maxE   : Int
  hasInf : Bool
  nan    : Nat
  deriving DecidableEq, Repr

def fp32 : FFmt := { p := 24, emin := -126, bias := 127, ebits := 8, maxM := 0xFFFFFF, maxE := 104, hasInf := true, nan := 0x7FC00000 }
def bf16 : FFmt := { p := 8, emin := -126, bias := 127, ebits := 8, maxM := 0xFF, maxE := 120, hasInf := true, nan := 0x7FC0 }
def fp16 : FFmt := { p := 11, emin := -14, bias := 15, ebits := 5, maxM := 0x7FF, maxE := 5, hasInf := true, nan := 0x7E00 }
def e4m3 : FFmt := { p := 4, emin := -6, bias := 7, ebits := 4, maxM := 14, maxE := 5, hasInf := false, nan := 0x7F }
def e5m2 : FFmt := { p := 3, emin := -14, bias := 15, ebits := 5, maxM := 7, maxE := 13, hasInf := true, nan := 0x7F }
def e3m2 : FFmt := { p := 3, emin := -2, bias := 3, ebits := 3, maxM := 7, maxE := 2, hasInf := false, nan := 0 }
def e2m3 : FFmt := { p := 4, emin := 0, bias := 1, ebits := 2, maxM := 15, maxE := -1, hasInf := false, nan := 0 }
def e2m1 : FFmt := { p := 2, emin := 0, bias := 1, ebits := 2, maxM := 3, maxE := 1, hasInf := false, nan := 0 }

/-- Element bits of a format. -/
def FFmt.bits (f : FFmt) : Nat := f.ebits + f.p

/-- The sign bit of a code. -/
def FFmt.signBit (f : FFmt) (neg : Bool) : Nat := if neg then 2 ^ (f.ebits + f.p - 1) else 0

/-- The value of a code as a number, specials aside. -/
def FFmt.number (f : FFmt) (c : Nat) : FVal :=
  let mb := f.p - 1
  let neg := bitOf c (f.ebits + mb)
  let ex := fld c mb f.ebits
  let ma := c % 2 ^ mb
  if ex = 0 then .fin neg ma (f.emin - (mb : Int))
  else .fin neg (ma + 2 ^ mb) ((ex : Int) - f.bias - (mb : Int))

/-- The code of the value (-1)^neg * kept * 2^q, where kept fits the format's significand. -/
def FFmt.pack (f : FFmt) (neg : Bool) (kept : Nat) (q : Int) : Nat :=
  let mb := f.p - 1
  if kept = 0 then f.signBit neg
  else
    let lead : Int := (kept.log2 : Int) + q
    if lead < f.emin then f.signBit neg + kept <<< (q - (f.emin - (mb : Int))).toNat
    else
      let sig := if kept.log2 ≤ mb then kept <<< (mb - kept.log2) else kept >>> (kept.log2 - mb)
      f.signBit neg + (lead + f.bias).toNat * 2 ^ mb + sig % 2 ^ mb

/-- kept * 2^q is above the largest finite value. -/
def FFmt.over (f : FFmt) (kept : Nat) (q : Int) : Bool :=
  let lo := min q f.maxE
  decide (f.maxM <<< (f.maxE - lo).toNat < kept <<< (q - lo).toNat)

/-- The code of the largest finite value. -/
def FFmt.maxCode (f : FFmt) (neg : Bool) : Nat := f.pack neg f.maxM f.maxE

/-- The code of an infinity, or of NaN in a format without infinities (R65). -/
def FFmt.infCode (f : FFmt) (neg : Bool) : Nat :=
  if f.hasInf then f.signBit neg + (2 ^ f.ebits - 1) * 2 ^ (f.p - 1) else f.nan

/-- R65 and R66: one value converted to a code. -/
def FFmt.encode (f : FFmt) (mode : RMode) (sat : Bool) (r24 : Nat) : FVal → Nat
  | .nan => f.nan
  | .inf s => f.infCode s
  | .fin s m e =>
    let (k, q) := roundMag f.p f.emin mode r24 m e
    if f.over k q then
      if sat || mode == .rtz then f.maxCode s else f.infCode s
    else f.pack s k q

/-- FP32 word of an exact value, rounded to nearest even (R89). -/
def f32enc (v : FVal) : Nat := fp32.encode .rne false 0 v

/-- A code of BF16, FP16, FP32 or E5M2: IEEE specials. -/
def FFmt.ieee (f : FFmt) (c : Nat) : FVal :=
  let mb := f.p - 1
  if fld c mb f.ebits = 2 ^ f.ebits - 1 then
    if c % 2 ^ mb = 0 then .inf (bitOf c (f.ebits + mb)) else .nan
  else f.number c

/-- The value of an FP32 word. -/
def f32dec (c : Nat) : FVal := fp32.ieee c
/-- The value of a BF16 code. -/
def bfdec (c : Nat) : FVal := bf16.ieee c
/-- The value of an FP16 code. -/
def hfdec (c : Nat) : FVal := fp16.ieee c
/-- The value of an FP8 E4M3 code (R49: NaN S.1111.111, no infinity). -/
def e4dec (c : Nat) : FVal := if c % 128 = 127 then .nan else e4m3.number c
/-- The value of an FP8 E5M2 code. -/
def e5dec (c : Nat) : FVal := e5m2.ieee c

/-- Element bits of a format code (R49). -/
def fmtBits (code : Nat) : Nat :=
  if code = 4 || code = 5 then 6 else if code = 6 then 4 else if code = 10 || code = 11 then 16 else if code = 12 then 32 else 8

/-- The code is an MX code (R49). -/
def isMX (code : Nat) : Bool := decide (2 ≤ code) && decide (code ≤ 7)

/-- The code is an INT8 code. -/
def isInt8 (code : Nat) : Bool := code == 8 || code == 9

/-- q_max of R49. -/
def fmtQmax (code : Nat) : Int :=
  match code with
  | 0 => 9 | 1 => 16 | 2 => 9 | 3 => 16 | 4 => 5 | 5 => 3 | 6 => 3 | 7 => 1 | 8 => 8 | 9 => 8 | 10 => 128 | 11 => 16 | _ => 128

/-- The spread limit S_f of R58. -/
def spreadLimit (code : Nat) : Nat :=
  match code with
  | 2 => 25 | 3 => 11 | 4 => 34 | 5 => 37 | 6 => 39 | _ => 36

/-- An element code as a value, scales left out (R49, R50, R53). -/
def elemBase (code zp c : Nat) : FVal :=
  match code with
  | 0 => e4dec c
  | 1 => e5dec c
  | 2 => e4dec c
  | 3 => e5dec c
  | 4 => e3m2.number c
  | 5 => e2m3.number c
  | 6 => e2m1.number c
  | 7 => FVal.ofInt (sext 8 c) (-6)
  | 8 => FVal.ofInt (sext 8 c - sext 8 zp) 0
  | 9 => FVal.ofInt (((c % 256 : Nat) : Int) - ((zp % 256 : Nat) : Int)) 0
  | 10 => bfdec c
  | 11 => hfdec c
  | _ => f32dec c

/-- An element with its per-tensor scale 2^s and, for MX codes, its block scale 2^(X - 127); block scale 0xFF is NaN (R50, R52). The scale applies to every code, BF16, FP16 and FP32 too (R112, R155; log entry 83). -/
def elemVal (code zp : Nat) (s : Int) (x c : Nat) : FVal :=
  if isMX code then
    if x = 255 then .nan else (elemBase code zp c).scale (s + (x : Int) - 127)
  else (elemBase code zp c).scale s

/-- FP32 operations of R89 on words. -/
def f32add (a b : Nat) : Nat := f32enc ((f32dec a).add (f32dec b))
def f32sub (a b : Nat) : Nat := f32enc ((f32dec a).sub (f32dec b))
def f32mul (a b : Nat) : Nat := f32enc ((f32dec a).mul (f32dec b))
def f32fma (a b c : Nat) : Nat := f32enc ((f32dec a).fma (f32dec b) (f32dec c))
def f32min (a b : Nat) : Nat := f32enc ((f32dec a).min (f32dec b))
def f32max (a b : Nat) : Nat := f32enc ((f32dec a).max (f32dec b))
/-- a < b. -/
def f32lt (a b : Nat) : Bool := (f32dec a).lt (f32dec b)

/-- Integer square root by bits from `2^k` down. -/
def isqrtFrom : Nat → Nat → Nat → Nat
  | 0, n, r => if (r + 1) * (r + 1) ≤ n then r + 1 else r
  | k + 1, n, r =>
    let t := r + 2 ^ (k + 1)
    isqrtFrom k n (if t * t ≤ n then t else r)

/-- Integer square root. -/
def isqrt (n : Nat) : Nat := isqrtFrom (n.log2 / 2 + 1) n 0

/-- A value close enough to the square root that rounding it gives the correctly rounded root: 60 or more leading bits and a sticky bit. -/
def sqrtVal (m : Nat) (e : Int) : FVal :=
  let (m1, e1) := if e % 2 = 0 then (m, e) else (m * 2, e - 1)
  let big := m1 <<< 80
  let r := isqrt big
  let e2 := (e1 - 80) / 2
  if r * r = big then .fin false r e2 else .fin false (2 * r + 1) (e2 - 1)

/-- Square root, correctly rounded (R89); negative operands are invalid. -/
def f32sqrt (a : Nat) : Nat :=
  match f32dec a with
  | .nan => fp32.nan
  | .inf s => if s then fp32.nan else fp32.infCode false
  | .fin s m e => if m = 0 then a % 2 ^ 32 else if s then fp32.nan else f32enc (sqrtVal m e)

/-- A quotient with 60 or more leading bits and a sticky bit. -/
def divVal (s : Bool) (m n : Nat) (e : Int) : FVal :=
  let big := m <<< (n.log2 + 80)
  let q := big / n
  let e1 := e - ((n.log2 + 80 : Nat) : Int)
  if q * n = big then .fin s q e1 else .fin s (2 * q + 1) (e1 - 1)

/-- The quotient of two values, for one rounding afterwards. A finite value over zero and 0/0 are left to the caller. -/
def FVal.div : FVal → FVal → FVal
  | .nan, _ => .nan
  | _, .nan => .nan
  | .inf _, .inf _ => .nan
  | .inf s, .fin t _ _ => .inf (s != t)
  | .fin s _ _, .inf t => .fin (s != t) 0 0
  | .fin s m e, .fin t n f =>
    if n = 0 then (if m = 0 then .nan else .inf (s != t)) else divVal (s != t) m n (e - f)

/-- FP32 quotient rounded to nearest even. -/
def f32div (a b : Nat) : Nat := f32enc ((f32dec a).div (f32dec b))

/-- The FP32 words whose values lie within `k` units in the last place of (-1)^s * m * 2^e (R89); an overflowing neighbour is the infinity. -/
def ulpWords (k : Nat) (s : Bool) (m : Nat) (e : Int) : List Nat :=
  let lead : Int := if m = 0 then -126 else max ((m.log2 : Int) + e) (-126)
  let half := lead - 24
  let lo := min half e
  let v : Int := ((m <<< (e - lo).toNat : Nat) : Int)
  let w : Int := ((1 <<< (half - lo).toNat : Nat) : Int)
  (List.range (4 * k + 2)).filterMap (fun (i : Nat) =>
    let n : Int := v / w - 2 * (k : Int) + (i : Int)
    let x := FVal.ofInt n half
    let c := f32enc (if s then x.neg else x)
    if (n * w - v).natAbs ≤ (2 * (k : Int) * w).natAbs ∧ ((f32dec c).nonFinite ∨ (f32dec c).abs.numEq x.abs) then some c else none)

/-- One of the words within `k` ulp of a finite value: which one the table gives is left open (log entry 10). -/
def withinUlp (fn a k : Nat) : FVal → Nat
  | .fin s m e =>
    let l := ulpWords k s m e
    l.getD (Config.stickChoice fn (BitVec.ofNat 32 a) % l.length) (f32enc (.fin s m e))
  | v => f32enc v

/-- Fraction bits of the fixed-point numbers in which exp2 and log2 are enclosed; their error is far below the bounds of R89. -/
def fxBits : Nat := 192
/-- ln 2 and 1 / ln 2 in fixed point. -/
def fxLn2 : Nat := 0xB17217F7D1CF79ABC9E3B39803F2F6AF40F343267298B62D
def fxLog2e : Nat := 0x171547652B82FE1777D0FFDA0D23A7D11D6AEF551BAD2B4B1

/-- Terms of the exponential series of `t` from term `k`, whose value is `x`. -/
def expTerms (t : Nat) : Nat → Nat → Nat → Nat
  | 0, _, _ => 0
  | n + 1, k, x => x + expTerms t n (k + 1) (x * t / 2 ^ fxBits / (k + 1))

/-- 2^(x / 2^192) as mantissa and exponent. -/
def fxExp2 (x : Int) : Nat × Int :=
  let f := (x % 2 ^ fxBits).toNat
  (expTerms (f * fxLn2 / 2 ^ fxBits) 64 0 (2 ^ fxBits), x / 2 ^ fxBits - (fxBits : Int))

/-- Bits of the binary logarithm of x / 2^192, for x in [1, 2), from the first fraction bit on. -/
def log2Bits : Nat → Nat → Nat → Nat
  | 0, _, r => r
  | n + 1, x, r =>
    let y := x * x / 2 ^ fxBits
    if 2 ^ (fxBits + 1) ≤ y then log2Bits n (y / 2) (2 * r + 1) else log2Bits n y (2 * r)

/-- log2 of a positive value. -/
def log2Val (m : Nat) (e : Int) : FVal :=
  let x := if m.log2 ≤ fxBits then m <<< (fxBits - m.log2) else m >>> (m.log2 - fxBits)
  FVal.ofInt (((m.log2 : Int) + e) * 2 ^ 160 + ((log2Bits 160 x 0 : Nat) : Int)) (-160)

/-- A finite value in fixed point, truncated. -/
def fxOf (s : Bool) (m : Nat) (e : Int) : Int :=
  let k := e + (fxBits : Int)
  let n : Int := ((if 0 ≤ k then m <<< k.toNat else m >>> (-k).toNat : Nat) : Int)
  if s then -n else n

/-- tanh of a finite value: the series near 0, 1 - 2 / (exp(2x) + 1) beyond, 1 from 64 on. -/
def tanhVal (s : Bool) (m : Nat) (e : Int) : FVal :=
  let lead : Int := (m.log2 : Int) + e
  let one : Nat := 2 ^ fxBits
  if m = 0 then .fin s 0 0
  else if 6 ≤ lead then .fin s 1 0
  else if lead < -10 then
    let x := (fxOf false m e).toNat
    let q := x * x / one
    .fin s (m * (one - q / 3 + 2 * (q * q / one) / 15 - 17 * (q * q / one * q / one) / 315)) (e - (fxBits : Int))
  else
    let (k, f) := fxExp2 (2 * fxOf false m e * (fxLog2e : Int) / one)
    let d := if 0 ≤ f + (fxBits : Int) then k <<< (f + (fxBits : Int)).toNat else k >>> (-(f + (fxBits : Int))).toNat
    divVal s (d - one) (d + one) 0

/-- The logistic sigmoid of a finite value: 1 from 2^8 on, exp(x) / (1 + exp(x)) below 0. -/
def sigmoidVal (s : Bool) (m : Nat) (e : Int) : FVal :=
  let one : Nat := 2 ^ fxBits
  if m ≠ 0 ∧ 8 ≤ (m.log2 : Int) + e then (if s then .fin false 1 (-400) else .fin false 1 0)
  else
    let (k, f) := fxExp2 (-(fxOf false m e) * (fxLog2e : Int) / one)
    let y := k >>> (-(f + (fxBits : Int))).toNat
    if s then divVal false k (one + y) (f + (fxBits : Int)) else divVal false one (one + y) 0

/-- The approximations of R89, by VOP function number (R126): 8 reciprocal, 9 reciprocal square root, 11 exp2, 12 log2, 13 tanh, 14 sigmoid. Each gives some word within the bound that R89 states; log2 of a zero lies outside its domain and is left open. -/
def stickFn (fn a : Nat) : Nat :=
  let near := fun (k : Nat) (v : FVal) => withinUlp fn a k v
  let zero := fun (s : Bool) => FVal.fin s 0 0
  match f32dec a with
  | .nan => fp32.nan
  | .inf s =>
    match fn with
    | 8 => near 1 (zero s)
    | 9 => if s then fp32.nan else near 1 (zero false)
    | 11 => if s then 0 else fp32.infCode false
    | 12 => if s then fp32.nan else fp32.infCode false
    | 13 => near 3 (.fin s 1 0)
    | _ => near 3 (if s then zero false else .fin false 1 0)
  | .fin s m e =>
    match fn with
    | 8 => if m = 0 then fp32.infCode s else near 1 (divVal s 1 m (-e))
    | 9 => if m = 0 then fp32.infCode s else if s then fp32.nan
           else match sqrtVal m e with
             | .fin _ r f => near 1 (divVal false 1 r (-f))
             | v => near 1 v
    | 11 => if FVal.lt (.fin false 128 0) (.fin s m e) then fp32.infCode false
            else if FVal.lt (.fin s m e) (.fin true 150 0) then 0
            else let (k, f) := fxExp2 (fxOf s m e); near 2 (.fin false k f)
    | 12 => if m = 0 then (Config.stickApprox fn (BitVec.ofNat 32 a)).toNat else if s then fp32.nan else near 2 (log2Val m e)
    | 13 => near 3 (tanhVal s m e)
    | _ => near 3 (sigmoidVal s m e)

/-- R69: the mixer's mixing function. -/
def mix64 (x : Nat) : Nat :=
  let x := x ^^^ (x >>> 31)
  let x := x * 0x9F4A2C61D83B7E05 % 2 ^ 64
  let x := x ^^^ (x >>> 29)
  let x := x * 0xE2C75B1946F0A38B % 2 ^ 64
  x ^^^ (x >>> 32)

/-- R69: the 24-bit draw of a key and three counter words. -/
def keyedDraw (key w0 w1 w2 : Nat) : Nat :=
  let h := mix64 (key % 2 ^ 64)
  let h := mix64 (h ^^^ (w0 % 2 ^ 64))
  let h := mix64 (h ^^^ (w1 % 2 ^ 64))
  let h := mix64 (h ^^^ (w2 % 2 ^ 64))
  let rot := ((key <<< 32) % 2 ^ 64) ||| ((key % 2 ^ 64) >>> 32)
  let h := mix64 (h ^^^ rot)
  h >>> 40

/-- R67: the counter word w1. -/
def drawW1 (tid purpose slot : Nat) : Nat :=
  (tid % 2 ^ 32) * 2 ^ 32 + (purpose % 16) * 2 ^ 28 + (slot % 4) * 2 ^ 26

end Sys2Proof.Machine
end

