-- ==== Sys2Proof/Machine/ForemanTypes.lean ====
section
/-! DEFINITION. State of the Foreman, the imposition controller and training numerics (R137 to R167, R261 to R297). -/

namespace Sys2Proof.Machine

/-- Module states (R279, R292); COLD has no code. -/
inductive ModState where
  | cold | boot | wipe | idle | joined | stepping | quiesced | fenced | service
  deriving DecidableEq, Repr

/-- FMN.STATE.MODULE (R292); COLD reads 0. -/
def ModState.code : ModState → Nat
  | .cold => 0 | .boot => 1 | .wipe => 2 | .idle => 3 | .joined => 4 | .stepping => 5 | .quiesced => 6 | .fenced => 7 | .service => 8

/-- Step states (R269, R292). -/
inductive StepState where
  | opened | collating | deciding | committing | committed | rollingBack
  deriving DecidableEq, Repr

/-- FMN.STATE.OLDER and NEWER (R292). -/
def StepState.code : StepState → Nat
  | .opened => 1 | .collating => 2 | .deciding => 3 | .committing => 4 | .committed => 5 | .rollingBack => 6

/-- Decisions, coded as in the report (R289). -/
inductive Verdict where
  | commit | skip | repeat | abort | suspend
  deriving DecidableEq, Repr

/-- The code of a decision (R289). -/
def Verdict.code : Verdict → Nat
  | .commit => 0 | .skip => 1 | .repeat => 2 | .abort => 3 | .suspend => 4

/-- The decision of a code, COMMIT for an unlisted one is never used: none. -/
def Verdict.ofCode : Nat → Option Verdict
  | 0 => some .commit | 1 => some .skip | 2 => some .repeat | 3 => some .abort | 4 => some .suspend | _ => none

/-- Where a reply goes: queue and sequence number of the command. -/
structure ReplyTo where
  queue : Nat
  seq   : Nat
  deriving DecidableEq, Repr

/-- What a DECISION carries (R313). -/
structure DecMsg where
  verdict : Verdict
  negK    : Int
  clip    : Nat
  ovfSrc  : Nat
  g2      : Nat
  parts   : Nat
  total   : Nat
  nparts  : Nat
  samples : Nat
  cause   : Nat
  deriving DecidableEq, Repr

/-- The scale record of a step (R138): entries as index to s, for the valid ones. -/
structure ScaleRec where
  n     : Nat
  epoch : Nat
  k     : Int
  efRd  : Nat
  efWr  : Nat
  ents  : AMap Int
  deriving DecidableEq, Repr

/-- An unreleased step (R269). `after` is the decision whose rollback runs; `await` is set while the step awaits RESUME; `cells`: contributions per bucket. -/
structure StepRec where
  n        : Nat
  attempt  : Nat
  state    : StepState
  mask     : Nat
  mbs      : AMap (List (BitVec 8))
  pin      : Nat
  epoch    : Nat
  tOpen    : Nat
  scale    : ScaleRec
  after    : Option Verdict
  rolled   : Bool
  await    : Bool
  dec      : Option DecMsg
  faulted  : Bool
  ovf      : Nat
  counts   : AMap Nat
  hist     : AMap (AMap Nat)
  mseSum   : AMap Nat
  mseCnt   : AMap Nat
  lossSum  : Nat
  ovfSum   : Nat
  direct   : List Nat
  late     : List Nat
  slow     : Bool
  normSent : Bool
  failed   : Bool
  cause    : Nat
  aborters : List ReplyTo
  tAllIn   : Option Nat
  deriving DecidableEq, Repr

/-- A forming step (R266). -/
structure Forming where
  n      : Nat
  reply  : ReplyTo
  waited : Bool
  scale  : Option ScaleRec
  recWaited : Bool
  deriving DecidableEq, Repr

/-- A READY as the leader keeps it (R314). -/
structure ReadyRec where
  parts   : List Nat
  nparts  : Nat
  ovf     : Nat
  fault   : Bool
  samples : Nat
  counts  : AMap Nat
  deriving DecidableEq, Repr

/-- What a bucket's completion told the leader (R352): contributions, norm terms and flags. -/
structure DoneRec where
  count   : Nat
  norm    : Nat
  parts   : Nat
  nonFin  : Bool
  noTable : Bool
  deriving DecidableEq, Repr

/-- The leader's work on one attempt (R271 to R277); `who` is the member that stopped it (R293). -/
structure LeadRec where
  n        : Nat
  attempt  : Nat
  ready    : AMap ReadyRec
  done     : AMap DoneRec
  armed    : Bool
  allIn    : Bool
  norms    : AMap Nat
  decided  : Option DecMsg
  sent     : Bool
  commits  : List Nat
  released : Bool
  relSent  : Bool
  abortWhy : Option Nat
  redo     : Option Nat
  lost     : Bool
  late     : List Nat
  lateBefore : List Nat
  who      : Option Nat
  deriving DecidableEq, Repr

/-- A sheet held in the sheet store or installed (R134, R135). -/
structure Sheet where
  id      : Nat
  kind    : Nat
  next    : Nat
  tiles   : Nat
  entry   : Nat
  extent  : Nat
  place   : Nat
  length  : Nat
  crc     : Nat
  code    : List (BitVec 64)
  inits   : List (Bool × Nat × Nat)
  bars    : AMap Nat
  deriving DecidableEq, Repr

/-- An accepted install record that waits for its boundary (R136): logical tile to (sheet, extent, save) of its contexts. -/
structure Install where
  reply : ReplyTo
  tiles : AMap (List (Nat × Nat × Nat))
  sheets : AMap Sheet
  deriving DecidableEq, Repr

/-- The Foreman. `editions` holds the latest editions that the slice has published, by the step numbers they derive from (R273); `ending` is the step that ends at the boundary under way (R35). -/
structure Foreman where
  state    : ModState
  steps    : List StepRec
  forming  : Option Forming
  staged   : AMap (List (BitVec 8))
  held     : List (Nat × Nat)
  takeover : Bool
  resumed  : Bool
  leaders  : List LeadRec
  fencedMembers : List Nat
  acted    : List (Nat × Nat × Nat)
  sheets   : AMap Sheet
  installed : AMap Sheet
  install  : Option Install
  lastEnded : Nat
  anyDecided : Bool
  reports  : Nat
  editions : List Nat
  ending   : Option Nat
  deriving DecidableEq, Repr

def Foreman.reset : Foreman :=
  { state := .boot, steps := [], forming := none, staged := [], held := [], takeover := false, resumed := false, leaders := [], fencedMembers := [],
    acted := [], sheets := [], installed := [], install := none, lastEnded := 0, anyDecided := false, reports := 0, editions := [], ending := none }

/-- A tensor-table entry (R142, R167): TID, TT_DATA1 fields, history (newest last), SILENT_COUNT, REPORTED, s of the newest record. -/
structure TensorEnt where
  tid      : Nat
  word     : Nat
  hist     : List Int
  silent   : Nat
  reported : Bool
  sCur     : Int
  deriving DecidableEq, Repr

def TensorEnt.clear : TensorEnt := { tid := 0, word := 0, hist := [], silent := 0, reported := false, sCur := 0 }

/-- NUM: the tensor table, commits captured before the boundary (index, TID, TT_DATA1), records in the ring by n mod 4, the slot of the newest record, LS_CUR, clean count, committed slot C, a pending LOAD with its INIT. -/
structure Num where
  table   : AMap TensorEnt
  commits : List (Nat × Nat × Nat)
  recs    : AMap ScaleRec
  undecided : List Nat
  newest  : Option Nat
  lsCur   : Int
  clean   : Nat
  slotC   : Nat
  load    : Bool
  deriving DecidableEq, Repr

def Num.reset : Num := { table := [], commits := [], recs := [], undecided := [], newest := none, lsCur := 16, clean := 0, slotC := 0, load := false }

/-- An imposition as the controller holds it (R281, R282): header fields and the eight sections as bytes. -/
structure Impo where
  epoch     : Nat
  staleness : Nat
  layouts   : Nat
  seed      : Nat
  members   : List Nat
  secs      : List (List (BitVec 8))
  deriving DecidableEq, Repr

/-- The imposition controller (R284 to R288): the active and the staged image, whether activation is accepted and who waits for it, whether DRAINED has left, who has drained for which new epoch, ACTIVATE received and when, who has confirmed, poste restante. -/
structure ImpCtl where
  active    : Option Impo
  staged    : Option Impo
  accepted  : Bool
  replies   : List ReplyTo
  drainSent : Bool
  drained   : List (Nat × Nat)
  activateRx : Bool
  tAct      : Nat
  confirms  : List Nat
  poste     : List InRouter
  deriving DecidableEq, Repr

def ImpCtl.reset : ImpCtl :=
  { active := none, staged := none, accepted := false, replies := [], drainSent := false, drained := [], activateRx := false, tAct := 0, confirms := [], poste := [] }

end Sys2Proof.Machine
end

