-- ==== Sys2Proof/Machine/HostTypes.lean ====
section
/-! DEFINITION. State of the host port, the Sprinov engine and the Collators (R336 to R364, R395 to R430). -/

namespace Sys2Proof.Machine

/-- A Sprinov command that occupies a queue entry (R406, R411). An unsequenced one carries SEQ plus a multiple of 2^32, so that no other entry has its number. -/
structure Cmd where
  ver     : Nat
  op      : Nat
  seq     : Nat
  body    : List (BitVec 8)
  started : Bool
  dup     : Bool
  deriving DecidableEq, Repr

/-- A cached reply (R410): opcode, status, the first 24 bytes of the result; `done` is false while the command runs. -/
structure Cached where
  op     : Nat
  status : Nat
  data   : List (BitVec 8)
  done   : Bool
  deriving DecidableEq, Repr

/-- A command queue (R407 to R411): connection, session, authentication with its key slot, nonce, NEXT, entries, cache by sequence number. -/
structure CmdQueue where
  qp      : Option Nat
  session : Bool
  auth    : Bool
  keySlot : Nat
  nonce   : List (BitVec 8)
  next    : Nat
  entries : List Cmd
  cache   : AMap Cached
  deriving DecidableEq, Repr

def CmdQueue.reset : CmdQueue :=
  { qp := none, session := false, auth := false, keySlot := 0, nonce := [], next := 0, entries := [], cache := [] }

/-- A reply sent (R406). -/
structure Reply where
  queue  : Nat
  seq    : Nat
  op     : Nat
  status : Nat
  data   : List (BitVec 8)
  deriving DecidableEq, Repr

/-- The Sprinov engine: queues, replies sent (newest last), round-robin turn, a handover pause, the Postmaster mailbox: the command in it and the commands that wait for it. -/
structure Spv where
  queues : AMap CmdQueue
  sent   : List Reply
  turn   : Nat
  paused : Bool
  mbox   : Option (Nat × Cmd)
  mwait  : List (Nat × Cmd)
  deriving DecidableEq, Repr

def Spv.reset : Spv := { queues := [], sent := [], turn := 0, paused := false, mbox := none, mwait := [] }

/-- A memory region (R401). -/
structure MemRegion where
  off    : Nat
  len    : Nat
  access : Nat
  rkey   : Nat
  deriving DecidableEq, Repr

/-- A queue pair (R398, R399): role, slot, 802.1Q priority, path MTU; established (after RTU); in error; its rate, 2^64 for the line rate. -/
structure Qp where
  role  : Nat
  slot  : Nat
  prio  : Nat
  mtu   : Nat
  live  : Bool
  err   : Bool
  rate  : Nat
  deriving DecidableEq, Repr

/-- A held or unacknowledged RDMA WRITE (R402, R403): queue pair, offset, data. -/
structure HeldWrite where
  qp   : Nat
  off  : Nat
  data : List (BitVec 8)
  deriving DecidableEq, Repr

/-- What the port sends on the Ethernet beside Sprinov messages: the acknowledgement, the remote access NAK or the data of an RDMA request, the reply to a frame, or a CM message: REP or DREP, or REJ with a Sprinov status. -/
inductive EthOut where
  | ack (qp : Nat)
  | nak (qp : Nat)
  | read (qp : Nat) (data : List (BitVec 8))
  | tierRead (qp key addr len : Nat)
  | tierWrite (qp key addr : Nat) (data : List (BitVec 8))
  | frame (bytes : List (BitVec 8))
  | cm (qp : Nat) (status : Option Nat)
  deriving DecidableEq, Repr

/-- The Ethernet port. `acks` holds, by serial, the queue pair of a WRITE whose acknowledgement waits for parity answers, and how many; `used` whether the port has tried to come up since the reset; `stamp` the Dateline's time at the latest IEEE 1588 event message; `answered` what the port has sent. -/
structure Eth where
  qps     : AMap Qp
  regions : AMap MemRegion
  held    : List HeldWrite
  acks    : AMap (Nat × Nat)
  paused  : AMap Nat
  stamp   : Nat
  used    : Bool
  answered : List EthOut
  deriving DecidableEq, Repr

def Eth.reset : Eth := { qps := [], regions := [], held := [], acks := [], paused := [], stamp := 0, used := false, answered := [] }

/-- A contribution in a leaf (R338, R346): slot, form, values as FP32 words (lists flattened for TOPK), telegram data. -/
structure Contrib where
  slot : Nat
  form : Nat
  vals : List Nat
  idx  : List Nat
  j    : Nat
  deriving DecidableEq, Repr

/-- A chunk of a node input (R350). -/
structure Chunk where
  vals  : List Nat
  count : Nat
  nf    : Bool
  np    : Nat
  deriving DecidableEq, Repr

/-- Half of a bucket (R344): its pair, the leaf's contributions, whether the leaf's value has left, stored node inputs by chunk * 2 + side, delivered chunks at the owner with t_k, whether C_DONE has left, result chunks delivered, telegram pairs received so far. -/
structure BHalf where
  step    : Nat
  attempt : Nat
  leaf    : List Contrib
  closed  : Bool
  inputs  : AMap Chunk
  deliv   : AMap (Chunk × Nat)
  doneSent : Bool
  results : List Nat
  tg      : List (Nat × Nat)
  deriving DecidableEq, Repr

/-- A receive segment (R357, R358): announced rows, rows received, delivered. -/
structure Seg where
  count : Option Nat
  slots : Nat
  got   : Nat
  done  : Bool
  deriving DecidableEq, Repr

/-- Half of an A2A map entry: its pair, segments by source rank. -/
structure AHalf where
  step    : Nat
  attempt : Nat
  segs    : AMap Seg
  deriving DecidableEq, Repr

/-- A collation output that waits for lane credit (R350): its step and bucket order it; the local BKT that it belongs to (R345), 0 for none. -/
structure COut where
  step   : Nat
  bucket : Nat
  bkt    : Nat
  pkt    : Packet
  deriving DecidableEq, Repr

/-- The replicated exchange of R353 at this module: its pair, whether this member has sent its slots, end packets by rank with announced counts, slots added by rank, the down phase begun, slots of the down phase received. -/
structure Exch where
  step    : Nat
  attempt : Nat
  sent    : Bool
  ends    : AMap Nat
  added   : AMap Nat
  down    : Bool
  downGot : Nat
  downNeed : Option Nat
  done    : Bool
  normSent : Bool
  deriving DecidableEq, Repr

/-- Deliveries to a flag in a (step, attempt) (R359). -/
structure FlagCnt where
  step    : Nat
  attempt : Nat
  count   : Nat
  deriving DecidableEq, Repr

/-- The Collators: halves by bucket * 2 + half, map entries by index * 2 + half, exchanges by half, flag counts by flag word * 2 + half. -/
structure Col where
  halves : AMap BHalf
  maps   : AMap AHalf
  outs   : List COut
  exch   : AMap Exch
  flags  : AMap FlagCnt
  deriving DecidableEq, Repr

def Col.reset : Col := { halves := [], maps := [], outs := [], exch := [], flags := [] }

end Sys2Proof.Machine
end

