-- ==== Sys2Proof/Machine/MemTypes.lean ====
section
/-! DEFINITION. State of a DRAM channel (R237 to R260). -/

namespace Sys2Proof.Machine

/-- An entry of the row-error table (R252): the row, and its count. -/
structure RowErr where
  row   : Nat
  count : Nat
  deriving DecidableEq, Repr

/-- A channel: its counters, the latest MR4 code, whether it is above the operating range, the refresh multiple, the row-error table, the rows on its pending-repair list, repairs made and left, the check cache (groups, most recent first). -/
structure Chan where
  ce     : Nat
  ue     : Nat
  poison : Nat
  temp   : Nat
  hot    : Bool
  mult   : Nat
  rows   : List RowErr
  repair : List Nat
  used   : Nat
  avail  : Nat
  hit    : Nat
  rd     : Nat
  wr     : Nat
  rfm    : Nat
  cache  : List Nat
  deriving DecidableEq, Repr

def Chan.reset : Chan :=
  { ce := 0, ue := 0, poison := 0, temp := 0, hot := false, mult := 0, rows := [], repair := [], used := 0, avail := 0, hit := 0, rd := 0, wr := 0, rfm := 0, cache := [] }

/-- Every channel, the scrubber's position of every controller in data lines counted through its channels in order, the controllers whose wipe has begun and is not yet reported complete (R255). -/
structure MemSys where
  chans : AMap Chan
  scrub : AMap Nat
  shut  : List Nat
  deriving DecidableEq, Repr

def MemSys.reset : MemSys := { chans := [], scrub := [], shut := [] }

end Sys2Proof.Machine
end

