-- ==== Sys2Proof/Machine/Ram.lean ====
section
/-! DEFINITION. Byte memories with poison tags (R77, R243 to R247). An unlisted byte reads as 0: the wipe writes 0 (R255) and the model takes 0 for every wiped memory. The canonical form: addresses strictly rising, no listed zero. -/

namespace Sys2Proof.Machine

/-- A byte memory: its non-zero bytes, and the protection units (a Case word, a DRAM line) whose content is poisoned. -/
structure Ram where
  cells  : List Host.Cell
  poison : List Nat
  deriving DecidableEq, Repr

/-- What an address that nothing has written reads as (R255: a wiped line holds zero). -/
def unwritten : Byte := 0

/-- A wiped memory. -/
def Ram.wiped : Ram := { cells := [], poison := [] }

/-- The byte listed for an address. -/
def cellGet : List Host.Cell → Nat → Byte
  | [], _ => unwritten
  | (k, v) :: r, a => if a = k then v else cellGet r a

/-- Inserts a listed byte, keeping addresses rising. -/
def cellPut : List Host.Cell → Nat → Byte → List Host.Cell
  | [], a, b => [(a, b)]
  | (k, v) :: r, a, b =>
    if a < k then (a, b) :: (k, v) :: r
    else if a = k then (a, b) :: r
    else (k, v) :: cellPut r a b

/-- Writes a byte: writing what an unlisted address reads as removes the entry. -/
def cellSet (m : List Host.Cell) (a : Nat) (b : Byte) : List Host.Cell :=
  if b = unwritten then m.filter (fun c => c.1 != a) else cellPut m a b

/-- The canonical form of a cell list above a bound. -/
def cellsOk : Option Nat → List Host.Cell → Bool
  | _, [] => true
  | lo, (k, v) :: r => (match lo with | none => true | some l => decide (l < k)) && v != unwritten && cellsOk (some k) r

/-- Strictly rising numbers. -/
def rising : Option Nat → List Nat → Bool
  | _, [] => true
  | lo, k :: r => (match lo with | none => true | some l => decide (l < k)) && rising (some k) r

/-- The memory is in canonical form. -/
def Ram.wf (m : Ram) : Bool := cellsOk none m.cells && rising none m.poison

/-- One byte. -/
def Ram.get (m : Ram) (a : Nat) : Byte := cellGet m.cells a

/-- Stores one byte, poison tags unchanged. -/
def Ram.set (m : Ram) (a : Nat) (b : Byte) : Ram := { m with cells := cellSet m.cells a b }

/-- `n` bytes from an address. -/
def Ram.read (m : Ram) : Nat → Nat → Bytes
  | _, 0 => []
  | a, n + 1 => m.get a :: m.read (a + 1) n

/-- Stores bytes from an address on. -/
def Ram.write (m : Ram) : Nat → Bytes → Ram
  | _, [] => m
  | a, b :: r => (m.set a b).write (a + 1) r

/-- `n` bytes as a little-endian number. -/
def Ram.readLE (m : Ram) (a n : Nat) : Nat := leNat (m.read a n)

/-- Stores a little-endian number of `n` bytes. -/
def Ram.writeLE (m : Ram) (a n v : Nat) : Ram := m.write a (toLE n v)

/-- Tags a unit as poisoned. -/
def Ram.taint (m : Ram) (u : Nat) : Ram := { m with poison := setIns m.poison u }

/-- Removes a unit's poison tag. -/
def Ram.clean (m : Ram) (u : Nat) : Ram := { m with poison := setDel m.poison u }

/-- The unit is poisoned. -/
def Ram.bad (m : Ram) (u : Nat) : Bool := m.poison.contains u

/-- Some unit of size `g` touched by `n` bytes from `a` is poisoned. -/
def Ram.badIn (m : Ram) (g a n : Nat) : Bool :=
  m.poison.any (fun u => decide (a / g ≤ u) && decide (u * g < a + n))

/-- Stores bytes, and removes the tag of every unit of size `g` that is written whole. -/
def Ram.writeClean (m : Ram) (g a : Nat) (bs : Bytes) : Ram :=
  let w := m.write a bs
  { w with poison := w.poison.filter (fun u => !(decide (a ≤ u * g) && decide ((u + 1) * g ≤ a + bs.length))) }

/-- Sets `n` bytes to 0 and removes every tag in them. -/
def Ram.zero (m : Ram) (g a n : Nat) : Ram :=
  { cells := m.cells.filter (fun c => !(decide (a ≤ c.1) && decide (c.1 < a + n))),
    poison := m.poison.filter (fun u => !(decide (a ≤ u * g) && decide ((u + 1) * g ≤ a + n))) }

end Sys2Proof.Machine
end

