-- ==== Sys2Proof/Machine/TileTypes.lean ====
section
/-! DEFINITION. The state of a Press tile (R72 to R117): Case, Galley banks, general registers, streams, descriptors, sequencer, Tally and Fount slots, movement requests, slice table. -/

namespace Sys2Proof.Machine

/-- Run states of PRS.STATE.RUN (R104). -/
inductive Run where
  | off | idle | running | waiting | yielding | faulted | stopped
  deriving DecidableEq, Repr

/-- The code of a run state (R104). -/
def Run.code : Run → Nat
  | .off => 0 | .idle => 1 | .running => 2 | .waiting => 3 | .yielding => 4 | .faulted => 5 | .stopped => 6

/-- Roles of a physical tile (R72, R104). -/
inductive Role where
  | enabled | spare | retired | disabled
  deriving DecidableEq, Repr

/-- The code of a role (R104). -/
def Role.code : Role → Nat
  | .enabled => 0 | .spare => 1 | .retired => 2 | .disabled => 3

/-- One accumulator: N with its carry extension (136 bits, R54, R55, R96), the sticky flags and the saturation flags (R60). -/
structure Acc where
  sum  : BitVec 136
  nan  : Bool
  pinf : Bool
  ninf : Bool
  satP : Bool
  satN : Bool
  deriving DecidableEq, Repr

/-- A zeroed accumulator (R55). -/
def Acc.clear : Acc := { sum := 0, nan := false, pinf := false, ninf := false, satP := false, satN := false }

/-- What DRAIN leaves for its end (R83, R125): OVF seen by this drain, a non-finite output, the zeroing anchor. -/
structure DrainEnd where
  ovf    : Bool
  nonFin : Bool
  phase  : Bool
  zero   : Option Int
  deriving DecidableEq, Repr

/-- A Galley bank (R54, R55): anchor, product count, LOSS counter, held mark, OVF flag, accumulators by slot i * 64 + j, a drain not yet ended. -/
structure Bank where
  anchor : Int
  count  : Nat
  loss   : Nat
  held   : Bool
  ovf    : Bool
  acc    : AMap Acc
  drain  : Option DrainEnd
  deriving DecidableEq, Repr

/-- A bank after reset. -/
def Bank.reset : Bank := { anchor := 0, count := 0, loss := 0, held := false, ovf := false, acc := [], drain := none }

/-- A K slice in the Forme loader, the Platen or the adder tree: its bank, the instruction it belongs to and its PC, the tile cycles that it takes at M1 (R80, R106), its column of A and row of B (R79 to R82). -/
structure KSlice where
  bankB : Bool
  mma   : Nat
  pc    : Nat
  m1    : Nat
  a     : List FVal
  b     : List FVal
  deriving DecidableEq, Repr

/-- A BKT's content, read at issue (R109): form, step, slot, bucket id, error-term descriptor, element values as FP32 words, whether it was issued in FWD or BWD, TID, OROW and OCOL. -/
structure BktReq where
  form   : Nat
  bucket : Nat
  param  : Nat
  rows   : Nat
  cols   : Nat
  ds     : DescWord
  een    : Bool
  de     : DescWord
  step   : Nat
  attempt : Nat
  slot   : Nat
  phase  : Bool
  deriving DecidableEq, Repr

/-- The operations that carry a completion group (R130). -/
inductive MoveKind where
  | mov (toGlobal : Bool) (gl gr lines : Nat)
  | gath (gl gr edition lines : Nat)
  | signal (ga add : Nat)
  | bkt (r : BktReq)
  | spost (sorter : Nat) (serial : Nat)
  deriving DecidableEq, Repr

/-- An outstanding operation of a completion group (R131): packets without a reply, the first error status, ready to complete; `view` when its local or global range reaches this tile's own Galley views or state block (R85). -/
structure Move where
  serial : Nat
  grp    : Nat
  pc     : Nat
  kind   : MoveKind
  parts  : Nat
  status : Nat
  ready  : Bool
  view   : Bool
  deriving DecidableEq, Repr

/-- What a waiting sequencer waits for (R132). -/
inductive Wait where
  | groups (mask : Nat)
  | flag (equal : Bool) (addr value : Nat)
  | fence (units : Nat)
  | barrier (id : Nat)
  deriving DecidableEq, Repr

/-- One context of the slice table (R98, R136) with its progress: started, ended, the barrier it has reached, whether that barrier has released it. -/
structure Ctx where
  sheet   : Nat
  extent  : Nat
  save    : Nat
  started : Bool
  ended   : Bool
  bar     : Option Nat
  passed  : Bool
  deriving DecidableEq, Repr

/-- A Press tile. `g`, `streams`, `descs`, `lcount`, `lstart`, `lend`, the Tally bins and the Fount slots are sparse: an unlisted item is 0; an unlisted Tally tag is 0xFFFF_FFFF (R129). `stalled` marks the stalls already counted for the instruction at the PC (1 movement, 2 Sorter, 4 collation, 8 layout switch). `atPc` is the PC of the instruction by which the tile yields (R99, R102), `newFault` marks a fault whose own step boundary is still to come (R102; log entry 84), `ran` that the tile has been RUNNING since the reset (R106). -/
structure Tile where
  role     : Role
  logical  : Nat
  run      : Run
  stopWas  : Run
  newFault : Bool
  ran      : Bool
  retire   : Bool
  ready    : Bool
  wiping   : Bool
  mem      : Ram
  bankA    : Bank
  bankB    : Bank
  platen   : List KSlice
  g        : AMap DWord
  streams  : AMap StreamWord
  descs    : AMap DescWord
  pc       : Nat
  atPc     : Nat
  sheet    : Nat
  depth    : Nat
  lcount   : AMap Nat
  lstart   : AMap Nat
  lend     : AMap Nat
  phase    : Nat
  ctx      : Nat
  step     : Nat
  layout   : Nat
  layoutSw : Option Nat
  tlyTag   : AMap Nat
  tlyBin   : AMap Nat
  fntSum   : AMap Nat
  fntCnt   : AMap Nat
  moves    : List Move
  stalled  : Nat
  wait     : Option Wait
  slices   : List Ctx
  freq     : Nat
  opp      : Nat
  deriving DecidableEq, Repr

/-- A tile after reset: powered down, no contexts (R103 to R106). -/
def Tile.reset : Tile :=
  { role := .disabled, logical := 255, run := .off, stopWas := .off, newFault := false, ran := false, retire := false, ready := false, wiping := false,
    mem := Ram.wiped, bankA := Bank.reset, bankB := Bank.reset, platen := [], g := [], streams := [], descs := [],
    pc := 0, atPc := 0, sheet := 0, depth := 0, lcount := [], lstart := [], lend := [], phase := 0, ctx := 0, step := 0,
    layout := 0, layoutSw := none, tlyTag := [], tlyBin := [], fntSum := [], fntCnt := [], moves := [], stalled := 0, wait := none,
    slices := [], freq := 0, opp := 0 }

end Sys2Proof.Machine
end

