-- ==== Sys2Proof/Machine/ParamTypes.lean ====
section
/-! DEFINITION. State of tables, Inkers, the Pending Update Table, Sorters and the Pigeonhole caches (R168 to R236). -/

namespace Sys2Proof.Machine

/-- A table of this module: its directory entry (R169) and its Inker table descriptor (R202). Its areas have the same channel offsets at every Inker of its PLACE set. -/
structure Table where
  id     : Nat
  flags  : Nat
  fmt    : Nat
  width  : Nat
  eT     : Int
  rows   : Nat
  img    : Nat
  blk    : Nat
  nhomes : Nat
  hlBase : Nat
  dense  : Bool
  opt    : Nat
  mfmt   : Nat
  place  : Nat
  lsb    : Int
  tierQp : Nat
  dslots : Nat
  mslots : Nat
  pslots : Nat
  pfreq  : Nat
  ldram  : Nat
  tierBase : Nat
  tierKey : Nat
  recB   : Nat
  seg    : Nat
  delta  : Nat
  jrn    : Nat
  mig    : Nat
  promo  : Nat
  res    : Nat
  deriving DecidableEq, Repr

/-- A dense shard homed at this module (R223, R282). `states` gives the edition state of each payload buffer (R274). -/
structure Shard where
  table  : Nat
  index  : Nat
  ink    : Nat
  coff   : Nat
  elems  : Nat
  states : AMap Nat
  deriving DecidableEq, Repr

/-- Who receives the result of a row operation. -/
inductive Req where
  | lookup (sorter id : Nat)
  | packet (o : OutPkt)
  | gath (tile serial off : Nat)
  | sum (key chunk : Nat)
  deriving DecidableEq, Repr

/-- A queued row operation (R209): 0 READ, 1 CONTRIB, 2 GATHER, 3 DENSE_SUM. -/
structure RowOp where
  kind  : Nat
  table : Nat
  row   : Nat
  step  : Nat
  slot  : Nat
  vals  : List Nat
  addr  : Nat
  len   : Nat
  req   : Req
  deriving DecidableEq, Repr

/-- States of a PUT entry (R230). -/
inductive PutState where
  | open | committed | writingBack
  deriving DecidableEq, Repr

/-- An entry of a Pending Update Table (R230): table, local row, home Inker, step of each half, whether each half holds a contribution, whether the image area holds the record, the image and state that a commit of an unreleased step replaced. -/
structure PutEnt where
  table : Nat
  row   : Nat
  ink   : Nat
  step0 : Option Nat
  step1 : Option Nat
  has0  : Bool
  has1  : Bool
  image : Bool
  state : PutState
  old   : Option (List (BitVec 8) × PutState)
  deriving DecidableEq, Repr

/-- The PUT of a Folio: its data area, its entries by slot. -/
structure PutFolio where
  base : Option Nat
  ents : AMap PutEnt
  deriving DecidableEq, Repr

/-- A tier fetch (R179): the row operation that waits for the record, or the commit item; whether it was issued; its PUT slot; promotion; which waits were counted (1 an RDMA bound, 2 an entry). -/
structure Fetch where
  ink     : Nat
  table   : Nat
  row     : Nat
  step    : Nat
  op      : Option RowOp
  commit  : Bool
  issued  : Bool
  put     : Option Nat
  promote : Bool
  counted : Nat
  deriving DecidableEq, Repr

/-- A write-back by RDMA WRITE (R231, R232): a PUT slot, or a promotion slot that is demoted; the host address and the record. -/
structure Writeback where
  ink    : Nat
  table  : Nat
  row    : Nat
  put    : Option Nat
  step   : Nat
  failed : Bool
  addr   : Nat
  data   : List (BitVec 8)
  deriving DecidableEq, Repr

/-- A staged replacement row (R226, R227): the Inker and slot that hold its image, table, row, the step number it waits for, which step installs it once that one is released, whether it is readable (from the first step boundary after that release). -/
structure Repl where
  ink   : Nat
  slot  : Nat
  table : Nat
  row   : Nat
  atStep : Nat
  ver   : Nat
  keep  : Bool
  ready : Option Nat
  live  : Bool
  deriving DecidableEq, Repr

/-- Progress of a migration at the old home (R228). -/
inductive MigState where
  | reserving | migrating | shipped | forwarding
  deriving DecidableEq, Repr

/-- A forwarding entry at the old home (R228); `key` is the row index that the record has here. -/
structure Mig where
  table : Nat
  row   : Nat
  ink   : Nat
  dest  : Nat
  state : MigState
  epoch : Nat
  reply : Option ReplyTo
  key   : Nat
  deriving DecidableEq, Repr

/-- A row that migrated in, or a reserved slot for one (R228, R229). -/
structure MigIn where
  table : Nat
  row   : Nat
  ink   : Nat
  slot  : Nat
  valid : Bool
  deriving DecidableEq, Repr

/-- Kinds of a commit item (R220, R231). -/
inductive ItemKind where
  | row | shard | put
  deriving DecidableEq, Repr

/-- A commit item: Inker, table, Delta slot, shard index or PUT slot; the row of a row item; its parity deltas not yet answered; failed; counted as waiting for a buffer. -/
structure Item where
  serial : Nat
  step   : Nat
  ink    : Nat
  table  : Nat
  kind   : ItemKind
  idx    : Nat
  row    : Nat
  done   : Bool
  deltas : Nat
  failed : Bool
  waited : Bool
  deriving DecidableEq, Repr

/-- An Inker: its queue of at most 512 row operations, and the operations whose senders are stalled at that bound (R37). -/
structure Inker where
  queue : List RowOp
  held  : List RowOp
  deriving DecidableEq, Repr

/-- A table.create or table.delete that waits for its boundary (R168, R204). -/
structure WaitDelete where
  id    : Nat
  reply : ReplyTo
  deriving DecidableEq, Repr

/-- Parameter state of the module. `optNow` holds each Inker's record in force by inker * 4096 + table, `snaps` the snapshot of each unreleased step, `lists` and the rest come from the active imposition, `jrn` the steps that own the journal areas (R220). -/
structure Params where
  tables  : AMap Table
  creating : List Table
  deleting : List WaitDelete
  shards  : List Shard
  put0    : PutFolio
  put1    : PutFolio
  fetches : List Fetch
  backs   : List Writeback
  repls   : List Repl
  migs    : List Mig
  migIns  : List MigIn
  inks    : AMap Inker
  optNow  : AMap (List (BitVec 8))
  snaps   : AMap (AMap (List (BitVec 8)))
  items   : List Item
  restoring : List Nat
  restoreStep : Option Nat
  hands   : AMap Nat
  deltaOwner0 : Option Nat
  deltaOwner1 : Option Nat
  jrn     : List Nat
  deriving DecidableEq, Repr

def Params.reset : Params :=
  { tables := [], creating := [], deleting := [], shards := [], put0 := { base := none, ents := [] }, put1 := { base := none, ents := [] },
    fetches := [], backs := [], repls := [], migs := [], migIns := [], inks := [], optNow := [], snaps := [], items := [],
    restoring := [], restoreStep := none, hands := [], deltaOwner0 := none, deltaOwner1 := none, jrn := [] }

/-- A way of the Pigeonhole cache (R187): key (table, row), STATIC, filling and the look-up that fills it, use counter, sector bits, the image. -/
structure Way where
  table   : Nat
  row     : Nat
  static  : Bool
  filling : Bool
  filler  : Nat
  use     : Nat
  sectors : Nat
  image   : List (BitVec 8)
  deriving DecidableEq, Repr

/-- A Pigeonhole cache: ways by set * 16 + way, the admission filter by row * 4096 + index, the steps whose COMMIT holds the cache in NOFILL (R191). -/
structure Pgh where
  ways   : AMap Way
  cms    : AMap Nat
  nofill : List Nat
  deriving DecidableEq, Repr

def Pgh.reset : Pgh := { ways := [], cms := [], nofill := [] }

/-- A look-up (R178): its descriptor, bag, position in the bag (for DISPATCH its packed slot), row, weight, the look-up whose cache fill it makes or joins, the data and status that have arrived, the path that served it. -/
structure Lookup where
  id    : Nat
  desc  : Nat
  bag   : Nat
  pos   : Nat
  row   : Nat
  weight : Nat
  fill  : Option Nat
  data  : Option (List (BitVec 8))
  status : Nat
  path  : Nat
  deriving DecidableEq, Repr

/-- An open bag: its length, indices not yet pooled, accumulators by column, top-k candidates by column, packed rows of a DISPATCH by slot. -/
structure OpenBag where
  bag   : Nat
  len   : Nat
  left  : Nat
  acc   : AMap Acc
  tops  : AMap (List (FVal × Nat))
  outs  : List (Nat × List Nat)
  deriving DecidableEq, Repr

/-- A queued descriptor (R171, R173): its copy, who posted it, its step and slot; the next bag and position to issue, the end of its pass, whether a pass issues now, whether its next look-up has been counted as held; the failing bag with its status; open bags; counts of its record; next packed slot of each expert. -/
structure SDesc where
  serial : Nat
  raw    : List (BitVec 8)
  tile   : Nat
  move   : Nat
  step   : Nat
  slot   : Nat
  running : Bool
  held   : Bool
  nextBag : Nat
  nextPos : Nat
  passEnd : Nat
  passes : Nat
  fail   : Option (Nat × Nat)
  bags   : List OpenBag
  indices : Nat
  hits   : Nat
  loc    : Nat
  remote : Nat
  tier   : Nat
  oob    : Nat
  loss   : Nat
  ovf    : Nat
  tvMin  : Nat
  tvMax  : Nat
  nonFin : Nat
  starts : AMap Nat
  deriving DecidableEq, Repr

/-- A Sorter: posts not yet accepted, descriptors queued, look-ups outstanding. -/
structure Sorter where
  posts   : List SDesc
  queue   : List SDesc
  lookups : List Lookup
  deriving DecidableEq, Repr

def Sorter.reset : Sorter := { posts := [], queue := [], lookups := [] }

/-- A parity delta held at its parity home (R380, R384): layer, sender, step, attempt, channel and channel offset of the slot bytes. -/
structure Held where
  layer : Nat
  src   : Nat
  step  : Nat
  chan  : Nat
  coff  : Nat
  data  : List (BitVec 8)
  deriving DecidableEq, Repr

/-- An IMMEDIATE delta that failed and is kept, with the serial of the write that waits for it (R382). -/
structure Kept where
  layer : Nat
  chan  : Nat
  coff  : Nat
  data  : List (BitVec 8)
  serial : Nat
  deriving DecidableEq, Repr

/-- A piece of quiet-period work (R369, R385, R387): layer, kind (0 data unit, 1 parity slot), unit or slot, first line, lines. -/
structure WorkItem where
  layer : Nat
  kind  : Nat
  index : Nat
  line  : Nat
  lines : Nat
  deriving DecidableEq, Repr

/-- The work of a quiet period at this module: its reason, the item that is rebuilt now, items in all, the listed items of a REPAIR, UNIT_READ replies missing, the XOR so far, whether the current item failed, and how many have. -/
structure Job where
  reason : Nat
  next   : Nat
  total  : Nat
  items  : List WorkItem
  wait   : Nat
  acc    : List (BitVec 8)
  bad    : Bool
  failed : Nat
  deriving DecidableEq, Repr

/-- Redundancy state (R365 to R392): held and kept deltas; the quiet period at a member (reason, chip, QUIET sent, its work, lines it asks to have repaired); at the leader (the period it runs, QUIETs, PAR_DONEs, chips that asked for repair, rebuilds to come, PROBEs sent to suspects); the heartbeat counter. -/
structure Resil where
  held     : List Held
  kept     : List Kept
  busy     : Option Nat
  busyChip : Nat
  quietSent : Bool
  job      : Option Job
  asks     : List WorkItem
  lead     : Option (Nat × Nat)
  quiets   : List Nat
  dones    : List Nat
  repairs  : List Nat
  rebuilds : List (Nat × Nat)
  suspects : AMap Nat
  beat     : Nat
  deriving DecidableEq, Repr

def Resil.reset : Resil :=
  { held := [], kept := [], busy := none, busyChip := 0, quietSent := false, job := none, asks := [], lead := none, quiets := [], dones := [],
    repairs := [], rebuilds := [], suspects := [], beat := 0 }

end Sys2Proof.Machine
end

