-- ==== Sys2Proof/Machine/PowTypes.lean ====
section
/-! DEFINITION. State of the Seal, the flash and fuses, the Ledger, power and thermal control, the Dateline, the Pouches and the TAP (R445 to R516, R534, R535). -/

namespace Sys2Proof.Machine

/-- The Seal's fuses (R462). A key-hash slot that is not listed is empty. -/
structure Fuses where
  uds     : Bytes
  eHash   : AMap Bytes
  lHash   : AMap Bytes
  eRevoke : Nat
  lRevoke : Nat
  svnMin  : Nat
  lc      : Nat
  serial  : Nat
  deriving DecidableEq, Repr

/-- What an endorsement of R470 covers: measurement, life-cycle code, SVN, ALIAS_GEN, and the DeviceID index that signed it. -/
structure Endorse where
  meas : Bytes
  lc   : Nat
  svn  : Nat
  gen  : Nat
  devQ : Nat
  deriving DecidableEq, Repr

/-- A Ledger record (R478): its bytes below the TAG but for the endorsement's keys and signatures, which follow from `endorse`; `ok` says whether its MAGIC, TAG and CHECK are valid. -/
structure LRec where
  seq     : Nat
  data    : Ram
  endorse : Option Endorse
  ok      : Bool
  deriving DecidableEq, Repr

/-- The Seal with what it holds in the flash: fuses, record slots by bank * 1024 + slot, firmware slots, the current record, updates that wait for the next record (R480), the running image, the state of its registers. -/
structure Seal where
  fuses    : Fuses
  recs     : AMap LRec
  images   : AMap Bytes
  cur      : LRec
  updates  : List (Nat × Bytes)
  counters : AMap Nat
  cfg      : AMap (BitVec 8)
  phase    : Nat
  slot     : Nat
  fallback : Bool
  svn      : Nat
  meas     : Bytes
  ldgPhase : Nat
  booted   : Bool
  target   : Option Nat
  deriving DecidableEq, Repr

/-- Power and thermal (R490 to R512): the board's PWR_GOOD, domain STATUS values (unlisted: OFF), throttle levels, programmed and effective points by logical tile, sensors in 1/8 degree as int16 codes, the power, a trip, THERM_TRIP_N low, the sampled straps. -/
structure Power where
  good    : Bool
  dom     : AMap Nat
  level   : AMap Nat
  prog    : AMap Nat
  force   : AMap Nat
  sensors : AMap Nat
  watts   : Nat
  tripped : Bool
  thermN  : Bool
  strap   : Nat
  deriving DecidableEq, Repr

/-- What a time.arm waits for (R506). -/
structure Arm where
  pps     : Bool
  ptp     : Bool
  seconds : Nat
  deriving DecidableEq, Repr

/-- The Dateline (R505 to R507): the fraction in 10^-9 ns, the servo's integ, a waiting arm, seconds in a row with an offset above 1 ms, the master's time minus the Dateline at the latest PTP measurement. -/
structure Dateline where
  frac   : Int
  integ  : Int
  arm    : Option Arm
  late   : Nat
  master : Option Int
  deriving DecidableEq, Repr

/-- A word of a Pouch (R447, R449). -/
structure PouchWord where
  data   : Bytes
  last   : Bool
  poison : Bool
  deriving DecidableEq, Repr

/-- A Pouch: its words, oldest first, and whether its consumer has begun to read a packet (R445, R451). -/
structure Pouch where
  words : List PouchWord
  begun : Bool
  deriving DecidableEq, Repr

/-- The selected TAP instruction (R534, R535). -/
inductive TapIns where
  | bypass | idcode | boundary | acBoundary | factory | blankToTest
  deriving DecidableEq, Repr

/-- The live firmware replacement (R508, R509): waiting for its boundary, or paused. -/
inductive Handover where
  | none | waiting | paused
  deriving DecidableEq, Repr

/-- Management: the handover and who waits for firmware.activate, the slot of the old image, the wipe commands that wait, VALUE_LO writes staged by Postmark unit (R460), whether the tiles have tested themselves since the reset. -/
structure Mgmt where
  handover : Handover
  activate : Option (Nat × Nat)
  oldSlot  : Nat
  wipes    : List (Nat × Nat)
  stage    : AMap Nat
  selfTested : Bool
  deriving DecidableEq, Repr

def Mgmt.reset : Mgmt := { handover := .none, activate := none, oldSlot := 0, wipes := [], stage := [], selfTested := false }

def Dateline.reset : Dateline := { frac := 0, integ := 0, arm := none, late := 0, master := none }

/-- Domains 181 and 182 are on whenever PWR_GOOD is high (R493). -/
def Power.reset : Power :=
  { good := true, dom := [(181, 1), (182, 1)], level := [], prog := [], force := [], sensors := [], watts := 0, tripped := false, thermN := false, strap := 0 }

/-- Role of a physical tile in the repair map at manufacture (log entry 3): of each Folio the first 64 tiles are enabled, the last four spare. -/
def factoryTile (p : Nat) : Nat := if p % 68 < 64 then (p / 68 * 64 + p % 68) * 256 else 1

/-- The bytes of the TILES section that are not 0. -/
def factoryCells : List Host.Cell :=
  [(0, 0x47), (1, 0x4C), (2, 0x4D), (3, 0x4C), (4, 1), (6, 1), (8, 1), (0x40, 3), (0x41, 0xFF), (0x51, 0xFF), (0x905, 2)]
  ++ (List.range 272).filterMap (fun i =>
    let v := factoryTile (i / 2) / 256 ^ (i % 2) % 256
    if v = 0 then none else some (0x1100 + i, BitVec.ofNat 8 v))

/-- The newest record at reset (log entry 3). -/
def factoryRecord : LRec := { seq := 1, data := { cells := factoryCells, poison := [] }, endorse := none, ok := true }

/-- The fuses at reset (log entry 3): life cycle FIELD; the key hashes and the UDS are free values. -/
def factoryFuses : Fuses :=
  { uds := Config.factoryUds, eHash := [(0, Config.factoryKeyHash 0)], lHash := [(0, Config.factoryKeyHash 1)], eRevoke := 0, lRevoke := 0, svnMin := 0, lc := 7, serial := 0 }

def Seal.reset : Seal :=
  { fuses := factoryFuses, recs := [(1024, factoryRecord)], images := [(0, Config.factoryImage 0), (1, Config.factoryImage 1)], cur := factoryRecord, updates := [],
    counters := [], cfg := [], phase := 0, slot := 0, fallback := false, svn := 0, meas := [], ldgPhase := 0, booted := false, target := none }

end Sys2Proof.Machine
end

