-- ==== Sys2Proof/Machine/State.lean ====
section
/-! DEFINITION. The state of the module. -/

namespace Sys2Proof.Machine

/-- The block never faults: every error that the spec describes is an effect (a status, an event, a tile fault, a fence). Nothing raises this reason; it stands because the outcome type asks for one. Safe. -/
inductive Fault where
  | none
  deriving DecidableEq, Repr

/-- Reasons to refuse a command. -/
inductive Refusal where
  /-- Raised by an arm of `exec` without a meaning yet, with the command's mnemonic. Safe: nothing follows about such a command. -/
  | notModelled (mnemonic : String)
  deriving DecidableEq, Repr

/-- A queue's subscription (R420): a bitmap of pages, HEARTBEAT, the next SEQ of its letters. -/
structure Sub where
  pages : Nat
  beat  : Bool
  next  : Nat
  deriving DecidableEq, Repr

/-- A letter (R419): queue, SEQ, and the fields of its body. -/
structure Letter where
  queue : Nat
  seq   : Nat
  kind  : Nat
  bit   : Nat
  page  : Nat
  count : Nat
  time  : Nat
  step  : Nat
  err   : Nat
  info  : Nat
  deriving DecidableEq, Repr

structure State where
  regs     : AMap Word
  heldOld  : AMap Word
  captured : AMap Word
  tiles    : AMap Tile
  dram     : Ram
  mem      : MemSys
  par      : Params
  pgh      : AMap Pgh
  sorters  : AMap Sorter
  res      : Resil
  spv      : Spv
  eth      : Eth
  col      : Col
  subs     : AMap Sub
  letters  : List Letter
  withheld : AMap Nat
  fmn      : Foreman
  num      : Num
  imp      : ImpCtl
  fab      : Fabric
  fencing  : Option Nat
  sel      : Seal
  power    : Power
  dateline : Dateline
  mgmt     : Mgmt
  pouches  : AMap Pouch
  tap      : TapIns
  answer   : Nat
  readData : Word
  serial   : Nat
  freeCtr  : Nat
  pending  : List Instr
  deriving DecidableEq, Repr

/-- A tile's role and logical number as a repair-map entry gives them (R73, R478). -/
def Tile.mapped (t : Tile) (e : Nat) : Tile :=
  let r := e % 4
  { t with role := if r = 0 then .enabled else if r = 1 then .spare else if r = 2 then .retired else .disabled,
           logical := if r = 0 then e / 256 % 128 else 255 }

/-- The tiles at reset: powered off, roles from the repair map (R104, log entry 3). -/
def factoryTiles : AMap Tile := (List.range 136).map (fun p => (p, Tile.reset.mapped (factoryTile p)))

def State.reset : State :=
  { regs := [], heldOld := [], captured := [], tiles := factoryTiles, dram := Ram.wiped, mem := MemSys.reset, par := Params.reset, pgh := [], sorters := [], res := Resil.reset, spv := Spv.reset, eth := Eth.reset, col := Col.reset, subs := [], letters := [], withheld := [], fmn := Foreman.reset, num := Num.reset, imp := ImpCtl.reset, fab := Fabric.reset, fencing := none, sel := Seal.reset, power := Power.reset, dateline := Dateline.reset, mgmt := Mgmt.reset, pouches := [], tap := .idcode, answer := 0, readData := 0, serial := 0, freeCtr := 0, pending := [] }

end Sys2Proof.Machine
end

