-- ==== Sys2Proof/Machine/Regs.lean ====
section
/-! DEFINITION. The register tables of the spec: reset values, write masks, fields that apply at step boundary, planes (R15, R16, R30, R34, R435 to R438 and the register tables of each chapter). -/

namespace Sys2Proof.Machine

/-- Where a register lives in the register file: page * 1024 + offset / 4. -/
def regKey (page off : Nat) : Nat := page * 1024 + off / 4

/-- ALG of a Postmark unit (R452, R454). -/
def unitAlg (u : Nat) : Nat := if u = 5 then 2 else if 6 ≤ u ∧ u ≤ 9 then 3 else 0

/-- Initial value of an algorithm (R452). -/
def algInit (alg : Nat) : Nat := if alg = 0 ∨ alg = 1 then 0xFFFFFFFF else if alg = 2 then 0 else 0xFFFF

/-- REQ is honoured for the page (R493). -/
def pwrSw (b : Blk) (i : Nat) : Bool :=
  match b with
  | .srt => true | .pgh => true | .ppt => true | .prf => decide (i < 12) | _ => false

/-- The page records error codes (R437). -/
def errPage : Blk → Bool
  | .glb => true | .prs => true | .mem => true | .fmn => true | .rte => true | .col => true | .eth => true | .spv => true | .sel => true
  | .ldg => true | .pwr => true | .pmk => true | _ => false

/-- The power domain of a page (R493). -/
def domainOf (b : Blk) (i : Nat) : Nat :=
  match b with
  | .prs => i | .srt => 136 + i | .ink => 144 + i / 8 | .mem => 144 + i | .pgh => 160 + i | .spn => 162
  | .ppt => 166 + i | .prf => if i < 12 then 166 + i else 178 | .eth => 178 | .spv => 178 | .rte => 179 | .col => 180
  | .pms => 181 | .glb => 181 | .dtl => 181 | .pwr => 181 | .sel => 182 | .ldg => 182 | _ => 183

/-- PAGE_MAPn (R461). -/
def pageMap (n : Nat) : Nat :=
  (List.range 32).foldl (fun x i => if (pageBlk (32 * n + i)).isSome then x + 2 ^ i else x) 0

/-- Reset value of a block-specific register, where it is not 0 (the register tables of each chapter). -/
def blkReset (b : Blk) (i off : Nat) : Nat :=
  match b, off with
  | .glb, 0x040 => 0x8620
  | .glb, 0x054 => 0xC8
  | .num, 0x008 => 7
  | .num, 0x040 => 0x1020E000
  | .num, 0x044 => 0x7D0
  | .num, 0x048 => 0x10
  | .num, 0x04C => 0x10
  | .num, 0x050 => 0x3E8
  | .num, 0x060 => 0x3F
  | .num, 0x06C => 0x3F800000
  | .pgh, 0x008 => 5
  | .pgh, 0x070 => 0x2000
  | .ink, 0x008 => 7
  | .mem, 0x008 => 1
  | .mem, 0x040 => 0x22
  | .mem, 0x044 => 0x18
  | .fmn, 0x008 => 1
  | .fmn, 0x048 => 0xFA
  | .prf, 0x008 => 0x50
  | .ppt, 0x00C => 0x3FFF
  | .ppt, 0x068 => 0xA
  | .rte, 0x008 => 1
  | .rte, 0x048 => 0x14
  | .rte, 0x04C => 4
  | .pms, 0x040 => 0x000A03E8
  | .spn, 0x00C => 0xF0000000 + 0x10 * 2 ^ 15 + 0x10 * 2 ^ 10 + 0x10 * 2 ^ 5 + 0x10
  | .eth, 0x008 => 0xFF40
  | .eth, 0x084 => 0x6436
  | .eth, 0x088 => 0x800
  | .eth, 0x08C => 0x3E8
  | .spv, 0x078 => 0x64
  | .spv, 0x07C => 2
  | .pmk, 0x008 => unitAlg i * 4
  | .pmk, 0x00C => (if i < 10 then i else 0xF) * 16 + unitAlg i * 4
  | .pmk, 0x040 => 0xFFFFFFFF
  | .sel, 0x070 => 0xFF
  | .pwr, 0x008 => 3
  | .pwr, 0x040 => 0x320
  | .pwr, 0x044 => 0x5AA
  | .dtl, 0x008 => 1
  | _, _ => 0

/-- Reset value of a register; PWR.STATUS and the registers that show other state are views (`regView`). -/
def resetVal (page off : Nat) : Word :=
  match pageBlk page with
  | none => 0
  | some (b, i) =>
    if off = 0 then BitVec.ofNat 32 (b.code * 2 ^ 24 + i * 2 ^ 16 + 0x0201)
    else if off = 4 then BitVec.ofNat 32 (b.events * 2 ^ 10 + b2n (pwrSw b i) * 2 ^ 9 + b2n (errPage b) * 2 ^ 8)
    else if off = 0x18 then BitVec.ofNat 32 (2 ^ b.events - 1)
    else if off = 0x30 then BitVec.ofNat 32 (domainOf b i * 256 + 1)
    else if b = .glb ∧ 0x60 ≤ off ∧ off < 0xA0 then BitVec.ofNat 32 (pageMap ((off - 0x60) / 4))
    else BitVec.ofNat 32 (blkReset b i off)

/-- The RW bits of a register (R15); all other bits are not changed by a plain write. -/
def rwMask (b : Blk) (i off : Nat) : Nat :=
  if off = 0x18 then 2 ^ b.events - 1
  else if off = 0x30 then b2n (pwrSw b i)
  else match b, off with
  | .glb, 0x054 => 0xFFFF
  | .prs, 0x008 => 3
  | .num, 0x008 => 0xF
  | .num, 0x040 => 0xFFFFFF00
  | .num, 0x044 => 0xFFFF
  | .num, 0x04C => 0x7F
  | .num, 0x050 => 0xFFFF
  | .num, 0x058 => 0xFFFFFFFF
  | .num, 0x05C => 0xFFFFFFFF
  | .num, 0x060 => 0x3F
  | .num, 0x080 => 0xFFFF8000
  | .num, 0x084 => 0x7FFF
  | .num, 0x088 => 0xFFFF8000
  | .num, 0x08C => 0x7FFF
  | .num, 0x094 => 0x3FF
  | .num, 0x098 => 0xFFFFFFFF
  | .num, 0x09C => 0xEFFCFFFF
  | .srt, 0x008 => 1
  | .srt, 0x070 => 0xFFF
  | .pgh, 0x008 => 0x1F
  | .ink, 0x008 => 7
  | .ink, 0x098 => 0xFFFC0000
  | .ink, 0x09C => 0x7FFF
  | .ink, 0x0A8 => 0xFFF
  | .mem, 0x008 => 1
  | .mem, 0x044 => 0xFF
  | .mem, 0x050 => 7
  | .fmn, 0x008 => 3
  | .fmn, 0x040 => 0xFFFFFFFF
  | .fmn, 0x044 => 0xFFFFFFFF
  | .fmn, 0x048 => 0xFFFF
  | .fmn, 0x04C => 0xFF
  | .fmn, 0x064 => 0xFFFFF000
  | .fmn, 0x068 => 0x7FFF
  | .fmn, 0x06C => 0xFFF80000
  | .fmn, 0x070 => 0x7FFF
  | .fmn, 0x078 => 0xFFFFFFFF
  | .prf, 0x008 => 0xFF73
  | .ppt, 0x008 => 0x1B
  | .ppt, 0x068 => 0xFF
  | .rte, 0x008 => 1
  | .rte, 0x040 => 0x3FFF
  | .rte, 0x044 => 0xFFFFFF
  | .rte, 0x048 => 0x3FF
  | .rte, 0x04C => 0xF
  | .rte, 0x050 => 0xFFFF
  | .rte, 0x054 => 0xFFFFFFFF
  | .col, 0x040 => 0xFFFF0000
  | .col, 0x044 => 0x7FFF
  | .col, 0x048 => 0xFFFF0000
  | .col, 0x04C => 0x7FFF
  | .pms, 0x040 => 0xFFFFFFFF
  | .eth, 0x008 => 0xFF7C
  | .eth, 0x084 => 0x7777
  | .eth, 0x088 => 0xFFFF
  | .eth, 0x08C => 0xFFFF
  | .spv, 0x078 => 0x3FFF
  | .spv, 0x088 => 0x3F
  | .pmk, 0x008 => 0xC
  | .pmk, 0x040 => 0xFFFFFFFF
  | .pmk, 0x044 => 0xFFFFFFFF
  | .pmk, 0x050 => 0xFFFFFFFF
  | .pmk, 0x054 => 0xFFFFFFFF
  | .ldg, 0x050 => 0xF
  | .ldg, 0x05C => 0x7FC
  | .ldg, 0x060 => 0xFFFFFFFF
  | .pwr, 0x008 => 3
  | .pwr, 0x040 => 0xFFFF
  | .pwr, 0x044 => 0xFFFF
  | .pwr, 0x054 => 0x3F
  | .pwr, 0x05C => 0xFF
  | .pwr, 0x060 => 7
  | .dtl, 0x008 => 1
  | .dtl, 0x050 => 0xFFFFFFFF
  | .dtl, 0x058 => 0xFFFF
  | _, _ => 0

/-- Bits of a register that act when written and read as 0 (WO), R15. -/
def actMask (b : Blk) (off : Nat) : Nat :=
  match b, off with
  | .num, 0x040 => 1
  | .num, 0x0A4 => 0x8000
  | .prf, 0x008 => 0xC
  | .ppt, 0x008 => 0x20
  | .eth, 0x008 => 2
  | .pmk, 0x008 => 3
  | .pmk, 0x048 => 0xFFFFFFFF
  | .pmk, 0x04C => 0xFFFFFFFF
  | .ldg, 0x008 => 3
  | _, _ => 0

/-- RW bits marked "applies at step boundary" (R34). -/
def boundMask (b : Blk) (off : Nat) : Nat :=
  match b, off with
  | .prs, 0x008 => 2
  | .num, 0x008 => 0xF
  | .num, 0x040 => 0xFFFFFF01
  | .num, 0x044 => 0xFFFF
  | .num, 0x04C => 0x7F
  | .num, 0x050 => 0xFFFF
  | .num, 0x058 => 0xFFFFFFFF
  | .num, 0x05C => 0xFFFFFFFF
  | .num, 0x060 => 0x3F
  | .num, 0x080 => 0xFFFF8000
  | .num, 0x084 => 0x7FFF
  | .num, 0x088 => 0xFFFF8000
  | .num, 0x08C => 0x7FFF
  | .srt, 0x008 => 1
  | .pgh, 0x008 => 0x1F
  | .ink, 0x008 => 7
  | .ink, 0x098 => 0xFFFC0000
  | .ink, 0x09C => 0x7FFF
  | .fmn, 0x048 => 0xFFFF
  | .fmn, 0x064 => 0xFFFFF000
  | .fmn, 0x068 => 0x7FFF
  | .fmn, 0x06C => 0xFFF80000
  | .fmn, 0x070 => 0x7FFF
  | .ppt, 0x008 => 0x18
  | .rte, 0x008 => 1
  | .pwr, 0x060 => 7
  | _, _ => 0

/-- The block of page index `i` belongs to the data plane (R30). A Postmark unit belongs to the plane of its path (R454): units 0 and 1 serve the fabric. -/
def dataPlane (b : Blk) (i : Nat) : Bool :=
  match b with
  | .prs => true | .srt => true | .pgh => true | .ink => true | .mem => true | .spn => true | .rte => true | .col => true | .ppt => true
  | .eth => true | .pmk => decide (i < 2) | _ => false

/-- Registers that are the low half of a 64-bit quantity (R17). -/
def loHalf (b : Blk) (off : Nat) : Bool :=
  match b with
  | .prs => off == 0x050 || off == 0x080 || off == 0x088
  | .num => off == 0x080 || off == 0x088 || off == 0x0A8
  | .srt => off == 0x040
  | .pgh => off == 0x040 || off == 0x048
  | .ink => off == 0x040 || off == 0x098 || off == 0x0A0
  | .mem => off == 0x070 || off == 0x078 || off == 0x084
  | .fmn => off == 0x040 || off == 0x054 || off == 0x064 || off == 0x06C
  | .prf => off == 0x040
  | .ppt => off == 0x040 || off == 0x078 || off == 0x080
  | .col => off == 0x040 || off == 0x048 || off == 0x050
  | .pms => off == 0x048 || off == 0x050
  | .eth => off == 0x040 || off == 0x048
  | .spv => off == 0x040 || off == 0x068
  | .pmk => off == 0x040 || off == 0x050 || off == 0x058 || off == 0x060
  | .glb => off == 0x044
  | .ldg => off == 0x040 || off == 0x054
  | .pwr => off == 0x04C
  | .dtl => off == 0x040 || off == 0x048 || off == 0x05C
  | _ => false

end Sys2Proof.Machine
end

