-- ==== Sys2Proof/Machine/Flags.lean ====
section
/-! DEFINITION. Registers as stored, counters, and the event registers of every page: latching, counting, error codes, letters (R433, R439 to R444, R420 to R422). -/

namespace Sys2Proof.Machine

/-- A register as stored in the register file. -/
def State.reg (s : State) (page off : Nat) : Word := kvGet s.regs (regKey page off) (resetVal page off)

/-- Stores a register. -/
def State.setReg (s : State) (page off : Nat) (v : Word) : State := { s with regs := kvSet s.regs (regKey page off) v }

/-- A register as a number. -/
def State.regN (s : State) (page off : Nat) : Nat := (s.reg page off).toNat

/-- Stores a number in a register. -/
def State.setN (s : State) (page off v : Nat) : State := s.setReg page off (BitVec.ofNat 32 v)

/-- The value in force: the held one for fields that wait for the boundary (R34). -/
def State.inForce (s : State) (page off : Nat) : Nat := ((kvFind s.heldOld (regKey page off)).getD (s.reg page off)).toNat

/-- A pair of registers as one 64-bit number (R17). -/
def State.reg64 (s : State) (page off : Nat) : Nat := s.regN page off + s.regN page (off + 4) * 2 ^ 32

/-- The 64-bit value in force of a register pair. -/
def State.inForce64 (s : State) (page off : Nat) : Nat := s.inForce page off + s.inForce page (off + 4) * 2 ^ 32

/-- Stores a 64-bit number in a pair. -/
def State.set64 (s : State) (page off v : Nat) : State := (s.setN page off (v % 2 ^ 32)).setN page (off + 4) (v / 2 ^ 32)

/-- Adds to a saturating counter register. -/
def State.bump (s : State) (page off n : Nat) : State := s.setN page off (satAdd32 (s.regN page off) n)

/-- Adds to a 64-bit counter pair, saturating. -/
def State.bump64 (s : State) (page off n : Nat) : State := s.set64 page off (satAdd64 (s.reg64 page off) n)

/-- A bit field of a register. -/
def State.field (s : State) (page off lo len : Nat) : Nat := wfld (s.reg page off) lo len

/-- Replaces a bit field of a register. -/
def State.setField (s : State) (page off lo len v : Nat) : State := s.setReg page off (wset (s.reg page off) lo len v)

/-- The number of letters that await sending and count toward the bound (R422: HEARTBEAT letters do not count). -/
def State.lettersWaiting (s : State) : Nat := (s.letters.filter (fun l => l.kind != 1)).length

/-- The step number of an event (R35): the step that ends at the boundary under way, else the newest opened step (log entry 16). -/
def State.curStep (s : State) : Nat := match s.fmn.ending with | some n => n | none => s.reg64 pgFMN 0x054

/-- The queue has a connected queue pair. -/
def State.connected (s : State) (q : Nat) : Bool := (kvGet s.spv.queues q CmdQueue.reset).qp.isSome

/-- Queues subscribed to a page, in increasing order; the letters of a disconnected one are discarded (R420). -/
def State.subscribers (s : State) (page : Nat) : List Nat := (s.subs.filter (fun p => bitOf p.2.pages page && s.connected p.1)).map (·.1)

/-- Appends a letter for a queue with its next SEQ (R419). -/
def State.pushLetter (s : State) (q : Nat) (mk : Nat → Letter) : State :=
  match kvFind s.subs q with
  | none => s
  | some u => { s with letters := s.letters ++ [mk u.next], subs := kvSet s.subs q { u with next := u.next + 1 } }

/-- EVT_PEND and EVT_COUNT of a latch (R441). -/
def State.latchRaw (s : State) (page bit : Nat) : State :=
  let s1 := s.setReg page 0x014 (s.reg page 0x014 ||| BitVec.ofNat 32 (2 ^ bit))
  s1.bump page 0x020 1

/-- R420, R422: the EVENT letters of a latch, or the withholding of them at the bound; SPV_LETTER_OVF (bit 5) latches without letters of its own when the bound is full. -/
def State.letter (s : State) (page bit step time : Nat) : State :=
  if bitOf (s.regN page 0x018) bit then
    let subs := s.subscribers page
    if subs.isEmpty then s
    else if 1024 ≤ s.lettersWaiting || kvHas s.withheld page then
      let s1 := { s with withheld := kvSet s.withheld page (kvGet s.withheld page 0 + 1) }
      (s1.bump pgSPV 0x074 subs.length).latchRaw pgSPV 5
    else
      subs.foldl (fun x q => x.pushLetter q (fun n =>
        { queue := q, seq := n, kind := 0, bit := bit, page := page, count := x.regN page 0x020, time := time, step := step,
          err := x.regN page 0x024, info := x.reg64 page 0x028 })) s
  else s

/-- An event latches, with the step number of its block (R35, R441, R444). -/
def State.latchAt (s : State) (page bit step : Nat) : State :=
  (s.latchRaw page bit).letter page bit step (s.reg64 pgDTL 0x040)

/-- An event latches (R441). -/
def State.latch (s : State) (page bit : Nat) : State := s.latchAt page bit s.curStep

/-- The error registers of a page (R439). -/
def State.setErr (s : State) (page code lo hi : Nat) : State :=
  ((s.setN page 0x024 code).setN page 0x028 lo).setN page 0x02C hi

/-- An event with an error code latches: the error registers are written in the same cycle (R439). -/
def State.latchErr (s : State) (page bit code lo hi : Nat) : State := (s.setErr page code lo hi).latch page bit

/-- A state event begins (bit of EVT_RAW set, latch) or stops holding (R440, R441). -/
def State.stateEvent (s : State) (page bit : Nat) (holds : Bool) : State :=
  let raw := s.regN page 0x010
  if holds then
    if bitOf raw bit then s else (s.setN page 0x010 (setFld raw bit 1 1)).latch page bit
  else s.setN page 0x010 (setFld raw bit 1 0)

end Sys2Proof.Machine
end

