-- ==== Sys2Proof/Machine/Galley.lean ====
section
/-! DEFINITION. The exact accumulator: entry of products (R60), results (R61), anchors (R57), the image, raw and state-block views of a tile (R95 to R97, R117). -/

namespace Sys2Proof.Machine

/-- Slots per bank. -/
def slots : Nat := 4096

/-- The accumulator of a slot. -/
def Bank.at (b : Bank) (i : Nat) : Acc := kvGet b.acc i Acc.clear

/-- Zeroing (R55): sets the anchor and clears everything else of the bank but its held mark. -/
def Bank.zero (b : Bank) (anchor : Int) : Bank :=
  { b with anchor := anchor, count := 0, loss := 0, ovf := false, acc := [] }

/-- Clamp to the range of a signed 16-bit anchor (R57). -/
def clamp16 (x : Int) : Int := if x < -32768 then -32768 else if 32767 < x then 32767 else x

/-- Outcome of entering one product: the accumulator, LOSS +1, bank OVF. -/
structure Entered where
  acc  : Acc
  loss : Bool
  ovf  : Bool
  deriving DecidableEq, Repr

/-- R60: one exact product enters an accumulator under anchor `a`. -/
def Acc.enter (c : Acc) (a : Int) : FVal → Entered
  | .nan => { acc := { c with nan := true }, loss := false, ovf := false }
  | .inf s => { acc := if s then { c with ninf := true } else { c with pinf := true }, loss := false, ovf := false }
  | .fin s m e =>
    if m = 0 then { acc := c, loss := false, ovf := false }
    else if a + 31 ≤ (m.log2 : Int) + e then
      { acc := if s then { c with satN := true } else { c with satP := true }, loss := false, ovf := true }
    else
      let lsb := a - 80
      let t := if lsb ≤ e then m <<< (e - lsb).toNat else m >>> (lsb - e).toNat
      let lost := if lsb ≤ e then false else decide (m % 2 ^ (lsb - e).toNat ≠ 0)
      { acc := { c with sum := c.sum + (if s then - BitVec.ofNat 136 t else BitVec.ofNat 136 t) }, loss := lost, ovf := false }

/-- The upper end of the window, as N. -/
def windowTop : Int := 2 ^ 111 - 1
/-- The lower end of the window, as N. -/
def windowLow : Int := - 2 ^ 111

/-- R61: the result of an accumulator: NaN, an infinity, or N; and whether the drain sets OVF. -/
inductive AccRes where
  | nan
  | inf (neg : Bool)
  | num (n : Int) (ovf : Bool)
  deriving DecidableEq, Repr

/-- R61, by the first matching row. -/
def Acc.result (c : Acc) : AccRes :=
  let n := c.sum.toInt
  if c.nan || (c.pinf && c.ninf) then .nan
  else if c.pinf then .inf false
  else if c.ninf then .inf true
  else if c.satP && c.satN then .num (if n < 0 then windowLow else windowTop) true
  else if c.satP then .num windowTop true
  else if c.satN then .num windowLow true
  else if windowTop < n then .num windowTop true
  else if n < windowLow then .num windowLow true
  else .num n false

/-- The result as an exact value at weight 2^w per unit. -/
def AccRes.value (w : Int) : AccRes → FVal
  | .nan => .nan
  | .inf s => .inf s
  | .num n _ => FVal.ofInt n w

/-- The result sets OVF. -/
def AccRes.setsOvf : AccRes → Bool
  | .num _ o => o
  | _ => false

/-- The 112-bit image that a memory read gives (R56). R61's NaN and infinities have no 112-bit number in the spec: a free value (log entry 9). -/
def Acc.image (c : Acc) : BitVec 112 :=
  match c.result with
  | .num n _ => BitVec.ofInt 112 n
  | .nan => Config.nonFiniteImage 0
  | .inf false => Config.nonFiniteImage 1
  | .inf true => Config.nonFiniteImage 2

/-- A write of an image (R56): sets N, sign-extends into the extension, clears the sticky flags. -/
def Acc.setImage (c : Acc) (n : BitVec 112) : Acc :=
  { c with sum := n.signExtend 136, nan := false, pinf := false, ninf := false }

/-- The flag byte of the raw view (R96). -/
def Acc.flags (c : Acc) : Nat := b2n c.nan + 2 * b2n c.pinf + 4 * b2n c.ninf + 8 * b2n c.satP + 16 * b2n c.satN

/-- Byte `k` of the raw view of an accumulator (R96). -/
def Acc.rawByte (c : Acc) (k : Nat) : Byte :=
  if k < 17 then BitVec.ofNat 8 (c.sum.toNat >>> (8 * k)) else if k = 17 then BitVec.ofNat 8 c.flags else 0

/-- A write of one byte of the raw view (R96). -/
def Acc.setRawByte (c : Acc) (k : Nat) (v : Byte) : Acc :=
  if k < 17 then { c with sum := BitVec.ofNat 136 (setFld c.sum.toNat (8 * k) 8 v.toNat) }
  else if k = 17 then
    { c with nan := v.getLsbD 0, pinf := v.getLsbD 1, ninf := v.getLsbD 2, satP := v.getLsbD 3, satN := v.getLsbD 4 }
  else c

/-- Sets an accumulator; a cleared one is not listed. -/
def Bank.put (b : Bank) (i : Nat) (c : Acc) : Bank :=
  { b with acc := if c = Acc.clear then kvDel b.acc i else kvSet b.acc i c }

/-- A byte of the image view of a bank (R96). -/
def Bank.imageByte (b : Bank) (off : Nat) : Byte :=
  let k := off % 16
  if k < 14 then BitVec.ofNat 8 ((b.at (off / 16)).image.toNat >>> (8 * k)) else 0

/-- A write of one byte of the image view (R56, R96). A write of part of an image leaves its other bytes as the low 112 bits of the exact sum hold them (log entry 87). -/
def Bank.setImageByte (b : Bank) (off : Nat) (v : Byte) : Bank :=
  let k := off % 16
  if k < 14 then
    let c := b.at (off / 16)
    b.put (off / 16) (c.setImage (BitVec.ofNat 112 (setFld (c.sum.toNat % 2 ^ 112) (8 * k) 8 v.toNat)))
  else b

/-- A byte of the raw view of a bank (R96). -/
def Bank.rawByte (b : Bank) (off : Nat) : Byte := (b.at (off / 32)).rawByte (off % 32)

/-- A write of one byte of the raw view (R96). -/
def Bank.setRawByte (b : Bank) (off : Nat) (v : Byte) : Bank :=
  b.put (off / 32) ((b.at (off / 32)).setRawByte (off % 32) v)

/-- The 64-byte state of a bank in the tile state block, as a number (R97). -/
def Bank.stateWord (b : Bank) : Nat :=
  wrapN 16 b.anchor + (b.count % 2 ^ 24) * 2 ^ 32 + (b.loss % 2 ^ 32) * 2 ^ 64 + (b2n b.held + 2 * b2n b.ovf) * 2 ^ 96

/-- The bank with its state words replaced (R97). -/
def Bank.setStateWord (b : Bank) (v : Nat) : Bank :=
  { b with anchor := sext 16 (fld v 0 16), count := fld v 32 24, loss := fld v 64 32, held := bitOf v 96, ovf := bitOf v 97 }

/-- Register g<i>; g0 reads as 0 (R108). -/
def Tile.reg (t : Tile) (i : Nat) : Nat := if i = 0 then 0 else (kvGet t.g i 0).toNat

/-- Writes a register; writes to g0 are discarded (R108). -/
def Tile.setReg (t : Tile) (i v : Nat) : Tile := if i = 0 then t else { t with g := kvSet t.g i (BitVec.ofNat 64 v) }

/-- Stream `i` as a number (R116). -/
def Tile.stream (t : Tile) (i : Nat) : Nat := (kvGet t.streams i 0).toNat
/-- Replaces a stream. -/
def Tile.setStream (t : Tile) (i v : Nat) : Tile := { t with streams := kvSet t.streams i (BitVec.ofNat 256 v) }
/-- Descriptor `i` (R112). -/
def Tile.desc (t : Tile) (i : Nat) : DescWord := kvGet t.descs i 0
/-- Replaces a descriptor. -/
def Tile.setDesc (t : Tile) (i : Nat) (v : DescWord) : Tile := { t with descs := kvSet t.descs i v }
/-- The bank of a BANK field. -/
def Tile.bank (t : Tile) (b : Bool) : Bank := if b then t.bankB else t.bankA
/-- Replaces a bank. -/
def Tile.setBank (t : Tile) (b : Bool) (v : Bank) : Tile := if b then { t with bankB := v } else { t with bankA := v }
/-- Tally tag of a slot (R129: unassigned is 0xFFFF_FFFF). -/
def Tile.tag (t : Tile) (i : Nat) : Nat := kvGet t.tlyTag i 0xFFFFFFFF

/-- The 128-byte sequencer area (R117), as a number. -/
def Tile.seqWord (t : Tile) : Nat :=
  (t.pc % 2 ^ 16) + (t.sheet % 2 ^ 16) * 2 ^ 16 + (t.depth % 256) * 2 ^ 32 + (t.phase % 256) * 2 ^ 40 + (t.ctx % 256) * 2 ^ 48
  + (List.range 4).foldl (fun x l => x + (kvGet t.lcount l 0 % 2 ^ 32) * 2 ^ (64 + 32 * l)
      + (kvGet t.lstart l 0 % 2 ^ 16) * 2 ^ (192 + 16 * l) + (kvGet t.lend l 0 % 2 ^ 16) * 2 ^ (256 + 16 * l)) 0

/-- The tile with its sequencer area replaced (R117). -/
def Tile.setSeqWord (t : Tile) (v : Nat) : Tile :=
  let t1 := { t with pc := fld v 0 16, sheet := fld v 16 16, depth := fld v 32 8, phase := fld v 40 5, ctx := fld v 48 8 }
  (List.range 4).foldl (fun (u : Tile) l => { u with lcount := kvSet u.lcount l (fld v (64 + 32 * l) 32), lstart := kvSet u.lstart l (fld v (192 + 16 * l) 16), lend := kvSet u.lend l (fld v (256 + 16 * l) 16) }) t1

/-- Where the piece of the state block that holds offset `off` starts, and its bytes; (off, 0) in a reserved part (R97). -/
def sbPiece (off : Nat) : Nat × Nat :=
  if off < 0x40 then (0, 64) else if off < 0x80 then (0x40, 64)
  else if off < 0x180 then (0x80 + (off - 0x80) / 8 * 8, 8)
  else if off < 0x280 then (0x180 + (off - 0x180) / 32 * 32, 32)
  else if off < 0x680 then (0x280 + (off - 0x280) / 64 * 64, 64)
  else if off < 0x700 then (0x680, 128)
  else if off < 0x7C0 then (0x700 + (off - 0x700) / 8 * 8, 8)
  else if off < 0x800 then (off, 0)
  else if off < 0x1000 then (0x800 + (off - 0x800) / 4 * 4, 4)
  else (off, 0)

/-- The number held by the piece that starts at `base` (R97). -/
def Tile.sbGet (t : Tile) (base : Nat) : Nat :=
  if base = 0 then t.bankA.stateWord else if base = 0x40 then t.bankB.stateWord
  else if base < 0x180 then t.reg ((base - 0x80) / 8)
  else if base < 0x280 then t.stream ((base - 0x180) / 32)
  else if base < 0x680 then (t.desc ((base - 0x280) / 64)).toNat
  else if base < 0x700 then t.seqWord
  else if base < 0x780 then
    let i := (base - 0x700) / 8
    kvGet t.fntSum i 0 % 2 ^ 32 + (kvGet t.fntCnt i 0 % 2 ^ 32) * 2 ^ 32
  else if base < 0x7C0 then t.tag ((base - 0x780) / 8)
  else kvGet t.tlyBin ((base - 0x800) / 4) 0

/-- Replaces the number held by the piece that starts at `base` (R97). -/
def Tile.sbPut (t : Tile) (base v : Nat) : Tile :=
  if base = 0 then { t with bankA := t.bankA.setStateWord v } else if base = 0x40 then { t with bankB := t.bankB.setStateWord v }
  else if base < 0x180 then t.setReg ((base - 0x80) / 8) v
  else if base < 0x280 then t.setStream ((base - 0x180) / 32) v
  else if base < 0x680 then t.setDesc ((base - 0x280) / 64) (BitVec.ofNat 512 v)
  else if base < 0x700 then t.setSeqWord v
  else if base < 0x780 then
    let i := (base - 0x700) / 8
    { t with fntSum := kvSet t.fntSum i (fld v 0 32), fntCnt := kvSet t.fntCnt i (fld v 32 32) }
  else if base < 0x7C0 then { t with tlyTag := kvSet t.tlyTag ((base - 0x780) / 8) (fld v 0 32) }
  else { t with tlyBin := kvSet t.tlyBin ((base - 0x800) / 4) (v % 2 ^ 32) }

/-- A byte of the state block. -/
def Tile.stateByte (t : Tile) (off : Nat) : Byte :=
  let (b, n) := sbPiece off
  if n = 0 then 0 else BitVec.ofNat 8 (t.sbGet b >>> (8 * (off - b)))

/-- A write of one byte of the state block; reserved parts ignore writes. -/
def Tile.setStateByte (t : Tile) (off : Nat) (v : Byte) : Tile :=
  let (b, n) := sbPiece off
  if n = 0 then t else t.sbPut b (setFld (t.sbGet b) (8 * (off - b)) 8 v.toNat)

/-- The ranges of a tile-local address (R95). -/
inductive Region where
  | caseMem
  | image (b : Bool)
  | raw (b : Bool)
  | state
  | reserved
  deriving DecidableEq, Repr

/-- The range that a tile-local address lies in (R95). -/
def regionOf (a : Nat) : Region :=
  if a < 0x800000 then .caseMem
  else if a < 0x810000 then .image false
  else if a < 0x820000 then .image true
  else if a < 0x840000 then .raw false
  else if a < 0x860000 then .raw true
  else if a < 0x862000 then .state
  else .reserved

/-- One byte at a tile-local address (R95, R96). -/
def Tile.byteAt (t : Tile) (a : Nat) : Byte :=
  match regionOf a with
  | .caseMem => t.mem.get a
  | .image b => (t.bank b).imageByte (a % 0x10000)
  | .raw b => (t.bank b).rawByte ((a - 0x820000) % 0x20000)
  | .state => t.stateByte (a - 0x860000)
  | .reserved => 0

/-- A write of one byte at a tile-local address outside the Case, or in it. -/
def Tile.setByteAt (t : Tile) (a : Nat) (v : Byte) : Tile :=
  match regionOf a with
  | .caseMem => { t with mem := t.mem.set a v }
  | .image b => t.setBank b ((t.bank b).setImageByte (a % 0x10000) v)
  | .raw b => t.setBank b ((t.bank b).setRawByte ((a - 0x820000) % 0x20000) v)
  | .state => t.setStateByte (a - 0x860000) v
  | .reserved => t

/-- Bytes from a tile-local address. -/
def Tile.readAt (t : Tile) : Nat → Nat → Bytes
  | _, 0 => []
  | a, n + 1 => t.byteAt a :: t.readAt (a + 1) n

/-- Stores bytes from a tile-local address on; whole Case words lose their poison tag. -/
def Tile.writeAt (t : Tile) (a : Nat) (bs : Bytes) : Tile :=
  if a + bs.length ≤ 0x800000 then { t with mem := t.mem.writeClean 8 a bs }
  else bs.zipIdx.foldl (fun u p => u.setByteAt (a + p.2) p.1) t

/-- R86: adds a source bank exactly into a destination accumulator. -/
def Acc.merge (d c : Acc) : Acc :=
  { sum := d.sum + c.sum, nan := d.nan || c.nan, pinf := d.pinf || c.pinf, ninf := d.ninf || c.ninf,
    satP := d.satP || c.satP, satN := d.satN || c.satN }

/-- R86: a merge from the other bank. -/
def Bank.merge (d c : Bank) : Bank :=
  let d1 := c.acc.foldl (fun (x : Bank) p => x.put p.1 ((x.at p.1).merge p.2)) d
  { d1 with ovf := d.ovf || c.ovf, loss := satAdd32 d.loss c.loss, count := d.count + c.count }

/-- R86: a merge from a 64 KiB Case image: the 112-bit value, sign-extended, is added; flags and counters stay. -/
def Bank.mergeImage (d : Bank) (img : Nat → BitVec 112) : Bank :=
  (List.range slots).foldl (fun (x : Bank) i =>
    let c := x.at i
    x.put i { c with sum := c.sum + (img i).signExtend 136 }) d

/-- A list entry, with a default. -/
def nthF (l : List FVal) (i : Nat) : FVal := l.getD i FVal.zero

/-- R60, R80: the products of one K slice enter their bank; rows and columns without an operand receive no product; the count advances by one. -/
def Bank.enterSlice (b : Bank) (k : KSlice) : Bank :=
  let b1 := (List.range k.a.length).foldl (fun (x : Bank) i =>
    (List.range k.b.length).foldl (fun (y : Bank) j =>
      let e := (y.at (i * 64 + j)).enter y.anchor ((nthF k.a i).mul (nthF k.b j))
      let z := y.put (i * 64 + j) e.acc
      { z with loss := if e.loss then satAdd32 z.loss 1 else z.loss, ovf := z.ovf || e.ovf }) x) b
  { b1 with count := b1.count + 1 }

end Sys2Proof.Machine
end

