-- ==== Sys2Proof/Machine/Operands.lean ====
section
/-! DEFINITION. The operand forms of Press instructions: tile descriptors (R112 to R115), address streams (R116), Case footprints, matrix elements, checks with their fault codes (R119). -/

namespace Sys2Proof.Machine

/-- A failed check: ERR_CODE and ERR_INFO_HI [15:0] (R119). -/
structure PFault where
  code   : Nat
  detail : Nat
  deriving DecidableEq, Repr

/-- ERR_INFO_HI of a failed check: the detail, and the bank of the bank-related codes in bit 16 too (R102, R119). -/
def PFault.info (f : PFault) : Nat := f.detail % 2 ^ 16 + (if 7 ≤ f.code ∧ f.code ≤ 9 then f.detail % 2 * 2 ^ 16 else 0)

/-- The check with the lowest code, the first of equals (R109). -/
def worstFault : List PFault → Option PFault
  | [] => none
  | f :: r => match worstFault r with
    | none => some f
    | some g => some (if g.code < f.code then g else f)

/-- A check of one code that fails when the condition holds. -/
def failIf (c : Bool) (code detail : Nat) : List PFault := if c then [{ code := code, detail := detail }] else []

/-- The lowest set bit among bits 0 to 55. -/
def lowBit (x : Nat) : Option Nat := (List.range 56).find? (fun i => bitOf x i)

/-- RESERVED_FIELD (R119): bits outside `named` must be 0, and each listed condition names a field by its lowest bit; the lowest number is the detail. -/
def reservedChk (b : Body) (named : Nat) (bad : List (Bool × Nat)) : List PFault :=
  let nums := (bad.filter (·.1)).map (·.2)
  let stray := b.toNat &&& ((2 ^ 56 - 1) - named % 2 ^ 56)
  let all := match lowBit stray with | none => nums | some i => i :: nums
  match lowest all with
  | none => []
  | some n => [{ code := 2, detail := n }]

/-- Bits hi to lo set. -/
def ones (hi lo : Nat) : Nat := 2 ^ (hi + 1) - 2 ^ lo

/-- A field of a descriptor: byte offset and byte count (R112). -/
def dfld (d : DescWord) (off n : Nat) : Nat := fld d.toNat (8 * off) (8 * n)

def dBase (d : DescWord) : Nat := dfld d 0 4
def dStride (d : DescWord) : Nat := dfld d 4 4
def dRows (d : DescWord) : Nat := dfld d 8 4
def dCols (d : DescWord) : Nat := dfld d 12 4
def dFmt (d : DescWord) : Nat := fld (dfld d 0x10 1) 0 4
def dT (d : DescWord) : Bool := bitOf (dfld d 0x11 1) 0
def dZp (d : DescWord) : Nat := dfld d 0x12 1
def dXmax (d : DescWord) : Nat := dfld d 0x13 1
def dScale (d : DescWord) : Int := sext 16 (dfld d 0x14 2)
def dEbnd (d : DescWord) : Int := sext 16 (dfld d 0x16 2)
def dSbase (d : DescWord) : Nat := dfld d 0x18 4
def dSstride (d : DescWord) : Nat := dfld d 0x1C 4
def dTid (d : DescWord) : Nat := dfld d 0x20 4
def dOrow (d : DescWord) : Nat := dfld d 0x24 4
def dOcol (d : DescWord) : Nat := dfld d 0x28 4
def dWidth (d : DescWord) : Nat := dfld d 0x2C 4

/-- Stored rows and elements per stored row (R113). -/
def storedShape (t : Bool) (rows cols : Nat) : Nat × Nat := if t then (cols, rows) else (rows, cols)

/-- Bytes of a stored row (R113). -/
def rowBytes (code per : Nat) : Nat := ceilDiv (per * fmtBits code) 8

/-- R115 with a format code and a transpose flag in place of the descriptor's own. `forB`: the descriptor is the B operand of MMA. With `checkFmt` false FMT is ignored (R125: DRAIN), and with it every requirement that depends on FMT (log entry 74). -/
def descBad (d : DescWord) (code : Nat) (t forB checkFmt : Bool) : Bool :=
  let (_, per) := storedShape t (dRows d) (dCols d)
  let blocks := ceilDiv (if forB then dRows d else dCols d) 32
  decide (2 ^ 24 ≤ dBase d) || dBase d % 64 != 0
  || dStride d % 64 != 0 || decide (dStride d < 64) || decide (0x800000 < dStride d)
  || decide (dRows d < 1) || decide (2 ^ 20 < dRows d) || decide (dCols d < 1) || decide (2 ^ 20 < dCols d)
  || decide (12 < code) || decide (1 < dfld d 0x11 1)
  || (checkFmt && (decide (15 < dfld d 0x10 1) || (!isInt8 code && dZp d != 0) || (!isMX code && dXmax d != 0)
    || (code != 10 && code != 11 && dfld d 0x16 2 != 0) || (!isMX code && (dSbase d != 0 || dSstride d != 0))))
  || decide (2 ^ 24 ≤ dSbase d)
  || fld d.toNat 384 128 != 0
  || decide (dStride d < rowBytes code per)
  || (isMX code && decide (dSstride d < blocks))

/-- R115 for a descriptor used with its own FMT and T. -/
def descInvalid (d : DescWord) (forB : Bool) : Bool := descBad d (dFmt d) (dT d) forB true

/-- First byte past the footprint (R113). -/
def footEnd (d : DescWord) (code : Nat) (t : Bool) : Nat :=
  let (sr, per) := storedShape t (dRows d) (dCols d)
  dBase d + (sr - 1) * dStride d + rowBytes code per

/-- First byte past the block-scale array (R113). -/
def scaleEnd (d : DescWord) (forB : Bool) : Nat :=
  let (n, along) := if forB then (dCols d, dRows d) else (dRows d, dCols d)
  dSbase d + (n - 1) * dSstride d + ceilDiv along 32

/-- The Case extent that binds the tile: the resident context's when the slice table holds two or more contexts (R119). -/
def Tile.extent (t : Tile) : Nat :=
  if t.slices.length < 2 then 0x800000
  else match t.slices[t.ctx]? with
    | some c => min c.extent 0x800000
    | none => 0x800000

/-- A descriptor's footprint, or its block-scale array, leaves the Case or the extent. -/
def descOut (t : Tile) (d : DescWord) (code : Nat) (tr forB : Bool) : Bool :=
  decide (t.extent < footEnd d code tr) || (isMX code && decide (t.extent < scaleEnd d forB))

/-- Where element (i, j) lies: its stored row's address and the bit offset in it (R113). -/
def elemPlace (d : DescWord) (code : Nat) (t : Bool) (i j : Nat) : Nat × Nat :=
  let (r, p) := if t then (j, i) else (i, j)
  (dBase d + r * dStride d, p * fmtBits code)

/-- The code of element (i, j). -/
def elemCode (m : Ram) (d : DescWord) (code : Nat) (t : Bool) (i j : Nat) : Nat :=
  let (row, bit) := elemPlace d code t i j
  fld (m.readLE (row + bit / 8) 5) (bit % 8) (fmtBits code)

/-- Stores the code of element (i, j). -/
def putElem (m : Ram) (d : DescWord) (code : Nat) (t : Bool) (i j v : Nat) : Ram :=
  let (row, bit) := elemPlace d code t i j
  let n := ceilDiv (bit % 8 + fmtBits code) 8
  let a := row + bit / 8
  m.writeClean 8 a (toLE n (setFld (m.readLE a n) (bit % 8) (fmtBits code) v))

/-- Address of the block scale of element (i, j) (R113). -/
def scalePlace (d : DescWord) (forB : Bool) (i j : Nat) : Nat :=
  if forB then dSbase d + j * dSstride d + i / 32 else dSbase d + i * dSstride d + j / 32

/-- Element (i, j) at its value under R52 and R53. -/
def elemAt (m : Ram) (d : DescWord) (forB : Bool) (i j : Nat) : FVal :=
  let code := dFmt d
  let x := if isMX code then (m.get (scalePlace d forB i j)).toNat else 127
  elemVal code (dZp d) (dScale d) x (elemCode m d code (dT d) i j)

/-- Element (i, j) of a BF16 error-term tensor as it is written: SCALE does not apply (R152; log entry 83). -/
def errAt (m : Ram) (d : DescWord) (i j : Nat) : FVal := bfdec (elemCode m d 10 (dT d) i j)

/-- The element index for w2 (R114). -/
def elemIndex (d : DescWord) (i j : Nat) : Nat := ((dOrow d + i) * dWidth d + dOcol d + j) % 2 ^ 64

/-- The bound exponent U of a descriptor (R57). -/
def boundExp (d : DescWord) : Int :=
  let c := dFmt d
  if isMX c then dScale d + ((dXmax d : Nat) : Int) - 127 + fmtQmax c
  else if c < 10 then dScale d + fmtQmax c
  else dScale d + dEbnd d

/-- The scale-derived anchor (R57). -/
def scaleAnchor (a b : DescWord) : Int := clamp16 (boundExp a + boundExp b - 7)

/-- R51: a pairing of format codes the Platen accepts. -/
def pairOk (a b : Nat) : Bool :=
  (decide (a < 10) && decide (b < 10)) || ((a == 10 || a == 11) && (b == 10 || b == 11))

/-- A field of a stream: byte offset and byte count (R116). -/
def sfld (x off n : Nat) : Nat := fld x (8 * off) (8 * n)

/-- A malformed stream (R116): a reserved field set, or a stride that is no multiple of 64. No check is stated for a BASE that is no multiple of 64; such a stream is used as it is (log entry 86). -/
def streamBad (x : Nat) : Bool :=
  sfld x 3 1 != 0 || sfld x 0x14 12 != 0 || sfld x 4 4 % 64 != 0 || sfld x 8 4 % 64 != 0

/-- A count field, where 0 means 65,536. -/
def cnt16 (n : Nat) : Nat := if n = 0 then 65536 else n

/-- The address of the next use of a stream (R116), in 64 bits. -/
def streamAddr (x : Nat) : Int :=
  ((sfld x 0 4 % 2 ^ 24 : Nat) : Int) + ((sfld x 0x12 2 : Nat) : Int) * sext 32 (sfld x 8 4) + ((sfld x 0x10 2 : Nat) : Int) * sext 32 (sfld x 4 4)

/-- The stream after one use (R116). An index that stands at or above its count already wraps with the next use (log entry 86). -/
def streamNext (x : Nat) : Nat :=
  let ii := sfld x 0x10 2 + 1
  if ii < cnt16 (sfld x 0xC 2) then setFld x 128 16 ii
  else
    let oi := sfld x 0x12 2 + 1
    setFld (setFld x 128 16 0) 144 16 (if oi < cnt16 (sfld x 0xE 2) then oi else 0)

/-- A use whose `n` bytes leave the Case or the extent (R116, R119). -/
def useOut (t : Tile) (a : Int) (n : Nat) : Bool := decide (a < 0) || decide (((t.extent : Nat) : Int) < a + (n : Int))

/-- The addresses of `n` uses of stream `i` and the tile after them. -/
def takeUses : Nat → Nat → Tile → List Int × Tile
  | 0, _, t => ([], t)
  | n + 1, i, t =>
    let x := t.stream i
    let (r, t1) := takeUses n i (t.setStream i (streamNext x))
    (streamAddr x :: r, t1)

/-- The register index fields and descriptors of R119's details are numbers below 32. A Case range outside the extent. -/
def rangeOut (t : Tile) (a n : Nat) : Bool := decide (t.extent < a + n)

/-- The 64-bit sum of a register and a signed 16-bit offset (R122). -/
def addrOff (g off : Nat) : Nat := wrapN 64 ((g : Int) + sext 16 off)

/-- R140: the Tally bin of a value. -/
def tallyBin (v : FVal) : Nat :=
  match v with
  | .fin _ m _ => if m = 0 then 0 else
      let e := v.lead + 32
      if e < 1 then 1 else if 62 < e then 62 else e.toNat
  | _ => 63

/-- Counts one value into a Tally slot, saturating (R93, R140). -/
def Tile.tally (t : Tile) (slot : Nat) (v : FVal) : Tile :=
  let k := slot * 64 + tallyBin v
  { t with tlyBin := kvSet t.tlyBin k (satAdd32 (kvGet t.tlyBin k 0) 1) }

/-- R152: adds one squared error to a Fount slot; a non-finite y only counts. -/
def Tile.fount (t : Tile) (slot : Nat) (y d : FVal) : Tile :=
  let sum := kvGet t.fntSum slot 0
  let sum' := if y.nonFinite then sum else f32add sum (f32enc (d.mul d))
  { t with fntSum := kvSet t.fntSum slot sum', fntCnt := kvSet t.fntCnt slot (satAdd32 (kvGet t.fntCnt slot 0) 1) }

/-- The tile is inside a FWD or BWD phase (R147). -/
def Tile.inGradPhase (t : Tile) : Bool := bitOf t.phase 4 && (fld t.phase 0 2 == 1 || fld t.phase 0 2 == 2)

end Sys2Proof.Machine
end

