-- ==== Sys2Proof/Machine/Ops.lean ====
section
/-! DEFINITION. Named operations over tiles, DRAM and module state that the meanings share. -/

namespace Sys2Proof.Machine

/-- A physical tile. -/
def State.tile (s : State) (p : Nat) : Tile := kvGet s.tiles p Tile.reset
/-- Replaces a physical tile. -/
def State.setTile (s : State) (p : Nat) (t : Tile) : State := { s with tiles := kvSet s.tiles p t }
/-- Changes a physical tile. -/
def State.modTile (s : State) (p : Nat) (f : Tile → Tile) : State := s.setTile p (f (s.tile p))

/-- The Folio of a physical tile (R23). -/
def tileFolio (p : Nat) : Nat := if p < 68 then 0 else 1

/-- The enabled tiles as physical numbers, in increasing order. -/
def State.enabledTiles (s : State) : List Nat := (List.range 136).filter (fun p => (s.tile p).role == .enabled)

/-- The physical tile of a logical tile (R72). -/
def State.physical (s : State) (logical : Nat) : Option Nat :=
  (List.range 136).find? (fun p => (s.tile p).role == .enabled && (s.tile p).logical == logical)

/-- Physical tiles in increasing logical order. -/
def State.logicalOrder (s : State) : List Nat := (List.range 128).filterMap (fun l => s.physical l)

/-- Own chip number: RTE.SELF (R301). -/
def State.self (s : State) : Nat := s.field pgRTE 0x040 0 14

/-- STATUS of a power domain (R438, R493): 0 OFF, 1 ON, 2 CHANGING, 3 FAULT. -/
def State.domStatus (s : State) (d : Nat) : Nat := kvGet s.power.dom d 0
/-- The domain is on. -/
def State.domOn (s : State) (d : Nat) : Bool := s.domStatus d == 1
/-- Sets the status of a domain. -/
def State.setDom (s : State) (d v : Nat) : State := { s with power := { s.power with dom := kvSet s.power.dom d v } }

/-- A fresh free value (log entry 7). -/
def State.fresh (s : State) : BitVec 512 × State := (Config.freeValue s.freeCtr, { s with freeCtr := s.freeCtr + 1 })

/-- The sum of a tile's Case words that a unit reads, cleaned of the errors that this read meets (R77): corrected words count and latch CASE_CE, uncorrectable words become poisoned. -/
def State.caseErrors (s : State) (p : Nat) (errs : List CaseErr) : State :=
  errs.foldl (fun x e =>
    if e.ue then x.modTile p (fun t => { t with mem := t.mem.taint (e.addr / 8) })
    else (x.bump (pgPRS p) 0x060 1).latchAt (pgPRS p) 3 (x.tile p).step) s

/-- The first poisoned Case word among ranges of (address, bytes), as its byte address. -/
def firstBad (m : Ram) (ranges : List (Nat × Nat)) : Option Nat :=
  (m.poison.find? (fun u => ranges.any (fun r => decide (r.1 < (u + 1) * 8) && decide (u * 8 < r.1 + r.2)))).map (· * 8)

end Sys2Proof.Machine
end

