-- ==== Sys2Proof/Machine/Fabric.lean ====
section
/-! DEFINITION. The packet layer of the fabric: chip numbers (R298, R299), route tables (R319 to R324), injection, hops, ejection, duplicate windows (R311 to R321), epochs of messages (R285, R286). -/

namespace Sys2Proof.Machine

/-- Status codes of R418 used in replies. -/
def stOK : Nat := 0
def stILLEGAL : Nat := 1
def stBAD : Nat := 2
def stSTALE : Nat := 3
def stDUP : Nat := 4
def stNORES : Nat := 5
def stAUTH : Nat := 6
def stVERSION : Nat := 7
def stRETIRED : Nat := 8
def stEPOCH : Nat := 9
def stABORTED : Nat := 0x0A
def stFENCED : Nat := 0x0B
def stNOROUTE : Nat := 0x0C
def stPOISON : Nat := 0xFF

/-- Torus coordinate k of a chip number (R299). -/
def chipCoord (c k : Nat) : Nat := if k = 0 then c % 16 else if k = 1 then (c / 16) % 16 else c / 256 % 64

/-- Size of dimension k in RTE.SHAPE (R335). -/
def State.shape (s : State) (k : Nat) : Nat := s.field pgRTE 0x044 (8 * k) 8

/-- The chip number exists in the system shape (R299). -/
def State.chipExists (s : State) (c : Nat) : Bool := (List.range 3).all (fun k => decide (chipCoord c k < s.shape k))

/-- The six dimension orders of R322. -/
def orderDim (order i : Nat) : Nat :=
  match order, i with
  | 0, 0 => 0 | 0, 1 => 1 | 0, _ => 2
  | 1, 0 => 0 | 1, 1 => 2 | 1, _ => 1
  | 2, 0 => 1 | 2, 1 => 0 | 2, _ => 2
  | 3, 0 => 1 | 3, 1 => 2 | 3, _ => 0
  | 4, 0 => 2 | 4, 1 => 0 | 4, _ => 1
  | _, 0 => 2 | _, 1 => 1 | _, _ => 0

/-- Bytes of the direction-map part of dimension k (R322). -/
def mapPart (sz : Nat → Nat) (k : Nat) : Nat :=
  let rings := if k = 0 then sz 1 * sz 2 else if k = 1 then sz 0 * sz 2 else sz 0 * sz 1
  ceilDiv (ceilDiv (rings * sz k * sz k) 4) 16 * 16

/-- The ring of a chip in dimension k: the lower-lettered other dimension varies fastest (R322). -/
def ringOf (sz : Nat → Nat) (c k : Nat) : Nat :=
  if k = 0 then chipCoord c 1 + chipCoord c 2 * sz 1
  else if k = 1 then chipCoord c 0 + chipCoord c 2 * sz 0
  else chipCoord c 0 + chipCoord c 1 * sz 0

/-- The direction code of R322: layout n, dimension k, ring, own coordinate, destination coordinate. -/
def dirCode (sec : Bytes) (sz : Nat → Nat) (n k ring c e : Nat) : Nat :=
  let maps := leAt sec 4 1
  if bitOf maps n then
    let before := popcount n (maps % 2 ^ n)
    let len := mapPart sz 0 + mapPart sz 1 + mapPart sz 2
    let off := 0x10 + before * len + (if k = 0 then 0 else if k = 1 then mapPart sz 0 else mapPart sz 0 + mapPart sz 1)
    let i := ring * sz k * sz k + c * sz k + e
    fld (leAt sec (off + i / 4) 1) (2 * (i % 4)) 2
  else 0

/-- R324: the entry for destination d at chip self. -/
def buildEntry (sec : Bytes) (sz : Nat → Nat) (order self d n : Nat) (member : Bool) : Nat :=
  if d = self then 2 ^ 31 + 2 ^ 30 + 0xF * 2 ^ 24 + 0xF * 2 ^ 20
  else if (List.range 3).any (fun k => decide (sz k ≤ chipCoord d k)) then 0
  else
    match (List.range 3).find? (fun i => chipCoord self (orderDim order i) != chipCoord d (orderDim order i)) with
    | none => 0
    | some i =>
      let k := orderDim order i
      let c := chipCoord self k
      let t := chipCoord d k
      let fwd := (t + sz k - c) % sz k
      let code := dirCode sec sz n k (ringOf sz self k) c t
      let plus := code == 1 || (code == 0 && decide (fwd ≤ sz k - fwd))
      let a := 4 * k + (if plus then 0 else 2)
      let dl := if plus then c + 1 == sz k else c == 0
      2 ^ 31 + (if member then 2 ^ 30 else 0) + a * 2 ^ 24 + (a + 1) * 2 ^ 20 + (if dl then 2 ^ 19 else 0)

/-- A section of an imposition (R282). -/
def Impo.sec (m : Impo) (i : Nat) : Bytes := m.secs.getD i []

/-- The active epoch; 0 before the first activation (R297). -/
def State.epoch (s : State) : Nat := s.regN pgIMP 0x040

/-- The layout that a phase marker of a kind selects (R288): the kind's own, else the first present of FWD, BWD, UPD, GEN. -/
def State.layoutFor (s : State) (kind : Nat) : Nat :=
  match s.imp.active with
  | none => kind
  | some m =>
    if bitOf m.layouts kind then kind
    else if bitOf m.layouts 1 then 1 else if bitOf m.layouts 2 then 2 else if bitOf m.layouts 3 then 3 else 0

/-- The route table entry for chip d in a layout (R319, R324); without an imposition and a system shape no table is in use (R333). -/
def State.route (s : State) (layout d : Nat) : Nat :=
  match s.imp.active with
  | some m => buildEntry (m.sec 6) s.shape (leAt (m.sec 6) 0 1) s.self d layout (m.members.contains d)
  | none =>
    match kvFind s.fab.win d with
    | some v => v.toNat
    | none => if s.regN pgRTE 0x044 = 0 then 0 else buildEntry [] s.shape 0 s.self d layout true

def routeValid (e : Nat) : Bool := bitOf e 31
def routeInject (e : Nat) : Bool := bitOf e 30
def routeA (e : Nat) : Nat := fld e 24 4
def routeB (e : Nat) : Nat := fld e 20 4
def routeDL (e : Nat) : Bool := bitOf e 19

/-- Lanes whose packets carry tags (R315). -/
def taggedLane (l : Nat) : Bool := l == 0 || l == 4 || l == 5 || l == 6

/-- The types of R312, the collation types of the table of chapter 11, and the SLICE kinds of R313 and R390. -/
def knownType (p : Packet) : Bool :=
  let t := p.type
  let k := p.arg % 256
  (decide (1 ≤ t) && decide (t ≤ 6)) || t == 0x20 || (decide (0x30 ≤ t) && decide (t ≤ 0x35)) || (decide (0x38 ≤ t) && decide (t ≤ 0x3D)) || t == 0x40
  || (t == 0x50 && ((decide (1 ≤ k) && decide (k ≤ 0x0B)) || (decide (0x10 ≤ k) && decide (k ≤ 0x1B)))) || t == 0x60 || t == 0x61 || t == 0x62

/-- The header of a packet as bytes, with the given CHK and class (R311). -/
def pktHeader (p : Packet) (chk dclass : Nat) : Bytes :=
  toLE 1 p.type ++ toLE 1 (p.lane % 8 + dclass % 2 * 8 + p.slot % 4 * 16 + b2n p.resend * 64) ++ toLE 2 (p.payload.length / 16)
  ++ toLE 4 p.epoch ++ toLE 2 p.dst ++ toLE 2 p.src ++ toLE 2 p.tag ++ toLE 1 p.layout ++ [0] ++ toLE 8 p.addr ++ toLE 4 p.arg ++ toLE 4 chk

/-- CHK of a packet (R311): CRC-32C over the header with CHK and DCLASS 0, then the payload. -/
def pktChk (p : Packet) : Nat := crc32c (pktHeader p 0 0 ++ p.payload)

/-- A packet on the wire; one whose CHK does not hold carries another value. -/
def pktWire (p : Packet) : Bytes := pktHeader p (if p.good then pktChk p else pktChk p ^^^ 1) p.dclass ++ p.payload

/-- Bytes of a packet from its header (R311). -/
def wireLen (bs : Bytes) : Nat := 32 + 16 * leAt bs 2 2

/-- The packet that a whole wire image stands for. -/
def parsePacket (bs : Bytes) : Packet :=
  let fl := leAt bs 1 1
  let p : Packet :=
    { type := leAt bs 0 1, lane := fl % 8, dclass := fld fl 3 1, slot := fld fl 4 2, resend := bitOf fl 6, epoch := leAt bs 4 4,
      dst := leAt bs 8 2, src := leAt bs 0xA 2, tag := leAt bs 0xC 2, layout := leAt bs 0xE 1 % 4, addr := leAt bs 0x10 8,
      arg := leAt bs 0x18 4, payload := bs.drop 32, good := true }
  let hdr := patchB (patchB (bs.take 32) 0x1C [0, 0, 0, 0]) 1 (toLE 1 (setFld fl 3 1 0))
  { p with good := crc32c (hdr ++ bs.drop 32) == leAt bs 0x1C 4 }

/-- A packet of this module, stamped with its epoch, source and layout (R285, R321). -/
def State.mkPkt (s : State) (type lane dst addr arg : Nat) (payload : Bytes) : Packet :=
  { type := type, lane := lane, dclass := 0, slot := 0, resend := false, epoch := s.epoch, dst := dst, src := s.self, tag := 0,
    layout := s.layoutFor 1, addr := addr, arg := arg, payload := payload, good := true }

/-- Hands a packet to the fabric; one for this chip does not leave the module. -/
def State.send (s : State) (p : Packet) (org : Origin) : State :=
  if p.dst = s.self ∨ p.dst = 0x3FFF then { s with fab := { s.fab with arrived := s.fab.arrived ++ [{ pkt := { p with dst := s.self }, org := org }] } }
  else { s with fab := { s.fab with out := s.fab.out ++ [{ pkt := p, org := org }] } }

/-- Completes a request of this module with a status and data, as the RESPONSE row will see it. -/
def State.selfReply (s : State) (p : Packet) (org : Origin) (status : Nat) (data : Bytes) : State :=
  let r : Packet := { p with type := 0x20, lane := 1, dst := s.self, src := p.dst, arg := status % 256 + p.lane % 8 * 256, addr := 0, payload := data }
  { s with fab := { s.fab with arrived := s.fab.arrived ++ [{ pkt := r, org := org, req := some p }] } }

/-- Key of a target or source chip and lane. -/
def pairKey (chip lane : Nat) : Nat := chip * 8 + lane

/-- Records the status of an executed tag (R317); statuses are 4 bits wide. -/
def State.recordStatus (s : State) (src lane tag status : Nat) : State :=
  let k := pairKey src lane
  let w := kvGet s.fab.windows k { base := 0, done := [], status := [] }
  { s with fab := { s.fab with windows := kvSet s.fab.windows k { w with status := kvSet w.status tag (status % 16) } } }

/-- The status recorded for a tag (R317), OK where none is. -/
def State.recorded (s : State) (src lane tag : Nat) : Nat :=
  kvGet (kvGet s.fab.windows (pairKey src lane) { base := 0, done := [], status := [] }).status tag 0

/-- Answers a delivered request (R312): the RESPONSE carries the status, the request's lane, tag and layout. A duplicate's reply carries the recorded status, DUPLICATE_REPLAYED where it was OK (R317). -/
def State.reply (s : State) (d : OutPkt) (status : Nat) (data : Bytes) : State :=
  let p := d.pkt
  let answer := fun (st : Nat) (b : Bytes) =>
    ({ s.mkPkt 0x20 1 p.src 0 (st % 256 + p.lane % 8 * 256) b with tag := p.tag, layout := p.layout } : Packet)
  if d.org = .duplicate then
    let r := s.recorded p.src p.lane p.tag
    let st := if r ≠ 0 then r else if status = 0 then stDUP else status
    s.send (answer st (if st = stDUP then data else [])) .none
  else if d.org ≠ .none ∨ p.src = s.self then s.selfReply { p with dst := s.self } d.org status data
  else (s.recordStatus p.src p.lane p.tag status).send (answer status data) .none

/-- ERR_INFO of the RTE page (R335). -/
def rteLo (p : Packet) : Nat := p.src % 2 ^ 14 * 2 ^ 16 + p.dst % 2 ^ 14
def rteHi (p : Packet) : Nat := p.type % 256 * 2 ^ 24 + p.lane % 8 * 2 ^ 16 + p.tag % 2 ^ 16

/-- An event of the RTE page with its code. -/
def State.rteErr (s : State) (bit code : Nat) (p : Packet) : State := s.latchErr pgRTE bit code (rteLo p) (rteHi p)

/-- Removes the n-th item. -/
def dropNth {α : Type} (l : List α) (n : Nat) : List α := l.take n ++ l.drop (n + 1)

/-- Epoch-change packets of R286: DRAINED, ACTIVATE and CONFIRM whose body names the staged epoch. -/
def State.epochTraffic (s : State) (p : Packet) : Bool :=
  match s.imp.staged with
  | none => false
  | some m => p.type == 0x50 && (p.arg % 256 == 7 || p.arg % 256 == 8 || p.arg % 256 == 9) && leAt p.payload 16 4 == m.epoch

/-- Such a packet passes between chips of the staged member list, whatever INJECT says (R286). -/
def State.epochPass (s : State) (p : Packet) (chip : Nat) : Bool :=
  s.epochTraffic p && (match s.imp.staged with | none => false | some m => m.members.contains chip)

/-- Requests without a reply toward a target on a lane (R315). -/
def State.pairOut (s : State) (chip lane : Nat) : Nat :=
  (s.fab.unreplied.filter (fun u => u.pkt.dst == chip && u.pkt.lane == lane)).length

/-- Counts a message of a Postmark path unit (R456, R460). -/
def State.pmkMessage (s : State) (u value : Nat) : State :=
  ((s.bump64 (pgPMK u) 0x060 1).setN (pgPMK u) 0x040 (value % 2 ^ 32)).setN (pgPMK u) 0x044 (value / 2 ^ 32)

/-- The alive counters of a path unit advance by one message (R455). -/
def State.aliveTick (s : State) (u : Nat) : State :=
  let a := s.regN (pgPMK u) 0x06C
  (s.setN (pgPMK u) 0x06C ((a / 256 + 1) % 256 * 256 + (a % 256 + 1) % 256)).bump64 (pgPMK u) 0x060 1

/-- One message of a path with two directions, seen from the end that opens the exchange: `out` names the direction (R455). -/
def State.aliveHalf (s : State) (u : Nat) (out : Bool) : State :=
  let a := s.regN (pgPMK u) 0x06C
  let new := if out then (a / 256 + 1) % 256 * 256 + a % 256 else a / 256 % 256 * 256 + (a % 256 + 1) % 256
  (s.setN (pgPMK u) 0x06C new).bump64 (pgPMK u) 0x060 1

/-- A check of a path unit: counts the message, and a mismatch (R456, R459). -/
def State.pmkCheck (s : State) (u result : Nat) (ok : Bool) (info : Nat) : State :=
  let s1 := s.pmkMessage u (result ^^^ algXor (unitAlg u))
  if ok then s1 else (s1.bump (pgPMK u) 0x068 1).latchErr (pgPMK u) 0 1 (result % 2 ^ 32) info

/-- An admitted packet that takes no tag enters the router from this module (R311, R456). -/
def State.enterRouter (s : State) (p : Packet) : State :=
  ({ s with fab := { s.fab with router := s.fab.router ++ [({ pkt := p, inPort := 12 } : InRouter)] } }).pmkMessage 0 (pktChk p ^^^ algXor 0)

/-- An admitted request takes the next tag of its pair and is kept until its reply comes (R315, R318). -/
def State.enterTagged (s : State) (o : OutPkt) : State :=
  let k := pairKey o.pkt.dst o.pkt.lane
  let q : Packet := { o.pkt with tag := kvGet s.fab.nextTag k 0 }
  ({ s with fab := { s.fab with nextTag := kvSet s.fab.nextTag k ((q.tag + 1) % 65536), unreplied := s.fab.unreplied ++ [Unreplied.mk q o.org 0] } }).enterRouter q

/-- The packet may leave this module (R319): INJECT is set for its target, or it is a reply or epoch traffic, which leave whatever INJECT says (R286, log entry 101). -/
def State.mayLeave (s : State) (p : Packet) : Bool := p.type == 0x20 || routeInject (s.route p.layout p.dst) || s.epochPass p p.dst

/-- A packet of the same pair waits before the `i`-th one. -/
def State.pairBefore (s : State) (i : Nat) (p : Packet) : Bool := (s.fab.out.take i).any (fun e => e.pkt.dst == p.dst && e.pkt.lane == p.lane)

/-- PACKET_INJECT: the i-th waiting packet enters the router (R311, R315, R319). -/
def State.inject (s : State) (i : Nat) : State :=
  match s.fab.out[i]? with
  | none => s
  | some o =>
    let p := o.pkt
    if s.pairBefore i p then s
    else
      let gone : State := { s with fab := { s.fab with out := dropNth s.fab.out i } }
      if !s.mayLeave p then
        let s1 := (gone.bump pgRTE 0x080 1).rteErr 1 4 p
        if taggedLane p.lane then s1.selfReply p o.org stNOROUTE [] else s1
      else if taggedLane p.lane then
        if 64 ≤ s.pairOut p.dst p.lane then
          if o.paired then s else ({ s with fab := { s.fab with out := setNth s.fab.out i { o with paired := true } } }).bump pgRTE 0x060 1
        else if 32768 ≤ s.fab.unreplied.length then
          if o.bound then s else ({ s with fab := { s.fab with out := setNth s.fab.out i { o with bound := true } } }).bump pgRTE 0x05C 1
        else gone.enterTagged o
      else gone.enterRouter p

/-- PPT.STATE.LINK of a port (R330). -/
def State.link (s : State) (p : Nat) : Nat := s.field (pgPPT p) 0x00C 28 4

/-- The port is in service or retraining (R320). -/
def State.usable (s : State) (p : Nat) : Bool := s.link p == 2 || (s.link p == 1 && (kvGet s.fab.ports p Port.reset).hold)

/-- A port. -/
def State.port (s : State) (p : Nat) : Port := kvGet s.fab.ports p Port.reset
/-- Replaces a port. -/
def State.setPort (s : State) (p : Nat) (v : Port) : State := { s with fab := { s.fab with ports := kvSet s.fab.ports p v } }

/-- Units of a packet (R306). -/
def pktUnits (p : Packet) : Nat := 2 + p.payload.length / 16

/-- The receive buffer of the port that a packet came in by frees its units (R306). -/
def State.freeCredit (s : State) (r : InRouter) : State :=
  if 12 ≤ r.inPort then s
  else
    let po := s.port r.inPort
    let k := r.pkt.lane * 2 + r.pkt.dclass
    s.setPort r.inPort { po with crOut := kvSet po.crOut k ((kvGet po.crOut k 0 + pktUnits r.pkt) % 4096) }

/-- The router entry says that the packet ends here. -/
def State.endsHere (s : State) (p : Packet) : Bool :=
  let e := s.route p.layout p.dst
  routeValid e && routeA e == 0xF

/-- Index of the first item that holds. -/
def firstIdx {α : Type} (f : α → Bool) : List α → Option Nat
  | [] => none
  | x :: r => if f x then some 0 else (firstIdx f r).map (· + 1)

/-- R320 step 1: no usable output. -/
def State.pathDrop (s : State) (r : InRouter) : State :=
  let p := r.pkt
  let s1 := (s.bump pgRTE 0x088 1).rteErr 2 3 p
  if taggedLane p.lane then
    if r.inPort = 12 then
      let u := s1.fab.unreplied.find? (fun u => u.pkt.dst == p.dst && u.pkt.lane == p.lane && u.pkt.tag == p.tag)
      match u with
      | some v => ({ s1 with fab := { s1.fab with unreplied := s1.fab.unreplied.filter (fun x => x != v) } }).selfReply p v.org stNOROUTE []
      | none => s1
    else
      s1.send { s1.mkPkt 0x20 1 p.src 0 (stNOROUTE + p.lane * 256) [] with tag := p.tag, layout := p.layout, src := p.dst } .none
  else s1

/-- The output port of a routed packet (R320): of A and B the one that its source and target choose, else the other, where one is usable. -/
def State.pickPort (s : State) (p : Packet) : Option Nat :=
  let e := s.route p.layout p.dst
  let first := if mix64 (p.src * 2 ^ 14 ||| p.dst) % 2 = 0 then routeA e else routeB e
  let other := if first = routeA e then routeB e else routeA e
  if s.usable first then some first else if s.usable other then some other else none

/-- The class of a packet at output port `o` (R306, R320): 1 past the dateline, else 0 where it enters a dimension. -/
def State.classAt (s : State) (r : InRouter) (o : Nat) : Nat :=
  if routeDL (s.route r.pkt.layout r.pkt.dst) then 1 else if r.inPort = 12 ∨ r.inPort / 4 ≠ o / 4 then 0 else r.pkt.dclass

/-- PACKET_FORWARD: the first packet in the router that does not end here goes to a port (R320). -/
def State.forwardOne (s : State) : State :=
  match firstIdx (fun r => !s.endsHere r.pkt) s.fab.router with
  | none => s
  | some i =>
    match s.fab.router[i]? with
    | none => s
    | some r =>
      let p := r.pkt
      let s0 := ({ s with fab := { s.fab with router := dropNth s.fab.router i } }).freeCredit r
      if p.lane = 7 then s0.bump pgRTE 0x08C 1
      else
        if !routeValid (s.route p.layout p.dst) then s0.pathDrop r
        else match s.pickPort p with
          | none => s0.pathDrop r
          | some o =>
            let po := s0.port o
            s0.setPort o { po with queue := po.queue ++ [{ p with dclass := s.classAt r o }] }

/-- R317: the handling of a tag against a window. -/
inductive TagCase where
  | fresh | duplicate | stale
  deriving DecidableEq, Repr

/-- Serial comparison of a tag with BASE (R317). -/
def Window.classify (w : Window) (t : Nat) : TagCase :=
  let d := (t + 65536 - w.base) % 65536
  if d < 64 then (if w.done.contains t then .duplicate else .fresh)
  else if 65536 - 64 ≤ d then .duplicate
  else .stale

/-- BASE past every executed tag. -/
def advanceBase : Nat → Nat → List Nat → Nat × List Nat
  | 0, b, d => (b, d)
  | n + 1, b, d => if d.contains b then advanceBase n ((b + 1) % 65536) (d.filter (· != b)) else (b, d)

/-- R317: a tag goes to its block; its status is recorded when the block answers. -/
def Window.mark (w : Window) (t : Nat) : Window :=
  let (b, d) := advanceBase 64 w.base (setIns w.done t)
  { w with base := b, done := d, status := w.status.filter (fun p => decide ((p.1 + 65536 - b + 64) % 65536 < 128)) }

/-- Delivers a packet to the block that handles its type. -/
def State.deliver (s : State) (p : Packet) : State :=
  { s with fab := { s.fab with arrived := s.fab.arrived ++ [{ pkt := p, org := .none }] } }

/-- Bytes held in poste restante (R285). -/
def State.posteBytes (s : State) : Nat := s.imp.poste.foldl (fun n r => n + 32 + r.pkt.payload.length) 0

/-- The epoch handling of an arriving message (R285). -/
inductive EpochCase where
  | deliver | hold | reject
  deriving DecidableEq, Repr

def State.epochCase (s : State) (p : Packet) : EpochCase :=
  if s.epochTraffic p then .deliver
  else if p.epoch = s.epoch then .deliver
  else match s.imp.staged with
    | some m => if p.epoch = m.epoch then .hold else .reject
    | none => .reject

/-- A RESPONSE to a packet that still waits for one. -/
def State.awaited (s : State) (p : Packet) : Bool :=
  p.type == 0x20 && s.fab.unreplied.any (fun u => u.pkt.dst == p.src && u.pkt.lane == fld p.arg 8 3 && u.pkt.tag == p.tag)

/-- R317 and R319 for a packet that passed R311 and R285. A duplicate of a request that its block has not answered yet gets no reply of its own: the answer to come serves it. -/
def State.accept (s : State) (p : Packet) : State :=
  if !routeInject (s.route p.layout p.src) && !s.epochPass p p.src && !s.awaited p then
    let s1 := s.bump pgRTE 0x084 1
    if taggedLane p.lane then s1.send { s1.mkPkt 0x20 1 p.src 0 (stNOROUTE + p.lane * 256) [] with tag := p.tag, layout := p.layout } .none else s1
  else if taggedLane p.lane then
    let k := pairKey p.src p.lane
    let w := kvGet s.fab.windows k { base := 0, done := [], status := [] }
    match w.classify p.tag with
    | .fresh => ({ s with fab := { s.fab with windows := kvSet s.fab.windows k (w.mark p.tag) } }).deliver p
    | .duplicate =>
      let s1 := s.bump pgRTE 0x068 1
      if p.type = 1 ∨ p.type = 4 ∨ p.type = 6 then { s1 with fab := { s1.fab with arrived := s1.fab.arrived ++ [{ pkt := p, org := .duplicate }] } }
      else match kvFind w.status p.tag with
        | some st => s1.send { s1.mkPkt 0x20 1 p.src 0 ((if st = 0 then stDUP else st) + p.lane * 256) [] with tag := p.tag, layout := p.layout } .none
        | none => s1
    | .stale =>
      let s1 := (s.bump pgRTE 0x070 1).rteErr 0 5 p
      s1.send { s1.mkPkt 0x20 1 p.src 0 (stSTALE + p.lane * 256) [] with tag := p.tag, layout := p.layout } .none
  else s.deliver p

/-- A message of the staged epoch, to be held in poste restante (R285). -/
def State.toHold (s : State) (r : InRouter) : Bool :=
  s.endsHere r.pkt && r.pkt.good && r.pkt.dst == s.self && knownType r.pkt && s.epochCase r.pkt == .hold

/-- The first such message when it does not fit: credit for new-epoch messages is withheld (R285). -/
def State.holdStall (s : State) : Option Nat :=
  match firstIdx (fun r => s.toHold r) s.fab.router with
  | none => none
  | some i => match s.fab.router[i]? with
    | none => none
    | some r => if s.posteBytes + 32 + r.pkt.payload.length ≤ 4194304 then none else some i

/-- The withheld credit is counted once for the message, and IMP_PR_FULL latches (R285). -/
def State.countStall (s : State) : State :=
  match s.holdStall with
  | none => s
  | some i => match s.fab.router[i]? with
    | none => s
    | some r =>
      if r.stalled then s
      else (({ s with fab := { s.fab with router := setNth s.fab.router i { r with stalled := true } } }).bump pgIMP 0x058 1).latch pgIMP 3

/-- A packet leaves the router at this chip: it is checked and delivered, held, or discarded (R306, R311, R285, R317). -/
def State.ejectAt (s : State) (i : Nat) (r : InRouter) : State :=
  let p := r.pkt
  let s0 := ({ s with fab := { s.fab with router := dropNth s.fab.router i } }).freeCredit r
  let s1 := s0.pmkCheck 1 (pktChk p) p.good (p.src % 2 ^ 14)
  if p.lane = 7 then s0.bump pgRTE 0x08C 1
  else if !p.good then (s1.bump pgRTE 0x078 1).rteErr 4 1 p
  else if p.dst ≠ s.self then (s1.bump pgRTE 0x07C 1).rteErr 3 2 p
  else if !knownType p then (s1.bump pgRTE 0x078 1).rteErr 4 1 p
  else match s.epochCase p with
    | .deliver => s1.accept p
    | .hold => { s1 with imp := { s1.imp with poste := s1.imp.poste ++ [r] } }
    | .reject =>
      let s2 := (s1.bump pgIMP 0x05C 1).latch pgIMP 4
      if taggedLane p.lane then s2.send { s2.mkPkt 0x20 1 p.src 0 (stEPOCH + p.lane * 256) [] with tag := p.tag, layout := p.layout } .none else s2

/-- PACKET_EJECT: the first packet in the router that ends here, and whose credit is not withheld, is checked and delivered (R311, R285, R317). -/
def State.ejectOne (s : State) : State :=
  let x := s.countStall
  match firstIdx (fun r => x.endsHere r.pkt && !(x.holdStall.isSome && x.toHold r)) x.fab.router with
  | none => x
  | some i => match x.fab.router[i]? with
    | none => x
    | some r => x.ejectAt i r

/-- The request goes out again when its pair is resent (R318). -/
def State.resendDue (s : State) (chip lane : Nat) (u : Unreplied) : Bool := u.pkt.dst == chip && u.pkt.lane == lane && decide (u.resends < s.regN pgRTE 0x04C)

/-- The resend of every unreplied packet of a target and lane, in tag order; one that has had E2E_LIMIT resends is not sent again (R318). -/
def State.resendAll (s : State) (chip lane : Nat) : State :=
  if s.inForce pgRTE 0x008 % 2 = 0 then s
  else if !s.fab.unreplied.any (s.resendDue chip lane) then s
  else
    let un := s.fab.unreplied.map (fun u => if s.resendDue chip lane u then { u with resends := u.resends + 1 } else u)
    let pk := (s.fab.unreplied.filter (s.resendDue chip lane)).map (fun u => ({ pkt := { u.pkt with resend := true }, inPort := 12 } : InRouter))
    ((({ s with fab := { s.fab with unreplied := un, router := s.fab.router ++ pk } }).bump pgRTE 0x064 1).latch pgRTE 5)

/-- E2E_FAIL: after E2E_LIMIT resends without a reply, a packet completes with NO_ROUTE (R318). -/
def State.e2eFail (s : State) (chip lane : Nat) : State :=
  match s.fab.unreplied.find? (fun u => u.pkt.dst == chip && u.pkt.lane == lane && decide (s.regN pgRTE 0x04C ≤ u.resends)) with
  | none => s
  | some u =>
    let s1 := { s with fab := { s.fab with unreplied := s.fab.unreplied.filter (fun x => x != u) } }
    ((s1.bump pgRTE 0x074 1).rteErr 6 6 u.pkt).selfReply u.pkt u.org stNOROUTE []

/-- Takes the first delivered packet of a type (and SLICE kind). -/
def State.takeArrived (s : State) (f : Packet → Bool) : Option (OutPkt × State) :=
  match firstIdx (fun (o : OutPkt) => f o.pkt) s.fab.arrived with
  | none => none
  | some i => match s.fab.arrived[i]? with
    | none => none
    | some o => some (o, { s with fab := { s.fab with arrived := dropNth s.fab.arrived i } })

end Sys2Proof.Machine
end

