-- ==== Sys2Proof/Machine/Base.lean ====
section
/-! DEFINITION. Operations that several chapters share: slice messages (R271, R313), fence conditions (R370), tile retirement (R74 to R76), steps by number, DRAM bytes of space 0 (R26, R240). -/

namespace Sys2Proof.Machine

/-- Bytes of DRAM that space 0 maps (R26). -/
def dramSize : Nat := 0xF000000000

/-- The range lies in mapped DRAM. -/
def dramMapped (off n : Nat) : Bool := decide (off + n ≤ dramSize)

/-- Some 64-byte line of the range is poisoned. -/
def State.dramBad (s : State) (off n : Nat) : Bool := s.dram.badIn 64 off n

/-- UNMAPPED_ACCESS (R240): MEM_UNMAPPED latches in MEM[0]; ERR_INFO_HI holds the space, offset bits [46:32] and the source chip. -/
def State.unmapped (s : State) (space off src : Nat) : State :=
  s.latchErr (pgMEM 0) 8 3 (off % 2 ^ 32) (space % 8 * 2 ^ 29 + off / 2 ^ 32 % 2 ^ 15 * 2 ^ 14 + src % 2 ^ 14)

/-- The leader's chip (R271, FMN.LEADER). -/
def State.leader (s : State) : Nat := s.field pgFMN 0x050 0 14
/-- The deputy's chip, 0x3FFF for none. -/
def State.deputy (s : State) : Nat := s.field pgFMN 0x050 16 14
/-- The members of the active imposition. -/
def State.members (s : State) : List Nat := match s.imp.active with | none => [] | some m => m.members
/-- This module leads the slice. -/
def State.isLeader (s : State) : Bool := s.imp.active.isSome && s.leader == s.self

/-- The common beginning of a SLICE body (R313). -/
def sliceHead (step attempt : Nat) : Bytes := toLE 8 step ++ toLE 2 attempt ++ toLE 6 0

/-- Pads a payload to whole 16-byte units. -/
def pad16 (bs : Bytes) : Bytes := bs ++ List.replicate ((16 - bs.length % 16) % 16) 0

/-- Sends a SLICE packet (R313) on the management lane. -/
def State.sendSlice (s : State) (dst kind step attempt : Nat) (rest : Bytes) : State :=
  s.send (s.mkPkt 0x50 5 dst 0 kind (pad16 (sliceHead step attempt ++ rest))) (.slice kind step attempt)

/-- Sends a SLICE packet to each of a list of chips. -/
def State.sendSliceAll (s : State) (dsts : List Nat) (kind step attempt : Nat) (rest : Bytes) : State :=
  dsts.foldl (fun x d => x.sendSlice d kind step attempt rest) s

/-- Leader and deputy, without repeats; a slice of one has no deputy (R271). -/
def State.leaderAndDeputy (s : State) : List Nat := if s.deputy = 0x3FFF ∨ s.deputy = s.leader then [s.leader] else [s.leader, s.deputy]

/-- A condition of R370 arises: its code is recorded in PMS.RES_STATE, and the module will enter FENCED. -/
def State.fenceFor (s : State) (cause : Nat) : State :=
  if s.fmn.state = .fenced ∨ s.fencing.isSome then s
  else { (s.setField pgPMS 0x044 16 8 cause) with fencing := some cause }

/-- Marks a tile for retirement and powers up the lowest free spare of its Folio (R74, R75, R495); without one the module fences itself (R76). -/
def State.markTile (s : State) (p : Nat) : State :=
  if (s.tile p).retire then s
  else
    let s1 := s.modTile p (fun t => { t with retire := true })
    let spare := (List.range 136).find? (fun q => tileFolio q == tileFolio p && (s1.tile q).role == .spare && !(s1.tile q).wiping && !(s1.tile q).ready)
    match spare with
    | some q => (s1.modTile q (fun t => { t with wiping := true })).setDom q 2
    | none => s1.fenceFor 2

/-- Changes the Seal. -/
def State.setSel (s : State) (f : Seal → Seal) : State := { s with sel := f s.sel }

/-- A section update for the next Ledger record (R480). -/
def State.ledgerUpdate (s : State) (off : Nat) (bs : Bytes) : State := s.setSel (fun k => { k with updates := k.updates ++ [(off, bs)] })

/-- A lifetime counter (R478, R489). -/
def State.lifeCounter (s : State) (i : Nat) : Nat := kvGet s.sel.counters i (s.sel.cur.data.readLE (0x880 + 8 * i) 8)

/-- Adds to a lifetime counter; the next record carries it (R489). -/
def State.lifeAdd (s : State) (i n : Nat) : State := s.setSel (fun k => { k with counters := kvSet k.counters i (s.lifeCounter i + n) })

/-- A tile's entry in the repair map (R478). -/
def Tile.mapEntry (t : Tile) : Bytes := toLE 2 (t.role.code + (if t.role = .enabled then t.logical % 128 * 256 else 0))

/-- An unreleased step by number. -/
def State.step? (s : State) (n : Nat) : Option StepRec := s.fmn.steps.find? (fun r => r.n == n)

/-- The attempt of an unreleased step. -/
def State.attemptOf (s : State) (n : Nat) : Nat := match s.step? n with | some r => r.attempt | none => 0

/-- Changes an unreleased step. -/
def State.modStep (s : State) (n : Nat) (f : StepRec → StepRec) : State :=
  { s with fmn := { s.fmn with steps := s.fmn.steps.map (fun r => if r.n == n then f r else r) } }

/-- Replaces the module state. -/
def State.setMod (s : State) (m : ModState) : State :=
  { (s.setField pgFMN 0x00C 28 4 m.code) with fmn := { s.fmn with state := m } }

/-- Sets an overflow source of the current attempt of a step (R147). -/
def State.ovfSource (s : State) (n bit : Nat) : State := s.modStep n (fun r => { r with ovf := setFld r.ovf bit 1 1 })

/-- The job seed of the active imposition (R67). -/
def State.seed (s : State) : Nat := match s.imp.active with | none => 0 | some m => m.seed

/-- An abort of a step is asked of the leader (R276, R278), with the cause of R293 kept for this module's report. -/
def State.askAbort (s : State) (n cause : Nat) : State :=
  let att := match s.step? n with | some r => r.attempt | none => 0
  let s1 := s.modStep n (fun r => if r.cause = 0 then { r with cause := cause } else r)
  s1.sendSlice s1.leader 0x0B n att []

/-- A Case access by another unit than the tile's own meets poison (R77): CASE_UE latches and the tile is marked. -/
def State.caseUE (s : State) (p : Nat) : State := (s.latchAt (pgPRS p) 4 (s.tile p).step).markTile p

end Sys2Proof.Machine
end

