-- ==== Sys2Proof/Machine/Gf.lean ====
section
/-! DEFINITION. The in-line check code (R246, R248): Reed-Solomon over GF(2^8), 72 symbols, roots alpha^0 to alpha^3. The symbols are taken in the order of R246, the first at the highest power (log entry 14). -/

namespace Sys2Proof.Machine

/-- A symbol times alpha (field polynomial 0x11D). -/
def gfDouble (x : Nat) : Nat := if 128 ≤ x then ((x * 2) ^^^ 0x11D) % 256 else x * 2

/-- alpha^k. -/
def gfPow : Nat → Nat
  | 0 => 1
  | k + 1 => gfDouble (gfPow k)

/-- Product of two symbols. -/
def gfMul (a b : Nat) : Nat :=
  (List.range 8).foldl (fun r i => let r2 := gfDouble r; if bitOf b (7 - i) then r2 ^^^ a else r2) 0

/-- One symbol fed into the four running syndromes (Horner). -/
def syndStep (s : Nat × Nat × Nat × Nat) (x : Nat) : Nat × Nat × Nat × Nat :=
  (s.1 ^^^ x, gfMul s.2.1 2 ^^^ x, gfMul s.2.2.1 4 ^^^ x, gfMul s.2.2.2 8 ^^^ x)

/-- The syndromes of a sequence of symbols, first symbol at the highest power. -/
def syndromes (xs : List Nat) : Nat × Nat × Nat × Nat := xs.foldl syndStep (0, 0, 0, 0)

/-- The codeword of R246: address bytes, data, check bytes. -/
def codeword (coff : Nat) (data check : Bytes) : List Nat :=
  (toLE 4 (coff / 64)).map (·.toNat) ++ (sliceB data 0 64).map (·.toNat) ++ check.map (·.toNat)

/-- Division of the message by the generator: the register holds the four check symbols, highest power first. The generator is x^4 + 15 x^3 + 54 x^2 + 120 x + 64. -/
def rsStep (r : Nat × Nat × Nat × Nat) (x : Nat) : Nat × Nat × Nat × Nat :=
  let f := r.1 ^^^ x
  (r.2.1 ^^^ gfMul f 15, r.2.2.1 ^^^ gfMul f 54, r.2.2.2 ^^^ gfMul f 120, gfMul f 64)

/-- The four check bytes of a line at a channel offset (R246). -/
def rsCheck (coff : Nat) (data : Bytes) : Bytes :=
  let r := (codeword coff data []).foldl rsStep (0, 0, 0, 0)
  [BitVec.ofNat 8 r.1, BitVec.ofNat 8 r.2.1, BitVec.ofNat 8 r.2.2.1, BitVec.ofNat 8 r.2.2.2]

/-- The symbol errors of a stored line, as the 68 stored symbols of an error word. -/
def errWord (errs : List (Nat × BitVec 8)) : List Nat :=
  (List.range 68).map (fun i => (errs.foldl (fun x e => if e.1 = i then x ^^^ e.2 else x) (0 : BitVec 8)).toNat)

/-- The poison signature (R248): the syndromes of check bytes XOR 0xFF. -/
def poisonSig : Nat × Nat × Nat × Nat := syndromes [0xFF, 0xFF, 0xFF, 0xFF]

/-- What a decode reports (R247). -/
inductive Decoded where
  | clean
  | corrected (symbol value : Nat)
  | uncorrectable
  | poisoned
  deriving DecidableEq, Repr

/-- R246: decoding from the syndromes; one symbol among the 68 stored ones is corrected. -/
def rsDecode (s : Nat × Nat × Nat × Nat) : Decoded :=
  if s = (0, 0, 0, 0) then .clean
  else if s = poisonSig then .poisoned
  else
    match (List.range 68).find? (fun i =>
        let a := gfPow (67 - i)
        s.1 != 0 && gfMul s.1 a == s.2.1 && gfMul s.2.1 a == s.2.2.1 && gfMul s.2.2.1 a == s.2.2.2) with
    | some i => .corrected i s.1
    | none => .uncorrectable

/-- XOR of two syndrome tuples. -/
def syndXor (a b : Nat × Nat × Nat × Nat) : Nat × Nat × Nat × Nat :=
  (a.1 ^^^ b.1, a.2.1 ^^^ b.2.1, a.2.2.1 ^^^ b.2.2.1, a.2.2.2 ^^^ b.2.2.2)

end Sys2Proof.Machine
end

