-- ==== Sys2Proof/Machine/Dram.lean ====
section
/-! DEFINITION. The memory subsystem: interleave (R241, R242), line operations and check code (R243 to R249), error counting (R247, R252), scrubbing (R251). -/

namespace Sys2Proof.Machine

/-- Bytes of a half (R26). -/
def halfSize : Nat := 0x7800000000

/-- Channel and channel offset of a DRAM offset (R241). -/
def dramLocate (off : Nat) : Nat × Nat :=
  let f := if off < halfSize then 0 else 1
  let o := off - f * halfSize
  let g := o / 256
  (64 * f + ((g ^^^ (g / 64) ^^^ (g / 4096)) % 64), o / 16384 * 256 + o % 256)

/-- DRAM offset of a channel offset (R241, inverse). -/
def dramOffset (ch coff : Nat) : Nat :=
  let q := coff / 256
  let j := ((ch % 64) ^^^ q ^^^ (q / 64)) % 64
  (if ch < 64 then 0 else halfSize) + (q * 64 + j) * 256 + coff % 256

/-- The number of channel offsets (R242). -/
def chanSize : Nat := 0x1E0000000

/-- Physical channel address of a channel offset (R245). -/
def physAddr (coff : Nat) : Nat := coff / 64 / 15 * 1024 + coff / 64 % 15 * 64 + coff % 64

/-- Physical channel address of the 4 check bytes of a channel offset's line (R245). -/
def checkAddr (coff : Nat) : Nat := coff / 64 / 15 * 1024 + 960 + coff / 64 % 15 * 4

/-- The DRAM row of a channel offset: its 2 KiB page of the physical channel space, whose bit 21 and up holds the rank (R245; the bank and row bits inside a page number are not given, log entry 20). -/
def rowOf (coff : Nat) : Nat := physAddr coff / 2048

/-- A channel. -/
def State.chan (s : State) (c : Nat) : Chan := kvGet s.mem.chans c Chan.reset
/-- Changes a channel. -/
def State.modChan (s : State) (c : Nat) (f : Chan → Chan) : State := { s with mem := { s.mem with chans := kvMod s.mem.chans c Chan.reset f } }

/-- Line parts of `n` bytes from an offset (R243). -/
def lineParts (off n : Nat) : List (Nat × Nat) :=
  if n = 0 then []
  else (List.range ((off + n - 1) / 64 - off / 64 + 1)).map (fun i =>
    let a := max off ((off / 64 + i) * 64)
    (a, min (off + n) ((off / 64 + i + 1) * 64) - a))

/-- A read of the check line of a group through the check cache (R249). -/
def Chan.checkRead (c : Chan) (coff : Nat) : Chan :=
  let g := coff / 64 / 15
  if c.cache.contains g then { c with hit := satAdd32 c.hit 1, cache := g :: c.cache.filter (· != g) }
  else { c with cache := (g :: c.cache).take 128 }

/-- A data line and its check line are read (R249, R260). -/
def State.lineRead (s : State) (off : Nat) : State :=
  let (c, coff) := dramLocate off
  s.modChan c (fun x => let y := x.checkRead coff; { y with rd := satAdd64 y.rd 1 })

/-- A decode gives the poison signature (R247). -/
def State.linePoison (s : State) (off : Nat) : State := s.modChan (dramLocate off).1 (fun x => { x with poison := satAdd32 x.poison 1 })

/-- The controller of the line at an offset takes accesses: it has no wipe under way (R255). -/
def State.lineOpen (s : State) (off : Nat) : Bool := !s.mem.shut.contains ((dramLocate off).1 / 8)

/-- The lines of a range belong to controllers that accept accesses (R255). -/
def State.memOpen (s : State) (off n : Nat) : Bool := (lineParts off n).all (fun p => s.lineOpen p.1)

/-- A read of one line that meets no new error. A controller that is being wiped serves none (R255). -/
def State.lineLoad (s : State) (off : Nat) : State :=
  if !s.lineOpen off then s
  else if s.dram.bad (off / 64) then (s.lineRead off).linePoison off else s.lineRead off

/-- Reads `n` bytes: the bytes, and whether some line is poisoned or not served (R243, R247, R255). -/
def State.dramLoad (s : State) (off n : Nat) : Bytes × Bool × State :=
  (s.dram.read off n, s.dram.badIn 64 off n || !s.memOpen off n, (lineParts off n).foldl (fun x p => x.lineLoad p.1) s)

/-- A read of a range whose bytes are taken elsewhere: its lines and what their decodes count (R32). -/
def State.dramSeen (s : State) (off n : Nat) : State := (s.dramLoad off n).2.2

/-- The part of a line is the whole line. -/
def wholeLine (off : Nat) (bs : Bytes) : Bool := off % 64 == 0 && bs.length == 64

/-- The bytes of a line part are written, after the read of a partial write (R244): a whole line replaces poison; a part of a poisoned line is refused with the poison status (R248). -/
def State.linePut (s : State) (off : Nat) (bs : Bytes) : State × Bool :=
  if !wholeLine off bs && s.dram.bad (off / 64) then (s, true)
  else
    let s1 := s.modChan (dramLocate off).1 (fun x => { x with wr := satAdd64 x.wr 1 })
    ({ s1 with dram := s1.dram.writeClean 64 off bs }, false)

/-- A write of one line part that meets no new error; a controller that is being wiped refuses it (R255). -/
def State.lineWrite (s : State) (off : Nat) (bs : Bytes) : State × Bool :=
  if !s.lineOpen off then (s, true) else (if wholeLine off bs then s else s.lineLoad off).linePut off bs

/-- Writes bytes line part by line part; true when some part met poison. -/
def State.dramStore (s : State) (off : Nat) (bs : Bytes) : State × Bool :=
  (lineParts off bs.length).foldl (fun (a : State × Bool) p =>
    let (t, b) := a.1.lineWrite p.1 ((bs.drop (p.1 - off)).take p.2)
    (t, a.2 || b)) (s, false)

/-- MEM page of a channel. -/
def memPage (c : Nat) : Nat := pgMEM (c / 8)

/-- ERR_INFO of a channel offset (R259). -/
def memLo (coff : Nat) : Nat := coff % 2 ^ 32
def memHi (c coff : Nat) : Nat := c % 8 * 2 ^ 29 + coff / 2 ^ 32 % 2

/-- R252: an error counts in the row-error table; answers whether the row's count has just reached 8. -/
def Chan.rowError (c : Chan) (row : Nat) (ue : Bool) : Chan × Bool :=
  match firstIdx (fun (r : RowErr) => r.row == row) c.rows with
  | some i =>
    let old := (c.rows.getD i { row := row, count := 0 }).count
    let new := if ue then 255 else min (old + 1) 255
    ({ c with rows := setNth c.rows i { row := row, count := new } }, decide (old < 8) && decide (8 ≤ new))
  | none =>
    let new := if ue then 255 else 1
    let hit := decide (8 ≤ new)
    if c.rows.length < 32 then ({ c with rows := c.rows ++ [{ row := row, count := new }] }, hit)
    else
      let least := (lowest (c.rows.map (·.count))).getD 0
      match firstIdx (fun (r : RowErr) => r.count == least) c.rows with
      | some i => ({ c with rows := setNth c.rows i { row := row, count := new } }, hit)
      | none => (c, false)

/-- The PENDING entries of a channel (R478): rank, bank and row of each pending row (log entry 20). -/
def Chan.pending (x : Chan) : Bytes :=
  let es := x.repair.flatMap (fun r => toLE 4 (2 ^ 31 + r / 2 ^ 21 % 2 * 2 ^ 22 + r / 2 ^ 17 % 16 * 2 ^ 18 + r % 2 ^ 17))
  es ++ List.replicate (64 - es.length) (0 : Byte)

/-- A row joins the pending-repair list of its channel in the Ledger (R252, R482). -/
def State.addRepair (s : State) (c row : Nat) : State :=
  let x := s.chan c
  if x.repair.contains row then s
  else if 16 ≤ x.repair.length then s.latch pgLDG 3
  else
    let s1 := s.modChan c (fun _ => { x with repair := x.repair ++ [row] })
    s1.ledgerUpdate (0x1400 + 64 * c) (s1.chan c).pending

/-- R252: the row-error table of a channel after an error, MEM_ROW_WEAK and the pending-repair list. -/
def State.rowError (s : State) (c coff : Nat) (ue : Bool) : State :=
  let row := rowOf coff
  let (x, weak) := (s.chan c).rowError row ue
  let s1 := s.modChan c (fun _ => x)
  if weak then (s1.latch (memPage c) 4).addRepair c row else s1

/-- A line becomes poisoned (R247, R248), reported with a code (UE_READ or UE_SCRUB). -/
def State.poisonLine (s : State) (off code : Nat) : State :=
  let (c, coff) := dramLocate off
  let s1 : State := { s with dram := s.dram.taint (off / 64) }
  let s2 := (s1.modChan c (fun x => { x with ue := satAdd32 x.ue 1 })).rowError c coff true
  let s3 := (s2.setN (memPage c) 0x084 (memLo coff)).setN (memPage c) 0x088 (memHi c coff)
  s3.latchErr (memPage c) 1 code (memLo coff) (memHi c coff)

/-- R246, R247: a read of the line at `off` meets symbol errors in its 68 stored symbols; `code` names the reader in ERR_CODE. -/
def State.lineDecode (s : State) (off : Nat) (errs : List (Nat × BitVec 8)) (code : Nat) : State :=
  let base := off / 64 * 64
  let (c, coff) := dramLocate base
  let e := syndromes (errWord errs)
  let syn := if s.dram.bad (base / 64) then syndXor poisonSig e else e
  let hit := errs.foldl (fun (m : Ram) p => if p.1 < 64 then m.set (base + p.1) (m.get (base + p.1) ^^^ p.2) else m) s.dram
  match rsDecode syn with
  | .clean => if s.dram.bad (base / 64) then { s with dram := hit.clean (base / 64) } else { s with dram := hit }
  | .poisoned => ({ s with dram := hit.taint (base / 64) } : State).linePoison base
  | .corrected i v =>
    let fixed := if i < 64 then hit.set (base + i) (hit.get (base + i) ^^^ BitVec.ofNat 8 v) else hit
    let s1 : State := { s with dram := fixed.clean (base / 64) }
    (s1.modChan c (fun x => { x with ce := satAdd32 x.ce 1 }) |>.latch (memPage c) 0).rowError c coff false
  | .uncorrectable => s.poisonLine base code

/-- MEM.STATE.PHASE of the controller of a channel. -/
def State.memPhase (s : State) (c : Nat) : Nat := s.field (memPage c) 0x00C 0 4

/-- Data lines of a controller's eight channels. -/
def linesPerChan : Nat := chanSize / 64

/-- SCRUB_READ (R251): controller `m` reads its next data line; the position is kept in lines through its channels in order. -/
def State.scrubNext (s : State) (m : Nat) (errs : List (Nat × BitVec 8)) : State :=
  let pos := kvGet s.mem.scrub m 0
  if s.regN (pgMEM m) 0x008 % 2 = 0 ∨ s.regN (pgMEM m) 0x044 = 0 ∨ s.field (pgMEM m) 0x00C 0 4 ≠ 4 ∨ 8 * linesPerChan ≤ pos then s
  else
    let c := 8 * m + pos / linesPerChan
    let off := dramOffset c (pos % linesPerChan * 64)
    let s1 : State := { s with mem := { s.mem with scrub := kvSet s.mem.scrub m (pos + 1) } }
    if s.dram.bad (off / 64) then s1
    else
      let s2 := s1.lineRead off
      if errs.isEmpty then s2 else s2.lineDecode off errs 2

/-- MEM.SCRUB_POS (R260). -/
def State.scrubPos (s : State) (m : Nat) : Nat :=
  let pos := kvGet s.mem.scrub m 0
  pos / linesPerChan % 8 * 2 ^ 29 + pos % linesPerChan / 64

/-- SCRUB_PERIOD_END (R251, R252): every data line of the controller has been read once in the period. -/
def State.scrubEnd (s : State) (m : Nat) (late : Bool) : State :=
  if s.regN (pgMEM m) 0x008 % 2 = 0 ∨ s.regN (pgMEM m) 0x044 = 0 ∨ kvGet s.mem.scrub m 0 < 8 * linesPerChan then s
  else
    let s1 : State := { s with mem := { s.mem with scrub := kvSet s.mem.scrub m 0 } }
    let s2 := (List.range 8).foldl (fun x k => x.modChan (8 * m + k) (fun c => { c with rows := c.rows.filter (fun r => decide (8 ≤ r.count)) })) s1
    let s3 := if late then s2.bump (pgMEM m) 0x04C 1 else s2
    s3.latch (pgMEM m) 2

/-- A per-channel register of the channel that CH_INDEX selects (R260). -/
def State.chanReg (s : State) (m off : Nat) : Nat :=
  let c := s.chan (8 * m + s.regN (pgMEM m) 0x050 % 8)
  match off with
  | 0x054 => c.ce
  | 0x058 => c.ue
  | 0x05C => c.poison
  | 0x060 => c.temp % 256 * 2 ^ 24 + c.mult % 4 * 2 ^ 16 + c.rows.length * 256 + min c.repair.length 255
  | 0x064 => c.used
  | 0x068 => c.avail
  | 0x06C => c.hit
  | 0x070 => c.rd % 2 ^ 32
  | 0x074 => c.rd / 2 ^ 32
  | 0x078 => c.wr % 2 ^ 32
  | 0x07C => c.wr / 2 ^ 32
  | _ => c.rfm

end Sys2Proof.Machine
end

