-- ==== Sys2Proof/Machine/Window.lean ====
section
/-! DEFINITION. The per-channel view of DRAM (R241), parity deltas (R376, R380 to R383), DRAM writes inside and outside the parity window (R381). -/

namespace Sys2Proof.Machine

/-- Section `i` of the active imposition. -/
def State.sec (s : State) (i : Nat) : Bytes := match s.imp.active with | none => [] | some m => m.sec i

/-- DRAM parts of a channel range: pieces that do not cross a 256-byte granule (R241). -/
def chanParts (coff n : Nat) : List (Nat × Nat) :=
  if n = 0 then []
  else (List.range ((coff + n - 1) / 256 - coff / 256 + 1)).map (fun i =>
    let a := max coff ((coff / 256 + i) * 256)
    (a, min (coff + n) ((coff / 256 + i + 1) * 256) - a))

/-- Bytes of a channel range, without a trace in the counters. -/
def State.chanPeek (s : State) (ch coff n : Nat) : Bytes :=
  (chanParts coff n).flatMap (fun p => s.dram.read (dramOffset ch p.1) p.2)

/-- Some line of a channel range is poisoned. -/
def State.chanBad (s : State) (ch coff n : Nat) : Bool :=
  (chanParts coff n).any (fun p => s.dram.badIn 64 (dramOffset ch p.1) p.2)

/-- A read of a channel range (R243). -/
def State.chanLoad (s : State) (ch coff n : Nat) : Bytes × Bool × State :=
  (s.chanPeek ch coff n, s.chanBad ch coff n, (chanParts coff n).foldl (fun x p => (x.dramLoad (dramOffset ch p.1) p.2).2.2) s)

/-- A read of a channel range whose bytes are taken elsewhere: its lines and what their decodes count. -/
def State.chanSeen (s : State) (ch coff n : Nat) : State := (s.chanLoad ch coff n).2.2

/-- A write of a channel range; true when a part of a line met poison (R248). -/
def State.chanStore (s : State) (ch coff : Nat) (bs : Bytes) : State × Bool :=
  (chanParts coff bs.length).foldl (fun (a : State × Bool) p =>
    let (t, b) := a.1.dramStore (dramOffset ch p.1) ((bs.drop (p.1 - coff)).take p.2)
    (t, a.2 || b)) (s, false)

/-- Zeroes a channel range (as whole-line writes, R221). -/
def State.chanZero (s : State) (ch coff n : Nat) : State :=
  ({ s with dram := (chanParts coff n).foldl (fun (m : Ram) p => m.zero 64 (dramOffset ch p.1) p.2) s.dram } : State).modChan ch
    (fun x => { x with wr := satAdd64 x.wr (lineParts coff n).length })

/-- Parity layers of the active imposition (R378). -/
def State.layers (s : State) : Nat := leAt (s.sec 5) 0 1
/-- The parity window per channel, CW. -/
def State.window (s : State) : Nat := if s.layers = 0 then 0 else leAt (s.sec 5) 8 8
/-- VMAX. -/
def State.vmax (s : State) : Nat := leAt (s.sec 5) 0x10 8
/-- PBASE of a layer. -/
def State.pbase (s : State) (l : Nat) : Nat := leAt (s.sec 5) (0x18 + 8 * l) 8

/-- Rank of a chip in the active member list. -/
def State.rankOf (s : State) (c : Nat) : Option Nat := firstIdx (fun x => x == c) s.members

/-- Group id, position and size of a rank in a layer (R378). -/
def State.groupOf (s : State) (l rank : Nat) : Nat × Nat × Nat :=
  let o := 0x40 + 4 * (l * s.members.length + rank)
  (leAt (s.sec 5) o 2, leAt (s.sec 5) (o + 2) 1, leAt (s.sec 5) (o + 3) 1)

/-- The member at a position of a group. -/
def State.memberAt (s : State) (l gid pos : Nat) : Option Nat :=
  ((List.range s.members.length).find? (fun r => let g := s.groupOf l r; g.1 == gid && g.2.1 == pos)).map (fun r => s.members.getD r 0)

/-- R376: stripe, home position and slot of data unit `k` of the member at position `m` of a group of `g`. -/
def unitToStripe (g m k : Nat) : Nat × Nat × Nat :=
  let d := max (g - 1) 1
  let r := k % d
  let t := if r < m then r else r + 1
  (k / d * g + t, t, k / d)

/-- Units per channel. -/
def State.unitsPerChan (s : State) : Nat := s.window / 4096

/-- The parity home of a unit of this member in a layer. -/
def State.parityHome (s : State) (l unit : Nat) : Option Nat :=
  match s.rankOf s.self with
  | none => none
  | some rank =>
    let (gid, m, g) := s.groupOf l rank
    s.memberAt l gid (unitToStripe g m unit).2.1

/-- Pieces of a window write: inside one 4 KiB unit, extended to multiples of 16 bytes (R380). -/
def deltaPieces (coff n : Nat) : List (Nat × Nat) :=
  if n = 0 then []
  else
    let a := coff / 16 * 16
    let e := ceilDiv (coff + n) 16 * 16
    (List.range ((e - 1) / 4096 - a / 4096 + 1)).map (fun i =>
      let b := max a ((a / 4096 + i) * 4096)
      (b, min e ((a / 4096 + i + 1) * 4096) - b))

/-- XOR of two byte lists. -/
def xorB (a b : Bytes) : Bytes := (a.zip b).map (fun p => p.1 ^^^ p.2)

/-- A PARITY_DELTA packet (R380). -/
def State.deltaPkt (s : State) (dst l ch coff op step att : Nat) (d : Bytes) : Packet :=
  s.mkPkt 0x40 4 dst (coff + ch * 2 ^ 33 + l * 2 ^ 40) op (toLE 8 step ++ toLE 2 att ++ toLE 2 d.length ++ toLE 4 0 ++ d)

/-- Sends the deltas of a write into the window, one per layer and unit (R380, R381); answers how many. -/
def State.sendDeltas (s : State) (ink ch coff : Nat) (old new : Bytes) (held : Bool) (step att serial : Nat) : State × Nat :=
  if s.window ≤ coff then (s, 0)
  else
    (List.range s.layers).foldl (fun (a : State × Nat) l =>
      (deltaPieces coff old.length).foldl (fun (b : State × Nat) p =>
        match s.parityHome l (ch * s.unitsPerChan + p.1 / 4096) with
        | none => b
        | some dst =>
          let lo := p.1 - coff
          let pre := coff - p.1
          let x := List.replicate pre (0 : Byte) ++ xorB ((old.drop lo).take (p.2 - pre)) ((new.drop lo).take (p.2 - pre))
          let d := sliceB x 0 p.2
          (b.1.send (b.1.deltaPkt dst l ch p.1 (if held then 0 else 1) step att d) (.parity ink step serial), b.2 + 1)) a) (s, 0)

/-- A window write with IMMEDIATE deltas (R381); true when part of a line met poison. -/
def State.winPut (s : State) (ch coff : Nat) (bs : Bytes) : State × Bool :=
  let old := s.chanPeek ch coff bs.length
  let (s1, bad) := s.chanStore ch coff bs
  ((s1.sendDeltas ch ch coff old bs false 0 0 0).1, bad)

/-- The parts of a DRAM range by channel (R241). -/
def dramParts (off n : Nat) : List (Nat × Nat × Nat) :=
  if n = 0 then []
  else (List.range ((off + n - 1) / 256 - off / 256 + 1)).map (fun i =>
    let a := max off ((off / 256 + i) * 256)
    let len := min (off + n) ((off / 256 + i + 1) * 256) - a
    ((dramLocate a).1, (dramLocate a).2, len))

/-- A DRAM write inside the window with deltas: HELD for an item, else IMMEDIATE (R381); answers the deltas sent and whether part of a line met poison. -/
def State.dramWindow (s : State) (ink off : Nat) (bs : Bytes) (held : Option Item) : State × Nat × Bool :=
  let old := s.dram.read off bs.length
  let (s1, bad) := s.dramStore off bs
  let (s2, c, _) := (dramParts off bs.length).foldl (fun (a : State × Nat × Nat) p =>
    let o := (old.drop a.2.2).take p.2.2
    let w := (bs.drop a.2.2).take p.2.2
    let (y, k) := match held with
      | some it => a.1.sendDeltas ink p.1 p.2.1 o w true it.step (a.1.attemptOf it.step) it.serial
      | none => a.1.sendDeltas ink p.1 p.2.1 o w false 0 0 0
    (y, a.2.1 + k, a.2.2 + p.2.2)) (s1, 0, 0)
  (s2, c, bad)

/-- A write of this module outside a commit: inside the parity window it sends IMMEDIATE deltas (R32, R243, R381); true when part of a line met poison. -/
def State.dramKeep (s : State) (off : Nat) (bs : Bytes) : State × Bool :=
  if s.layers = 0 then s.dramStore off bs
  else let (s1, _, bad) := s.dramWindow 0 off bs none; (s1, bad)

/-- Writes the bytes of a control-plane or management-plane record (R32). -/
def State.dramPut (s : State) (off : Nat) (bs : Bytes) : State := (s.dramKeep off bs).1

end Sys2Proof.Machine
end

