-- ==== Sys2Proof/Machine/Access.lean ====
section
/-! DEFINITION. Accesses by global address to spaces 0 and 1 (R19, R26, R95, R240): reads and writes with their status. -/

namespace Sys2Proof.Machine

/-- Chip, space and offset of a global address (R19). -/
def gaChip (a : Nat) : Nat := fld a 50 14
def gaSpace (a : Nat) : Nat := fld a 47 3
def gaOff (a : Nat) : Nat := fld a 0 47

/-- The global address names this chip. -/
def State.gaHere (s : State) (a : Nat) : Bool := gaChip a == 0x3FFF || gaChip a == s.self

/-- What an external access to a tile meets before any byte moves (R95): none where it may go on. -/
inductive TileGate where
  | allowed | busy | range
  deriving DecidableEq, Repr

/-- The run states in which the Galley and the state block take external accesses (R95). -/
def Run.quiet (r : Run) : Bool := r == .idle || r == .stopped || r == .faulted

/-- R95 for `n` bytes at a tile-local address. -/
def Tile.gate (t : Tile) (a n : Nat) : TileGate :=
  let last := a + n - 1
  if regionOf a = .reserved ∨ regionOf last = .reserved then .range
  else if last < 0x800000 then .allowed
  else if t.run.quiet then .allowed
  else .busy

/-- A refused external access (R95, R102). -/
def State.accessErr (s : State) (p code a src : Nat) : State :=
  let s1 := s.bump (pgPRS p) 0x07C 1
  let s2 := if (s.tile p).run = .faulted then s1 else s1.setErr (pgPRS p) code (a % 2 ^ 32) ((s.tile p).ctx % 256 * 2 ^ 24 + src % 2 ^ 14)
  s2.latchAt (pgPRS p) 7 (s.tile p).step

/-- An access to space 1: the physical tile and tile-local address, or the status of its refusal. The movement of tile `own` reaches its own Galley views and state block at all times (R95). -/
def State.tileGate (s : State) (off n src : Nat) (own : Option Nat := none) : (Nat × Nat) ⊕ (Nat × State) :=
  if fld off 31 16 ≠ 0 then .inr (2, s.unmapped 1 off src)
  else match s.physical (fld off 24 7) with
    | none => .inr (2, s.unmapped 1 off src)
    | some p =>
      let a := off % 2 ^ 24
      match (s.tile p).gate a n with
      | .allowed => .inl (p, a)
      | .range => .inr (2, s.accessErr p 0x84 a src)
      | .busy => if own = some p then .inl (p, a) else .inr (1, s.accessErr p 0x82 a src)

/-- The errors among `errs` that lie in `n` bytes of a tile's Case. -/
def errsIn (errs : List CaseErr) (a n : Nat) : List CaseErr := errs.filter (fun e => decide (a < e.addr / 8 * 8 + 8) && decide (e.addr / 8 * 8 < a + n))

/-- The Case errors that an access of `n` bytes by global address meets (R77). -/
def State.spaceErrs (s : State) (space off n src : Nat) (errs : List CaseErr) (own : Option Nat := none) : State :=
  if space ≠ 1 then s
  else match s.tileGate off n src own with
    | .inl (p, a) => s.caseErrors p (errsIn errs a n)
    | .inr _ => s

/-- Reads `n` bytes of space 0 or 1 for `src`: data, status (0xFF for poison), state. -/
def State.spaceRead (s : State) (space off n src : Nat) (own : Option Nat := none) : Bytes × Nat × State :=
  if space = 0 then
    if !dramMapped off n then ([], 2, s.unmapped 0 off src)
    else if !s.memOpen off n then ([], 1, s)
    else
      let (b, bad, s1) := s.dramLoad off n
      (b, if bad then 0xFF else 0, s1)
  else if space = 1 then
    match s.tileGate off n src own with
    | .inr (st, s1) => ([], st, s1)
    | .inl (p, a) =>
      if a < 0x800000 ∧ (s.tile p).mem.badIn 8 a n then ((s.tile p).readAt a n, 0xFF, s.caseUE p)
      else ((s.tile p).readAt a n, 0, s)
  else ([], 2, s.unmapped space off src)

/-- Writes bytes to space 0 or 1 for `src`: status, state. -/
def State.spaceWrite (s : State) (space off : Nat) (bs : Bytes) (src : Nat) (own : Option Nat := none) : Nat × State :=
  if space = 0 then
    if !dramMapped off bs.length then (2, s.unmapped 0 off src)
    else if !s.memOpen off bs.length then (1, s)
    else
      let (s1, bad) := s.dramKeep off bs
      (if bad then 0xFF else 0, s1)
  else if space = 1 then
    match s.tileGate off bs.length src own with
    | .inr (st, s1) => (st, s1)
    | .inl (p, a) => (0, s.modTile p (fun t => t.writeAt a bs))
  else (2, s.unmapped space off src)

/-- Adds to a 32-bit word of a tile (R130, R312): status, state. -/
def State.spaceAdd (s : State) (off v src : Nat) (own : Option Nat := none) : Nat × State :=
  match s.tileGate off 4 src own with
  | .inr (st, s1) => (st, s1)
  | .inl (p, a) =>
    if a < 0x800000 ∧ (s.tile p).mem.badIn 8 a 4 then (0xFF, s.caseUE p)
    else (0, s.modTile p (fun t => t.writeAt a (toLE 4 ((leNat (t.readAt a 4) + v) % 2 ^ 32))))

/-- A write of this module's own Collator or Sorter at a global address whose chip field is this chip. -/
def State.ownWrite (s : State) (a : Nat) (bs : Bytes) : State := (s.spaceWrite (gaSpace a) (gaOff a) bs s.self).2

/-- A read by this module's own Collator. -/
def State.ownRead (s : State) (a n : Nat) : Bytes := (s.spaceRead (gaSpace a) (gaOff a) n s.self).1
/-- What that read counts. -/
def State.ownSeen (s : State) (a n : Nat) : State := (s.spaceRead (gaSpace a) (gaOff a) n s.self).2.2

end Sys2Proof.Machine
end

