-- ==== Sys2Proof/Machine/Num.lean ====
section
/-! DEFINITION. Training numerics (NUM): scale records (R137 to R139), per-tensor scales and histories (R142, R143), the loss scale (R145, R146), verdict and clip factor (R147 to R149), the silent monitor (R150, R151), feedback slots (R157), the numerics section of the report (R163), the tensor table (R167). -/

namespace Sys2Proof.Machine

/-- Fields of a tensor-table entry (R167). -/
def TensorEnt.valid (e : TensorEnt) : Bool := bitOf e.word 31
def TensorEnt.grad (e : TensorEnt) : Bool := bitOf e.word 30
def TensorEnt.silentEn (e : TensorEnt) : Bool := bitOf e.word 29
def TensorEnt.mode (e : TensorEnt) : Nat := fld e.word 26 2
def TensorEnt.fmt (e : TensorEnt) : Nat := fld e.word 22 4
def TensorEnt.margin (e : TensorEnt) : Int := sext 4 (fld e.word 18 4)
def TensorEnt.sInit (e : TensorEnt) : Int := sext 16 e.word

/-- T_f of R142 for the formats that HISTORY accepts. -/
def histTf : Nat → Option Int
  | 0 => some 7 | 1 => some 14 | 8 => some 5 | 9 => some 5 | 10 => some 126 | 11 => some 14 | _ => none

/-- The largest value of a history (R142); 0 for an empty one. -/
def histMax : List Int → Int
  | [] => 0
  | x :: r => r.foldl max x

/-- The scale of an entry for a record with loss-scale exponent `k` (R142); `histEn` is NUM.CTRL.HIST_EN (R143). -/
def TensorEnt.scaleFor (e : TensorEnt) (k : Int) (histEn : Bool) : Int :=
  let global := e.sInit + k
  let v := if e.mode = 2 then e.sInit
    else if e.mode = 1 then
      if histEn && !e.hist.isEmpty then histMax e.hist + (if e.grad then k else 0) - (histTf e.fmt).getD 0 + e.margin
      else if e.grad then global else e.sInit
    else global
  clamp16 v

/-- The bytes of a scale record (R138), 4,160 of the slot's 8 KiB; the remainder is 0. -/
def ScaleRec.bytes (r : ScaleRec) : Bytes :=
  toLE 8 r.n ++ toLE 4 r.epoch ++ toLE 2 (wrapN 16 r.k) ++ toLE 1 r.efRd ++ toLE 1 r.efWr ++ toLE 2 r.ents.length ++ toLE 46 0
  ++ (List.range 1024).flatMap (fun i => match kvFind r.ents i with
      | some v => toLE 2 (wrapN 16 v) ++ toLE 2 1
      | none => [0, 0, 0, 0])
  ++ List.replicate 4032 0

/-- Writes a record into slot n mod 4 of both rings (R137). -/
def State.writeRecord (s : State) (r : ScaleRec) : State :=
  let off := r.n % 4 * 8192
  (s.dramPut (s.inForce64 pgNUM 0x080 + off) r.bytes).dramPut (s.inForce64 pgNUM 0x088 + off) r.bytes

/-- Step `n` is open or forming. -/
def State.openOrForming (s : State) (n : Nat) : Bool := (s.step? n).isSome || (match s.fmn.forming with | some f => f.n == n | none => false)

/-- EF_WR for a new record: the lowest slot that is not C and not EF_RD or EF_WR of an undecided step that is open or forming (R157). -/
def State.freeEf (s : State) : Option Nat :=
  let used := (s.num.undecided.filter (fun n => s.openOrForming n)).flatMap (fun n => match kvFind s.num.recs (n % 4) with
    | some r => if r.n = n then [r.efRd, r.efWr] else []
    | none => [])
  (List.range 4).find? (fun i => i != s.num.slotC && !used.contains i)

/-- The slot of step n is free: the step that used it has been decided COMMIT or SKIP (R137). -/
def State.slotFree (s : State) (n : Nat) : Bool := !(s.num.undecided.any (fun m => m % 4 == n % 4))

/-- NUM.CTRL bits in force (R164). -/
def State.numCtrl (s : State) (bit : Nat) : Bool := bitOf (s.inForce pgNUM 0x008) bit

/-- The record of step n formed now (R137, R142, R144, R157). -/
def State.formRecord (s : State) (n ef : Nat) : ScaleRec :=
  { n := n, epoch := s.epoch, k := s.num.lsCur, efRd := s.num.slotC, efWr := ef,
    ents := (s.num.table.filter (fun p => p.2.valid)).map (fun p => (p.1, p.2.scaleFor s.num.lsCur (s.numCtrl 1))) }

/-- NUM writes the record of step n into both rings and remembers it (R137); S_CUR of every entry follows, 0 where the record holds none (R138, R167). -/
def State.putRecord (s : State) (r : ScaleRec) : State :=
  let nm := s.num
  let table := nm.table.map (fun p => match kvFind r.ents p.1 with
    | some v => (p.1, { p.2 with sCur := v })
    | none => (p.1, { p.2 with sCur := 0 }))
  ({ s with num := { nm with recs := kvSet nm.recs (r.n % 4) r, undecided := setIns nm.undecided r.n, newest := some (r.n % 4), table := table } }).writeRecord r

/-- The record that an undecided step has in its slot. -/
def State.recordOf (s : State) (n : Nat) : Option ScaleRec :=
  match kvFind s.num.recs (n % 4) with
  | some r => if r.n = n ∧ s.num.undecided.contains n then some r else none
  | none => none

/-- The records of steps that are not yet open go into the rings where REC_BASE0 and REC_BASE1 now place them (R139). -/
def State.moveRecords (s : State) : State :=
  (s.num.undecided.filter (fun n => (s.step? n).isNone)).foldl (fun (x : State) n => match s.recordOf n with
    | some r => x.writeRecord r
    | none => x) s

/-- The histories keep their last LENGTH values (R143). -/
def State.trimHistories (s : State) : State :=
  let len := s.inForce pgNUM 0x04C
  { s with num := { s.num with table := s.num.table.map (fun p => (p.1, { p.2 with hist := p.2.hist.drop (p.2.hist.length - len) })) } }

/-- NUM.LS_CFG fields in force (R146, R166). -/
def State.lsInit (s : State) : Int := sext 8 (fld (s.inForce pgNUM 0x040) 24 8)
def State.lsMax (s : State) : Int := sext 8 (fld (s.inForce pgNUM 0x040) 16 8)
def State.lsMin (s : State) : Int := sext 8 (fld (s.inForce pgNUM 0x040) 8 8)

/-- R145: the loss scale after a decision. -/
def State.lsOnDecision (s : State) (d : Verdict) (k : Int) (ovf : Nat) : State :=
  if !s.numCtrl 0 then s
  else match d with
    | .skip =>
      let low := k - 1
      let s1 := if low < s.lsMin then s.latch pgNUM 1 else s
      let l := if low < s.lsMin then s.lsMin else low
      { s1 with num := { s1.num with lsCur := if l < s1.num.lsCur then l else s1.num.lsCur, clean := 0 } }
    | .commit =>
      if ovf ≠ 0 then { s with num := { s.num with clean := 0 } }
      else
        let c := (s.num.clean + 1) % 65536
        let iv := s.inForce pgNUM 0x044
        if iv ≠ 0 ∧ iv ≤ c then
          { s with num := { s.num with lsCur := if s.num.lsCur < s.lsMax then s.num.lsCur + 1 else s.num.lsCur, clean := 0 } }
        else { s with num := { s.num with clean := c } }
    | _ => s

/-- Clamp to int8. -/
def clamp8 (x : Int) : Int := if x < -128 then -128 else if 127 < x then 127 else x

/-- The highest non-zero bin among 1 to 62 of a histogram. -/
def topBin (h : AMap Nat) : Option Nat := ((List.range 63).filter (fun b => b != 0 && kvGet h b 0 != 0)).getLast?

/-- The history value of R143 before clamping. -/
def histValue (top : Nat) (sn k : Int) (grad : Bool) : Int := (top : Int) - 32 + sn - (if grad then k else 0)

/-- R143: one history value per valid HISTORY entry with a count in bins 1 to 62. -/
def State.appendHistories (s : State) (r : ScaleRec) (hist : AMap (AMap Nat)) : State :=
  if !s.numCtrl 1 then s
  else
    let len := s.inForce pgNUM 0x04C
    s.num.table.foldl (fun (x : State) p =>
      let e := p.2
      if e.valid && e.mode == 1 then
        match topBin (kvGet hist e.tid []) with
        | none => x
        | some b =>
          let v := histValue b (kvGet r.ents p.1 0) r.k e.grad
          let h := e.hist ++ [clamp8 v]
          let y : State := { x with num := { x.num with table := kvSet x.num.table p.1 { e with hist := h.drop (h.length - len) } } }
          if b = 62 ∨ clamp8 v ≠ v then y.latch pgNUM 4 else y
      else x) s

/-- R150: the silent counter of an entry after a decided step. -/
def TensorEnt.silentStep (e : TensorEnt) (h : AMap Nat) : TensorEnt :=
  if (List.range 64).any (fun b => b != 0 && kvGet h b 0 != 0) then { e with silent := 0, reported := false }
  else if kvGet h 0 0 ≠ 0 then { e with silent := min (e.silent + 1) 65535 }
  else e

/-- R150 and R151: the silent monitor; answers the indices that joined the silent list. -/
def State.silentMonitor (s : State) (hist : AMap (AMap Nat)) : State × List Nat :=
  if !s.numCtrl 2 then (s, [])
  else
    let lim := s.inForce pgNUM 0x050
    let t1 := s.num.table.map (fun p => if p.2.valid && p.2.silentEn then (p.1, p.2.silentStep (kvGet hist p.2.tid [])) else p)
    let joins := (t1.filter (fun p => p.2.valid && p.2.silentEn && decide (lim ≤ p.2.silent) && !p.2.reported)).map (·.1)
    let t2 := t1.map (fun p => if joins.contains p.1 then (p.1, { p.2 with reported := true }) else p)
    let s1 : State := { s with num := { s.num with table := t2 } }
    match lowest joins with
    | none => (s1, [])
    | some i => ((s1.setN pgNUM 0x054 (2 ^ 31 + i)).latch pgNUM 0, joins)

/-- FP32 value of a norm-squared times 2^(-2k), rounded to nearest even (R148, R162). -/
def unscale2 (w : Nat) (k : Int) : Nat := f32enc ((f32dec w).scale (-2 * k))

/-- R148: the leader's verdict on a step: 0 clean, 1 overflowed, 2 failed norm check (R163). -/
def State.verdictOf (s : State) (ovf g2 : Nat) : Nat :=
  let bound := s.inForce pgNUM 0x058
  if ovf ≠ 0 then 1
  else if bound % 2 ^ 31 ≠ 0 ∧ f32lt bound (f32sqrt g2) then 2
  else 0

/-- R149: the clip factor, min(1.0, c / sqrt(G2)). -/
def State.clipOf (s : State) (g2 : Nat) : Nat :=
  let c := s.inForce pgNUM 0x05C
  if c % 2 ^ 31 = 0 ∨ (f32dec g2).nonFinite ∨ (f32dec g2).isZero then 0x3F800000
  else f32min 0x3F800000 (f32div c (f32sqrt g2))

/-- The verdict code of a decided step, from what the decision carries. -/
def State.verdictCode (s : State) (d : DecMsg) : Nat :=
  if d.ovfSrc ≠ 0 then 1 else if d.verdict = .skip then 2 else s.verdictOf 0 d.g2

/-- NUM's registers of the latest decided step (R166). -/
def State.numLatest (s : State) (n : Nat) (d : DecMsg) : State :=
  let s1 := (((s.setN pgNUM 0x064 d.ovfSrc).setN pgNUM 0x068 d.g2).setN pgNUM 0x06C d.clip).set64 pgNUM 0x0A8 n
  (((s1.setN pgNUM 0x070 d.parts).setN pgNUM 0x074 d.total).setN pgNUM 0x078 d.nparts).setN pgNUM 0x07C d.samples

/-- A decision reaches NUM: histories, silent monitor, loss scale, feedback slot, events (R143, R145, R150, R151, R157, R165). Answers the silent list. -/
def State.numDecide (s : State) (r : StepRec) (d : DecMsg) : State × List Nat :=
  let v := s.verdictCode d
  let s0 := if v = 1 then s.latchAt pgNUM 2 r.n else if v = 2 then s.latchAt pgNUM 3 r.n else s
  if d.verdict = .commit ∨ d.verdict = .skip then
    let s1 := s0.appendHistories r.scale r.hist
    let (s2, joins) := s1.silentMonitor r.hist
    let s3 := s2.lsOnDecision d.verdict r.scale.k d.ovfSrc
    let s4 : State := { s3 with num := { s3.num with undecided := setDel s3.num.undecided r.n, slotC := if d.verdict = .commit then r.scale.efWr else s3.num.slotC } }
    (s4.numLatest r.n d, joins)
  else (s0, [])

/-- The numerics section of the report (R163). -/
def State.numSection (s : State) (r : StepRec) (d : DecMsg) (silent : List Nat) : Bytes :=
  let hist := r.hist.filter (fun p => p.2.any (fun q => q.2 != 0))
  let head := toLE 8 r.n ++ toLE 1 (s.verdictCode d) ++ toLE 1 0 ++ toLE 2 (wrapN 16 r.scale.k) ++ toLE 2 (wrapN 16 s.num.lsCur)
    ++ toLE 1 r.scale.efRd ++ toLE 1 r.scale.efWr ++ toLE 4 d.ovfSrc ++ toLE 4 d.g2 ++ toLE 4 d.clip
    ++ toLE 4 d.parts ++ toLE 4 d.total ++ toLE 4 d.nparts ++ toLE 4 d.samples
    ++ toLE 4 r.lossSum ++ toLE 4 r.ovfSum ++ toLE 2 silent.length ++ toLE 2 hist.length ++ toLE 8 0
    ++ (List.range 16).flatMap (fun i => toLE 4 (kvGet r.mseSum i 0) ++ toLE 4 (kvGet r.mseCnt i 0))
    ++ silent.flatMap (fun i => toLE 2 i ++ toLE 2 0)
  let pad := List.replicate ((8 - head.length % 8) % 8) (0 : Byte)
  head ++ pad ++ hist.flatMap (fun p => toLE 4 p.1 ++ toLE 4 0 ++ (List.range 64).flatMap (fun b => toLE 4 (kvGet p.2 b 0)))

/-- NUM_CFG_ERR (R165). -/
def State.numCfgErr (s : State) : State := s.latch pgNUM 5

/-- The entry that TT_INDEX selects. -/
def State.ttEntry (s : State) : TensorEnt := kvGet s.num.table (s.regN pgNUM 0x094) TensorEnt.clear

/-- TT_INDEX_WRITE (R167): loads the staging registers from the selected entry. -/
def State.ttSelect (s : State) (i : Nat) : State :=
  let s1 := s.setN pgNUM 0x094 (i % 1024)
  let e := s1.ttEntry
  (s1.setN pgNUM 0x098 e.tid).setN pgNUM 0x09C (e.word &&& 0xEFFCFFFF)

/-- TT_COMMIT (R142, R167): captures the staged fields, refused for HISTORY with another format and for MODE 3. -/
def State.ttCommit (s : State) : State :=
  let w := s.regN pgNUM 0x09C
  let e : TensorEnt := { TensorEnt.clear with word := w }
  if e.mode = 3 ∨ (e.mode = 1 ∧ (histTf e.fmt).isNone) then s.numCfgErr
  else { s with num := { s.num with commits := s.num.commits ++ [(s.regN pgNUM 0x094, s.regN pgNUM 0x098, w)] } }

/-- The captured commits are placed at a step boundary, in order (R167). -/
def State.ttPlace (s : State) : State :=
  let t := s.num.commits.foldl (fun t c =>
    let old := kvGet t c.1 TensorEnt.clear
    kvSet t c.1 { old with tid := c.2.1, word := c.2.2, hist := [], silent := 0, reported := false }) s.num.table
  { s with num := { s.num with table := t, commits := [] } }

/-- A captured LS_CFG LOAD acts at a step boundary (R146). -/
def State.lsLoad (s : State) : State :=
  if s.num.load then { s with num := { s.num with lsCur := s.lsInit, clean := 0, slotC := 0, load := false } } else s

/-- TT_DATA2 and TT_DATA3 show the selected entry (R167). -/
def State.ttData2 (s : State) : Nat := wrapN 16 s.ttEntry.sCur * 2 ^ 16 + s.ttEntry.silent
def State.ttData3 (s : State) : Nat :=
  s.ttEntry.hist.length * 2 ^ 24 + wrapN 8 (histMax s.ttEntry.hist) * 2 ^ 16 + b2n s.ttEntry.reported

/-- NUM.EF_STATE (R166): EF_WR of the newest record and C. -/
def State.efState (s : State) : Nat :=
  (match s.num.newest.bind (kvFind s.num.recs) with | none => 0 | some r => r.efWr * 256) + s.num.slotC

/-- NUM.LS_STATE (R166). -/
def State.lsState (s : State) : Nat := s.num.clean % 65536 * 2 ^ 16 + wrapN 8 s.num.lsCur

/-- LS_CFG_LOAD (R146): a write of LS_CFG; held for the boundary by `held` writes. -/
def lsCfgOk (w : Nat) : Bool :=
  decide (sext 8 (fld w 8 8) ≤ sext 8 (fld w 24 8)) && decide (sext 8 (fld w 24 8) ≤ sext 8 (fld w 16 8))

end Sys2Proof.Machine
end

