-- ==== Sys2Proof/Machine/Rows.lean ====
section
/-! DEFINITION. Records of sparse tables (R206 to R208), conversion to stored formats (R70, R208, R217), the optimisers (R215 to R217), the Delta grid (R212). -/

namespace Sys2Proof.Machine

/-- Rounded up to a multiple of 64. -/
def up64 (n : Nat) : Nat := ceilDiv n 64 * 64

/-- Bytes of an element of a format. -/
def elemBytes (fmt : Nat) : Nat := fmtBits fmt / 8

/-- The payload has a per-row scale (R206). -/
def scaledFmt (fmt : Nat) : Bool := fmt == 0 || fmt == 1 || fmt == 8 || fmt == 9

/-- IMG_BYTES (R206). -/
def imgBytesOf (fmt width : Nat) : Nat := up64 (16 + width * elemBytes fmt + (if scaledFmt fmt then 8 else 0))

/-- Moment slots of an optimiser (R216). -/
def optSlots (opt : Nat) : Nat := if opt = 0 then 0 else if opt = 4 ∨ opt = 5 ∨ opt = 7 then 2 else 1

/-- The moment area starts with a scale word (R206). -/
def momentScaled (opt mfmt : Nat) : Bool := (mfmt == 0 || mfmt == 1) && opt != 3 && optSlots opt != 0

/-- Bytes of one moment slot (R206). -/
def slotBytes (opt mfmt width : Nat) : Nat := if opt = 3 then 2 else width * elemBytes mfmt

/-- Bytes of the padded moment area (R206). -/
def momentBytes (opt mfmt width : Nat) : Nat :=
  up64 ((if momentScaled opt mfmt then 8 else 0) + optSlots opt * slotBytes opt mfmt width)

/-- REC_BYTES (R206). -/
def recBytesOf (fmt width opt mfmt : Nat) : Nat := imgBytesOf fmt width + momentBytes opt mfmt width

/-- The integer a value rounds to (R66 with u = 1). -/
def roundInt (mode : RMode) (r24 : Nat) : FVal → Int
  | .fin s m e =>
    let (k, q) := roundMag 4096 4095 mode r24 m e
    let v : Int := ((if 0 ≤ q then k <<< q.toNat else k >>> (-q).toNat : Nat) : Int)
    if s then -v else v
  | _ => 0

/-- Nearer end of a range. -/
def clampInt (lo hi x : Int) : Int := if x < lo then lo else if hi < x then hi else x

/-- The zero point that the Inker writes (R208). -/
def zpOf (fmt : Nat) : Nat := if fmt = 9 then 128 else 0

/-- A code at row exponent `e` and zero point `z` (R208). -/
def decodeStored (fmt : Nat) (e : Int) (z c : Nat) : FVal :=
  if scaledFmt fmt then (elemBase fmt z c).scale e else elemBase fmt z c

/-- One value stored in a format at exponent `e`, with SAT = 1 (R208, R217). -/
def storeElem (fmt : Nat) (e : Int) (mode : RMode) (r24 : Nat) (v : FVal) : Nat :=
  let f := if fmt = 0 then e4m3 else if fmt = 1 then e5m2 else if fmt = 11 then fp16 else if fmt = 12 then fp32 else bf16
  if isInt8 fmt then
    let x : Int := match v with
      | .nan => 0
      | .inf s => if s then -127 else 127
      | w => clampInt (-127) 127 (roundInt mode r24 (w.scale (-e)))
    wrapN 8 (x + (zpOf fmt : Int))
  else match v with
    | .nan => f.nan
    | .inf s => f.maxCode s
    | w => f.encode mode true r24 (if scaledFmt fmt then w.scale (-e) else w)

/-- The row exponent chosen for values to be stored (R208). -/
def rowExp (fmt : Nat) (vals : List FVal) : Int :=
  let big := vals.foldl (fun (a : FVal) v => if v.nonFinite then a else if a.lt v.abs then v.abs else a) FVal.zero
  if big.isZero then 0 else big.lead - (if fmt = 0 then 8 else if fmt = 1 then 15 else 6)

/-- A vector stored in a format: its exponent (0 where the format has none) and its codes; `draw` gives the 24-bit draw of an index. -/
def storeVec (fmt : Nat) (mode : RMode) (draw : Nat → Nat) (vals : List FVal) : Int × List Nat :=
  let e := if scaledFmt fmt then rowExp fmt vals else 0
  (e, vals.zipIdx.map (fun p => storeElem fmt e mode (draw p.2) p.1))

/-- Codes as bytes. -/
def packCodes (fmt : Nat) (codes : List Nat) : Bytes := codes.flatMap (fun c => toLE (elemBytes fmt) c)

/-- `n` codes of a byte list. -/
def unpackCodes (fmt n : Nat) (bs : Bytes) : List Nat :=
  (List.range n).map (fun i => leAt bs (i * elemBytes fmt) (elemBytes fmt))

/-- Payload bytes with the scale word (R206, R208), padded to the image end; the 16 header bytes come before. -/
def payloadBytes (fmt width : Nat) (e : Int) (codes : List Nat) : Bytes :=
  let b := packCodes fmt codes ++ (if scaledFmt fmt then toLE 2 (wrapN 16 e) ++ toLE 1 (zpOf fmt) ++ toLE 5 0 else [])
  sliceB b 0 (imgBytesOf fmt width - 16)

/-- The decoded elements of an image (R208). -/
def imageVals (fmt width : Nat) (img : Bytes) : List FVal :=
  let so := 16 + width * elemBytes fmt
  let e := if scaledFmt fmt then sext 16 (leAt img so 2) else 0
  let z := if scaledFmt fmt then leAt img (so + 2) 1 else 0
  (unpackCodes fmt width (img.drop 16)).map (fun c => decodeStored fmt e z c)

/-- The moment area of two value lists (R206, R208): `draw1` and `draw2` for the slots. The one element of row-wise Adagrad draws with index 0 (log entry 93). -/
def momentArea (opt mfmt width : Nat) (mode : RMode) (draw1 draw2 : Nat → Nat) (m v : List FVal) : Bytes :=
  if optSlots opt = 0 then []
  else if opt = 3 then sliceB (toLE 2 (storeElem 10 0 mode (draw1 0) (m.headD FVal.zero))) 0 (momentBytes opt mfmt width)
  else
    let (e1, c1) := storeVec mfmt mode draw1 m
    let (e2, c2) := storeVec mfmt mode draw2 v
    let two := optSlots opt == 2
    let head := if momentScaled opt mfmt then toLE 2 (wrapN 16 e1) ++ toLE 2 (if two then wrapN 16 e2 else 0) ++ toLE 4 0 else []
    sliceB (head ++ packCodes mfmt c1 ++ (if two then packCodes mfmt c2 else [])) 0 (momentBytes opt mfmt width)

/-- The two moment value lists of a moment area. -/
def momentVals (opt mfmt width : Nat) (area : Bytes) : List FVal × List FVal :=
  if optSlots opt = 0 then ([], [])
  else if opt = 3 then ([bfdec (leAt area 0 2)], [])
  else
    let off := if momentScaled opt mfmt then 8 else 0
    let e1 := if momentScaled opt mfmt then sext 16 (leAt area 0 2) else 0
    let e2 := if momentScaled opt mfmt then sext 16 (leAt area 2 2) else 0
    let n := slotBytes opt mfmt width
    ((unpackCodes mfmt width (area.drop off)).map (decodeStored mfmt e1 0),
     if optSlots opt = 2 then (unpackCodes mfmt width (area.drop (off + n))).map (decodeStored mfmt e2 0) else [])

/-- A decoded optimiser record (R215); the values are FP32 words. -/
structure OptRec where
  opt   : Nat
  flags : Nat
  lr    : Nat
  b1    : Nat
  b2    : Nat
  eps   : Nat
  wd    : Nat
  l1    : Nat
  l2    : Nat
  beta  : Nat
  init  : Nat
  t0    : Nat
  deriving DecidableEq, Repr

/-- The record of a 64-byte line (R215). -/
def optOf (b : Bytes) : OptRec :=
  { opt := leAt b 0 1, flags := leAt b 1 1, lr := leAt b 4 4, b1 := leAt b 8 4, b2 := leAt b 12 4, eps := leAt b 16 4, wd := leAt b 20 4,
    l1 := leAt b 24 4, l2 := leAt b 28 4, beta := leAt b 32 4, init := leAt b 36 4, t0 := leAt b 40 8 }

def OptRec.nesterov (o : OptRec) : Bool := bitOf o.flags 0
def OptRec.clipEn (o : OptRec) : Bool := bitOf o.flags 1
def OptRec.freeze (o : OptRec) : Bool := bitOf o.flags 2
def OptRec.biasCorr (o : OptRec) : Bool := bitOf o.flags 3

/-- FP32 one. -/
def f1 : Nat := 0x3F800000

/-- R217: powi, squaring from the top bit. -/
def powiFrom (b t : Nat) : Nat → Nat → Nat
  | 0, r => r
  | i + 1, r => let r2 := f32mul r r; powiFrom b t i (if bitOf t i then f32mul r2 b else r2)

/-- b to the power t. -/
def powi (b t : Nat) : Nat := powiFrom b t 64 f1

/-- The bias terms of a step (R217). -/
def biasTerms (o : OptRec) (step : Nat) : Nat × Nat :=
  if o.biasCorr then
    let t := if step + 1 ≤ o.t0 then 1 else max 1 (step - o.t0 + 1)
    (f32sub f1 (powi o.b1 t), f32sub f1 (powi o.b2 t))
  else (f1, f1)

/-- The gradient that enters the optimiser: unscaled, then clipped (R217). -/
def optGrad (o : OptRec) (k : Int) (clip grad : Nat) : Nat :=
  let g := f32enc ((f32dec grad).scale (-k))
  if o.clipEn then f32mul g clip else g

/-- sgn of R217. -/
def f32sgn (c : Nat) : Nat :=
  if (f32dec c).isNaN then fp32.nan else if (f32dec c).isZero then 0 else if (f32dec c).sign then 0xBF800000 else f1

/-- The word with the opposite sign. -/
def f32neg (a : Nat) : Nat := a ^^^ 0x80000000

/-- R217: one element; answers w, m and v. -/
def optElement (o : OptRec) (bc1 bc2 g w m v vrow : Nat) : Nat × Nat × Nat :=
  match o.opt with
  | 0 => (f32sub w (f32mul o.lr (f32add g (f32mul o.wd w))), m, v)
  | 1 =>
    let g := f32add g (f32mul o.wd w)
    let m := f32add (f32mul o.b1 m) g
    (f32sub w (f32mul o.lr (if o.nesterov then f32add g (f32mul o.b1 m) else m)), m, v)
  | 2 =>
    let g := f32add g (f32mul o.wd w)
    let v := f32add v (f32mul g g)
    (f32sub w (f32div (f32mul o.lr g) (f32add (f32sqrt v) o.eps)), m, v)
  | 3 => (f32sub w (f32div (f32mul o.lr (f32add g (f32mul o.wd w))) (f32add (f32sqrt vrow) o.eps)), m, v)
  | 6 =>
    let c := f32add (f32mul o.b1 m) (f32mul (f32sub f1 o.b1) g)
    (f32sub w (f32mul o.lr (f32add (f32sgn c) (f32mul o.wd w))), f32add (f32mul o.b2 m) (f32mul (f32sub f1 o.b2) g), v)
  | 7 =>
    let n1 := f32add v (f32mul g g)
    let sigma := f32div (f32sub (f32sqrt n1) (f32sqrt v)) o.lr
    let m := f32sub (f32add m g) (f32mul sigma w)
    let am := m % 2 ^ 31
    let small := !f32lt o.l1 am && !(f32dec am).isNaN && !(f32dec o.l1).isNaN
    let signed := o.l1 % 2 ^ 31 + m / 2 ^ 31 * 2 ^ 31
    let den := f32add (f32div (f32add o.beta (f32sqrt n1)) o.lr) o.l2
    (if small then 0 else f32div (f32neg (f32sub m signed)) den, m, n1)
  | _ =>
    let g := if o.opt = 4 then f32add g (f32mul o.wd w) else g
    let m := f32add (f32mul o.b1 m) (f32mul (f32sub f1 o.b1) g)
    let v := f32add (f32mul o.b2 v) (f32mul (f32mul (f32sub f1 o.b2) g) g)
    let u := f32div (f32div m bc1) (f32add (f32sqrt (f32div v bc2)) o.eps)
    let u := if o.opt = 5 then f32add u (f32mul o.wd w) else u
    (f32sub w (f32mul o.lr u), m, v)

/-- Row-wise Adagrad's v_row + s / D (R217). -/
def rowWise (gs : List Nat) (vrow : Nat) : Nat :=
  let s := gs.foldl (fun a g => f32add a (f32mul g g)) 0
  f32add vrow (f32div s (f32enc (FVal.ofInt gs.length 0)))

/-- Initial moments (R208): INIT_ACC for the Adagrad forms, zero otherwise. -/
def initMoments (o : OptRec) (opt mfmt width : Nat) : Bytes :=
  let v := if opt = 2 ∨ opt = 3 then f32dec o.init else FVal.zero
  momentArea opt mfmt width .rne (fun _ => 0) (fun _ => 0) (List.replicate (if opt = 3 then 1 else width) v) (List.replicate width FVal.zero)

/-- A record header (R207). -/
def rowHeader (ver tver flags freq : Nat) : Bytes := toLE 4 ver ++ toLE 2 tver ++ toLE 1 flags ++ toLE 1 0 ++ toLE 4 freq ++ toLE 4 0

/-- R212: one element on the Delta grid: the integer, and whether bits were truncated; none for a non-finite element. -/
def toGrid (g : Int) (w : Nat) : Option (Int × Bool) :=
  match f32dec w with
  | .fin s m e =>
    let sh := e - g
    let (q, lost) := if 0 ≤ sh then (m <<< sh.toNat, false) else (m >>> (-sh).toNat, decide (m % 2 ^ (-sh).toNat ≠ 0))
    some (if s then -(q : Int) else (q : Int), lost)
  | _ => none

/-- A Delta slot (R211) as a number of its parts. -/
structure DSlot where
  row   : Nat
  valid : Bool
  sat   : Bool
  nf    : Bool
  count : Nat
  mag   : Nat
  q     : List Nat
  deriving DecidableEq, Repr

/-- Bytes of a Delta slot of width `d` (R211). -/
def dslotBytes (d : Nat) : Nat := up64 (16 + 4 * d)

/-- A Delta slot from its bytes. -/
def dslotOf (d : Nat) (bs : Bytes) : DSlot :=
  let t := leAt bs 0 8
  { row := fld t 0 40, valid := bitOf t 40, sat := bitOf t 41, nf := bitOf t 42, count := fld t 48 16, mag := leAt bs 8 8,
    q := (List.range d).map (fun j => leAt bs (16 + 4 * j) 4) }

/-- The bytes of a Delta slot. -/
def DSlot.bytes (x : DSlot) : Bytes :=
  let t := x.row % 2 ^ 40 + b2n x.valid * 2 ^ 40 + b2n x.sat * 2 ^ 41 + b2n x.nf * 2 ^ 42 + x.count % 2 ^ 16 * 2 ^ 48
  sliceB (toLE 8 t ++ toLE 8 x.mag ++ x.q.flatMap (fun v => toLE 4 v)) 0 (dslotBytes x.q.length)

/-- An empty slot taken for a row. -/
def DSlot.fresh (d row : Nat) : DSlot :=
  { row := row, valid := true, sat := false, nf := false, count := 0, mag := 0, q := List.replicate d 0 }

/-- R212: a contribution enters a slot with grid exponent `g`; answers the slot and whether bits were lost. -/
def DSlot.add (x : DSlot) (g : Int) (c : List Nat) : DSlot × Bool :=
  let xs := c.map (toGrid g)
  let y := { x with count := min (x.count + 1) 65535 }
  if xs.any (·.isNone) then ({ y with nf := true }, false)
  else
    let vs := xs.map (fun o => (o.getD (0, false)))
    let big := vs.foldl (fun a v => max a (min v.1.natAbs (2 ^ 31))) 0
    let mag := y.mag + big
    ({ y with
        q := (y.q.zip vs).map (fun p => wrapN 32 ((p.1 : Int) + p.2.1)),
        mag := mag % 2 ^ 64,
        sat := y.sat || vs.any (fun v => decide (2 ^ 31 ≤ v.1.natAbs)) || decide (2 ^ 31 ≤ mag) },
     vs.any (·.2))

/-- R353: an exact sum of two slots of one row. -/
def DSlot.combine (x y : DSlot) : DSlot :=
  let mag := x.mag + y.mag
  { x with q := (x.q.zip y.q).map (fun p => (p.1 + p.2) % 2 ^ 32), mag := mag % 2 ^ 64, count := min (x.count + y.count) 65535,
           sat := x.sat || y.sat || decide (2 ^ 31 ≤ mag), nf := x.nf || y.nf }

/-- Sum of squares of a slot's elements (R213). -/
def DSlot.squares (x : DSlot) : Nat := x.q.foldl (fun a v => a + (sext 32 v).natAbs * (sext 32 v).natAbs) 0

end Sys2Proof.Machine
end

