-- ==== Sys2Proof/Machine/Params.lean ====
section
/-! DEFINITION. Shared operations over parameter state: homes and places of rows (R170, R205), the Delta area (R211), optimiser snapshots (R215), the Pigeonhole generation (R191), editions (R273 to R275). -/

namespace Sys2Proof.Machine

/-- Flags of a directory entry (R169). -/
def Table.repl (t : Table) : Bool := bitOf t.flags 1
def Table.static (t : Table) : Bool := bitOf t.flags 2
def Table.direct (t : Table) : Bool := bitOf t.flags 3
def Table.hasTier (t : Table) : Bool := bitOf t.flags 4

/-- A table with a VALID directory entry. -/
def State.table? (s : State) (t : Nat) : Option Table := kvFind s.par.tables t

/-- First Inker and size of the PLACE set (R205). -/
def Table.inkSet (t : Table) : Nat × Nat := if t.place = 1 then (0, 64) else if t.place = 2 then (64, 64) else (0, 128)

/-- The home-override list (R170, R282): chip of (table, row). -/
def overrideFind (sec : Bytes) (t r : Nat) : Option Nat :=
  ((List.range (sec.length / 16)).find? (fun i => leAt sec (16 * i) 2 == t && leAt sec (16 * i + 4) 8 == r)).map (fun i => leAt sec (16 * i + 12) 2 % 16384)

/-- Entry `i` of the home list (R170, R282). -/
def State.homeEntry (s : State) (i : Nat) : Nat :=
  if 2 * i + 2 ≤ (s.sec 1).length then leAt (s.sec 1) (2 * i) 2 % 16384
  else (Config.absentHome (match s.imp.active with | none => 0 | some m => m.epoch) i).toNat

/-- R170: home chip of a row; 16383 means this chip. -/
def State.homeChip (s : State) (t : Table) (r : Nat) : Nat :=
  if t.repl then 16383
  else match overrideFind (s.sec 2) t.id r with
    | some c => c
    | none =>
      let h := r / 2 ^ t.blk % max t.nhomes 1
      let c := s.homeEntry (t.hlBase + h)
      if c = s.self then 16383 else c

/-- R205: local index of a row at its home. -/
def localIndex (t : Table) (r : Nat) : Nat :=
  if t.repl then r else r / 2 ^ t.blk / max t.nhomes 1 * 2 ^ t.blk + r % 2 ^ t.blk

/-- The row-and-table key of R211, R228 and R229. -/
def rowHash (t r : Nat) : Nat := mix64 (t * 2 ^ 40 ||| r)

/-- A migration slot's bytes: the 8-byte tag, then the record (R229; the record's offset in the slot is not stated, log entry 21). -/
def Table.migStride (t : Table) : Nat := up64 (t.recB + 8)
/-- A promotion slot's bytes: the record, then the 8-byte back word (R232, log entry 21). -/
def Table.promoStride (t : Table) : Nat := up64 (t.recB + 8)

/-- The row index under which a row is kept at its Inker: its local index, or for a migrated-in row a number above every local index of a real table (log entry 21). -/
def migKey (slot : Nat) : Nat := 2 ^ 40 - 1 - slot

/-- The Inker and row index of a row homed here. -/
def State.rowKey (s : State) (t : Table) (r : Nat) : Nat × Nat :=
  match s.par.migIns.find? (fun m => m.table == t.id && m.row == r && m.valid) with
  | some m => (m.ink, migKey m.slot)
  | none =>
    let l := localIndex t r
    let (f, n) := t.inkSet
    (f + l % n, l)

/-- Where a record lies (R205). -/
inductive RecLoc where
  | dram (coff : Nat)
  | tier
  | missing
  deriving DecidableEq, Repr

/-- The residence word of a local row (R232). -/
def State.residence (s : State) (t : Table) (ink l : Nat) : Nat :=
  leNat (s.chanPeek ink (t.res + 4 * ((l - t.ldram) / t.inkSet.2)) 4)

/-- R205: where the record of row index `l` lies at its Inker. -/
def State.recLoc (s : State) (t : Table) (ink l : Nat) : RecLoc :=
  if 2 ^ 40 - 1 - l < t.mslots then .dram (t.mig + (2 ^ 40 - 1 - l) * t.migStride + 8)
  else if l < t.ldram then .dram (t.seg + l / t.inkSet.2 * t.recB)
  else if t.hasTier then
    let w := s.residence t ink l
    if w = 0xFFFFFFFF then .tier else .dram (t.promo + w * t.promoStride)
  else .missing

/-- An Inker. -/
def State.inker (s : State) (i : Nat) : Inker := kvGet s.par.inks i { queue := [], held := [] }
/-- Changes an Inker. -/
def State.modInker (s : State) (i : Nat) (f : Inker → Inker) : State := { s with par := { s.par with inks := kvMod s.par.inks i { queue := [], held := [] } f } }
/-- Replaces the parameter state. -/
def State.setPar (s : State) (f : Params → Params) : State := { s with par := f s.par }

/-- A row operation joins an Inker's queue; at 512 entries its sender stalls, which is counted, and it waits ahead of the queue (R19, R37, R38). -/
def State.pushOp (s : State) (i : Nat) (o : RowOp) : State :=
  if 512 ≤ (s.inker i).queue.length then (s.bump (pgINK i) 0x048 1).modInker i (fun k => { k with held := k.held ++ [o] })
  else s.modInker i (fun k => { k with queue := k.queue ++ [o] })

/-- The optimiser record of a table at an Inker for a step: its snapshot, else the record in force (R215). -/
def State.optFor (s : State) (step ink t : Nat) : OptRec :=
  let key := ink * 4096 + t
  optOf (match kvFind (kvGet s.par.snaps step []) key with
    | some b => b
    | none => kvGet s.par.optNow key (List.replicate 64 0))

/-- Inkers that hold state of a table: its PLACE set, or the Inkers of its shards homed here. -/
def State.inksOf (s : State) (t : Table) : List Nat :=
  if t.dense then (s.par.shards.filter (fun x => x.table == t.id)).map (·.ink) |>.eraseDups
  else (List.range t.inkSet.2).map (· + t.inkSet.1)

/-- OPTIMISER_SNAPSHOT (R215): every Inker reads the records for step n. -/
def State.takeSnapshots (s : State) (n : Nat) : State :=
  s.par.tables.foldl (fun (x : State) p =>
    (x.inksOf p.2).foldl (fun (y : State) i =>
      let key := i * 4096 + p.1
      let off := y.inForce64 (pgINK i) 0x098 + 64 * p.1
      let (b, bad, y1) := y.dramLoad off 64
      let good := !bad && leAt b 0 1 == p.2.opt
      let now := if good then b else kvGet y.par.optNow key (List.replicate 64 0)
      let y2 := if good then y1 else y1.latchAt (pgINK i) 4 n
      y2.setPar (fun q => { q with optNow := kvSet q.optNow key now, snaps := kvMod q.snaps n [] (fun m => kvSet m key now) })) x) s

/-- Width of a Delta slot's element list. -/
def Table.deltaHalf (t : Table) (h : Nat) : Nat := t.delta + h * t.dslots * dslotBytes t.width

/-- Channel offset of a Delta slot. -/
def Table.deltaAt (t : Table) (h i : Nat) : Nat := t.deltaHalf h + i * dslotBytes t.width

/-- A Delta slot's TAG. -/
def State.deltaTag (s : State) (t : Table) (ink h i : Nat) : Nat := leNat (s.chanPeek ink (t.deltaAt h i) 8)

/-- Slot search of R211 over at most `fuel` slots: the index, and whether it already holds the row. -/
def State.findSlot (s : State) (t : Table) (ink h l : Nat) : Nat → Nat → Option (Nat × Bool)
  | 0, _ => none
  | fuel + 1, i =>
    let tag := s.deltaTag t ink h i
    if !bitOf tag 40 then some (i, false)
    else if fld tag 0 40 = l then some (i, true)
    else s.findSlot t ink h l fuel ((i + 1) % max t.dslots 1)

/-- R211: the slot of a row, or the free slot it takes. -/
def State.deltaSlot (s : State) (t : Table) (ink h l : Nat) : Option (Nat × Bool) :=
  s.findSlot t ink h l t.dslots (mix64 (t.id * 2 ^ 40 ||| (l ^^^ 0xA7B319D5C2E8604F)) % max t.dslots 1)

/-- Reads a Delta slot. -/
def State.readSlot (s : State) (t : Table) (ink h i : Nat) : DSlot := dslotOf t.width (s.chanPeek ink (t.deltaAt h i) (dslotBytes t.width))

/-- Writes a Delta slot. -/
def State.writeSlot (s : State) (t : Table) (ink h i : Nat) (x : DSlot) : State := (s.chanStore ink (t.deltaAt h i) x.bytes).1

/-- VALID slots of a half at an Inker, in index order. -/
def State.validSlots (s : State) (t : Table) (ink h : Nat) : List Nat :=
  (List.range t.dslots).filter (fun i => bitOf (s.deltaTag t ink h i) 40)

/-- The row holds a Delta slot in a half. -/
def State.hasSlot (s : State) (t : Table) (ink h l : Nat) : Bool :=
  match s.deltaSlot t ink h l with
  | some (_, true) => true
  | _ => false

/-- Clears half h of every Delta area (R221). -/
def State.clearHalf (s : State) (h : Nat) : State :=
  let s1 := s.par.tables.foldl (fun (x : State) p =>
    if p.2.dense then x
    else (x.inksOf p.2).foldl (fun (y : State) i => y.chanZero i (p.2.deltaHalf h) (p.2.dslots * dslotBytes p.2.width)) x) s
  let s2 := (List.range 128).foldl (fun (x : State) i => if x.regN (pgINK i) (0x050 + 4 * h) = 0 then x else x.setN (pgINK i) (0x050 + 4 * h) 0) s1
  s2.setPar (fun p => if h = 0 then { p with deltaOwner0 := none } else { p with deltaOwner1 := none })

/-- The step that half h of the Delta areas belongs to (R211). -/
def State.deltaOwner (s : State) (h : Nat) : Option Nat := if h = 0 then s.par.deltaOwner0 else s.par.deltaOwner1

/-- Takes a half for a step. -/
def State.ownHalf (s : State) (n : Nat) : State :=
  s.setPar (fun p => if n % 2 = 0 then { p with deltaOwner0 := some n } else { p with deltaOwner1 := some n })

/-- PUT of a Folio. -/
def State.putOf (s : State) (f : Nat) : PutFolio := if f = 0 then s.par.put0 else s.par.put1
/-- Changes the PUT of a Folio. -/
def State.modPut (s : State) (f : Nat) (g : PutFolio → PutFolio) : State :=
  s.setPar (fun p => if f = 0 then { p with put0 := g p.put0 } else { p with put1 := g p.put1 })
/-- Folio of an Inker (R23). -/
def inkFolio (i : Nat) : Nat := if i < 64 then 0 else 1

/-- The port sends something on the Ethernet. -/
def State.ethSend (s : State) (o : EthOut) : State := { s with eth := { s.eth with answered := s.eth.answered ++ [o] } }

/-- The host address of a remote-tier record (R205). -/
def Table.hostAddr (t : Table) (l : Nat) : Nat := t.tierBase + (l - t.ldram) * t.recB

/-- A write-back leaves as an RDMA WRITE on the table's queue pair (R231, R232). -/
def State.sendBack (s : State) (t : Table) (b : Writeback) : State := s.ethSend (.tierWrite t.tierQp t.tierKey b.addr b.data)

/-- Entries of a PUT (R230). -/
def putEntries : Nat := 65536

/-- The slot that holds a row's PUT entry. -/
def State.putFind (s : State) (ink t l : Nat) : Option (Nat × PutEnt) :=
  (s.putOf (inkFolio ink)).ents.find? (fun p => p.2.table == t && p.2.row == l && p.2.ink == ink)

/-- DRAM offset of a PUT slot. -/
def State.putAddr (s : State) (f slot : Nat) : Nat := ((s.putOf f).base.getD 0) + slot * 16384

/-- The state of a PUT slot in its tag (R230): 0 FREE. -/
def PutState.code : PutState → Nat
  | .open => 1 | .committed => 2 | .writingBack => 3

/-- The tag of a PUT slot (R230); none for a free one. -/
def putTagOf (e : Option PutEnt) : Bytes :=
  toLE 64 (match e with
    | none => Config.putTag 0 0 0 0 0 0
    | some w => Config.putTag w.table w.row w.ink (w.step0.getD 0) (w.step1.getD 0) w.state.code).toNat

/-- Writes the tag of a PUT slot, with IMMEDIATE deltas (R230, R381). -/
def State.writeTag (s : State) (f slot : Nat) : State :=
  if (s.putOf f).base.isNone then s else s.dramPut (s.putAddr f slot) (putTagOf (kvFind (s.putOf f).ents slot))

/-- The PUT entry belongs to a step in half h. -/
def PutEnt.stepOf (e : PutEnt) (h : Nat) : Option Nat := if h = 0 then e.step0 else e.step1

/-- The entry holds a contribution in half h. -/
def PutEnt.has (e : PutEnt) (h : Nat) : Bool := if h = 0 then e.has0 else e.has1

/-- PUT_USED of every Inker of a Folio is a view of this count (R236). -/
def State.putUsed (s : State) (f : Nat) : Nat := (s.putOf f).ents.length

/-- A Pigeonhole cache. -/
def State.cache (s : State) (f : Nat) : Pgh := kvGet s.pgh f Pgh.reset
/-- Changes a cache. -/
def State.modCache (s : State) (f : Nat) (g : Pgh → Pgh) : State := { s with pgh := kvMod s.pgh f Pgh.reset g }

/-- GEN advances (R191, R199, R200). -/
def State.pghGen (s : State) (f : Nat) : State :=
  (s.setField (pgPGH f) 0x00C 0 8 (s.field (pgPGH f) 0x00C 0 8 + 1)).latch (pgPGH f) 1

/-- Look-ups that joined a fill receive its data (R190, R191). -/
def State.fillReply (s : State) (filler status : Nat) (img : Bytes) : State :=
  { s with sorters := s.sorters.map (fun p => (p.1, { p.2 with lookups := p.2.lookups.map (fun u =>
      if u.fill == some filler && u.data.isNone then { u with data := some img, status := status } else u) })) }

/-- Invalidates entries of a cache; a fill in flight whose data has come gives it to the look-ups that joined it, and is discarded (R191). -/
def State.dropWays (s : State) (c : Nat) (f : Way → Bool) : State :=
  let gone := (s.cache c).ways.filter (fun p => f p.2 && p.2.filling && p.2.sectors != 0)
  (gone.foldl (fun (x : State) p => x.fillReply p.2.filler 0 p.2.image) s).modCache c (fun g => { g with ways := g.ways.filter (fun p => !f p.2) })

/-- Invalidates entries of both caches (R191). -/
def State.pghDrop (s : State) (f : Way → Bool) : State :=
  [0, 1].foldl (fun (x : State) c => (x.dropWays c f).pghGen c) s

/-- R191, COMMIT and rollback: entries whose STATIC bit is 0. -/
def State.pghInvalidate (s : State) : State := s.pghDrop (fun w => !w.static)

/-- The steps that hold both caches in NOFILL (R191, R199). -/
def State.pghNofill (s : State) (f : List Nat → List Nat) : State :=
  [0, 1].foldl (fun (x : State) c =>
    let l := f (x.cache c).nofill
    (x.modCache c (fun g => { g with nofill := l })).setField (pgPGH c) 0x00C 9 1 (b2n !l.isEmpty)) s

/-- Edition states of a buffer (R274): 1 BUILDING, 2 BUILT, 3 WAITING, 4 PUBLISHED; an unlisted buffer is FREE. -/
def edBuilding : Nat := 1
def edBuilt : Nat := 2
def edWaiting : Nat := 3
def edPublished : Nat := 4

/-- EDN of a buffer of a shard (R223). -/
def State.edn (s : State) (x : Shard) (b : Nat) : Nat := leNat (s.chanPeek x.ink (x.coff + 8 + 4 * b) 4)

/-- Writes EDN of a buffer, with an IMMEDIATE delta (R381). -/
def State.setEdn (s : State) (x : Shard) (b v : Nat) : State := (s.winPut x.ink (x.coff + 8 + 4 * b) (toLE 4 v)).1

/-- Changes the state of a shard's buffer; 0 is FREE. -/
def State.setBuf (s : State) (x : Shard) (b st : Nat) : State :=
  s.setPar (fun p => { p with shards := p.shards.map (fun y => if y.table == x.table && y.index == x.index then
    { y with states := if st = 0 then kvDel y.states b else kvSet y.states b st } else y) })

/-- Pinned editions of the unreleased steps (R273). -/
def State.pins (s : State) : List Nat := s.fmn.steps.map (·.pin)

/-- Buffers of a shard in a state. -/
def Shard.inState (x : Shard) (st : Nat) : List Nat := (x.states.filter (fun p => p.2 == st)).map (·.1)

/-- The step number that an edition number derives from, next to STEP_NEXT: editions are ordered by it (R273). -/
def State.edStep (s : State) (e : Nat) : Int :=
  let sn := s.reg64 pgFMN 0x040
  (sn : Int) + sext 32 (wrapN 32 ((e : Int) - sn))

/-- The order of the edition in a buffer. -/
def State.edOrd (s : State) (x : Shard) (b : Nat) : Int := s.edStep (s.edn x b)

/-- The buffer with the oldest edition. -/
def State.oldestBuf (s : State) (x : Shard) (bs : List Nat) : Option Nat :=
  bs.foldl (fun a b => match a with | none => some b | some c => some (if s.edOrd x b < s.edOrd x c then b else c)) none

/-- EDITION_PUBLISH of a BUILT or WAITING buffer (R274), retiring the oldest unpinned edition when 4 are published. One that begins to wait latches FMN_PUB_WAIT and counts. -/
def State.publishBuf (s : State) (x : Shard) (b : Nat) : State :=
  let pub := x.inState edPublished
  if pub.length < 4 then s.setBuf x b edPublished
  else match s.oldestBuf x (pub.filter (fun c => !s.pins.contains (s.edn x c))) with
    | some c => ((s.setEdn x c 0xFFFFFFFF).setBuf x c 0).setBuf x b edPublished
    | none => if (x.inState edWaiting).contains b then s else ((s.setBuf x b edWaiting).bump pgFMN 0x098 1).latch pgFMN 5

/-- The shard as it stands now, and its buffers in a state are published. -/
def State.publishShard (s : State) (sh : Shard) (st : Nat) : State :=
  match s.par.shards.find? (fun y => y.table == sh.table && y.index == sh.index) with
  | none => s
  | some y => (y.inState st).foldl (fun (x : State) b => x.publishBuf y b) s

/-- Editions in a state are published, shard by shard (R274): WAITING when a pin is dropped, BUILT at a RELEASE. -/
def State.publishAll (s : State) (st : Nat) : State := s.par.shards.foldl (fun (x : State) sh => x.publishShard sh st) s

/-- The newest published edition numbered `lim` or lower (R267): of the shards homed here, and of those that the slice has published since this member joined (log entry 99). -/
def State.newestEdition (s : State) (lim : Nat) : Nat :=
  let own := s.par.shards.flatMap (fun x => (x.inState edPublished).map (fun b => s.edOrd x b))
  match (own ++ s.fmn.editions.map (fun (e : Nat) => (e : Int))).filter (fun (e : Int) => decide (e ≤ (lim : Int))) with
  | [] => lim % 2 ^ 32
  | e :: l => wrapN 32 (l.foldl max e)

/-- The slice publishes an edition: the latest of them are remembered (R273). -/
def State.noteEdition (s : State) (e : Nat) : State := { s with fmn := { s.fmn with editions := e :: (s.fmn.editions.filter (· != e)).take 7 } }

/-- FRESH serial number. -/
def State.nextSerial (s : State) : Nat × State := (s.serial, { s with serial := s.serial + 1 })

/-- PHASE of an Inker (R234): what the unreleased steps leave it to do, the last of their states first. -/
def State.inkPhase (s : State) (i : Nat) : Nat :=
  if s.fmn.steps.any (fun r => r.state == .rollingBack && !r.rolled) then 5
  else if s.par.items.any (fun it => it.ink == i && !it.done) then 2
  else if s.fmn.steps.any (fun r => r.state == .committing || r.state == .committed) then 3
  else if s.par.backs.any (fun b => b.ink == i) || s.par.migs.any (fun m => m.ink == i && m.state == .shipped) || s.par.repls.any (fun r => r.ink == i && r.ready.isSome) then 4
  else if s.fmn.steps.any (fun r => r.state == .opened || r.state == .collating || r.state == .deciding) then 1
  else 0

end Sys2Proof.Machine
end

