-- ==== Sys2Proof/Machine/Inkers.lean ====
section
/-! DEFINITION. What the Inkers do with parameter state: row reads, contributions, commit items, journal, restore, replacement, migration, the remote tier (R205 to R232). -/

namespace Sys2Proof.Machine

/-- The loss-scale exponent of a step (R144): of its record, or of the record that its slot holds, else the current one. -/
def State.kOf (s : State) (n : Nat) : Int :=
  match s.step? n with
  | some r => r.scale.k
  | none => match kvFind s.num.recs (n % 4) with
    | some r => if r.n = n then r.k else s.num.lsCur
    | none => s.num.lsCur

/-- The step that bits [31:0] name: an unreleased one, else the one nearest STEP_NEXT's upper half (R312). -/
def State.fullStep (s : State) (lo : Nat) : Nat :=
  match s.fmn.steps.find? (fun r => r.n % 2 ^ 32 == lo) with
  | some r => r.n
  | none => s.reg64 pgFMN 0x040 / 2 ^ 32 * 2 ^ 32 + lo % 2 ^ 32

/-- The global row of a row index at its Inker: the inverse of R205. -/
def State.globalRow (s : State) (t : Table) (ink l : Nat) : Nat :=
  if 2 ^ 40 - 1 - l < t.mslots then
    match s.par.migIns.find? (fun m => m.table == t.id && m.ink == ink && m.slot == 2 ^ 40 - 1 - l) with
    | some m => m.row
    | none => 0
  else if t.repl then l
  else
    let h := ((List.range t.nhomes).find? (fun h => s.homeEntry (t.hlBase + h) == s.self)).getD 0
    (l / 2 ^ t.blk * t.nhomes + h) * 2 ^ t.blk + l % 2 ^ t.blk

/-- The draw of an element that an Inker writes (R67). -/
def State.inkDraw (s : State) (n tid purpose slot idx : Nat) : Nat := keyedDraw s.seed n (drawW1 tid purpose slot) idx

/-- The result of the optimiser over a row or shard (R217). -/
structure Updated where
  e      : Int
  codes  : List Nat
  mom    : Bytes
  nonFin : Bool
  deriving DecidableEq, Repr

/-- R217 over the elements of a row or shard: `draw purpose index`, `pp` the payload's purpose. The one second moment of row-wise Adagrad, which has no column, draws with index 0 (log entry 93). -/
def applyOpt (fmt width mfmt : Nat) (o : OptRec) (k : Int) (clip step pp : Nat) (draw : Nat → Nat → Nat) (ws m v : List FVal) (gs : List Nat) : Updated :=
  let (bc1, bc2) := biasTerms o step
  let g := gs.map (optGrad o k clip)
  let vrow := if o.opt = 3 then rowWise g (f32enc (m.headD FVal.zero)) else 0
  let m1 := if o.opt = 2 then [] else m
  let v1 := if o.opt = 2 then m else v
  let out := (List.range width).map (fun j =>
    optElement o bc1 bc2 (g.getD j 0) (f32enc (ws.getD j FVal.zero)) (f32enc (m1.getD j FVal.zero)) (f32enc (v1.getD j FVal.zero)) vrow)
  let (e, codes) := storeVec fmt .sr (draw pp) (out.map (fun x => f32dec x.1))
  let s1 := if o.opt = 3 then [f32dec vrow] else if o.opt = 2 then out.map (fun x => f32dec x.2.2) else out.map (fun x => f32dec x.2.1)
  let s2 := out.map (fun x => f32dec x.2.2)
  let mom := momentArea o.opt mfmt width .sr (draw (if o.opt = 2 ∨ o.opt = 3 then 3 else 2)) (draw 3) s1 s2
  let bad := out.any (fun x => (f32dec x.1).nonFinite || (optSlots o.opt != 0 && o.opt != 3 && (f32dec (if o.opt = 2 then x.2.2 else x.2.1)).nonFinite)
    || (optSlots o.opt == 2 && (f32dec x.2.2).nonFinite)) || (o.opt == 3 && (f32dec vrow).nonFinite)
  { e := e, codes := codes, mom := mom, nonFin := bad }

/-- The new record of a row (R206, R207, R220). -/
def newRecord (t : Table) (old : Bytes) (u : Updated) (ver freq : Nat) : Bytes :=
  rowHeader ver (leAt old 4 2) (leAt old 6 1) freq ++ payloadBytes t.fmt t.width u.e u.codes ++ u.mom

/-- INK.CTRL bits in force (R233). -/
def State.inkCtrl (s : State) (i bit : Nat) : Bool := bitOf (s.inForce (pgINK i) 0x008) bit

/-- FREQ after a commit (R207). -/
def State.nextFreq (s : State) (i old : Nat) : Nat := if s.inkCtrl i 0 then satAdd32 old 1 else old

/-- Bytes of a journal entry of a sparse table (R219). -/
def Table.jrnEntry (t : Table) : Nat := up64 (32 + t.recB)

/-- A journal entry (R219); its CRC is taken with the field 0. -/
def jrnBytes (l t kind hdrOnly oldVer newVer step : Nat) (img : Bytes) : Bytes :=
  let tag := l % 2 ^ 40 + t % 4096 * 2 ^ 40 + kind * 2 ^ 52 + 2 ^ 53 + hdrOnly * 2 ^ 54
  let b := toLE 8 tag ++ toLE 4 oldVer ++ toLE 4 newVer ++ toLE 4 step ++ toLE 4 0 ++ toLE 8 0 ++ img
  let b := b ++ List.replicate (up64 b.length - b.length) 0
  patchB b 0x14 (toLE 4 (crc32c b))

/-- The CRC of a journal entry holds. -/
def jrnGood (b : Bytes) : Bool := crc32c (patchB b 0x14 [0, 0, 0, 0]) == leAt b 0x14 4

/-- Moment bytes of a dense shard (R223). -/
def shardMom (opt n : Nat) : Nat := if opt = 3 then 64 else 2 * n * optSlots opt
/-- Channel offset of a shard's gradient buffer (R223). -/
def shardGrad (x : Shard) (opt : Nat) : Nat := x.coff + 64 + 10 * x.elems + shardMom opt x.elems
/-- Channel offset of payload buffer `b` (R223). -/
def shardBuf (x : Shard) (b : Nat) : Nat := x.coff + 64 + 2 * x.elems * b
/-- Bytes of a whole shard (R223). -/
def shardBytes (opt n : Nat) : Nat := 64 + 14 * n + shardMom opt n

/-- Shards of a table at an Inker, in index order. -/
def State.shardsAt (s : State) (t ink : Nat) : List Shard := s.par.shards.filter (fun x => x.table == t && x.ink == ink)

/-- Where a shard's journal entry lies: entries of the table's shards at the Inker follow one another (R219). -/
def State.shardJrn (s : State) (t : Table) (x : Shard) : Nat :=
  (s.shardsAt t.id x.ink).foldl (fun a y => if y.index < x.index then a + up64 (32 + 64 + shardMom t.opt y.elems) else a) t.jrn

/-- Elements of the shards before this one in the table: the logical index of the shard's first element (R67). -/
def State.shardStart (s : State) (x : Shard) : Nat :=
  (List.range ((s.sec 3).length / 32)).foldl (fun a i =>
    if leAt (s.sec 3) (32 * i) 2 = x.table ∧ leAt (s.sec 3) (32 * i + 2) 2 < x.index then a + leAt (s.sec 3) (32 * i + 16) 4 else a) 0

/-- A row index whose record has been shipped to another home: its Delta slots here count no longer (R228). -/
def State.movedAway (s : State) (t : Table) (ink l : Nat) : Bool :=
  s.par.migs.any (fun m => m.table == t.id && m.ink == ink && m.key == l && (m.state == .shipped || m.state == .forwarding))

/-- The commit items of a step (R217, R218, R220, R231): rows with a Delta slot, PUT entries with a contribution, dense shards; none of a frozen sparse table. -/
def State.buildItems (s : State) (n : Nat) : State :=
  let h := n % 2
  let mk := fun (ser ink t : Nat) (k : ItemKind) (idx row : Nat) =>
    ({ serial := ser, step := n, ink := ink, table := t, kind := k, idx := idx, row := row, done := false, deltas := 0, failed := false, waited := false } : Item)
  let rows := s.par.tables.flatMap (fun p =>
    if p.2.dense then (s.par.shards.filter (fun x => x.table == p.1)).map (fun x => (x.ink, p.1, ItemKind.shard, x.index, 0))
    else (s.inksOf p.2).flatMap (fun i =>
      if (s.optFor n i p.1).freeze then []
      else ((s.validSlots p.2 i h).filter (fun k => !s.movedAway p.2 i (s.readSlot p.2 i h k).row)).map (fun k => (i, p.1, ItemKind.row, k, (s.readSlot p.2 i h k).row))))
  let puts := [0, 1].flatMap (fun f => ((s.putOf f).ents.filter (fun e => e.2.stepOf h == some n && e.2.has h && !(s.optFor n e.2.ink e.2.table).freeze)).map (fun e => (e.2.ink, e.2.table, ItemKind.put, e.1, e.2.row)))
  let all := rows ++ puts
  let s1 := s.setPar (fun q => { q with items := q.items ++ all.zipIdx.map (fun (e : (Nat × Nat × ItemKind × Nat × Nat) × Nat) => mk (s.serial + e.2) e.1.1 e.1.2.1 e.1.2.2.1 e.1.2.2.2.1 e.1.2.2.2.2) })
  { s1 with serial := s1.serial + all.length }

/-- Changes an item. -/
def State.modItem (s : State) (ser : Nat) (f : Item → Item) : State := s.setPar (fun q => { q with items := q.items.map (fun i => if i.serial == ser then f i else i) })

/-- An item ends with `k` parity deltas to be answered (R382). -/
def State.endItem (s : State) (it : Item) (k : Nat) : State := s.modItem it.serial (fun i => { i with done := k == 0, deltas := k })

/-- R222: a commit write failed: INK_COMMIT_ERR, and the item is failed. -/
def State.failItem (s : State) (it : Item) : State := (s.modItem it.serial (fun i => { i with failed := true })).latchAt (pgINK it.ink) 5 it.step

/-- Clears a Delta slot (R220). -/
def State.freeSlot (s : State) (t : Table) (ink h i : Nat) : State :=
  let s1 := s.chanZero ink (t.deltaAt h i) (dslotBytes t.width)
  s1.setN (pgINK ink) (0x050 + 4 * h) (s1.regN (pgINK ink) (0x050 + 4 * h) - 1)

/-- Step `n` owns the journal areas (R220). -/
def State.ownJrn (s : State) (n : Nat) : State := s.setPar (fun q => { q with jrn := setIns q.jrn n })

/-- TOUCHED of a promotion slot's back word (R232). -/
def State.touchPromo (s : State) (t : Table) (ink l : Nat) : State :=
  if l < t.ldram ∨ !t.hasTier ∨ 2 ^ 40 - 1 - l < t.mslots then s
  else
    let w := s.residence t ink l
    if w = 0xFFFFFFFF then s
    else
      let a := t.promo + w * t.promoStride + t.recB
      (s.winPut ink a (toLE 8 (setFld (leNat (s.chanPeek ink a 8)) 41 1 1))).1

/-- Counts of a row left unchanged (R212). -/
def State.countBad (s : State) (ink : Nat) (x : DSlot) : State :=
  let s1 := if x.sat then s.bump (pgINK ink) 0x058 1 else s
  if x.nf then s1.bump (pgINK ink) 0x060 1 else s1

/-- A result that is not finite (R217). -/
def State.countNonFin (s : State) (ink n : Nat) (bad : Bool) : State := if bad then (s.bump (pgINK ink) 0x060 1).latchAt (pgINK ink) 2 n else s

/-- The exact gradient of a slot element: Q * 2^G rounded to FP32 (R217). -/
def slotGrad (g : Int) (q : Nat) : Nat := f32enc (FVal.ofInt (sext 32 q) g)

/-- The clip factor that a decision gives the Inkers of a step (R149). -/
def State.clipFor (s : State) (n : Nat) : Nat := match s.step? n with | some r => (match r.dec with | some d => d.clip | none => 0x3F800000) | none => 0x3F800000

/-- A Delta slot lies in a poisoned line (R247). -/
def State.slotBad (s : State) (t : Table) (ink h i : Nat) : Bool := s.chanBad ink (t.deltaAt h i) (dslotBytes t.width)

/-- COMMIT of a sparse row (R214, R217, R220, R222). -/
def State.commitRow (s : State) (t : Table) (it : Item) : State :=
  let ink := it.ink
  let n := it.step
  let h := n % 2
  let x := s.readSlot t ink h it.idx
  let k := s.kOf n
  let s := (s.bump64 (pgINK ink) 0x040 1).chanSeen ink (t.deltaAt h it.idx) (dslotBytes t.width)
  match s.recLoc t ink x.row with
  | .dram coff =>
    if s.slotBad t ink h it.idx then s.failItem it
    else if !t.direct && (x.sat || x.nf) then ((s.countBad ink x).freeSlot t ink h it.idx).endItem it 0
    else
      let (cur, bad, s1) := s.chanLoad ink coff t.recB
      if bad then s1.failItem it
      else
        let ver := n % 2 ^ 32
        let jat := t.jrn + it.idx * t.jrnEntry
        if t.direct then
          let s1 := if x.nf then s1.bump (pgINK ink) 0x060 1 else s1
          let old := sliceB (s1.chanPeek ink (jat + 32) t.recB) 0 t.recB
          let new := rowHeader ver (leAt cur 4 2) (leAt cur 6 1) (s1.nextFreq ink (leAt cur 8 4)) ++ cur.drop 16
          let (s2, werr) := s1.chanStore ink coff (new.take 16)
          if werr then s2.failItem it
          else
            let (s3, c) := s2.sendDeltas ink ink coff old new true n (s2.attemptOf n) it.serial
            ((s3.freeSlot t ink h it.idx).bump (pgINK ink) 0x064 1).endItem it c
        else
          let (s2, jerr) := (s1.ownJrn n).chanStore ink jat (jrnBytes x.row t.id 0 0 (leAt cur 0 4) ver ver cur)
          let o := s2.optFor n ink t.id
          let row := s2.globalRow t ink x.row
          let (m, v) := momentVals t.opt t.mfmt t.width (cur.drop t.img)
          let u := applyOpt t.fmt t.width t.mfmt o k (s2.clipFor n) n 5 (fun p j => s2.inkDraw n t.id p 0 (row * 1024 + j)) (imageVals t.fmt t.width cur) m v
            (x.q.map (slotGrad (t.lsb + k)))
          let new := newRecord t cur u ver (s2.nextFreq ink (leAt cur 8 4))
          let (s3, werr) := s2.chanStore ink coff new
          if jerr || werr then s3.failItem it
          else
            let (s4, c) := (s3.countNonFin ink n u.nonFin).sendDeltas ink ink coff cur new true n (s3.attemptOf n) it.serial
            (((s4.touchPromo t ink x.row).freeSlot t ink h it.idx).bump (pgINK ink) 0x064 1).endItem it c
  | _ => (s.freeSlot t ink h it.idx).endItem it 0

/-- A buffer that holds no edition (R225). -/
def Shard.freeBuf (x : Shard) : Option Nat := (List.range 5).find? (fun b => !kvHas x.states b)

/-- The buffer of the newest edition held in state PUBLISHED or WAITING (R217). -/
def State.newestBuf (s : State) (x : Shard) : Option Nat :=
  (x.inState edPublished ++ x.inState edWaiting).foldl (fun a b => match a with
    | none => some b
    | some c => some (if s.edOrd x c < s.edOrd x b then b else c)) none

/-- COMMIT of a dense shard (R217, R218, R220, R223, R225) into construction buffer `b`. Its draws take the table id as the tensor id (log entry 94). -/
def State.commitShard (s : State) (t : Table) (x : Shard) (it : Item) (b : Nat) : State :=
  let ink := it.ink
  let n := it.step
  let k := s.kOf n
  let ne := x.elems
  let s := s.bump64 (pgINK ink) 0x040 1
  let src := shardBuf x ((s.newestBuf x).getD 0)
  let o := s.optFor n ink t.id
  let mb := shardMom t.opt ne
  let mat := x.coff + 64 + 10 * ne
  let (hdr, bad0, s1) := s.chanLoad ink x.coff 64
  let (pay, bad1, s2) := s1.chanLoad ink src (2 * ne)
  let (mom, bad2, s3) := if o.freeze then (([] : Bytes), false, s2) else s2.chanLoad ink mat mb
  let (gb, bad3, s4) := if o.freeze then (([] : Bytes), false, s3) else s3.chanLoad ink (shardGrad x t.opt) (4 * ne)
  if bad0 || bad1 || bad2 || bad3 then (s4.setBuf x b edBuilding).failItem it
  else
    let ver := n % 2 ^ 32
    let jimg := if o.freeze then hdr else hdr ++ mom
    let (s5, e1) := (s4.ownJrn n).chanStore ink (s4.shardJrn t x) (jrnBytes x.index t.id 1 (b2n o.freeze) (leAt hdr 4 4) ver ver jimg)
    let s5 := s5.setBuf x b edBuilding
    let (m, v) := momentVals t.opt 10 ne mom
    let start := s5.shardStart x
    let u := applyOpt 10 ne 10 o k (s5.clipFor n) n 1 (fun p j => s5.inkDraw n t.id p 0 (start + j)) ((unpackCodes 10 ne pay).map bfdec) m v (unpackCodes 12 ne gb)
    let newPay := if o.freeze then pay else packCodes 10 u.codes
    let newHdr := patchB (patchB hdr 4 (toLE 4 ver)) (8 + 4 * b) (toLE 4 ((n + 1) % 2 ^ 32))
    let oldPay := s5.chanPeek ink (shardBuf x b) (2 * ne)
    let (s6, e2) := if o.freeze ∨ mb = 0 then (s5, false) else s5.chanStore ink mat u.mom
    let (s7, e3) := s6.chanStore ink (shardBuf x b) newPay
    let (s8, e4) := s7.chanStore ink x.coff newHdr
    if e1 || e2 || e3 || e4 then s8.failItem it
    else
      let att := s8.attemptOf n
      let (s9, c1) := if o.freeze then (s8, 0) else s8.sendDeltas ink ink mat mom u.mom true n att it.serial
      let (s10, c2) := s9.sendDeltas ink ink (shardBuf x b) oldPay newPay true n att it.serial
      let (s11, c3) := s10.sendDeltas ink ink x.coff hdr newHdr true n att it.serial
      let s12 := if o.freeze then s11 else s11.countNonFin ink n u.nonFin
      ((s12.setBuf x b edBuilt).bump (pgINK ink) 0x064 1).endItem it (c1 + c2 + c3)

/-- Changes a PUT entry; its tag follows (R230). -/
def State.modEnt (s : State) (f slot : Nat) (g : PutEnt → PutEnt) : State :=
  let s1 := s.modPut f (fun p => { p with ents := p.ents.map (fun e => if e.1 == slot then (e.1, g e.2) else e) })
  if putTagOf (kvFind (s1.putOf f).ents slot) = putTagOf (kvFind (s.putOf f).ents slot) then s1 else s1.writeTag f slot

/-- Sets one half of a PUT entry. -/
def PutEnt.setHalf (e : PutEnt) (h : Nat) (step : Option Nat) (has : Bool) : PutEnt :=
  if h = 0 then { e with step0 := step, has0 := has } else { e with step1 := step, has1 := has }

/-- DRAM offsets of a PUT slot's half and image (R230). -/
def State.putHalfAt (s : State) (f slot h : Nat) : Nat := s.putAddr f slot + 0x40 + h * 0x1040
def State.putImageAt (s : State) (f slot : Nat) : Nat := s.putAddr f slot + 0x20C0

/-- COMMIT of a remote-tier row in its image area (R231). -/
def State.commitPut (s : State) (t : Table) (it : Item) (e : PutEnt) : State :=
  let ink := it.ink
  let f := inkFolio ink
  let n := it.step
  let h := n % 2
  let k := s.kOf n
  let s := s.bump64 (pgINK ink) 0x040 1
  let (sb, bad0, s1) := s.dramLoad (s.putHalfAt f it.idx h) (dslotBytes t.width)
  let x := dslotOf t.width sb
  if bad0 then s1.failItem it
  else if x.sat || x.nf then (s1.countBad ink x).endItem it 0
  else
    let at_ := s1.putImageAt f it.idx
    let (cur, bad, s2) := s1.dramLoad at_ t.recB
    if bad then s2.failItem it
    else
      let o := s2.optFor n ink t.id
      if o.freeze then s2.endItem it 0
      else
        let ver := n % 2 ^ 32
        let row := s2.globalRow t ink e.row
        let (m, v) := momentVals t.opt t.mfmt t.width (cur.drop t.img)
        let u := applyOpt t.fmt t.width t.mfmt o k (s2.clipFor n) n 5 (fun p j => s2.inkDraw n t.id p 0 (row * 1024 + j)) (imageVals t.fmt t.width cur) m v
          (x.q.map (slotGrad (t.lsb + k)))
        let new := newRecord t cur u ver (s2.nextFreq ink (leAt cur 8 4))
        let (s3, c, werr) := s2.dramWindow ink at_ new (some it)
        if werr then s3.failItem it
        else
          let s4 := s3.modEnt f it.idx (fun y => { y with state := .committed, old := some (cur, y.state) })
          ((s4.countNonFin ink n u.nonFin).bump (pgINK ink) 0x064 1).endItem it c

/-- The next item of an Inker: its oldest not done, when every earlier step is released and nothing failed (R220, R269). -/
def State.nextItem (s : State) (ink : Nat) : Option Item :=
  match s.par.items.find? (fun i => i.ink == ink && !i.done && i.deltas == 0 && !i.failed) with
  | none => none
  | some it =>
    let committing := match s.step? it.step with | some r => r.state == .committing | none => false
    if committing && !s.fmn.steps.any (fun r => decide (r.n < it.step)) && !s.par.items.any (fun i => i.step == it.step && i.failed)
      && !s.par.items.any (fun i => i.ink == ink && decide (i.serial < it.serial) && i.step == it.step && !i.done && i.deltas == 0) then some it else none

/-- A tier fetch for a commit item is already under way. -/
def State.hasFetch (s : State) (ink t l : Nat) : Bool := s.par.fetches.any (fun f => f.ink == ink && f.table == t && f.row == l && f.commit)

/-- The step's commit runs one item (R220); a shard without a buffer and a remote-tier row without its image wait. -/
def State.runItem (s : State) (it : Item) : State :=
  match s.table? it.table with
  | none => s.endItem it 0
  | some t => match it.kind with
    | .row => s.commitRow t it
    | .shard => match s.par.shards.find? (fun x => x.table == it.table && x.index == it.idx) with
      | none => s.endItem it 0
      | some x => match x.freeBuf with
        | some b => s.commitShard t x it b
        | none => if it.waited then s else (s.modItem it.serial (fun i => { i with waited := true })).bump (pgINK it.ink) 0x04C 1
    | .put => match kvFind (s.putOf (inkFolio it.ink)).ents it.idx with
      | none => s.endItem it 0
      | some e =>
        if e.image then s.commitPut t it e
        else if s.hasFetch it.ink it.table e.row then s
        else s.setPar (fun q => { q with fetches := q.fetches ++ [{ ink := it.ink, table := it.table, row := e.row, step := it.step, op := none, commit := true, issued := false, put := some it.idx, promote := false, counted := 0 }] })

/-- Restores one journal entry of step `n` at an Inker (R219, R221), the header alone where HDR_ONLY is set; false when its CRC fails. -/
def State.restoreEntry (s : State) (t : Table) (ink jat size n : Nat) : State × Bool :=
  let (whole, _, s1) := s.chanLoad ink jat size
  let tag := leAt whole 0 8
  let b := if bitOf tag 54 then whole.take (up64 96) else whole
  if !bitOf tag 53 || leAt b 0x10 4 != n % 2 ^ 32 || fld tag 40 12 != t.id then (s, true)
  else if !jrnGood b then (s1, false)
  else
    let s1 := s1.bump64 (pgINK ink) 0x040 1
    let l := fld tag 0 40
    let img := b.drop 32
    if bitOf tag 52 then
      match s.par.shards.find? (fun x => x.table == t.id && x.index == l) with
      | none => (s1, true)
      | some x =>
        let mb := shardMom t.opt x.elems
        let s2 := if bitOf tag 54 ∨ mb = 0 then s1 else (s1.chanStore ink (x.coff + 64 + 10 * x.elems) (sliceB img 64 mb)).1
        (((s2.chanStore ink x.coff (sliceB img 0 64)).1).bump (pgINK ink) 0x068 1, true)
    else match s.recLoc t ink l with
      | .dram coff => (((s1.chanStore ink coff (sliceB img 0 t.recB)).1).bump (pgINK ink) 0x068 1, true)
      | _ => (s1, true)

/-- The journal entries of an Inker go back (R221); false when one fails its check. -/
def State.restoreJrn (s : State) (ink n : Nat) : State × Bool :=
  if !s.par.jrn.contains n then (s, true) else
    (s.par.tables.filter (fun p => (s.inksOf p.2).contains ink)).foldl (fun (a : State × Bool) p =>
      if p.2.dense then (a.1.shardsAt p.1 ink).foldl (fun (b : State × Bool) x =>
          let (y, g) := b.1.restoreEntry p.2 ink (b.1.shardJrn p.2 x) (up64 (96 + shardMom p.2.opt x.elems)) n
          (y, b.2 && g)) a
      else (List.range p.2.dslots).foldl (fun (b : State × Bool) i =>
          let (y, g) := b.1.restoreEntry p.2 ink (p.2.jrn + i * p.2.jrnEntry) p.2.jrnEntry n
          (y, b.2 && g)) a) (s, true)

/-- A PUT entry of a step that is restored: the older image that it held, or an open entry without one, comes back (R231, R276). -/
def PutEnt.restored (w : PutEnt) (h : Nat) : PutEnt :=
  let w1 := w.setHalf h none false
  if w.state = PutState.committed ∧ w.has h then
    (match w.old with | some (_, st) => { w1 with state := st, old := none, image := st != .open } | none => { w1 with state := .open, image := false })
  else w1

/-- The image area of a PUT entry goes back to what it held before the step's commit, which is what parity holds (R381). -/
def State.restoreImage (s : State) (f : Nat) (e : Nat × PutEnt) : State :=
  match e.2.old with
  | some (img, _) => if e.2.state = PutState.committed then (s.dramStore (s.putImageAt f e.1) img).1 else s
  | none => s

/-- The PUT entries of an Inker for a step that is restored. -/
def State.restorePuts (s : State) (ink n : Nat) : State :=
  let f := inkFolio ink
  (s.putOf f).ents.foldl (fun (x : State) e =>
    if e.2.ink = ink ∧ e.2.stepOf (n % 2) = some n then (x.restoreImage f e).modEnt f e.1 (fun w => w.restored (n % 2)) else x) s

/-- The building buffers of an Inker's shards become free (R223, R276). -/
def State.restoreShards (s : State) (ink n : Nat) : State :=
  (s.par.shards.filter (fun x => x.ink == ink)).foldl (fun (x : State) sh =>
    (sh.inState edBuilding ++ sh.inState edBuilt).foldl (fun (y : State) b =>
      if y.edn sh b = (n + 1) % 2 ^ 32 ∨ y.edn sh b = 0xFFFFFFFF then
        ((y.chanStore sh.ink (sh.coff + 8 + 4 * b) (toLE 4 0xFFFFFFFF)).1).setBuf sh b 0 else y) x) s

/-- RESTORE of step `n` at one Inker (R221): its journal entries in increasing index, then its Delta half, its PUT halves, its construction buffers. -/
def State.restoreInk (s : State) (ink n : Nat) : State × Bool :=
  let h := n % 2
  let mine := s.par.tables.filter (fun p => (s.inksOf p.2).contains ink)
  let r := s.restoreJrn ink n
  let s2 := mine.foldl (fun (x : State) p => if p.2.dense then x else x.chanZero ink (p.2.deltaHalf h) (p.2.dslots * dslotBytes p.2.width)) r.1
  let s3 := if s2.regN (pgINK ink) (0x050 + 4 * h) = 0 then s2 else s2.setN (pgINK ink) (0x050 + 4 * h) 0
  let s5 := (s3.restorePuts ink n).restoreShards ink n
  (if r.2 then s5 else (s5.latchAt (pgINK ink) 6 n).fenceFor 3, r.2)

/-- Frees PUT entries that no open or unreleased step holds (R230). -/
def State.freeEnts (s : State) (f : Nat) : State :=
  let keep := fun (e : Nat × PutEnt) => e.2.step0.isSome || e.2.step1.isSome || e.2.state == .writingBack
  let gone := (s.putOf f).ents.filter (fun e => !keep e)
  gone.foldl (fun (x : State) e => x.writeTag f e.1) (s.modPut f (fun p => { p with ents := p.ents.filter keep }))

/-- The slot of a sender's reply. -/
def State.lookupDone (s : State) (sorter id status path : Nat) (data : Bytes) : State :=
  { s with sorters := kvMod s.sorters sorter Sorter.reset (fun q => { q with lookups := q.lookups.map (fun u => if u.id == id then { u with data := some data, status := status, path := path } else u) }) }

/-- Answers a row operation (R209); `path` is 1 for the cache, 2 for an Inker of this module, 3 for another module; 4 more when the remote tier gave the row. -/
def State.answerOp (s : State) (o : RowOp) (status : Nat) (data : Bytes) (tier : Bool) : State :=
  match o.req with
  | .lookup q id => s.lookupDone q id status (2 + 4 * b2n tier) data
  | .packet d => s.reply d status data
  | .gath t ser _ => s.selfReply (s.mkPkt 6 0 s.self 0 0 []) (.move t ser 0) status data
  | .sum _ _ => s

/-- A forwarding entry of a row (R228). -/
def State.migOf (s : State) (t r : Nat) : Option Mig := s.par.migs.find? (fun m => m.table == t && m.row == r)

/-- The record of a DRAM byte holds a row lock: its write sequence, a migration that has shipped it, has not ended (R210, R228, R243). -/
def State.lineLocked (s : State) (off : Nat) : Bool :=
  let (c, a) := dramLocate off
  s.par.migs.any (fun m => m.state == .shipped && m.ink == c && (match s.table? m.table with
    | none => false
    | some t => match s.recLoc t c m.key with
      | .dram coff => decide (coff ≤ a) && decide (a < coff + t.recB)
      | _ => false))

/-- The fabric packet of a row operation, to be forwarded whole (R228, R312). -/
def State.opPacket (s : State) (o : RowOp) : Packet × Origin :=
  match o.req with
  | .packet d => (d.pkt, .forward d.pkt.src d.pkt.lane d.pkt.tag d.pkt.layout)
  | .lookup q id =>
    let p := s.mkPkt (if o.kind = 0 then 4 else 5) 0 s.self (o.table * 2 ^ 40 + o.row) (o.step % 2 ^ 32) (if o.kind = 0 then [] else o.vals.flatMap (fun v => toLE 4 v))
    ({ p with slot := o.slot }, .lookup q id)
  | _ => (s.mkPkt 4 0 s.self 0 0 [], .none)

/-- An operation is forwarded to the new home (R228). -/
def State.forwardOp (s : State) (i : Nat) (m : Mig) (o : RowOp) : State :=
  let (p, org) := s.opPacket o
  let body := pktWire p
  (s.bump (pgINK i) 0x06C 1).send (s.mkPkt 0x62 6 m.dest (o.table * 2 ^ 40 + o.row) 0 (pad16 body)) org

/-- A commit item that covers the row is not complete (R268). -/
def State.itemCovers (s : State) (ink : Nat) (t : Table) (l : Nat) : Bool :=
  s.par.items.any (fun it => it.ink == ink && it.table == t.id && !it.done && it.kind != .shard && it.row == l)

/-- The row holds a contribution of a step before `m` whose decision has not reached this module: its commit item is still to come (R268). -/
def State.itemComes (s : State) (ink : Nat) (t : Table) (l m : Nat) : Bool :=
  s.fmn.steps.any (fun r => decide (r.n < m) && (r.state == .collating || r.state == .deciding) && !(s.optFor r.n ink t.id).freeze
    && (s.hasSlot t ink (r.n % 2) l || (s.putOf (inkFolio ink)).ents.any (fun e => e.2.table == t.id && e.2.ink == ink && e.2.row == l && e.2.stepOf (r.n % 2) == some r.n && e.2.has (r.n % 2))))

/-- The operation waits: for a row lock (R210), or a READ for the commit item of its row (R268). -/
def State.opWaits (s : State) (ink : Nat) (o : RowOp) : Bool :=
  if o.kind = 0 ∨ o.kind = 1 then
    match s.table? o.table with
    | none => false
    | some t =>
      (match s.migOf o.table o.row with | some m => m.state == .shipped | none => false)
      || (o.kind == 0 && (s.itemCovers ink t (s.rowKey t o.row).2 || s.itemComes ink t (s.rowKey t o.row).2 o.step))
  else false

/-- The next operation of an Inker: oldest open step first, then acceptance, past those that wait (R38, R209). -/
def State.nextOp (s : State) (ink : Nat) : Option (Nat × RowOp) :=
  let q := (s.inker ink).queue
  let free := q.zipIdx.filter (fun p => !s.opWaits ink p.1)
  free.foldl (fun (a : Option (Nat × RowOp)) p => match a with
    | none => some (p.2, p.1)
    | some b => if p.1.step < b.2.step then some (p.2, p.1) else some b) none

/-- The stalled operation that enters a queue next: the oldest step's first (R38). -/
def firstHeld (ops : List RowOp) : Option Nat :=
  (ops.zipIdx.foldl (fun (a : Option (RowOp × Nat)) p => match a with
    | none => some p
    | some b => if p.1.step < b.1.step then some p else some b) none).map (·.2)

/-- Takes an operation out of the queue; it counts as started, and a stalled sender's operation takes the entry (R37). -/
def State.takeOp (s : State) (ink i : Nat) : State :=
  (s.modInker ink (fun k =>
    let q := dropNth k.queue i
    match firstHeld k.held with
    | none => { k with queue := q }
    | some j => { queue := q ++ (k.held[j]?).toList, held := dropNth k.held j })).bump64 (pgINK ink) 0x040 1

/-- Adds a fetch to the tier agents' work. -/
def State.pushFetch (s : State) (f : Fetch) : State := s.setPar (fun q => { q with fetches := q.fetches ++ [f] })

/-- A READ of a replaced row whose record is not yet written: the image of the replacement area under the header that the record will have (R227). -/
def State.readRepl (s : State) (t : Table) (r : Repl) (o : RowOp) : State :=
  let (b, bad, s1) := s.chanLoad r.ink (0x100000 + r.slot * 2176 + 64) t.img
  s1.answerOp o (if bad then stPOISON else 0) (rowHeader (r.ready.getD 0 % 2 ^ 32) r.ver 1 0 ++ b.drop 16) false

/-- A READ of a row that is served here (R205, R227, R231). -/
def State.readAt (s : State) (t : Table) (ink : Nat) (o : RowOp) : State :=
  let l := (s.rowKey t o.row).2
  match s.par.repls.find? (fun r => r.table == t.id && r.row == o.row && r.live) with
  | some r => s.readRepl t r o
  | none => match s.recLoc t ink l with
  | .missing => s.answerOp o stBAD [] false
  | .dram coff =>
    let (b, bad, s1) := s.chanLoad ink coff t.img
    (s1.touchPromo t ink l).answerOp o (if bad then stPOISON else 0) b false
  | .tier =>
    match s.putFind ink t.id l with
    | some (slot, e) =>
      if e.image && e.state != .open then
        let (b, bad, s1) := s.dramLoad (s.putImageAt (inkFolio ink) slot) t.img
        let h := o.step % 2
        (s1.modEnt (inkFolio ink) slot (fun y => if (y.stepOf h).isSome then y else y.setHalf h (some o.step) false)).answerOp o (if bad then stPOISON else 0) b true
      else
        let h := o.step % 2
        (s.modEnt (inkFolio ink) slot (fun y => if (y.stepOf h).isSome then y else y.setHalf h (some o.step) false)).pushFetch
          { ink := ink, table := t.id, row := l, step := o.step, op := some o, commit := false, issued := false, put := some slot, promote := false, counted := 0 }
    | none => s.pushFetch { ink := ink, table := t.id, row := l, step := o.step, op := some o, commit := false, issued := false, put := none, promote := false, counted := 0 }

/-- INKER_READ (R205, R231, R268). -/
def State.doRead (s : State) (ink : Nat) (o : RowOp) : State :=
  match s.table? o.table with
  | none => s.answerOp o stBAD [] false
  | some t =>
    match s.migOf o.table o.row with
    | some m => if m.state = .forwarding then s.forwardOp ink m o else s.readAt t ink o
    | none => s.readAt t ink o

/-- Events of a slot after a contribution (R212). -/
def State.slotEvents (s : State) (ink n : Nat) (old new : DSlot) (lost : Bool) : State :=
  let s1 := if lost then (s.bump (pgINK ink) 0x05C 1).latchAt (pgINK ink) 3 n else s
  let s2 := if new.sat && !old.sat then s1.latchAt (pgINK ink) 1 n else s1
  let s3 := if new.nf && !old.nf then s2.latchAt (pgINK ink) 2 n else s2
  if new.sat || new.nf then s3.ovfSource n 3 else s3

/-- R40: no slot is free: INK_DELTA_FULL, and the step is aborted. -/
def State.deltaFull (s : State) (ink n : Nat) : State := (s.latchAt (pgINK ink) 0 n).askAbort n 5

/-- A contribution into the Delta area of a DRAM row, with its status (R211, R212); a poisoned slot takes nothing (log entry 79). -/
def State.addDelta (s : State) (t : Table) (ink l n : Nat) (vals : List Nat) : State × Nat :=
  let h := n % 2
  let s := if (s.deltaOwner h).isNone then s.ownHalf n else s
  match s.deltaSlot t ink h l with
  | none => (s.deltaFull ink n, stABORTED)
  | some (i, found) =>
    if found && s.slotBad t ink h i then (s, stPOISON) else
    let old := if found then s.readSlot t ink h i else DSlot.fresh t.width l
    let (new, lost) := old.add (t.lsb + s.kOf n) vals
    let s1 := if found then s else s.bump (pgINK ink) (0x050 + 4 * h) 1
    ((s1.writeSlot t ink h i new).slotEvents ink n old new lost, 0)

/-- A Delta slot brought from elsewhere is added exactly into the half of its step (R228, R232). -/
def State.addShipped (s : State) (t : Table) (ink l n : Nat) (x : DSlot) : State :=
  let h := n % 2
  let s0 := if (s.deltaOwner h).isNone then s.ownHalf n else s
  match s0.deltaSlot t ink h l with
  | none => s0.deltaFull ink n
  | some (i, found) =>
    let y := if found then (s0.readSlot t ink h i).combine x else { x with row := l }
    (if found then s0 else s0.bump (pgINK ink) (0x050 + 4 * h) 1).writeSlot t ink h i y

/-- DIRECT_ADD (R214): status of the contribution. -/
def State.directAdd (s : State) (t : Table) (ink l coff : Nat) (o : RowOp) : State × Nat :=
  let n := o.step
  let h := n % 2
  let k := s.kOf n
  let op := s.optFor n ink t.id
  if op.freeze then (s, 0)
  else
    let (cur, bad, s1) := s.chanLoad ink coff t.recB
    if bad then (s1.latchAt (pgINK ink) 5 n, stPOISON)
    else
      let s1 := if (s1.deltaOwner h).isNone then s1.ownHalf n else s1
      match s1.deltaSlot t ink h l with
      | none => (s1.deltaFull ink n, stABORTED)
      | some (i, found) =>
        let old := if found then s1.readSlot t ink h i else DSlot.fresh t.width l
        let nf := o.vals.any (fun v => (f32dec v).nonFinite)
        let new := { old with nf := old.nf || nf, count := min (old.count + 1) 65535 }
        let s2 := if found then s1 else
          ((((s1.ownJrn n).chanStore ink (t.jrn + i * t.jrnEntry) (jrnBytes l t.id 0 0 (leAt cur 0 4) (n % 2 ^ 32) (n % 2 ^ 32) cur)).1).bump (pgINK ink) (0x050 + 4 * h) 1)
        let s3 := (s2.writeSlot t ink h i new).slotEvents ink n old new false
        if nf then (s3, 0)
        else
          let row := s3.globalRow t ink l
          let ws := ((imageVals t.fmt t.width cur).zip o.vals).map (fun p =>
            f32dec (f32sub (f32enc p.1) (f32enc ((f32dec op.lr).mul ((f32dec p.2).scale (-k))))))
          let (e, codes) := storeVec t.fmt .sr (fun j => s3.inkDraw n t.id 7 o.slot (row * 1024 + j)) ws
          let (s4, _) := s3.chanStore ink (coff + 16) (payloadBytes t.fmt t.width e codes)
          (s4.bump (pgINK ink) 0x078 1, 0)

/-- A contribution into a half of a PUT entry (R231). -/
def State.addPut (s : State) (t : Table) (ink slot : Nat) (o : RowOp) : State :=
  let f := inkFolio ink
  let n := o.step
  let h := n % 2
  match kvFind (s.putOf f).ents slot with
  | none => s
  | some e =>
    let at_ := s.putHalfAt f slot h
    let old := if e.has h then dslotOf t.width (s.dram.read at_ (dslotBytes t.width)) else DSlot.fresh t.width e.row
    let (new, lost) := old.add (t.lsb + s.kOf n) o.vals
    ((s.dramPut at_ new.bytes).modEnt f slot (fun y => y.setHalf h (some n) true)).slotEvents ink n old new lost

/-- A half of a PUT entry that holds a contribution lies in a poisoned line. -/
def State.putHalfBad (s : State) (t : Table) (ink slot h : Nat) : Bool :=
  match kvFind (s.putOf (inkFolio ink)).ents slot with
  | none => false
  | some e => e.has h && s.dram.badIn 64 (s.putHalfAt (inkFolio ink) slot h) (dslotBytes t.width)

/-- A contribution to a remote-tier row, answered (R231; log entry 79 for a poisoned half). -/
def State.putContrib (s : State) (t : Table) (ink slot : Nat) (o : RowOp) : State :=
  if s.putHalfBad t ink slot (o.step % 2) then s.answerOp o stPOISON [] true else (s.addPut t ink slot o).answerOp o 0 [] true

/-- A new PUT entry, when the Folio has room (R39, R230). -/
def State.takeEnt (s : State) (ink t l n : Nat) : Option (Nat × State) :=
  let f := inkFolio ink
  let p := s.putOf f
  if putEntries ≤ p.ents.length then none
  else
    match (List.range (p.ents.length + 1)).find? (fun i => !kvHas p.ents i) with
    | none => none
    | some i =>
      let e : PutEnt := { table := t, row := l, ink := ink, step0 := if n % 2 = 0 then some n else none, step1 := if n % 2 = 1 then some n else none,
                          has0 := false, has1 := false, image := false, state := .open, old := none }
      some (i, (s.modPut f (fun q => { q with ents := kvSet q.ents i e })).writeTag f i)

/-- A contribution to a row that is kept here (R209, R231). -/
def State.contribAt (s : State) (t : Table) (ink l : Nat) (o : RowOp) : State :=
  match s.recLoc t ink l with
  | .missing => s.answerOp o stBAD [] false
  | .dram coff =>
    if t.direct then
      let (s1, st) := s.directAdd t ink l coff o
      s1.answerOp o st [] false
    else
      let (s1, st) := s.addDelta t ink l o.step o.vals
      s1.answerOp o st [] false
  | .tier =>
    match s.putFind ink t.id l with
    | some (slot, _) => s.putContrib t ink slot o
    | none =>
      match s.takeEnt ink t.id l o.step with
      | some (slot, s1) => s1.putContrib t ink slot o
      | none => s.pushFetch { ink := ink, table := t.id, row := l, step := o.step, op := some o, commit := false, issued := false, put := none, promote := false, counted := 0 }

/-- INKER_CONTRIB (R209, R212, R214, R231). -/
def State.doContrib (s : State) (ink : Nat) (o : RowOp) : State :=
  match s.table? o.table with
  | none => s.answerOp o stBAD [] false
  | some t =>
    let l := (s.rowKey t o.row).2
    match s.migOf o.table o.row with
    | some m => if m.state = .forwarding then s.forwardOp ink m o else s.contribAt t ink l o
    | none => s.contribAt t ink l o

/-- INKER_GATHER (R224): the same offset of the buffer that holds the published edition. The operation's row is the edition. -/
def State.doGather (s : State) (ink : Nat) (o : RowOp) : State :=
  let parts := lineParts o.addr o.len
  let cover := s.par.shards.find? (fun x => x.ink == ink && !parts.isEmpty && parts.all (fun p =>
    let (c, co) := dramLocate p.1
    c == ink && decide (x.coff + 64 ≤ co) && decide (co + p.2 ≤ x.coff + 64 + 2 * x.elems)))
  match cover with
  | none => s.answerOp o stBAD [] false
  | some x =>
    match (x.inState edPublished).find? (fun b => s.edn x b == o.row) with
    | none => s.answerOp o stRETIRED [] false
    | some b =>
      let (bs, bad, s1) := parts.foldl (fun (a : Bytes × Bool × State) p =>
        let (w, e, y) := a.2.2.chanLoad ink ((dramLocate p.1).2 + 2 * x.elems * b) p.2
        (a.1 ++ w, a.2.1 || e, y)) ([], false, s)
      s1.answerOp o (if bad then stPOISON else 0) bs false

/-- The channel offset and bytes of a DENSE_SUM chunk in its shard's gradient buffer (R209, R223, R351). -/
def State.writeSum (s : State) (o : RowOp) : State :=
  match s.table? o.table, s.par.shards.find? (fun x => x.table == o.table && x.index == o.row) with
  | some t, some x => (s.chanStore x.ink (shardGrad x t.opt + 4 * o.addr) (o.vals.flatMap (fun v => toLE 4 v))).1
  | _, _ => s

/-- Moments of an installed replacement (R227): kept, or at their initial values. -/
def State.installRepl (s : State) (r : Repl) (n : Nat) : State :=
  let a := 0x100000 + r.slot * 2176
  let free := fun (x : State) =>
    let y := (x.setPar (fun q => { q with repls := q.repls.filter (fun u => u != r) })).winPut r.ink a (toLE 64 0)
    let z := (y.1.bump (pgINK r.ink) 0x07C 1).bump64 (pgINK r.ink) 0x040 1
    if z.par.repls.any (fun u => u.ink == r.ink) then z else z.latch (pgINK r.ink) 9
  match s.table? r.table with
  | none => free s
  | some t =>
    let (ink, l) := s.rowKey t r.row
    match s.recLoc t ink l with
    | .dram coff =>
      let img := s.chanPeek r.ink (a + 64) t.img
      let old := s.chanPeek ink coff t.recB
      let mom := if r.keep then old.drop t.img else initMoments (s.optFor n ink t.id) t.opt t.mfmt t.width
      let new := rowHeader (n % 2 ^ 32) r.ver (leAt old 6 1) 0 ++ (img.drop 16) ++ mom
      free (s.winPut ink coff new).1
    | _ => free s

/-- REPLACE_INSTALL (R191, R227): from this boundary, rows whose release has passed read as their new image, and the caches drop their tables. Their records are written now, or after a quiet period (R385). -/
def State.installReady (s : State) : State :=
  let rs := s.par.repls.filter (fun r => r.ready.isSome)
  let new := rs.filter (fun r => !r.live)
  let s1 := if new.isEmpty then s else
    (s.setPar (fun q => { q with repls := q.repls.map (fun r => { r with live := r.ready.isSome }) })).pghDrop (fun w => new.any (fun r => r.table == w.table))
  if s.res.busy.isSome then s1
  else (s1.par.repls.filter (fun r => r.live)).foldl (fun (x : State) r => x.installRepl r (r.ready.getD 0)) s1

/-- The free promotion slots of a table at an Inker: those whose back word is not VALID (R232). -/
def State.freePromo (s : State) (t : Table) (ink : Nat) : List Nat :=
  (List.range t.pslots).filter (fun i => !bitOf (leNat (s.chanPeek ink (t.promo + i * t.promoStride + t.recB) 8)) 40)

/-- Writes the residence word of a remote-tier row (R232). -/
def State.setResidence (s : State) (t : Table) (ink l v : Nat) : State := (s.winPut ink (t.res + 4 * ((l - t.ldram) / t.inkSet.2)) (toLE 4 v)).1

/-- A record becomes a promoted row (R39, R231, R232): slot, back word, residence. -/
def State.promoteRow (s : State) (t : Table) (ink l slot : Nat) (rec_ : Bytes) (touched : Bool) : State :=
  let r := patchB rec_ 6 (toLE 1 (setFld (leAt rec_ 6 1) 2 1 1))
  let s1 := (s.winPut ink (t.promo + slot * t.promoStride) (sliceB r 0 t.recB ++ toLE 8 (l % 2 ^ 40 + 2 ^ 40 + b2n touched * 2 ^ 41))).1
  (s1.setResidence t ink l slot).bump (pgINK ink) 0x088 1

/-- A write-back begins (R231, R232). -/
def State.startBack (s : State) (t : Table) (b : Writeback) : State := (s.setPar (fun q => { q with backs := q.backs ++ [b] })).sendBack t b

/-- A promoted row is a DRAM row: what a later step has added into its PUT half moves into the Delta area (R232; log entry 96). -/
def State.moveHalf (s : State) (t : Table) (f slot : Nat) (e : PutEnt) (h : Nat) : State :=
  match e.stepOf h with
  | some m => if e.has h then (s.addShipped t e.ink e.row m (dslotOf t.width (s.dram.read (s.putHalfAt f slot h) (dslotBytes t.width)))).modEnt f slot (fun w => w.setHalf h (some m) false) else s
  | none => s

/-- At the release of step `n`: committed images are promoted or written back; halves without a contribution are given up (R230, R231). -/
def State.releasePut (s : State) (n : Nat) : State :=
  let h := n % 2
  [0, 1].foldl (fun (x : State) f =>
    ((x.putOf f).ents.foldl (fun (y : State) e =>
      if e.2.stepOf h ≠ some n then y
      else if e.2.state = .committed ∧ e.2.has h then
        match y.table? e.2.table with
        | none => y.modEnt f e.1 (fun w => w.setHalf h none false)
        | some t =>
          let img := y.dram.read (y.putImageAt f e.1) t.recB
          let want := y.inkCtrl e.2.ink 1 && t.pfreq != 0 && decide (t.pfreq ≤ leAt img 8 4)
          match (if want then (y.freePromo t e.2.ink).head? else none) with
          | some slot => ((y.promoteRow t e.2.ink e.2.row slot img true).moveHalf t f e.1 e.2 (1 - h)).modEnt f e.1 (fun w => { w.setHalf h none false with state := .open, image := false, old := none })
          | none => (y.modEnt f e.1 (fun w => { w with state := .writingBack, old := none })).startBack t
              { ink := e.2.ink, table := e.2.table, row := e.2.row, put := some e.1, step := n, failed := false, addr := t.hostAddr e.2.row, data := img }
      else y.modEnt f e.1 (fun w => w.setHalf h none false)) x).freeEnts f) s

/-- An open or unreleased step holds the row: a Delta slot or a PUT entry (R232). -/
def State.rowBusy (s : State) (t : Table) (ink l : Nat) : Bool :=
  s.fmn.steps.any (fun r => s.hasSlot t ink (r.n % 2) l) || (s.putFind ink t.id l).isSome

/-- DEMOTION_SWEEP of a table at an Inker (R232): at most `fuel` slots visited. -/
def State.sweep (s : State) (t : Table) (ink : Nat) : Nat → State
  | 0 => s
  | fuel + 1 =>
    let key := ink * 4096 + t.id
    let hand := kvGet s.par.hands key 0 % max t.pslots 1
    let busy := (s.par.backs.filter (fun b => b.table == t.id && b.ink == ink && b.put.isNone)).length
    if t.pslots / 4 ≤ (s.freePromo t ink).length + busy then s
    else
      let a := t.promo + hand * t.promoStride + t.recB
      let w := leNat (s.chanPeek ink a 8)
      let s1 := s.setPar (fun q => { q with hands := kvSet q.hands key ((hand + 1) % max t.pslots 1) })
      let l := fld w 0 40
      if !bitOf w 40 || s.residence t ink l != hand then s1.sweep t ink fuel
      else if bitOf w 41 then ((s1.winPut ink a (toLE 8 (setFld w 41 1 0))).1).sweep t ink fuel
      else if s.rowBusy t ink l then s1.sweep t ink fuel
      else
        -- the record leaves without its PROMOTED flag (R207)
        let rec_ := s1.chanPeek ink (t.promo + hand * t.promoStride) t.recB
        ((s1.setResidence t ink l 0xFFFFFFFF).startBack t { ink := ink, table := t.id, row := hand, put := none, step := 0, failed := false, addr := t.hostAddr l,
                                                             data := patchB rec_ 6 (toLE 1 (setFld (leAt rec_ 6 1) 2 1 0)) }).sweep t ink fuel

/-- R232 at a release: tables with fewer than an eighth of their promotion slots free. -/
def State.demote (s : State) : State :=
  s.par.tables.foldl (fun (x : State) p =>
    if p.2.hasTier ∧ p.2.pslots ≠ 0 then
      (x.inksOf p.2).foldl (fun (y : State) i =>
        if y.inkCtrl i 2 && decide ((y.freePromo p.2 i).length * 8 < p.2.pslots) then y.sweep p.2 i (2 * p.2.pslots) else y) x
    else x) s

/-- Replacements whose step has come (R227). -/
def State.armRepls (s : State) (n : Nat) : State :=
  s.setPar (fun q => { q with repls := q.repls.map (fun r => if r.ready.isNone && decide (r.atStep ≤ n) then { r with ready := some n } else r) })

/-- MIG_SHIP (R207, R228): the row is locked; its record, with the step of the migration as ROW_VER, and the Delta slots of open steps leave. -/
def State.shipRow (s : State) (m : Mig) (n : Nat) : State :=
  match s.table? m.table with
  | none => s
  | some t =>
    let l := (s.rowKey t m.row).2
    match s.recLoc t m.ink l with
    | .dram coff =>
      let (rec_, _, s1) := s.chanLoad m.ink coff t.recB
      let slots := s.fmn.steps.filterMap (fun r => match s.deltaSlot t m.ink (r.n % 2) l with
        | some (i, true) => some (toLE 8 r.n ++ toLE 8 0 ++ (s.readSlot t m.ink (r.n % 2) i).bytes)
        | _ => none)
      let s2 := s1.setPar (fun q => { q with migs := q.migs.map (fun u => if u == m then { u with state := .shipped, key := l } else u) })
      ((s2.bump (pgINK m.ink) 0x070 1).bump64 (pgINK m.ink) 0x040 1).send (s2.mkPkt 0x61 6 m.dest (m.table * 2 ^ 40 + m.row) 0 (pad16 (patchB rec_ 0 (toLE 4 (n % 2 ^ 32)) ++ slots.flatten))) (.migrate m.table m.row 1)
    | _ => s

/-- Migrating rows ship at a release (R228). -/
def State.shipAll (s : State) (n : Nat) : State := (s.par.migs.filter (fun m => m.state == .migrating)).foldl (fun (x : State) m => x.shipRow m n) s

/-- Norm partial E_r of this member (R213, R354): Inkers in increasing number, tables in increasing id; replicated tables only at the leader. -/
def State.normPartial (s : State) (n : Nat) : Nat :=
  let h := n % 2
  let k := s.kOf n
  (List.range 128).foldl (fun acc i =>
    let e := s.par.tables.foldl (fun a p =>
      let t := p.2
      if t.dense || t.direct || (t.repl && !s.isLeader) then a
      else
        let slots := if (s.inksOf t).contains i then ((s.validSlots t i h).map (fun j => s.readSlot t i h j)).filter (fun x => !s.movedAway t i x.row) else []
        let puts := ((s.putOf (inkFolio i)).ents.filter (fun e => e.2.table == p.1 && e.2.ink == i && e.2.stepOf h == some n && e.2.has h)).map
          (fun e => dslotOf t.width (s.dram.read (s.putHalfAt (inkFolio i) e.1 h) (dslotBytes t.width)))
        let sum := ((slots ++ puts).filter (fun x => !x.sat && !x.nf)).foldl (fun (b : Nat) (x : DSlot) => b + x.squares) 0
        if slots.isEmpty && puts.isEmpty then a else f32add a (f32enc (FVal.ofInt (sum : Int) (2 * (t.lsb + k))))) 0
    f32add acc e) 0

end Sys2Proof.Machine
end

