-- ==== Sys2Proof/Machine/Link.lean ====
section
/-! DEFINITION. The link layer of the Post ports: flits, link retry, credit, training (R303 to R310), with the meanings of the port commands. -/

namespace Sys2Proof.Machine

/-- Bytes 0x00 to 0x7B of a flit (R305). -/
def flitBody (f : Flit) : Bytes :=
  sliceB f.data 0 112 ++ toLE 2 f.lseq ++ toLE 2 f.lack ++ toLE 1 (f.lane % 8 + f.dclass % 2 * 8 + b2n f.null * 16 + b2n f.nak * 32)
  ++ toLE 1 f.crvl ++ toLE 2 f.crcnt ++ [0, 0, 0, 0]

/-- The flit with its CRC (R305). -/
def flitSeal (f : Flit) : Flit := { f with crc := crc32c (flitBody f) }

/-- The CRC of an arriving flit holds. -/
def flitGood (f : Flit) : Bool := crc32c (flitBody f) == f.crc

/-- Drops the replay entries up to an acknowledged number (R308). -/
def ackUpTo (l : List Flit) (lack : Nat) : List Flit :=
  match firstIdx (fun f => f.lseq == lack) l with
  | none => l
  | some i => l.drop (i + 1)

/-- LACK of an arriving flit (R308). -/
def Port.takeLack (p : Port) (lack : Nat) : Port :=
  let r := ackUpTo p.replay lack
  if r.length < p.replay.length then
    { p with replay := r, resendQ := p.resendQ.filter (fun f => r.any (fun g => g.lseq == f.lseq)), resends := 0, nakSeen := none }
  else p

/-- The credit fields of an arriving flit: the freed units of the reported lane and class (R306). -/
def Port.takeCredit (p : Port) (crvl crcnt : Nat) : Port :=
  let k := crvl % 8 * 2 + crvl / 8 % 2
  let freed := (crcnt % 4096 + 4096 - kvGet p.crLast k 0) % 4096
  { p with crLast := kvSet p.crLast k (crcnt % 4096), credit := kvSet p.credit k (kvGet p.credit k creditPool + freed) }

/-- PPT.STATE.LINK (R330). -/
def State.setLink (s : State) (p v : Nat) : State := s.setField (pgPPT p) 0x00C 28 4 v

/-- A lane fault (R304, R309): traffic is held and the port retrains. -/
def State.laneFault (s : State) (p : Nat) : State :=
  (((s.setPort p { s.port p with hold := true, resends := 0 }).setLink p 1).bump (pgPPT p) 0x05C 1).latch (pgPPT p) 4

/-- A resend of every unacknowledged flit begins (R308); after eight without an advance of LACK, the port has a lane fault in its place (R309). -/
def State.startResend (s : State) (p : Nat) : State :=
  let po := s.port p
  if 8 ≤ po.resends then s.laneFault p
  else
  ((s.setPort p { po with resendQ := po.replay, resends := po.resends + 1 }).bump (pgPPT p) 0x058 1).latch (pgPPT p) 3

/-- NAK_RESEND (R308): resend from LACK + 1; a further NAK with the same LACK during that resend is ignored. -/
def State.takeNak (s : State) (p : Nat) (lack : Nat) : State :=
  let po := s.port p
  if po.nakSeen = some lack ∧ po.resendQ ≠ [] then s
  else if po.replay.isEmpty then s
  else (s.setPort p { po with nakSeen := some lack }).startResend p

/-- Cuts whole packets off the front of a lane's stream; padding ends the rest of the flit (R307). -/
def cutPackets : Nat → Bytes → List Packet × Bytes
  | 0, bs => ([], bs)
  | n + 1, bs =>
    match bs with
    | [] => ([], [])
    | b :: _ =>
      if b = 0 then ([], [])
      else if bs.length < 32 ∨ bs.length < wireLen bs then ([], bs)
      else
        let (r, rest) := cutPackets n (bs.drop (wireLen bs))
        (parsePacket (bs.take (wireLen bs)) :: r, rest)

/-- DATA of an accepted flit joins its lane's stream (R307). -/
def State.takeData (s : State) (p : Nat) (f : Flit) : State :=
  let po := s.port p
  let k := f.lane % 8 * 2 + f.dclass % 2
  let (pks, rest) := cutPackets 8 (kvGet po.rxBytes k [] ++ sliceB f.data 0 112)
  let s1 := s.setPort p { po with rxBytes := kvSet po.rxBytes k rest }
  { s1 with fab := { s1.fab with router := s1.fab.router ++ pks.map (fun q => { pkt := { q with lane := f.lane % 8, dclass := f.dclass % 2 }, inPort := p }) } }

/-- LACK, NAK and credit of a flit. -/
def State.takeControl (s : State) (p : Nat) (f : Flit) : State :=
  let s1 := s.setPort p (((s.port p).takeLack f.lack).takeCredit f.crvl f.crcnt)
  if f.nak then s1.takeNak p f.lack else s1

/-- A flit that failed its CRC or overlaps an uncorrectable codeword (R302, R308). -/
def State.badFlit (s : State) (p : Nat) : State :=
  let s1 := (s.bump (pgPPT p) 0x04C 1).latch (pgPPT p) 2
  let po := s1.port p
  if po.nakEp then s1 else (s1.setPort p { po with nakEp := true, nakNow := true }).bump (pgPPT p) 0x054 1

/-- The codewords that a port has decoded are counted (R302, R332). -/
def State.countFec (s : State) (p : Nat) (c : FecCount) : State :=
  let s1 := if c.corrected = 0 then s else s.bump64 (pgPPT p) 0x040 c.corrected
  if c.failed = 0 then s1 else (s1.bump (pgPPT p) 0x048 c.failed).latch (pgPPT p) 1

/-- FLIT_RECEIVE (R302, R308): an arriving flit; `uncorr` marks one that overlaps an uncorrectable codeword, `fec` counts the codewords decoded since the flit before. -/
def execFlitReceive (port : Fin 12) (f : Flit) (uncorr : Bool) (fec : FecCount) (s0 : State) : Host.Outcome State Fault Refusal :=
  let p := port.val
  let s := if s0.link p ≠ 2 then s0 else s0.countFec p fec
  if s0.link p ≠ 2 then .next s
  else if uncorr then .next (s.badFlit p)
  else if !flitGood f then .next (s.badFlit p)
  else if f.null then .next (s.takeControl p f)
  else
    let po := s.port p
    if f.lseq = po.rxNext then
      let s1 := (s.setPort p { po with rxNext := (po.rxNext + 1) % 65536, nakEp := false }).bump64 (pgPPT p) 0x080 1
      .next ((s1.takeData p f).takeControl p f)
    else .next ((s.bump (pgPPT p) 0x050 1).takeControl p f)

/-- The link fields that every outgoing flit carries with current values (R308). -/
def State.stampFlit (s : State) (p : Nat) (f : Flit) : Flit :=
  let po := s.port p
  flitSeal { f with lack := (po.rxNext + 65535) % 65536, nak := po.nakNow, crvl := po.crTurn / 2 + po.crTurn % 2 * 8, crcnt := kvGet po.crOut po.crTurn 0 }

/-- A flit leaves: the NAK has been carried, the reported pair turns (R306). -/
def State.flitGone (s : State) (p : Nat) (f : Flit) : State :=
  let po := s.port p
  s.setPort p { po with nakNow := false, crTurn := (po.crTurn + 1) % 16, lastTx := some f }

/-- Lanes in the order of output arbitration: management first, then round-robin (R306). -/
def laneOrder (turn : Nat) : List Nat := 5 :: ((List.range 8).map (fun i => (turn + 1 + i) % 8)).filter (· != 5)

/-- The pair has bytes under way, or a packet whose units the credit covers. -/
def Port.ready (p : Port) (k : Nat) : Bool :=
  !(kvGet p.txBytes k []).isEmpty ||
  (match p.queue.find? (fun q => q.lane * 2 + q.dclass == k) with
   | none => false
   | some q => decide (pktUnits q ≤ kvGet p.credit k creditPool))

/-- Pairs whose front packet its credit does not cover, with nothing under way, and that are not counted yet. -/
def Port.shorts (p : Port) : List Nat :=
  (List.range 16).filter (fun k => (kvGet p.txBytes k []).isEmpty && p.queue.any (fun q => q.lane * 2 + q.dclass == k) && !p.ready k && !p.short.contains k)

/-- Packets held for credit are counted, each once (R37, R332). -/
def State.countShorts (s : State) (p : Nat) : State :=
  let ks := (s.port p).shorts
  let s1 := ks.foldl (fun (x : State) k => x.bump (pgPPT p) (0x088 + 4 * (k / 2)) 1) s
  if ks.isEmpty then s else s1.setPort p { s.port p with short := (s.port p).short ++ ks }

/-- Adds packets of a pair to its stream until a flit is full or credit ends. -/
def Port.fill : Nat → Nat → Port → Port
  | 0, _, p => p
  | n + 1, k, p =>
    let bs := kvGet p.txBytes k []
    if 112 ≤ bs.length then p
    else match firstIdx (fun (q : Packet) => q.lane * 2 + q.dclass == k) p.queue with
      | none => p
      | some i => match p.queue[i]? with
        | none => p
        | some q =>
          if pktUnits q ≤ kvGet p.credit k creditPool then
            Port.fill n k { p with
              queue := dropNth p.queue i, short := p.short.filter (· != k), txBytes := kvSet p.txBytes k (bs ++ pktWire q),
              credit := kvSet p.credit k (kvGet p.credit k creditPool - pktUnits q) }
          else p

/-- A null flit (R304, R305). -/
def nullFlit : Flit := { data := [], lseq := 0, lack := 0, lane := 0, dclass := 0, null := true, nak := false, crvl := 0, crcnt := 0, crc := 0 }

/-- The pair that a flit of new data is taken from (R306). -/
def Port.pick (p : Port) : Option Nat := ((laneOrder p.laneTurn).flatMap (fun l => [l * 2, l * 2 + 1])).find? p.ready

/-- The next new flit of a pair, which the replay buffer keeps (R305, R307, R308). -/
def Port.takeFlit (p : Port) (k : Nat) : Port × Flit :=
  let p1 := p.fill 8 k
  let bs := kvGet p1.txBytes k []
  let seq := (p1.txSeq + 1) % 65536
  let f : Flit := { data := sliceB bs 0 112, lseq := seq, lack := 0, lane := k / 2, dclass := k % 2, null := false, nak := false, crvl := 0, crcnt := 0, crc := 0 }
  ({ p1 with
    txBytes := kvSet p1.txBytes k (bs.drop 112), txSeq := seq, full := false, replay := p1.replay ++ [f],
    laneTurn := if k / 2 = 5 then p1.laneTurn else k / 2 }, f)

/-- FLIT_TRANSMIT (R304, R306 to R308): the next resent flit, else the next new flit of the first ready lane, else a null flit. A full replay buffer holds the new flit back, counted once, and a null flit goes out. -/
def execFlitTransmit (port : Fin 12) (s : State) : Host.Outcome State Fault Refusal :=
  let p := port.val
  let po := s.port p
  if s.link p ≠ 2 ∨ po.hold then .next s
  else match po.resendQ with
    | f :: r =>
      let g := s.stampFlit p f
      .next (((s.setPort p { po with resendQ := r }).flitGone p g).bump64 (pgPPT p) 0x078 1)
    | [] =>
      let s0 := s.countShorts p
      let po := s0.port p
      match po.pick with
      | none => .next (s0.flitGone p (s0.stampFlit p nullFlit))
      | some k =>
        if 32768 ≤ po.replay.length then
          let s1 := if po.full then s0 else (s0.setPort p { po with full := true }).bump (pgPPT p) 0x06C 1
          .next (s1.flitGone p (s1.stampFlit p nullFlit))
        else
          let (p1, f) := po.takeFlit k
          let s1 := s0.setPort p p1
          .next ((s1.flitGone p (s1.stampFlit p f)).bump64 (pgPPT p) 0x078 1)

/-- REPLAY_TIMEOUT (R308): resend from the oldest entry. -/
def execReplayTimeout (port : Fin 12) (s : State) : Host.Outcome State Fault Refusal :=
  let p := port.val
  if s.link p ≠ 2 ∨ (s.port p).replay.isEmpty then .next s else .next (s.startResend p)

/-- A port that is neither in service nor training (R330): no width, version or precoding; `chip` is what the other side has claimed. -/
def State.linkNone (s : State) (p code chip : Nat) : State :=
  ((((s.setLink p code).setField (pgPPT p) 0x00C 26 2 0).setField (pgPPT p) 0x00C 24 2 0).setField (pgPPT p) 0x00C 19 1 0).setField (pgPPT p) 0x00C 0 14 chip

/-- PORT_DOWN (R310): the port leaves service with LINK = `code`; flits and packets are discarded. -/
def State.portDown (s : State) (p code : Nat) (chip : Nat := 0x3FFF) : State :=
  let po := s.port p
  let n := po.replay.length + po.queue.length
  (((s.setPort p { Port.reset with lanesOk := po.lanesOk }).linkNone p code chip).bump (pgPPT p) 0x070 n).latch (pgPPT p) 6

/-- LANE_FAULT (R304, R309). -/
def execLaneFault (port : Fin 12) (s : State) : Host.Outcome State Fault Refusal :=
  if s.link port.val ≠ 2 then .next s else .next (s.laneFault port.val)

/-- A write of 1 to PPT.CTRL.RETRAIN (R309, R329): all lanes are tried again. A port in TEST or DISABLED does not train. -/
def State.retrain (s : State) (p : Nat) : State :=
  if s.link p = 3 ∨ s.link p = 4 then s
  else (s.setPort p { s.port p with hold := s.link p == 2 || (s.port p).hold, lanesOk := 15 }).setLink p 1

/-- The neighbour of this module through a port (R298, R299). -/
def State.neighbour (s : State) (p : Nat) : Nat :=
  let k := p / 4
  let c := chipCoord s.self k
  let n := s.shape k
  let t := if p % 4 < 2 then (c + 1) % max n 1 else (c + n - 1) % max n 1
  let old := s.self
  if k = 0 then old - chipCoord old 0 + t else if k = 1 then old - chipCoord old 1 * 16 + t * 16 else old - chipCoord old 2 * 256 + t * 256

/-- The width code for good lanes: 3 four lanes, 2 two, 1 one, 0 none (R303, R329, R330). -/
def widthFor (lanes version maxw : Nat) : Nat :=
  if lanes % 16 = 15 ∧ maxw = 0 then 3
  else if (lanes % 4 = 3 ∨ lanes / 4 % 4 = 3) ∧ maxw ≤ 1 then 2
  else if lanes % 16 ≠ 0 ∧ version = 2 then 1
  else 0

/-- The newest protocol version that both sides have (R303): 2 or 1, 0 where there is none. -/
def trainVersion (r : TrainResult) : Nat := if bitOf (r.versions &&& 6) 2 then 2 else if bitOf (r.versions &&& 6) 1 then 1 else 0

/-- The other side is the neighbour's port that R298 wires here, where a shape is set (R303, R310). -/
def State.wiredRight (s : State) (p : Nat) (r : TrainResult) : Bool := s.regN pgRTE 0x044 == 0 || (r.chip == s.neighbour p && r.port == p ^^^ 2)

/-- The result of a training in PPT.STATE: width, version, precoding, LINK = UP (R330). -/
def State.linkUp (s : State) (p w version : Nat) (precode : Bool) : State :=
  (((s.setField (pgPPT p) 0x00C 26 2 w).setField (pgPPT p) 0x00C 24 2 version).setField (pgPPT p) 0x00C 19 1 (b2n precode)).setLink p 2

/-- A training that fails (R310, R330). -/
def State.trainFailed (s : State) (p : Nat) (r : TrainResult) : State := if (s.port p).hold then s.portDown p 0 r.chip else s.linkNone p 0 r.chip

/-- The port comes into service, or goes on after a retraining: held traffic goes on from the number that the other side acknowledged, at the width `w` (R304, R309, R310). -/
def State.backInService (s : State) (p lanes w old : Nat) (r : TrainResult) : State :=
  let po := s.port p
  if po.hold then
    let po2 := ({ po with hold := false, lanesOk := lanes, resends := 0 } : Port).takeLack r.lack
    let s3 := (s.setPort p { po2 with resendQ := po2.replay }).setN (pgPPT p) 0x064 r.micros
    if w < old then (s3.bump (pgPPT p) 0x060 1).latch (pgPPT p) 5 else s3
  else (s.setPort p { Port.reset with lanesOk := lanes }).latch (pgPPT p) 0

/-- TRAINING_DONE (R303, R309, R310, R330). -/
def execTrainingDone (port : Fin 12) (r : TrainResult) (s : State) : Host.Outcome State Fault Refusal :=
  let p := port.val
  if s.link p ≠ 1 then .next s
  else
    let lanes := r.lanes % 16 &&& (s.port p).lanesOk
    let old := s.field (pgPPT p) 0x00C 26 2
    let s0 := (s.setN (pgPPT p) 0x074 r.micros).setField (pgPPT p) 0x00C 20 4 lanes
    if trainVersion r = 0 then .next ((s0.latch (pgPPT p) 7).trainFailed p r)
    else
      let s1 := s0.setField (pgPPT p) 0x00C 0 14 r.chip
      if !s.wiredRight p r then .next ((s1.latch (pgPPT p) 8).trainFailed p r)
      else
        let w := widthFor lanes (trainVersion r) (s.field (pgPPT p) 0x008 0 2)
        .next (if w = 0 then s1.trainFailed p r else (s1.linkUp p w (trainVersion r) r.precode).backInService p lanes w old r)

/-- A module in FENCED issues nothing but its FENCED_NOTICE (R373). -/
def State.mayIssue (s : State) (i : Nat) : Bool :=
  s.fmn.state != .fenced || (match s.fab.out[i]? with | some o => o.pkt.type == 0x50 && o.pkt.arg % 256 == 0x14 | none => false)

/-- PACKET_INJECT: the i-th packet that waits in a block is injected. -/
def execPacketInject (i : Nat) (s : State) : Host.Outcome State Fault Refusal := .next (if s.mayIssue i then s.inject i else s)
/-- PACKET_FORWARD: the router forwards its first packet that does not end here. -/
def execPacketForward (s : State) : Host.Outcome State Fault Refusal := .next s.forwardOne
/-- PACKET_EJECT: the first packet that ends here is checked and delivered. -/
def execPacketEject (s : State) : Host.Outcome State Fault Refusal := .next s.ejectOne
/-- E2E_RESEND toward a target chip on a lane. -/
def execE2eResend (chip lane : Nat) (s : State) : Host.Outcome State Fault Refusal := .next (s.resendAll chip lane)
/-- E2E_FAIL toward a target chip on a lane. -/
def execE2eFail (chip lane : Nat) (s : State) : Host.Outcome State Fault Refusal := .next (s.e2eFail chip lane)

end Sys2Proof.Machine
end

