-- ==== Sys2Proof/Machine/Boundary.lean ====
section
/-! DEFINITION. Replies of commands that wait (R410, R411) and the step boundary (R33, R34): what changes in every block at the instant of a boundary. -/

namespace Sys2Proof.Machine

/-- A command queue. -/
def State.queue (s : State) (q : Nat) : CmdQueue := kvGet s.spv.queues q CmdQueue.reset
/-- Changes a command queue. -/
def State.modQueue (s : State) (q : Nat) (f : CmdQueue → CmdQueue) : State := { s with spv := { s.spv with queues := kvMod s.spv.queues q CmdQueue.reset f } }

/-- A Sprinov message (R406): header and body, with its CHK. -/
def sprinovMsg (type op queue status seq : Nat) (body : Bytes) : Bytes :=
  let m := toLE 1 1 ++ toLE 1 type ++ toLE 2 op ++ toLE 1 queue ++ toLE 1 status ++ toLE 2 body.length ++ toLE 4 seq ++ toLE 4 0 ++ body
  patchB m 0xC (toLE 4 (crc32c m))

/-- A reply leaves on its queue when the queue is connected (R406, R454). -/
def State.sendReply (s : State) (r : Reply) : State :=
  if (s.queue r.queue).qp.isSome then
    ({ s with spv := { s.spv with sent := s.spv.sent ++ [r] } }).pmkMessage 3 (crc32c (patchB (sprinovMsg 2 r.op r.queue r.status r.seq r.data) 0xC (toLE 4 0)) ^^^ algXor 0)
  else s

/-- The reply to a command: the entry is freed, the result cached (its first 24 bytes), the message sent when the queue is connected (R406, R410, R411). The cache takes it where it has the command as running: not a replayed duplicate, whose OK becomes DUPLICATE_REPLAYED, nor an unsequenced command (R409), nor one from before a hello that cleared the cache (R407). -/
def State.replyTo (s : State) (r : ReplyTo) (status : Nat) (data : Bytes) : State :=
  let q := s.queue r.queue
  match q.entries.find? (fun c => c.seq == r.seq) with
  | none => s
  | some c =>
    let status := if c.dup ∧ status = stOK then stDUP else status
    let runs := match kvFind q.cache c.seq with | some e => !e.done | none => false
    let cache := if runs && !c.dup then kvSet q.cache c.seq { op := c.op, status := status, data := data.take 24, done := true } else q.cache
    let s1 := s.modQueue r.queue (fun k => { k with entries := k.entries.filter (fun e => e.seq != r.seq), cache := cache })
    s1.sendReply { queue := r.queue, seq := r.seq % 2 ^ 32, op := c.op, status := status, data := data }

/-- Replies with one status to several commands. -/
def State.replyAll (s : State) (rs : List ReplyTo) (status : Nat) : State := rs.foldl (fun x r => x.replyTo r status []) s

/-- Every enabled tile is IDLE (R270). -/
def State.allIdle (s : State) : Bool := s.enabledTiles.all (fun p => (s.tile p).run == .idle)

/-- A sheet installed on the tiles. -/
def State.sheet? (s : State) (id : Nat) : Option Sheet := kvFind s.fmn.installed id

/-- R135: a context begins at a sheet's entry: registers 0, the initialisers' descriptors and streams, no loop, no phase. -/
def Tile.beginAt (t : Tile) (sh : Sheet) : Tile :=
  let u : Tile := { t with g := [], streams := [], descs := [], depth := 0, lcount := [], lstart := [], lend := [], phase := 0, pc := sh.entry, sheet := sh.id, wait := none }
  sh.inits.foldl (fun (x : Tile) r => if r.1 then x.setStream r.2.1 r.2.2 else x.setDesc r.2.1 (BitVec.ofNat 512 r.2.2)) u

/-- Initialisers of a next sheet (R121): descriptors and streams of its records, registers kept. -/
def Tile.applyInits (t : Tile) (sh : Sheet) : Tile :=
  sh.inits.foldl (fun (x : Tile) r => if r.1 then x.setStream r.2.1 r.2.2 else x.setDesc r.2.1 (BitVec.ofNat 512 r.2.2)) { t with pc := sh.entry, sheet := sh.id }

/-- A bank with cleared content (R99, R102). -/
def Tile.clearBanks (t : Tile) : Tile := { t with bankA := Bank.reset, bankB := Bank.reset, platen := [] }

/-- Every context starts at its entry point (R121, R269): context 0 becomes resident, the others are restored from cleared banks later (R99). -/
def State.startTile (s : State) (p n : Nat) : State :=
  let t := s.tile p
  match t.slices with
  | [] => s.modTile p (fun t => { t with step := n })
  | c :: _ =>
    match s.sheet? c.sheet with
    | none => s.modTile p (fun t => { t with step := n })
    | some sh => s.setTile p (Tile.beginAt ({ t with
        ctx := 0, step := n, run := if t.run = Run.stopped then Run.stopped else Run.running, ran := t.ran || t.run != Run.stopped, stopWas := Run.running, newFault := false,
        slices := t.slices.zipIdx.map (fun (q : Ctx × Nat) => { q.1 with started := q.2 == 0, ended := false, bar := none, passed := false }) } : Tile) sh)

/-- Contexts of every enabled tile start (R269). -/
def State.startContexts (s : State) (n : Nat) : State := s.enabledTiles.foldl (fun x p => x.startTile p n) s

/-- R102: a faulted tile is reset to the entry of its slice table with cleared banks, at the first boundary after the one that its own fault caused (log entry 84). What it has handed to other blocks stays outstanding. -/
def State.resetFaulted (s : State) (p : Nat) : State :=
  let t := s.tile p
  if t.run = .faulted ∧ t.newFault then s.setTile p { t with newFault := false }
  else if t.run = .faulted ∧ t.role = .enabled then
    let u := ({ t with run := .idle, stopWas := .idle, ctx := 0, wait := none, slices := t.slices.map (fun c => { c with started := false, ended := false, bar := none, passed := false }) } : Tile).clearBanks
    s.setTile p (match t.slices with
      | [] => u
      | c :: _ => match s.sheet? c.sheet with
        | none => u
        | some sh => u.beginAt sh)
  else s

/-- R93, R129, R141: NUM adds the Tally slots of a tile into its step's histograms; bins and tags are cleared. A slot that counted nothing gives no record (log entry 97). -/
def State.collectTally (s : State) (p : Nat) : State :=
  let t := s.tile p
  if t.tlyBin.isEmpty && t.tlyTag.isEmpty then s
  else
    let add := fun (h : AMap (AMap Nat)) (slot : Nat) =>
      (List.range 64).foldl (fun (h : AMap (AMap Nat)) b =>
        let v := kvGet t.tlyBin (slot * 64 + b) 0
        if v = 0 then h else kvMod h (t.tag slot) [] (fun m => kvMod m b 0 (fun o => satAdd32 o v))) h
    (s.modStep t.step (fun r => { r with hist := (List.range 8).foldl add r.hist })).setTile p { t with tlyBin := [], tlyTag := [] }

/-- R154: NUM adds the Fount slots of a tile into its step's report; the slots are cleared. -/
def State.collectFount (s : State) (p : Nat) : State :=
  let t := s.tile p
  if t.fntSum.isEmpty && t.fntCnt.isEmpty then s
  else
    (s.modStep t.step (fun r => { r with
      mseSum := t.fntSum.foldl (fun m q => kvMod m q.1 0 (fun o => f32add o q.2)) r.mseSum,
      mseCnt := t.fntCnt.foldl (fun m q => kvMod m q.1 0 (fun o => satAdd32 o q.2)) r.mseCnt })).setTile p { t with fntSum := [], fntCnt := [] }

/-- LOSS_STEP and OVF_STEP of a tile join its step's sums and are cleared (R106, R163). -/
def State.collectLoss (s : State) (p : Nat) : State :=
  let l := s.regN (pgPRS p) 0x058
  let o := s.regN (pgPRS p) 0x05C
  if l = 0 ∧ o = 0 then s
  else ((s.modStep (s.tile p).step (fun r => { r with lossSum := satAdd32 r.lossSum l, ovfSum := satAdd32 r.ovfSum o })).setN (pgPRS p) 0x058 0).setN (pgPRS p) 0x05C 0

/-- R74: the spare with the lowest physical number of the Folio takes the logical number of a marked tile. -/
def State.remapTile (s : State) (p : Nat) : State :=
  let t := s.tile p
  if t.retire && t.role == .enabled then
    match (List.range 136).find? (fun q => tileFolio q == tileFolio p && (s.tile q).role == .spare && (s.tile q).ready) with
    | none => s
    | some q =>
      let u := s.tile q
      let s1 := s.setTile q { u with role := .enabled, logical := t.logical, ready := false, run := .idle, slices := t.slices.map (fun c => { c with started := false, ended := false, bar := none, passed := false }) }
      let s2 := (s1.setTile p { Tile.reset with role := .retired, freq := t.freq, opp := t.opp, ran := t.ran }).latchAt (pgPRS p) 5 t.step
      -- the new repair map goes to the Ledger (R75)
      (((s2.setDom p 0).ledgerUpdate (0x1100 + 2 * q) (s2.tile q).mapEntry).ledgerUpdate (0x1100 + 2 * p) (s2.tile p).mapEntry).lifeAdd 10 1
  else s

/-- PGH fields apply at a boundary (R187, R198): a change of SLOT invalidates every entry, and is none of the invalidations of R191 that GEN counts (R199); SETS and DIAG_ACTIVE follow. -/
def State.pghApply (s : State) (f : Nat) : State :=
  let old := s.inForce (pgPGH f) 0x008
  let new := s.regN (pgPGH f) 0x008
  let s1 := if fld old 1 3 ≠ fld new 1 3 then s.dropWays f (fun _ => true) else s
  (s1.setN (pgPGH f) 0x070 (2 ^ (15 - fld new 1 3))).setField (pgPGH f) 0x00C 8 1 (fld new 4 1)

/-- A checker stops: what its counters then hold is open (R328, log entry 13). -/
def State.prfFreeze (s : State) (i : Nat) : State :=
  if s.regN (pgPRF i) 0x00C = 0 then s
  else
    let (f, s1) := s.fresh
    ((List.range 10).foldl (fun (x : State) k => x.setN (pgPRF i) (0x040 + 4 * k) (f.toNat / 2 ^ (32 * k) % 2 ^ 32)) s1).setN (pgPRF i) 0x00C 0

/-- PPT.CTRL DISABLE and TEST apply at a boundary (R310, R329). A port that leaves either state is DOWN; its Proof unit runs only in TEST (R328). -/
def State.pptApply (s : State) (p : Nat) : State :=
  let c := s.regN (pgPPT p) 0x008
  if bitOf c 4 then (if s.link p = 4 then s else (s.prfFreeze p).portDown p 4)
  else if bitOf c 3 then (if s.link p = 3 then s else s.portDown p 3)
  else if s.link p = 4 ∨ s.link p = 3 then (s.prfFreeze p).setLink p 0
  else s

/-- RETIRE of PRS.CTRL marks its tile (R74, R103). -/
def State.retireApply (s : State) (p : Nat) : State :=
  if bitOf (s.regN (pgPRS p) 0x008) 1 && (s.tile p).role == .enabled then s.markTile p else s

/-- A marked tile has not been replaced: after a boundary, its spare is not ready yet (R75). -/
def State.spareWait (s : State) : Bool := s.enabledTiles.any (fun p => (s.tile p).retire)

/-- The configuration area follows the tensor table and OPT_BASE (R375): committed images of TT_DATA0 to 3, 16 bytes per index, and the record array's offset. -/
def State.cfgKeep (s : State) (commits : List (Nat × Nat × Nat)) (opt : Bool) : State :=
  let s1 := commits.foldl (fun (x : State) c =>
    let e := kvGet x.num.table c.1 TensorEnt.clear
    (x.winPut 0 (0x80000 + 16 * c.1) (toLE 4 e.tid ++ toLE 4 e.word ++ toLE 4 (wrapN 16 e.sCur * 2 ^ 16) ++ toLE 4 0)).1) s
  if opt then (s1.winPut 0 0x84000 (toLE 8 (s1.reg64 (pgINK 0) 0x098))).1 else s1

/-- The step boundary (R33, R34): values written for the boundary come into force, NUM collects, faulted tiles are reset, spares take over. -/
def State.boundary (s : State) : State :=
  let idle := s.allIdle
  let s1 := [0, 1].foldl (fun (x : State) f => x.pghApply f) s.installReady
  let s2 := (List.range 12).foldl (fun (x : State) p => x.pptApply p) s1
  let bases := [0x080, 0x084, 0x088, 0x08C].any (fun o => kvHas s.heldOld (regKey pgNUM o))
  let len := kvHas s.heldOld (regKey pgNUM 0x04C)
  let opt := kvHas s.heldOld (regKey (pgINK 0) 0x098) || kvHas s.heldOld (regKey (pgINK 0) 0x09C)
  let keep := s2.heldOld.filter (fun p => !idle && (match pageBlk (p.1 / 1024) with | some (.prs, _) => true | _ => false))
  let s3 : State := { s2 with heldOld := keep, power := { s2.power with force := s2.power.prog } }
  let s4 := s3.lsLoad.ttPlace.cfgKeep s3.num.commits opt
  let s5 := if bases then s4.moveRecords else s4
  let s5 := if len then s5.trimHistories else s5
  let order := s5.logicalOrder
  let s6 := order.foldl (fun (x : State) p => ((x.collectTally p).collectFount p).collectLoss p) s5
  let tiles := s6.enabledTiles
  let s7 := if idle then tiles.foldl (fun (x : State) p => x.retireApply p) s6 else s6
  let ready := s7.enabledTiles.all (fun p => (s7.tile p).run == .idle || (s7.tile p).run == .faulted)
  let s8 := if ready then tiles.foldl (fun (x : State) p => x.remapTile p) s7 else s7
  tiles.foldl (fun (x : State) p => x.resetFaulted p) s8

end Sys2Proof.Machine
end

