-- ==== Sys2Proof/Machine/Foreman.lean ====
section
/-! DEFINITION. Operations of the Foreman on steps (R261 to R293): opening, READY, decisions, reports, the end of a rollback, re-opening, release. -/

namespace Sys2Proof.Machine

/-- Replaces the Foreman. -/
def State.setFmn (s : State) (f : Foreman → Foreman) : State := { s with fmn := f s.fmn }

/-- FMN.STEP_NEXT (R261). -/
def State.stepNext (s : State) : Nat := s.reg64 pgFMN 0x040

/-- Slots that belong to a step in OPEN or awaiting repeat (R265, R292). -/
def State.busySlots (s : State) : Nat :=
  s.fmn.steps.foldl (fun m r => if r.state = .opened ∨ (r.state = .rollingBack ∧ (r.after = some .repeat ∨ r.after = some .suspend)) then m ||| r.mask else m) 0

/-- Staged slots as a mask. -/
def State.stagedMask (s : State) : Nat := s.fmn.staged.foldl (fun m p => m ||| 2 ^ p.1) 0

/-- The report ring is nearly full (R290). -/
def State.reportFull (s : State) : Bool := decide (4 ≤ (s.regN pgFMN 0x074 + 2 ^ 32 - s.regN pgFMN 0x078) % 2 ^ 32)

/-- The staleness mode in force (R267). -/
def State.staleness (s : State) : Nat := match s.imp.active with | none => 0 | some m => m.staleness

/-- A step counts as in COLLATING or later for R267: not unreleased, or in one of the states after OPEN and not rolling back. -/
def State.pastOpen (s : State) (n : Nat) : Bool :=
  match s.step? n with
  | none => true
  | some r => r.state != .opened && r.state != .rollingBack

/-- R267: step n can open. -/
def State.modeAllows (s : State) (n : Nat) : Bool :=
  if n = 0 then true
  else if s.staleness = 0 then (s.step? (n - 1)).isNone
  else s.pastOpen (n - 1) && (n < 2 || (s.step? (n - 2)).isNone)

/-- The edition that step n pins (R267). -/
def State.pinFor (s : State) (n : Nat) : Nat := s.newestEdition (if s.staleness = 0 then n else n - 1)

/-- A WAITING edition is the one that the step would pin (R275). -/
def State.pinWaits (s : State) (n : Nat) : Bool :=
  let lim := if s.staleness = 0 then n else n - 1
  s.par.shards.any (fun x => (x.inState edWaiting).any (fun b => decide (s.edOrd x b ≤ (lim : Int))))

/-- The open conditions of R266 for a forming step n, but for the spare of R75, which the boundary itself may bring (execStepOpening). -/
def State.canOpen (s : State) (f : Forming) : Bool :=
  s.modeAllows f.n && f.scale.isSome && (s.deltaOwner (f.n % 2)).isNone && !s.imp.accepted && !s.reportFull
  && !bitOf (s.regN pgFMN 0x008) 1 && s.res.busy.isNone && !s.pinWaits f.n

/-- Bytes of the step block (R262). -/
def stepBlock (r : StepRec) (stale : Nat) : Bytes :=
  toLE 8 r.n ++ toLE 4 r.epoch ++ toLE 4 r.pin ++ toLE 2 r.attempt ++ toLE 1 r.mask ++ toLE 1 stale ++ toLE 44 0
  ++ (List.range 4).flatMap (fun i => sliceB (kvGet r.mbs i []) 0 48)

/-- STEP_BLOCK_WRITE (R262). -/
def State.writeBlock (s : State) (r : StepRec) : State :=
  s.dramPut (s.inForce64 pgFMN 0x064 + r.n % 2 * 256) (stepBlock r s.staleness)

/-- FMN.NEWEST, ATTEMPT and PIN of the newest unreleased step (R294). -/
def State.newestRegs (s : State) : State :=
  match s.fmn.steps.foldl (fun (a : Option StepRec) r => match a with | none => some r | some b => some (if b.n < r.n then r else b)) none with
  | none => s
  | some r => ((s.set64 pgFMN 0x054 r.n).setN pgFMN 0x05C r.attempt).setN pgFMN 0x060 r.pin

/-- A step record of a step that opens or is formed as held (R269, R280). -/
def State.newStep (s : State) (n att : Nat) (sc : ScaleRec) (pin : Nat) (st : StepState) : StepRec :=
  { n := n, attempt := att, state := st, mask := s.stagedMask, mbs := s.fmn.staged, pin := pin, epoch := s.epoch,
    tOpen := s.reg64 pgDTL 0x040, scale := sc, after := none, rolled := false, await := false, dec := none, faulted := false, ovf := 0,
    counts := [], hist := [], mseSum := [], mseCnt := [], lossSum := 0, ovfSum := 0, direct := [], late := [], slow := false,
    normSent := false, failed := false, cause := 0, aborters := [], tAllIn := none }

/-- The repeat limit L (R276). -/
def State.limit (s : State) : Nat := let l := s.regN pgFMN 0x04C % 256; if l = 0 then 256 else l

/-- A pending sheet install takes effect when every enabled tile is IDLE (R136, R270). -/
def State.applyInstall (s : State) : State :=
  match s.fmn.install with
  | none => s
  | some i =>
    if !s.allIdle then s
    else
      let s1 := s.setFmn (fun m => { m with install := none, installed := i.sheets })
      let s2 := s1.enabledTiles.foldl (fun (x : State) p => x.modTile p (fun t =>
        { t with ctx := 0, slices := (kvGet i.tiles t.logical []).map (fun c => Ctx.mk c.1 c.2.1 c.2.2 false false none false) })) s1
      s2.replyTo i.reply 0 []

/-- The forming step opens (R269, row IDLE to OPEN); a pending sheet install takes effect before its contexts start (R270). -/
def State.openForming (s : State) (f : Forming) (sc : ScaleRec) : State :=
  let s0 := s.boundary.applyInstall
  let r := s0.newStep f.n 0 sc (s0.pinFor f.n) .opened
  let s1 := s0.setFmn (fun m => { m with steps := m.steps ++ [r], forming := none, staged := [] })
  let s2 := ((s1.ownHalf f.n).takeSnapshots f.n).writeBlock r
  let s3 := (s2.set64 pgFMN 0x040 (f.n + 1)).newestRegs
  let s4 := (s3.startContexts f.n).latchAt pgFMN 0 f.n
  (s4.setMod .stepping).replyTo f.reply 0 []

/-- Counts one wait of a forming step (R266). -/
def State.openWaits (s : State) : State :=
  match s.fmn.forming with
  | none => s
  | some f => if f.waited then s else (s.setFmn (fun m => { m with forming := some { f with waited := true } })).bump pgFMN 0x094 1

/-- Samples of a step's micro-batches on this module (R264, R271). -/
def StepRec.samples (r : StepRec) : Nat := r.mbs.foldl (fun a p => a + leAt p.2 0 4) 0

/-- The packets of a READY (R313, R314), after the common beginning. -/
def readyParts (ovf flt samples : Nat) (counts : List (Nat × Nat)) : List Bytes :=
  let parts := max 1 (ceilDiv counts.length 509)
  (List.range parts).map (fun i =>
    let es := (counts.drop (509 * i)).take 509
    toLE 4 ovf ++ toLE 1 (flt + (if i + 1 = parts then 2 else 0)) ++ toLE 3 0 ++ toLE 8 samples ++ toLE 4 es.length ++ toLE 2 i ++ toLE 2 parts
    ++ es.flatMap (fun e => toLE 4 e.1 ++ toLE 4 e.2))

/-- R269, row OPEN to COLLATING: READY goes to the leader and the deputy. With FAULT the contexts that still run are stopped. -/
def State.toCollating (s : State) (n : Nat) (fault : Bool) : State :=
  match s.step? n with
  | none => s
  | some r0 =>
    if r0.state ≠ .opened then s
    else
      let s0 := s.boundary
      let r := (s0.step? n).getD r0
      let s1 := s0.modStep n (fun r => { r with state := .collating, faulted := fault })
      let s2 := if fault then s1.enabledTiles.foldl (fun (x : State) p =>
          let t := x.tile p
          if t.step = n ∧ (t.run = .running ∨ t.run = .waiting ∨ t.run = .yielding) then x.setTile p { t with run := .idle, wait := none } else x) s1
        else s1
      let body := readyParts (r.ovf &&& s2.inForce pgNUM 0x060) (b2n fault) r.samples (r.counts.filter (fun c => c.2 != 0))
      s2.leaderAndDeputy.foldl (fun (x : State) d => body.foldl (fun (y : State) b => y.sendSlice d 1 n r.attempt b) x) s2

/-- A SLICE packet's fields (R313). -/
def sliceStep (p : Packet) : Nat := leAt p.payload 0 8
def sliceAttempt (p : Packet) : Nat := leAt p.payload 8 2
def sliceRest (p : Packet) : Bytes := p.payload.drop 16

/-- A member acts on a (kind, step, attempt) once (R271): true when it has not acted yet. -/
def State.firstAct (s : State) (k n a : Nat) : Bool := !s.fmn.acted.contains (k, n, a)
/-- Remembers it. -/
def State.acted (s : State) (k n a : Nat) : State := s.setFmn (fun m => { m with acted := (k, n, a) :: m.acted.take 255 })

/-- The decision that a DECISION packet carries (R313). -/
def decOf (b : Bytes) : Option DecMsg :=
  match Verdict.ofCode (leAt b 0 1) with
  | none => none
  | some v => some { verdict := v, negK := sext 16 (leAt b 2 2), clip := leAt b 4 4, ovfSrc := leAt b 8 4, g2 := leAt b 12 4,
                     parts := leAt b 16 4, total := leAt b 20 4, nparts := leAt b 24 4, samples := leAt b 28 4, cause := leAt b 32 1 }

/-- The body of a DECISION. -/
def DecMsg.bytes (d : DecMsg) : Bytes :=
  toLE 1 d.verdict.code ++ toLE 1 0 ++ toLE 2 (wrapN 16 d.negK) ++ toLE 4 d.clip ++ toLE 4 d.ovfSrc ++ toLE 4 d.g2
  ++ toLE 4 d.parts ++ toLE 4 d.total ++ toLE 4 d.nparts ++ toLE 4 d.samples ++ toLE 1 d.cause ++ toLE 7 0

/-- DIRECT tables that the step touched (R71, R289): those with a slot in its half. -/
def State.directTouched (s : State) (n : Nat) : List Nat :=
  (s.par.tables.filter (fun p => p.2.direct && (s.inksOf p.2).any (fun i => !(s.validSlots p.2 i (n % 2)).isEmpty))).map (·.1)

/-- The bytes of a step report (R289). -/
def State.reportBytes (s : State) (r : StepRec) (d : DecMsg) (silent direct : List Nat) (seq : Nat) : Bytes :=
  let num := s.numSection r d silent
  let lateOff := 0x80 + up64 num.length
  let late := r.late.flatMap (fun c => toLE 2 c)
  let dirOff := lateOff + up64 late.length
  let cause := if d.verdict = .commit ∨ d.verdict = .skip then 0 else d.cause
  toLE 4 0x4C4D5250 ++ toLE 2 1 ++ toLE 1 d.verdict.code
  ++ toLE 1 (b2n (!direct.isEmpty) + 2 * b2n r.slow + 4 * b2n s.isLeader)
  ++ toLE 8 r.n ++ toLE 8 seq ++ toLE 4 r.epoch ++ toLE 2 r.attempt ++ toLE 1 r.mask ++ toLE 1 cause
  ++ toLE 8 r.tOpen ++ toLE 8 (s.reg64 pgDTL 0x040) ++ toLE 4 r.pin ++ toLE 2 s.leader ++ toLE 2 r.late.length ++ toLE 2 direct.length ++ toLE 6 0
  ++ toLE 4 0x80 ++ toLE 4 lateOff ++ toLE 4 dirOff ++ toLE 52 0
  ++ sliceB num 0 (up64 num.length) ++ sliceB late 0 (up64 late.length) ++ sliceB (direct.flatMap (fun t => toLE 2 t)) 0 (up64 (2 * direct.length))

/-- STEP_REPORT_WRITE (R289, R290). -/
def State.writeReport (s : State) (r : StepRec) (d : DecMsg) (silent direct : List Nat) : State :=
  let seq := s.fmn.reports
  let bytes := s.reportBytes r d silent direct seq
  let was := s.reportFull
  let s1 := (s.setFmn (fun m => { m with reports := seq + 1 })).setN pgFMN 0x074 ((seq + 1) % 2 ^ 32)
  let s2 := if s.regN pgFMN 0x008 % 2 = 1 then ((s1.dramPut (s1.inForce64 pgFMN 0x06C + seq % 8 * 524288) bytes).latchAt pgFMN 2 r.n) else s1
  if s2.reportFull && !was then s2.latchAt pgFMN 6 r.n else s2

/-- The chip that a decision's cause concerns (R293): the member that stopped the attempt, where this module's own leader record names one; else this module (log entry 100). -/
def State.chipConcerned (s : State) (n : Nat) : Nat :=
  if s.isLeader then ((s.fmn.leaders.find? (fun l => l.n == n)).bind (·.who)).getD s.self else s.self

/-- Counts a decision and latches FMN_DECIDED, with the cause of R293 where the decision has one; LAST_DECIDE is the time since this member's ALL_IN (R294). -/
def State.countDecision (s : State) (r : StepRec) (d : DecMsg) : State :=
  let s1 := s.bump pgFMN (0x07C + 4 * d.verdict.code) 1
  let s1 := match r.tAllIn with
    | some t => s1.setN pgFMN 0x0A0 (min ((s1.reg64 pgDTL 0x040 - t) / 1000) 0xFFFFFFFF)
    | none => s1
  let s2 := if d.cause = 0 then s1 else s1.setErr pgFMN d.cause (r.n % 2 ^ 32) (r.attempt % 65536 * 65536 + s.chipConcerned r.n)
  (s2.setFmn (fun m => { m with anyDecided := true })).latchAt pgFMN 1 r.n

/-- Later unreleased steps follow a rollback of step n (R270). -/
def State.rollSet (s : State) (n : Nat) : List Nat := (s.fmn.steps.filter (fun r => decide (n ≤ r.n))).map (·.n)

/-- The first bag of a descriptor that is not completed. -/
def SDesc.firstOpen (d : SDesc) : Nat := match d.bags with | [] => d.nextBag | b :: _ => b.bag

/-- DESCRIPTOR_STOP (R186): each Sorter stops the descriptors of a step; they complete with STEP_ABORTED and write nothing more. -/
def State.stopSorters (s : State) (n : Nat) : State :=
  let stop := fun (d : SDesc) => if d.step = n then { d with fail := some (d.firstOpen, 0x0A), running := false, bags := [] } else d
  { s with sorters := s.sorters.map (fun p => (p.1, { p.2 with queue := p.2.queue.map stop, posts := p.2.posts.map stop })) }

/-- Tiles of a step stop: their contexts start again when the step opens again (R269). -/
def State.stopTiles (s : State) (n : Nat) : State :=
  s.enabledTiles.foldl (fun (x : State) p =>
    let t := x.tile p
    if t.step = n ∧ (t.run = .running ∨ t.run = .waiting ∨ t.run = .yielding) then x.setTile p { t with run := .idle, wait := none } else x) s

/-- A step enters ROLLING_BACK with what follows it (R269, R270). -/
def State.startRollback (s : State) (n : Nat) (v : Verdict) : State :=
  ((s.stopSorters n).stopTiles n).modStep n (fun r => { r with state := .rollingBack, after := some v, rolled := false, await := false })

/-- Inkers whose restore of a step is outstanding: every Inker takes part (R221). -/
def State.beginRestores (s : State) : State :=
  let rolling := s.fmn.steps.filter (fun r => r.state == .rollingBack && !r.rolled)
  match rolling.foldl (fun (a : Option Nat) r => match a with | none => some r.n | some b => some (max b r.n)) none with
  | none => s.setPar (fun p => { p with restoring := [], restoreStep := none })
  | some n =>
    if s.par.restoreStep = some n then s
    else s.setPar (fun p => { p with restoring := List.range 128, restoreStep := some n, items := p.items.filter (fun i => i.step != n) })

/-- A step awaits repeat: the module enters QUIESCED when every unreleased step does (R269, R279). -/
def State.quiesce (s : State) : State :=
  if (s.fmn.state = .joined ∨ s.fmn.state = .stepping) ∧ s.fmn.steps.all (fun r => r.await) then s.setMod .quiesced else s

/-- The step that ends at the boundary that begins now (R35). -/
def State.endingStep (s : State) (n : Nat) : State := s.setFmn (fun m => { m with ending := some n })

/-- The step ends or is released: it is no longer unreleased (R269, R279). Where all others await repeat, the module is QUIESCED now. -/
def State.dropStep (s : State) (n : Nat) : State :=
  let s1 := s.setFmn (fun m => { m with steps := m.steps.filter (fun r => r.n != n), lastEnded := n, ending := none })
  let s2 := s1.setPar (fun p => { p with snaps := kvDel p.snaps n })
  if s2.fmn.steps.isEmpty && s2.fmn.forming.isNone && s2.fmn.state == .stepping then s2.setMod .joined
  else if s2.fmn.steps.any (fun r => r.await) then s2.newestRegs.quiesce
  else s2.newestRegs

/-- R344: a rollback clears every bucket half whose pair is of the step and of the attempt or an earlier one, and the outputs of those attempts (ATTEMPT of R348). -/
def State.clearCollation (s : State) (n a : Nat) : State :=
  { s with col := { s.col with
      halves := s.col.halves.filter (fun p => !(p.2.step == n && decide (p.2.attempt ≤ a))),
      maps := s.col.maps.filter (fun p => !(p.2.step == n && decide (p.2.attempt ≤ a))),
      outs := s.col.outs.filter (fun o => !(o.step == n && decide (leAt o.pkt.payload 8 2 ≤ a))),
      exch := s.col.exch.filter (fun p => !(p.2.step == n && decide (p.2.attempt ≤ a))),
      flags := s.col.flags.filter (fun p => !(p.2.step == n && decide (p.2.attempt ≤ a))) } }

/-- R384: held deltas of a step are discarded at its rollback. -/
def State.discardHeld (s : State) (n : Nat) : State :=
  let k := (s.res.held.filter (fun h => h.step == n)).length
  if k = 0 then s else ({ s with res := { s.res with held := s.res.held.filter (fun h => h.step != n) } }).bump pgPMS 0x06C k

/-- XORs bytes into a parity slot: one PARITY row operation of the slot's Inker (R209, R376, R384). -/
def State.xorSlot (s : State) (ch coff : Nat) (d : Bytes) : State :=
  (((s.chanSeen ch coff d.length).chanStore ch coff (xorB (s.chanPeek ch coff d.length) d)).1).bump64 (pgINK ch) 0x040 1

/-- PARITY_HELD_APPLY (R384). -/
def State.applyHeld (s : State) (n : Nat) : State :=
  let hs := s.res.held.filter (fun h => h.step == n)
  let s1 := hs.foldl (fun (x : State) h => x.xorSlot h.chan h.coff h.data) s
  if hs.isEmpty then s else ({ s1 with res := { s1.res with held := s1.res.held.filter (fun h => h.step != n) } }).bump pgPMS 0x068 hs.length

/-- The row of R269 that follows once step n has been restored: it ends (a WAITING edition may be published then, R274), awaits repeat, or, after REPEAT, is left to STEP_REOPEN. -/
def State.rollEnds (s : State) (n : Nat) : State :=
  match s.step? n with
  | none => s
  | some r => match r.after with
    | some .skip => ((s.replyAll r.aborters stBAD).dropStep n).publishAll edWaiting
    | some .abort =>
      let s1 := (((s.replyAll r.aborters stABORTED).dropStep n).publishAll edWaiting).latchAt pgFMN 3 n
      -- the number is used again: nothing of its attempts stays (R261)
      let s2 := s1.setFmn (fun m => { m with leaders := m.leaders.filter (fun l => l.n != n), acted := m.acted.filter (fun k => k.2.1 != n) })
      if n < s2.stepNext then s2.set64 pgFMN 0x040 n else s2
    | some .suspend => (s.modStep n (fun r => { r with await := true })).quiesce
    | _ => s

/-- STEP_ROLLBACK_DONE (R269): step n is restored. -/
def State.rollbackDone (s : State) (n : Nat) : State :=
  match s.step? n with
  | none => s
  | some r =>
    let s0 := (if r.after = some Verdict.skip ∨ r.after = some Verdict.abort then s.endingStep n else s).boundary
    let s1 := ((s0.clearCollation n r.attempt).discardHeld n).pghInvalidate
    let s2 := s1.pghNofill (fun l => l.filter (· != n))
    ((s2.modStep n (fun r => { r with rolled := true })).rollEnds n).beginRestores

/-- A step opens again after REPEAT or RESUME (R269): the slots are taken back, ATTEMPT advances. -/
def State.reopenStep (s : State) (n : Nat) : State :=
  match s.step? n with
  | none => s
  | some r =>
    let s0 := s.boundary.applyInstall
    let r1 : StepRec := { r with
      state := .opened, attempt := r.attempt + 1, after := none, rolled := false, await := false, dec := none,
      faulted := false, ovf := 0, counts := [], hist := [], mseSum := [], mseCnt := [], lossSum := 0, ovfSum := 0, normSent := false, failed := false, cause := 0, tAllIn := none,
      epoch := s0.epoch, tOpen := s0.reg64 pgDTL 0x040 }
    let s1 := (((s0.modStep n (fun _ => r1)).ownHalf n).writeBlock r1).newestRegs
    ((s1.startContexts n).latchAt pgFMN 0 n).setMod .stepping

/-- R269: a step can open again when no earlier step is in OPEN or ROLLING_BACK and the report ring has room; one whose attempts are used up waits for its ABORT (R276). -/
def State.canReopen (s : State) (r : StepRec) : Bool :=
  r.state == .rollingBack && r.rolled && !r.await && r.after == some Verdict.repeat && decide (r.attempt + 1 < s.limit)
  && s.fmn.steps.all (fun q => !decide (q.n < r.n) || (q.state != .opened && q.state != .rollingBack)) && !s.reportFull
  && s.fmn.steps.all (fun q => q.state != .opened)

end Sys2Proof.Machine
end

