-- ==== Sys2Proof/Machine/Trees.lean ====
section
/-! DEFINITION. Section 4 of the imposition (R336 to R342): trees, buckets, A2A map entries, and the walks of a tree (R337). -/

namespace Sys2Proof.Machine

/-- Counts and offsets of the header (R339). -/
def nTrees (sec : Bytes) : Nat := leAt sec 0 2
def nBuckets (sec : Bytes) : Nat := leAt sec 4 4
def nMap (sec : Bytes) : Nat := leAt sec 8 4
def treeOff (sec : Bytes) : Nat := leAt sec 0x0C 4
def bucketOff (sec : Bytes) : Nat := leAt sec 0x10 4
def mapOff (sec : Bytes) : Nat := leAt sec 0x14 4

/-- Bytes of a tree record of `l` ranks (R340). -/
def treeRecLen (l : Nat) : Nat := ceilDiv (8 + 2 * l) 8 * 8

/-- Where the record `t` places after the one at `off` begins. -/
def treeRecAt (sec : Bytes) : Nat → Nat → Nat
  | 0, off => off
  | t + 1, off => treeRecAt sec t (off + treeRecLen (leAt sec off 2))

/-- The ranks of tree `t`. -/
def treeList (sec : Bytes) (t : Nat) : List Nat :=
  let off := treeRecAt sec t (treeOff sec)
  (List.range (leAt sec off 2)).map (fun i => leAt sec (off + 8 + 2 * i) 2)

/-- A bucket record (R341). -/
structure Bucket where
  kind   : Nat
  cpm    : Nat
  layout : Nat
  tree   : Nat
  elems  : Nat
  table  : Nat
  shard  : Nat
  offset : Nat
  flag   : Nat
  deliv  : Nat
  deriving DecidableEq, Repr

/-- Bucket `b` of a section. -/
def bucketAt (sec : Bytes) (b : Nat) : Bucket :=
  let o := bucketOff sec + 32 * b
  { kind := leAt sec o 1, cpm := leAt sec (o + 1) 1, layout := leAt sec (o + 2) 1 % 4, tree := leAt sec (o + 4) 2, elems := leAt sec (o + 8) 4,
    table := leAt sec (o + 0xC) 2, shard := leAt sec (o + 0xE) 2, offset := leAt sec (o + 0x10) 4, flag := leAt sec (o + 0x14) 4, deliv := leAt sec (o + 0x18) 8 }

/-- An A2A map entry (R342). -/
structure MapEnt where
  home   : Nat
  width  : Nat
  rfmt   : Nat
  cap    : Nat
  region : Nat
  flag   : Nat
  deriving DecidableEq, Repr

/-- Map entry `i` of a section. -/
def mapAt (sec : Bytes) (i : Nat) : MapEnt :=
  let o := mapOff sec + 32 * i
  { home := leAt sec o 2 % 16384, width := leAt sec (o + 2) 2, rfmt := leAt sec (o + 4) 1, cap := leAt sec (o + 6) 2, region := leAt sec (o + 8) 8, flag := leAt sec (o + 0x10) 4 }

/-- The split point of an internal node (R337). -/
def splitOf (a b : Nat) : Nat := a + 2 ^ (b - a - 1).log2

/-- The internal nodes from the root down to leaf `x`, or down to the node whose split is `x`: the split and whether the walk goes right. -/
def treeWalk (leaf : Bool) (x : Nat) : Nat → Nat → Nat → List (Nat × Bool)
  | 0, _, _ => []
  | fuel + 1, a, b =>
    if b - a < 2 then []
    else
      let m := splitOf a b
      if !leaf && m == x then []
      else if x < m then (m, false) :: treeWalk leaf x fuel a m
      else (m, true) :: treeWalk leaf x fuel m b

/-- The parent of leaf `i` in a tree of `l` leaves: its split, and whether the leaf is its right child; none when the leaf is the root. -/
def leafParent (l i : Nat) : Option (Nat × Bool) := (treeWalk true i l 0 l).getLast?

/-- The parent of the internal node with split `m`; none for the root. -/
def nodeParent (l m : Nat) : Option (Nat × Bool) := (treeWalk false m l 0 l).getLast?

/-- The root host: the host of the node that splits [0, L), or the single leaf (R337). -/
def rootIndex (l : Nat) : Nat := if l < 2 then 0 else splitOf 0 l - 1

/-- Section 4 of the active imposition. -/
def State.colSec (s : State) : Bytes := match s.imp.active with | none => [] | some m => m.sec 4

/-- A bucket of the active imposition. -/
def State.bucket? (s : State) (b : Nat) : Option Bucket := if b < nBuckets s.colSec then some (bucketAt s.colSec b) else none

/-- GRAD buckets of the active imposition: those whose completion the leader expects (R272, R352). -/
def State.gradBuckets (s : State) : List Nat := (List.range (nBuckets s.colSec)).filter (fun b => (bucketAt s.colSec b).kind == 0)

/-- Chip of a rank. -/
def State.chipOf (s : State) (rank : Nat) : Nat := s.members.getD rank 0x3FFF

end Sys2Proof.Machine
end

