-- ==== Sys2Proof/Machine/Leader.lean ====
section
/-! DEFINITION. The step leader (R271 to R278, R352, R354): what it keeps for an attempt, its decisions, their delivery, RELEASE. -/

namespace Sys2Proof.Machine

/-- The leader's record of a step. -/
def State.lead? (s : State) (n : Nat) : Option LeadRec := s.fmn.leaders.find? (fun l => l.n == n)
/-- Changes it. -/
def State.modLead (s : State) (n : Nat) (f : LeadRec → LeadRec) : State := s.setFmn (fun m => { m with leaders := m.leaders.map (fun l => if l.n == n then f l else l) })

/-- A record of an attempt without anything in it. -/
def LeadRec.fresh (n a : Nat) (before : List Nat) : LeadRec :=
  { n := n, attempt := a, ready := [], done := [], armed := false, allIn := false, norms := [], decided := none, sent := false, commits := [],
    released := false, relSent := false, abortWhy := none, redo := none, lost := false, late := [], lateBefore := before, who := none }

/-- The late members that count toward R272's second attempt: those of an attempt that ended in REPEAT for lateness. -/
def LeadRec.lateCarry (l : LeadRec) : List Nat := match l.decided with | some d => if d.verdict = .repeat ∧ d.cause = 1 then l.late else [] | none => []

/-- The record of (step, attempt): a new one, or one that a later attempt replaces. -/
def State.leadFor (s : State) (n a : Nat) : State :=
  match s.lead? n with
  | none => s.setFmn (fun m => { m with leaders := m.leaders.filter (fun l => decide (n ≤ l.n + 3)) ++ [LeadRec.fresh n a []] })
  | some l => if l.attempt < a then s.modLead n (fun l => LeadRec.fresh n a l.lateCarry) else s

/-- Every packet of a READY has arrived (R314). -/
def ReadyRec.whole (r : ReadyRec) : Bool := r.nparts != 0 && decide (r.nparts ≤ r.parts.length)

/-- Members whose whole READY has arrived. -/
def LeadRec.readyChips (l : LeadRec) : List Nat := (l.ready.filter (fun p => p.2.whole)).map (·.1)

/-- Every member's READY has arrived. -/
def State.allReady (s : State) (l : LeadRec) : Bool := s.members.all (fun c => l.readyChips.contains c)

/-- Contributions of all READYs to a bucket (R352). -/
def LeadRec.contribs (l : LeadRec) (b : Nat) : Nat := l.ready.foldl (fun a p => a + kvGet p.2.counts b 0) 0

/-- Samples of all READYs. -/
def LeadRec.samples (l : LeadRec) : Nat := l.ready.foldl (fun a p => a + p.2.samples) 0

/-- OVF_SRC known to the leader (R147): the READYs, whose sources their members have masked, and, under its own mask, its own sources, NF of C_DONE, a non-finite G2. -/
def State.leadOvf (s : State) (l : LeadRec) (g2 : Nat) : Nat :=
  let own := match s.step? l.n with | some r => r.ovf | none => 0
  let rd := l.ready.foldl (fun a p => a ||| p.2.ovf) 0
  let nf := if l.done.any (fun p => p.2.nonFin) then 4 else 0
  let gn := if (f32dec g2).nonFinite then 32 else 0
  rd ||| ((own ||| nf ||| gn) &&& s.inForce pgNUM 0x060)

/-- Sum in FP32 from +0 (R354). -/
def f32sum (l : List Nat) : Nat := l.foldl f32add 0

/-- The values of R354 that a COMMIT or SKIP carries, with the verdict of R148; the noise values are 0 unless the leader's NUM records them (R162, R163; log entry 77). -/
def State.leadValues (s : State) (l : LeadRec) : DecMsg :=
  let k : Int := match s.step? l.n with | some r => r.scale.k | none => 0
  let dense := f32sum (l.done.map (fun p => p.2.norm))
  let parts := f32sum (l.done.map (fun p => p.2.parts))
  let emb := f32sum (l.norms.map (·.2))
  let g2 := unscale2 (f32add dense emb) k
  let ovf := s.leadOvf l g2
  let w := fun (x : Nat) => if s.numCtrl 3 then x else 0
  { verdict := if s.verdictOf ovf g2 = 0 then .commit else .skip, negK := -k, clip := s.clipOf g2, ovfSrc := ovf, g2 := g2,
    parts := w (unscale2 parts k), total := w (unscale2 dense k), nparts := w (l.done.foldl (fun a p => a + p.2.count) 0), samples := w l.samples, cause := 0 }

/-- A REPEAT, ABORT or SUSPEND (R276): the values of an undecided attempt are the sources known and zeros, γ 1.0. -/
def State.leadStop (s : State) (l : LeadRec) (v : Verdict) (cause : Nat) : DecMsg :=
  let k : Int := match s.step? l.n with | some r => r.scale.k | none => 0
  { verdict := v, negK := -k, clip := 0x3F800000, ovfSrc := s.leadOvf l 0, g2 := 0, parts := 0, total := 0, nparts := 0, samples := 0, cause := cause }

/-- Members other than the deputy. -/
def State.othersOf (s : State) : List Nat := s.members.filter (fun c => c != s.deputy)

/-- Broadcasts a decision to the members other than the deputy. -/
def State.broadcastDecision (s : State) (n a : Nat) (d : DecMsg) : State := s.sendSliceAll s.othersOf 3 n a d.bytes

/-- The leader sends a decision: to the deputy first (R276). -/
def State.sendDecision (s : State) (n a : Nat) (d : DecMsg) : State :=
  if s.deputy = 0x3FFF then (s.modLead n (fun l => { l with decided := some d, sent := true })).broadcastDecision n a d
  else (s.modLead n (fun l => { l with decided := some d, sent := false })).sendSlice s.deputy 3 n a d.bytes

/-- How far a decision overrides an earlier one of the same attempt (R269): a step in COMMITTING can still roll back. -/
def decRank : Option DecMsg → Nat
  | none => 0
  | some d => match d.verdict with | .commit => 1 | .repeat => 2 | .suspend => 3 | .abort => 5 | .skip => 5

/-- R276, rows 1 to 3: what stops the attempt. -/
def State.stopRow (s : State) (l : LeadRec) : Option (Verdict × Nat) :=
  match l.abortWhy with
  | some c => some (.abort, c)
  | none =>
    if l.redo.isSome && l.attempt + 1 == s.limit then some (.abort, 7)
    else if l.lost then some (.suspend, 8)
    else l.redo.map (fun c => (.repeat, c))

/-- R272: slow members are those late in this attempt and in the one before it, both repeated for lateness. -/
def State.noteSlow (s : State) (l : LeadRec) (d : DecMsg) : State :=
  let slow := l.late.filter (fun c => l.lateBefore.contains c)
  if d.verdict = .repeat ∧ d.cause = 1 ∧ !slow.isEmpty then
    ((slow.foldl (fun (x : State) c => x.setN pgFMN 0x09C (2 ^ 31 + c % 2 ^ 14)) s).modStep l.n (fun r => { r with slow := true })).latchAt pgFMN 4 l.n
  else s

/-- LEADER_DECIDE (R276): the first row that applies. -/
def State.leaderDecide (s : State) (n : Nat) : State :=
  match s.lead? n with
  | none => s
  | some l =>
    if !s.isLeader ∨ l.released then s
    else
      let finish := fun (x : State) (d : DecMsg) =>
        ((x.noteSlow l d).modStep n (fun r => { r with late := l.late })).sendDecision n l.attempt d
      match s.stopRow l with
      | some (v, c) =>
        let d := s.leadStop l v c
        if decRank (some d) ≤ decRank l.decided then s
        else
          let s1 := finish s d
          -- R270: later steps follow; one that has no attempt left is aborted (R276)
          (s1.fmn.steps.filter (fun r => decide (n < r.n) && v != .abort && r.attempt + 1 == s1.limit)).foldl
            (fun (x : State) r => (x.leadFor r.n r.attempt).sendDecision r.n r.attempt (x.leadStop (LeadRec.fresh r.n r.attempt []) .abort 7)) s1
      | none =>
        if l.decided.isNone && l.allIn && s.members.all (fun c => match s.rankOf c with | some r => kvHas l.norms r | none => false) then finish s (s.leadValues l)
        else s

/-- Row 3 of R276 applies to the attempt, through a member. -/
def LeadRec.stopped (l : LeadRec) (cause who : Nat) : LeadRec := if l.redo.isSome then l else { l with redo := some cause, who := some who }

/-- R272, R352: ALL_IN when every READY and every expected completion has arrived, and the counts agree; else the attempt repeats. -/
def State.checkAllIn (s : State) (n : Nat) : State :=
  match s.lead? n with
  | none => s
  | some l =>
    if !s.isLeader ∨ l.allIn ∨ l.decided.isSome then s
    else match l.readyChips.find? (fun c => match kvFind l.ready c with | some r => r.fault | none => false) with
    | some c => (s.modLead n (fun l => l.stopped 2 c)).leaderDecide n
    | none =>
      let bad := if s.allReady l then l.done.find? (fun p => p.2.noTable || p.2.count != l.contribs p.1) else l.done.find? (fun p => p.2.noTable)
      match bad with
      | some b =>
        let s1 := s.latchErr pgCOL 1 3 b.1 (l.attempt % 65536 * 65536 + s.leader)
        (s1.modLead n (fun l => l.stopped 2 s.self)).leaderDecide n
      | none =>
        if s.allReady l && s.gradBuckets.all (fun b => kvHas l.done b) then
          (s.modLead n (fun l => { l with allIn := true })).sendSliceAll s.members 2 n l.attempt []
        else s

/-- READY: one packet of a member's READY merges into the record of its attempt (R271, R314). -/
def State.takeReady (s : State) (src n a : Nat) (b : Bytes) : State :=
  let s1 := s.leadFor n a
  match s1.lead? n with
  | none => s1
  | some l =>
    if l.attempt ≠ a then s1
    else
      let old := kvGet l.ready src { parts := [], nparts := 0, ovf := 0, fault := false, samples := 0, counts := [] }
      let nb := min (leAt b 16 4) 509
      let new : ReadyRec :=
        { parts := setIns old.parts (leAt b 20 2), nparts := leAt b 22 2, ovf := leAt b 0 4, fault := bitOf (leAt b 4 1) 0, samples := leAt b 8 8,
          counts := (List.range nb).foldl (fun m i => kvSet m (leAt b (24 + 8 * i) 4) (leAt b (28 + 8 * i) 4)) old.counts }
      (s1.modLead n (fun l => { l with ready := kvSet l.ready src new, armed := l.armed || new.whole })).checkAllIn n

/-- The leader learns that member `c` is lost or fenced (R276, row 2). -/
def State.leaderLost (s : State) (c : Nat) : State :=
  let ns := s.fmn.steps.map (fun r => (r.n, r.attempt))
  ns.foldl (fun (x : State) p => ((x.leadFor p.1 p.2).modLead p.1 (fun l => { l with lost := true, who := some (l.who.getD c) })).leaderDecide p.1) s

/-- R277: RELEASE once every member has sent COMMIT_DONE; to the deputy first. -/
def State.checkRelease (s : State) (n : Nat) : State :=
  match s.lead? n with
  | none => s
  | some l =>
    let commit := match l.decided with | some d => d.verdict == .commit | none => false
    if s.isLeader && commit && l.sent && !l.released && s.members.all (fun c => l.commits.contains c) then
      let s1 := s.modLead n (fun l => { l with released := true })
      if s.deputy = 0x3FFF then (s1.modLead n (fun l => { l with relSent := true })).sendSliceAll s.members 5 n l.attempt []
      else s1.sendSlice s.deputy 5 n l.attempt []
    else s

/-- COMMIT_DONE or COMMIT_FAIL of a member reaches the leader (R276, R277). -/
def State.takeCommitDone (s : State) (src n a : Nat) (failed : Bool) : State :=
  match s.lead? n with
  | none => s
  | some l =>
    if l.attempt ≠ a then s
    else if failed then (s.modLead n (fun l => l.stopped 3 src)).leaderDecide n
    else (s.modLead n (fun l => { l with commits := setIns l.commits src })).checkRelease n

/-- The deputy's acknowledgement of a DECISION or a RELEASE (R276, R277, R313). -/
def State.deputyAck (s : State) (kind n a : Nat) : State :=
  match s.lead? n with
  | none => s
  | some l =>
    if l.attempt ≠ a then s
    else if kind = 3 then
      match l.decided with
      | some d => if l.sent then s else ((s.modLead n (fun l => { l with sent := true })).broadcastDecision n a d).checkRelease n
      | none => s
    else if kind = 5 ∧ l.released ∧ !l.relSent then (s.modLead n (fun l => { l with relSent := true })).sendSliceAll s.othersOf 5 n a []
    else s

/-- The abort request of member `c` reaches the leader (R276, R278). -/
def State.takeAbort (s : State) (n a cause c : Nat) : State :=
  let s1 := s.leadFor n a
  (s1.modLead n (fun l => if l.abortWhy.isSome then l else { l with abortWhy := some cause, who := some c })).leaderDecide n

/-- R276: RESUME for the steps held; one whose ATTEMPT + 1 equals L is aborted in its place. -/
def State.leaderResume (s : State) : State :=
  let held := s.fmn.steps.filter (fun r => r.await)
  let s1 := held.foldl (fun (x : State) r =>
    if r.attempt + 1 = x.limit then
      (x.leadFor r.n r.attempt).sendDecision r.n r.attempt (x.leadStop (LeadRec.fresh r.n r.attempt []) .abort 7)
    else x) s
  s1.sendSliceAll s1.members 6 ((held.head?.map (·.n)).getD 0) ((held.head?.map (·.attempt)).getD 0) []

/-- The steps that a new leader suspends (R277): those unreleased here, and those that ended here by a SKIP which other members may not have. -/
def State.suspendSet (s : State) : List (Nat × Nat) :=
  let open_ := (s.fmn.steps.filter (fun r => !s.fmn.leaders.any (fun l => l.n == r.n && l.released))).map (fun r => (r.n, r.attempt))
  open_ ++ (s.fmn.leaders.filter (fun l => !l.released && (s.step? l.n).isNone && (match l.decided with | some d => d.verdict == .skip | none => false))).map (fun l => (l.n, l.attempt))

/-- R277: the deputy has become leader, `c` being lost: it re-broadcasts the RELEASEs it has acknowledged and decides SUSPEND for every other unreleased step, whatever it knew of its decision. -/
def State.newLeader (s : State) (c : Nat) : State :=
  let rel := s.fmn.leaders.filter (fun l => l.released)
  let s1 := rel.foldl (fun (x : State) l => (x.modLead l.n (fun l => { l with relSent := true })).sendSliceAll x.members 5 l.n l.attempt []) s
  s1.suspendSet.foldl (fun (x : State) p =>
    let y := (x.leadFor p.1 p.2).modLead p.1 (fun l => { l with lost := true, who := some (l.who.getD c) })
    y.sendDecision p.1 p.2 (y.leadStop (LeadRec.fresh p.1 p.2 []) .suspend 8)) s1

end Sys2Proof.Machine
end

