-- ==== Sys2Proof/Machine/ColOps.lean ====
section
/-! DEFINITION. The Collators' shared operations (R336 to R359): halves and attempts, leaf values, nodes, delivery to the owner, top-k merges, flags, broadcast, the replicated exchange. -/

namespace Sys2Proof.Machine

/-- The Collator's input serves the oldest step first (R38): the first of the delivered packets of a type with the least step. -/
def State.takeOldest (s : State) (type : Nat) : Option (OutPkt × State) :=
  let steps := (s.fab.arrived.filter (fun o => o.pkt.type == type)).map (fun o => leAt o.pkt.payload 0 8)
  let n := steps.foldl min (steps.headD 0)
  s.takeArrived (fun p => p.type == type && leAt p.payload 0 8 == n)

/-- The sub-header of a collation payload (R348). -/
def colHead (step att count flags j n : Nat) : Bytes := toLE 8 step ++ toLE 2 att ++ toLE 2 count ++ toLE 1 flags ++ toLE 1 j ++ toLE 2 n

def colStep (b : Bytes) : Nat := leAt b 0 8
def colAtt (b : Bytes) : Nat := leAt b 8 2
def colCount (b : Bytes) : Nat := leAt b 0xA 2
def colNF (b : Bytes) : Bool := bitOf (leAt b 0xC 1) 0
def colLast (b : Bytes) : Bool := bitOf (leAt b 0xC 1) 1
def colNoTable (b : Bytes) : Bool := bitOf (leAt b 0xC 1) 2
def colJ (b : Bytes) : Nat := leAt b 0xD 1
def colN (b : Bytes) : Nat := leAt b 0xE 2
/-- The payload after the sub-header as 32-bit words. -/
def colWord (b : Bytes) (i : Nat) : Nat := leAt b (16 + 4 * i) 4
def colWords (b : Bytes) (n : Nat) : List Nat := (List.range n).map (colWord b)

/-- Fields of ADDR (R348). -/
def colBucket (a : Nat) : Nat := fld a 44 20
def colChunk (a : Nat) : Nat := fld a 42 2
def colSide (a : Nat) : Nat := fld a 41 1
def colSplit (a : Nat) : Nat := fld a 27 14
def colAddr (b k side m : Nat) : Nat := b * 2 ^ 44 + k * 2 ^ 42 + side * 2 ^ 41 + m * 2 ^ 27

/-- A collation packet. -/
def State.colPkt (s : State) (type lane dst addr arg layout : Nat) (payload : Bytes) : Packet :=
  { s.mkPkt type lane dst addr arg (pad16 payload) with layout := layout }

/-- Outputs queued after the first `k` hold the data of one local BKT, which is not finished until they have left (R345). -/
def State.markOuts (s : State) (k bkt : Nat) : State :=
  { s with col := { s.col with outs := s.col.outs.take k ++ (s.col.outs.drop k).map (fun o => { o with bkt := bkt }) } }

/-- A packet of an earlier pair is discarded (R344). -/
def State.staleDrop (s : State) : State := (s.bump pgCOL 0x074 1).latch pgCOL 2

/-- An error of the COL page (R363). -/
def State.colErr (s : State) (bit code bucket att chip : Nat) : State := s.latchErr pgCOL bit code bucket (att % 65536 * 65536 + chip % 2 ^ 14)

/-- Changes the Collators' state. -/
def State.setCol (s : State) (f : Col → Col) : State := { s with col := f s.col }

/-- The comparison of R344: 0 earlier, 1 equal, 2 later. -/
def pairCmp (n a n0 a0 : Nat) : Nat := if n = n0 then (if a = a0 then 1 else if a0 < a then 2 else 0) else if n0 < n then 2 else 0

/-- A half that belongs to a pair. -/
def BHalf.fresh (n a : Nat) : BHalf :=
  { step := n, attempt := a, leaf := [], closed := false, inputs := [], deliv := [], doneSent := false, results := [], tg := [] }

/-- The half of a bucket for a pair (R344): none for an earlier pair. -/
def State.bhalf (s : State) (b n a : Nat) : Option BHalf :=
  match kvFind s.col.halves (b * 2 + n % 2) with
  | none => some (BHalf.fresh n a)
  | some h => match pairCmp n a h.step h.attempt with
    | 0 => none
    | 1 => some h
    | _ => some (BHalf.fresh n a)

/-- Stores a half. -/
def State.putHalf (s : State) (b : Nat) (h : BHalf) : State := s.setCol (fun c => { c with halves := kvSet c.halves (b * 2 + h.step % 2) h })

/-- The half of a map entry for a pair. -/
def State.ahalf (s : State) (i n a : Nat) : Option AHalf :=
  match kvFind s.col.maps (i * 2 + n % 2) with
  | none => some { step := n, attempt := a, segs := [] }
  | some h => match pairCmp n a h.step h.attempt with
    | 0 => none
    | 1 => some h
    | _ => some { step := n, attempt := a, segs := [] }

/-- Queues an output (R350). -/
def State.colOut (s : State) (n b bkt : Nat) (p : Packet) : State :=
  s.setCol (fun c => { c with outs := c.outs ++ [{ step := n, bucket := b, bkt := bkt, pkt := p }] })

/-- Chunks of a bucket and places of a chunk (R348). -/
def Bucket.per (b : Bucket) : Nat := if b.kind = 0 then 1024 else 32
def Bucket.chunks (b : Bucket) : Nat := ceilDiv b.elems b.per
def Bucket.chunkLen (b : Bucket) (k : Nat) : Nat := min b.per (b.elems - b.per * k)

/-- The words that a chunk without data stands for: +0, or lists without an entry (R346, R356). -/
def Bucket.emptyWords (b : Bucket) (k : Nat) : List Nat :=
  if b.kind = 0 then List.replicate (b.chunkLen k) 0
  else (List.replicate (b.chunkLen k) (List.replicate 16 0x7FC00000 ++ List.replicate 16 0xFFFFFFFF)).flatten

/-- The words of a chunk. -/
def Bucket.words (b : Bucket) (k : Nat) (c : Chunk) : List Nat := if c.vals.isEmpty then b.emptyWords k else c.vals

/-- A NaN word becomes the default one. -/
def canonNaN (w : Nat) : Nat := if (f32dec w).isNaN then 0x7FC00000 else w

/-- An entry ranks above another (R90, R356): value, then position, then pattern. -/
def entAbove (x y : Nat × Nat) : Bool :=
  let a := f32dec x.1
  let b := f32dec y.1
  if a.isNaN != b.isNaN then b.isNaN
  else if !a.isNaN && b.lt a then true
  else if !a.isNaN && a.lt b then false
  else if x.2 != y.2 then decide (x.2 < y.2)
  else decide (x.1 < y.1)

/-- Inserts an entry in rank order. -/
def entIns (x : Nat × Nat) : List (Nat × Nat) → List (Nat × Nat)
  | [] => [x]
  | y :: r => if entAbove x y then x :: y :: r else y :: entIns x r

/-- The entries of a list of 16 values and 16 positions. -/
def listEnts (ws : List Nat) : List (Nat × Nat) := (List.range 16).map (fun i => (ws.getD i 0x7FC00000, ws.getD (16 + i) 0xFFFFFFFF))

/-- Merges two lists of 32 words (R356). -/
def mergeList (x y : List Nat) : List Nat :=
  let e := ((listEnts y).foldl (fun a p => entIns p a) ((listEnts x).foldl (fun a p => entIns p a) [])).take 16
  e.map (·.1) ++ e.map (·.2)

/-- Merges two chunks of lists. -/
def mergeLists (n : Nat) (x y : List Nat) : List Nat :=
  (List.range n).flatMap (fun i => mergeList ((x.drop (32 * i)).take 32) ((y.drop (32 * i)).take 32))

/-- Sum of fl(c * c) in order (R350, R351). -/
def sqSum (ws : List Nat) : Nat := ws.foldl (fun a w => f32add a (f32mul w w)) 0

/-- Some word is not finite. -/
def anyNonFin (ws : List Nat) : Bool := ws.any (fun w => (f32dec w).nonFinite)

/-- Contributions in slot order. -/
def BHalf.ordered (h : BHalf) : List Contrib := (List.range 4).flatMap (fun i => h.leaf.filter (fun c => c.slot == i))

/-- Chunk `k` of the leaf's value (R338, R346, R350, R356). -/
def BHalf.leafChunk (h : BHalf) (b : Bucket) (k : Nat) : Chunk :=
  let w := if b.kind = 0 then 1 else 32
  let part := fun (c : Contrib) => (c.vals.drop (b.per * k * w)).take (b.chunkLen k * w)
  match h.ordered with
  | [] => { vals := [], count := 0, nf := false, np := 0 }
  | c :: r =>
    if b.kind = 0 then
      let v := r.foldl (fun a d => (a.zip (part d)).map (fun p => f32add p.1 p.2)) ((part c).map canonNaN)
      let np := r.foldl (fun a d => f32add a (sqSum (part d))) (sqSum (part c))
      { vals := v, count := r.length + 1, nf := anyNonFin v || anyNonFin (part c) || r.any (fun d => anyNonFin (part d)), np := np }
    else { vals := r.foldl (fun a d => mergeLists (b.chunkLen k) a (part d)) (part c), count := r.length + 1, nf := false, np := 0 }

/-- The dense shard map's record of (table, index) (R282): home chip. -/
def State.shardHome (s : State) (t i : Nat) : Nat :=
  let sec := s.sec 3
  match (List.range (sec.length / 32)).find? (fun r => leAt sec (32 * r) 2 == t && leAt sec (32 * r + 2) 2 == i) with
  | none => 0x3FFF
  | some r => leAt sec (32 * r + 4) 2 % 16384

/-- Flag and chunk packets of a node or root output. -/
def State.chunkPkt (s : State) (type lane dst : Nat) (b : Bucket) (id k side m n a : Nat) (c : Chunk) : Packet :=
  let len := if c.vals.isEmpty then 0 else b.chunkLen k
  s.colPkt type lane dst (colAddr id k side m) c.np b.layout (colHead n a c.count (b2n c.nf + 2) 0 len ++ c.vals.flatMap (fun w => toLE 4 w))

/-- C_DONE_SEND (R351, R352): the completion of a bucket goes to the leader. -/
def State.sendDone (s : State) (id n a : Nat) (b : Bucket) (h : BHalf) (noTable : Bool) : State :=
  let cs := (List.range b.chunks).filterMap (fun k => kvFind h.deliv k)
  let nf := !noTable && cs.any (fun c => c.1.nf)
  let count := if noTable then 0 else match cs with | [] => 0 | c :: _ => c.1.count
  let np := if noTable then 0 else f32sum (cs.map (fun c => c.1.np))
  let tb := if noTable then 0 else f32sum (cs.map (·.2))
  let s0 := s.putHalf id { h with doneSent := true }
  let s1 := if nf then ((s0.bump pgCOL 0x078 1).colErr 0 4 id a s.self) else s0
  (s1.bump pgCOL 0x070 1).send (s1.colPkt 0x33 2 s1.leader (id * 2 ^ 44) np b.layout (colHead n a count (b2n nf + 4 * b2n noTable) 0 0 ++ toLE 4 tb ++ toLE 12 0)) .none

/-- R351: the owner's Collator receives chunk `k` of a bucket's sum. -/
def State.ownerChunk (s : State) (id n a k : Nat) (c : Chunk) : State :=
  match s.bucket? id, s.bhalf id n a with
  | some b, some h =>
    if h.doneSent then s
    else
      let ws := b.words k c
      let h1 := { h with deliv := kvSet h.deliv k (c, sqSum ws) }
      match s.table? b.table, s.par.shards.find? (fun x => x.table == b.table && x.index == b.shard) with
      | some _, some x =>
        let o : RowOp := { kind := 3, table := b.table, row := b.shard, step := n, slot := a, vals := ws, addr := b.offset + 1024 * k, len := 4 * ws.length, req := .sum id k }
        (((s.putHalf id h1).bump pgCOL 0x06C 1).pushOp x.ink o)
      | _, _ => if (List.range b.chunks).all (fun i => kvHas h1.deliv i) then s.sendDone id n a b h1 true else s.putHalf id h1
  | some _, none => s.staleDrop
  | none, _ => s

/-- DENSE_SUM is done (R351): C_DONE leaves when the Inker has written every chunk. -/
def State.sumWritten (s : State) (id n a k : Nat) : State :=
  match s.bucket? id, kvFind s.col.halves (id * 2 + n % 2) with
  | some b, some h =>
    if h.step ≠ n ∨ h.attempt ≠ a ∨ h.doneSent then s
    else
      let h1 := { h with results := setIns h.results k }
      if (List.range b.chunks).all (fun i => h1.results.contains i) then s.sendDone id n a b h1 false else s.putHalf id h1
  | _, _ => s

/-- FLAG_WRITE (R359): the flag word of a delivery. -/
def State.flagWrite (s : State) (flag n a : Nat) : State :=
  let key := flag * 2 + n % 2
  let c := match kvFind s.col.flags key with
    | some f => if f.step = n ∧ f.attempt = a then f.count + 1 else 1
    | none => 1
  let s1 := s.setCol (fun x => { x with flags := kvSet x.flags key { step := n, attempt := a, count := c } })
  (s1.spaceWrite 1 flag (toLE 4 (((n % 256 * 2 ^ 24 + a % 256 * 2 ^ 16) ||| c) % 2 ^ 32)) s1.self).2

/-- The elements that element `i` of a broadcast list of `len` forwards to (R355). -/
def bcastNext (len i : Nat) : List Nat := (List.range len).filter (fun j => j != 0 && j - 2 ^ j.log2 == i)

/-- A packet goes on along a broadcast list of chips (R355). -/
def State.bcastForward (s : State) (chips : List Nat) (i n id : Nat) (p : Packet) (queued : Bool) : State :=
  (bcastNext chips.length i).foldl (fun (x : State) j =>
    let q := { p with dst := chips.getD j 0x3FFF, src := x.self, epoch := x.epoch, tag := 0, dclass := 0, resend := false }
    if queued then x.colOut n id 0 q else x.send q .none) s

/-- R356: a member receives a chunk of a TOPK result: writes it, writes the flag when all are in, forwards the packet. -/
def State.takeResult (s : State) (p : Packet) : State :=
  let id := colBucket p.addr
  let n := colStep p.payload
  let a := colAtt p.payload
  let k := colChunk p.addr
  match s.bucket? id with
  | none => s
  | some b => match s.bhalf id n a with
    | none => s.staleDrop
    | some h =>
      let chips := (treeList s.colSec b.tree).map s.chipOf
      let s1 := match firstIdx (fun c => c == s.self) chips with
        | some i => s.bcastForward chips i n id p true
        | none => s
      let h1 := { h with results := setIns h.results k }
      let s2 := (s1.putHalf id h1).ownWrite (b.deliv + 4096 * k) ((p.payload.drop 16).take (128 * colN p.payload))
      if h.results.contains k then s2
      else if (List.range b.chunks).all (fun i => h1.results.contains i) then s2.flagWrite b.flag n a else s2

/-- A root's value (R351, R356): to the owner, or along the broadcast list. -/
def State.rootOut (s : State) (id n a k : Nat) (b : Bucket) (c : Chunk) : State :=
  if b.kind = 0 then
    let home := s.shardHome b.table b.shard
    if home = s.self then s.ownerChunk id n a k c
    else s.colOut n id 0 (s.chunkPkt 0x38 3 home b id k 0 0 n a c)
  else
    let chips := (treeList s.colSec b.tree).map s.chipOf
    let c1 : Chunk := { c with vals := b.words k c, count := 0, np := 0 }
    let p := s.chunkPkt 0x39 3 (chips.headD 0x3FFF) b id k 0 0 n a c1
    if chips.headD 0x3FFF = s.self then s.takeResult p else s.colOut n id 0 p

/-- A node's output chunk (R338, R350, R356). -/
def nodeSum (b : Bucket) (k : Nat) (l r : Chunk) : Chunk :=
  if b.kind = 0 then
    let v := ((b.words k l).zip (b.words k r)).map (fun p => f32add p.1 p.2)
    { vals := v, count := l.count + r.count, nf := l.nf || r.nf || anyNonFin v, np := f32add l.np r.np }
  else { vals := mergeLists (b.chunkLen k) (b.words k l) (b.words k r), count := l.count + r.count, nf := l.nf || r.nf, np := 0 }

/-- R350: chunk `k` of one input of the node with split `m`. -/
def State.nodeInput (s : State) (id n a k side m : Nat) (c : Chunk) : State :=
  match s.bucket? id with
  | none => s
  | some b => match s.bhalf id n a with
    | none => s.staleDrop
    | some h =>
      match kvFind h.inputs (2 * k + (1 - side)) with
      | none => s.putHalf id { h with inputs := kvSet h.inputs (2 * k + side) c }
      | some d =>
        let o := if side = 0 then nodeSum b k c d else nodeSum b k d c
        let s1 := s.putHalf id { h with inputs := kvDel h.inputs (2 * k + (1 - side)) }
        let s2 := if b.kind = 1 then s1.bump pgCOL 0x084 (b.chunkLen k) else s1
        let tree := treeList s.colSec b.tree
        match nodeParent tree.length m with
        | none => s2.rootOut id n a k b o
        | some (pm, right) => s2.colOut n id 0 (s2.chunkPkt 0x30 2 (s2.chipOf (tree.getD (pm - 1) 0)) b id k (b2n right) pm n a o)

/-- The block size of a sign Telegram (R159). -/
def signBlock (j : Nat) : Nat := 32 * 2 ^ j

/-- The sign bits of a list, 8 to a byte (R349). -/
def signBytes (ws : List Nat) : Bytes :=
  (List.range (ceilDiv ws.length 8)).map (fun i => BitVec.ofNat 8 ((List.range 8).foldl (fun a j => if 2 ^ 31 ≤ ws.getD (8 * i + j) 0 then a + 2 ^ j else a) 0))

/-- Telegram packets of a contribution (R349): the contents after ADDR and ARG. -/
def Contrib.telegram (c : Contrib) (n a : Nat) : List (Nat × Bytes) :=
  if c.form = 1 then
    let parts := max 1 (ceilDiv c.idx.length 511)
    (List.range parts).map (fun i =>
      let ix := (c.idx.drop (511 * i)).take 511
      (0x31, colHead n a 0 (if i + 1 = parts then 2 else 0) 0 ix.length ++ ix.flatMap (fun e => toLE 4 e ++ toLE 4 (c.vals.getD e 0))))
  else [(0x32, colHead n a 0 2 c.j c.vals.length ++ pad16 (c.idx.flatMap (fun w => toLE 4 w)) ++ signBytes c.vals)]

/-- LEAF_CLOSE (R346). -/
def State.closeLeaf (s : State) (id n a : Nat) : State :=
  match s.bucket? id with
  | none => s
  | some b => match s.bhalf id n a with
    | none => s
    | some h =>
      if h.closed then s
      else
        let tree := treeList s.colSec b.tree
        match firstIdx (fun r => s.chipOf r == s.self) tree with
        | none => s
        | some i =>
          let s1 := s.putHalf id { h with closed := true }
          let s1 := if b.kind = 1 then s1.bump pgCOL 0x084 (b.elems * (h.leaf.length - 1)) else s1
          match leafParent tree.length i with
          | none => (List.range b.chunks).foldl (fun (x : State) k => x.rootOut id n a k b (h.leafChunk b k)) s1
          | some (m, right) =>
            let host := s.chipOf (tree.getD (m - 1) 0)
            if host = s.self then
              (List.range b.chunks).foldl (fun (x : State) k => x.nodeInput id n a k (b2n right) m (h.leafChunk b k)) s1
            else match h.leaf with
              | [c] =>
                if c.form = 1 ∨ c.form = 2 then
                  (c.telegram n a).foldl (fun (x : State) t => x.colOut n id 0 (x.colPkt t.1 2 host (colAddr id 0 (b2n right) m) 0 b.layout t.2)) s1
                else (List.range b.chunks).foldl (fun (x : State) k => x.colOut n id 0 (x.chunkPkt 0x30 2 host b id k (b2n right) m n a (h.leafChunk b k))) s1
              | _ => (List.range b.chunks).foldl (fun (x : State) k => x.colOut n id 0 (x.chunkPkt 0x30 2 host b id k (b2n right) m n a (h.leafChunk b k))) s1

/-- R346: READY closes every leaf of the member. -/
def State.closeLeaves (s : State) (n a : Nat) : State :=
  (List.range (nBuckets s.colSec)).foldl (fun (x : State) id =>
    if (bucketAt x.colSec id).kind < 2 then x.closeLeaf id n a else x) s

/-- R269: READY goes out and the member's leaves close. -/
def State.sendReady (s : State) (n : Nat) (fault : Bool) : State :=
  match s.step? n with
  | none => s
  | some r => if r.state = .opened then (s.toCollating n fault).closeLeaves n r.attempt else s

/-- The chunk of a decoded Telegram contribution (R350). -/
def decodedChunk (b : Bucket) (vals : List Nat) (k : Nat) : Chunk :=
  let v := (vals.drop (1024 * k)).take (b.chunkLen k)
  { vals := v, count := 1, nf := anyNonFin v, np := sqSum v }

/-- A decoded Telegram contribution enters its node (R350). -/
def State.telegramIn (s : State) (p : Packet) (vals : List Nat) : State :=
  let id := colBucket p.addr
  match s.bucket? id with
  | none => s
  | some b => (List.range b.chunks).foldl (fun (x : State) k =>
      x.nodeInput id (colStep p.payload) (colAtt p.payload) k (colSide p.addr) (colSplit p.addr) (decodedChunk b vals k)) s

/-- The values that a sign Telegram decodes to (R349). -/
def signDecode (b : Bucket) (pl : Bytes) : List Nat :=
  let blk := signBlock (colJ pl)
  let nb := ceilDiv b.elems blk
  let signs := 16 + ceilDiv (4 * nb) 16 * 16
  (List.range b.elems).map (fun i =>
    let sg := bitOf (leAt pl (signs + i / 8) 1) (i % 8)
    (colWord pl (i / blk)) ^^^ (if sg then 2 ^ 31 else 0))

/-- Local BKTs in process (R345, COL.STATE.LOCAL): accepted ones with data neither in the collation area nor sent. -/
def State.localBkts (s : State) : Nat := ((s.col.outs.filter (fun o => o.bkt != 0)).map (·.bkt)).eraseDups.length

/-- BKTs that hold collation-up credit (R345): issued and not read, or not finished. -/
def State.bktCredit (s : State) : Nat :=
  s.localBkts + s.enabledTiles.foldl (fun a p => a + ((s.tile p).moves.filter (fun m => !m.ready && (match m.kind with | .bkt _ => true | _ => false))).length) 0

/-- COLLATION_OUTPUT_SEND (R350): the next output: oldest open step, then lowest bucket. -/
def State.nextOut (s : State) : Option Nat :=
  (s.col.outs.zipIdx.foldl (fun (a : Option (COut × Nat)) p => match a with
    | none => some p
    | some q => if p.1.step < q.1.step ∨ (p.1.step = q.1.step ∧ p.1.bucket < q.1.bucket) then some p else some q) none).map (·.2)

/-- Rows sent by an output (R364). -/
def outRows (p : Packet) : Nat := if p.type = 0x3C ∨ p.type = 0x3D then colN p.payload else 0

/-- Sends the next output. -/
def State.sendOut (s : State) : State :=
  match s.nextOut with
  | none => s
  | some i => match s.col.outs[i]? with
    | none => s
    | some o =>
      let s1 := s.setCol (fun c => { c with outs := dropNth c.outs i })
      let t := o.pkt.type
      let s2 := if (t = 0x30 ∨ t = 0x38 ∨ t = 0x39) ∧ o.pkt.dst ≠ s.self then s1.bump pgCOL 0x068 1 else s1
      (s2.bump pgCOL 0x080 (outRows o.pkt)).send { o.pkt with src := s2.self, epoch := s2.epoch } .none

/-- Tables that the exchange of R353 combines. -/
def State.exchTables (s : State) (n : Nat) : List Table :=
  ((s.par.tables.map (·.2)).filter (fun t => t.repl && !t.static && !t.dense)).filter (fun t => (s.inksOf t).any (fun i => !(s.optFor n i t.id).freeze))

/-- VALID slots of those tables in the half of step n: table, local row, slot. -/
def State.exchSlots (s : State) (n : Nat) : List (Nat × Nat × DSlot) :=
  (s.exchTables n).flatMap (fun t => (s.inksOf t).flatMap (fun i => (s.validSlots t i (n % 2)).map (fun k =>
    let x := s.readSlot t i (n % 2) k
    (t.id, x.row, x))))

/-- A new exchange (R353). -/
def Exch.fresh (n a : Nat) : Exch :=
  { step := n, attempt := a, sent := false, ends := [], added := [], down := false, downGot := 0, downNeed := none, done := false, normSent := false }

/-- The exchange of a pair; none for an earlier pair. -/
def State.exch? (s : State) (n a : Nat) : Option Exch :=
  match kvFind s.col.exch (n % 2) with
  | none => some (Exch.fresh n a)
  | some e => match pairCmp n a e.step e.attempt with
    | 0 => none
    | 1 => some e
    | _ => some (Exch.fresh n a)

/-- Stores an exchange. -/
def State.putExch (s : State) (e : Exch) : State := s.setCol (fun c => { c with exch := kvSet c.exch (e.step % 2) e })

/-- ADDR of C_REPL and C_REPL_DOWN (R348). -/
def replAddr (t row : Nat) : Nat := t % 4096 * 2 ^ 40 + row % 2 ^ 40

/-- A slot's packet. -/
def State.slotPkt (s : State) (type lane dst n a t row : Nat) (x : DSlot) : Packet :=
  s.colPkt type lane dst (replAddr t row) 0 (s.layoutFor 1) (colHead n a 0 0 0 1 ++ x.bytes)

/-- The end packet of a sequence of slots. -/
def State.endPkt (s : State) (type lane dst n a count : Nat) : Packet :=
  s.colPkt type lane dst 0 count (s.layoutFor 1) (colHead n a 0 2 0 0)

/-- R353, step 3: the down phase begins when every announced slot has been added. -/
def State.exchCheck (s : State) (n a : Nat) : State :=
  match s.exch? n a with
  | none => s
  | some e =>
    let whole := s.members.all (fun c => match s.rankOf c with
      | none => false
      | some r => match kvFind e.ends r with
        | none => false
        | some k => decide (k ≤ kvGet e.added r 0))
    if !s.isLeader ∨ e.down ∨ !whole then s
    else
      let slots := s.exchSlots n
      let s1 := s.putExch { e with down := true }
      let e0 := s.members.headD 0x3FFF
      let s2 := slots.foldl (fun (x : State) p => x.send (x.slotPkt 0x3A 3 e0 n a p.1 p.2.1 p.2.2) .none) s1
      (s2.bump pgCOL 0x088 slots.length).send (s2.endPkt 0x3A 3 e0 n a slots.length) .none

/-- R353, step 1: a member's slots go to the leader, then its end packet; the leader's own are in place. -/
def State.exchSend (s : State) (n a : Nat) : State :=
  match s.exch? n a with
  | none => s
  | some e =>
    if e.sent then s
    else if s.isLeader then
      (s.putExch { e with sent := true, ends := kvSet e.ends ((s.rankOf s.self).getD 0) 0 }).exchCheck n a
    else
      let slots := s.exchSlots n
      let s1 := s.putExch { e with sent := true }
      let s2 := slots.foldl (fun (x : State) p => x.send (x.slotPkt 0x34 2 x.leader n a p.1 p.2.1 p.2.2) .none) s1
      (s2.bump pgCOL 0x088 slots.length).send (s2.endPkt 0x34 2 s2.leader n a slots.length) .none

/-- A slot is placed or combined in the half of step n (R211, R353, R40). -/
def State.placeSlot (s : State) (t row n : Nat) (x : DSlot) (add : Bool) : State :=
  match s.table? t with
  | none => s
  | some tb =>
    let (ink, l) := s.rowKey tb row
    let h := n % 2
    let s := (if (s.deltaOwner h).isNone then s.ownHalf n else s).bump pgCOL 0x088 1
    match s.deltaSlot tb ink h l with
    | none => s.deltaFull ink n
    | some (i, found) =>
      let s1 := if found then s else s.bump (pgINK ink) (0x050 + 4 * h) 1
      let y := { x with row := l, valid := true }
      s1.writeSlot tb ink h i (if found && add then (s1.readSlot tb ink h i).combine y else y)

/-- The replicated tables' slots of a half are emptied before the combined ones come (R353, step 4). -/
def State.exchClear (s : State) (n : Nat) : State :=
  (s.exchTables n).foldl (fun (x : State) t => (x.inksOf t).foldl (fun (y : State) i =>
    (y.validSlots t i (n % 2)).foldl (fun (z : State) k => z.freeSlot t i (n % 2) k) y) x) s

end Sys2Proof.Machine
end

