-- ==== Sys2Proof/Machine/Collate.lean ====
section
/-! DEFINITION. Collation commands: buckets at the member, nodes, owner, leader, replicated exchange, top-k results, all-to-all (R336 to R359). -/

namespace Sys2Proof.Machine

/-- Changes an outstanding operation of a tile. -/
def Tile.modMove (t : Tile) (serial : Nat) (f : Move → Move) : Tile := { t with moves := t.moves.map (fun m => if m.serial == serial then f m else m) }

/-- An operation of a tile is ready to complete, with a status (R131). -/
def State.moveDone (s : State) (p serial status : Nat) : State :=
  s.modTile p (fun t => t.modMove serial (fun m => { m with ready := true, status := if m.status = 0 then status else m.status }))

/-- The element values of a bucket's data descriptor as FP32 words, row-major (R130: widened exactly). -/
def bktWords (m : Ram) (r : BktReq) : List Nat :=
  (List.range r.rows).flatMap (fun i => (List.range r.cols).map (fun j => f32enc (elemAt m r.ds false i j)))

/-- The error terms, row-major, as they are written (log entry 83). -/
def bktErrs (m : Ram) (r : BktReq) : List Nat :=
  (List.range r.rows).flatMap (fun i => (List.range r.cols).map (fun j => f32enc (errAt m r.de i j)))

/-- The values y of R158: x + e in FP32 RNE, with e = +0 when EEN = 0; FORM 0 without error terms sends the elements as they are (R158 to R160). -/
def bktSums (m : Ram) (r : BktReq) (xs : List Nat) : List Nat :=
  if r.een then (xs.zip (bktErrs m r)).map (fun q => f32add q.1 q.2)
  else if r.form = 0 then xs else xs.map (fun x => f32add x 0)

/-- The rows that an all-to-all BKT sends, with their error terms added (R160, R357, R358). -/
def bktRows (m : Ram) (r : BktReq) : List (List Nat) :=
  let ys := bktSums m r (bktWords m r)
  (List.range r.rows).map (fun i => (ys.drop (r.cols * i)).take r.cols)

/-- Ranks an element above another for R158: non-finite first, then larger magnitude; ties to the lower index. -/
def magAbove (x y : Nat × Nat) : Bool :=
  let a := f32dec x.2
  let b := f32dec y.2
  if a.nonFinite != b.nonFinite then a.nonFinite
  else if !a.nonFinite && b.abs.lt a.abs then true
  else if !a.nonFinite && a.abs.lt b.abs then false
  else decide (x.1 < y.1)

/-- Insertion into a rank-ordered list of at most `k`. -/
def magIns (k : Nat) (x : Nat × Nat) : List (Nat × Nat) → List (Nat × Nat)
  | [] => if k = 0 then [] else [x]
  | y :: r => if k = 0 then [] else if magAbove x y then x :: (y :: r).take (k - 1) else y :: magIns (k - 1) x r

/-- The indices that a top-k Telegram sends, in increasing order (R158). -/
def topIndices (k : Nat) (ys : List Nat) : List Nat :=
  let kk := min k ys.length
  let best := if kk = ys.length then ys.zipIdx.map (fun p => (p.2, p.1)) else ys.zipIdx.foldl (fun a p => magIns kk (p.2, p.1) a) []
  best.foldl (fun a p => setIns a p.1) []

/-- The scale of a block (R159). -/
def signScale (blk : List Nat) : Nat :=
  f32div (f32sum (blk.map (fun w => w % 2 ^ 31))) (f32enc (FVal.ofInt blk.length 0))

/-- What a BKT sends and keeps (R158 to R160). -/
structure Sent where
  vals : List Nat
  idx  : List Nat
  j    : Nat
  errs : List FVal
  bad  : Bool

/-- Forms the contribution from the values and error terms. -/
def bktForm (r : BktReq) (ys : List Nat) : Sent :=
  if r.form = 1 then
    let ix := topIndices r.param ys
    { vals := ys.zipIdx.map (fun p => if ix.contains p.2 then p.1 else 0), idx := ix, j := 0,
      errs := ys.zipIdx.map (fun p => if ix.contains p.2 then FVal.zero else f32dec p.1), bad := ix.any (fun i => (f32dec (ys.getD i 0)).nonFinite) }
  else if r.form = 2 then
    let j := r.param % 8
    let b := signBlock j
    let sc := (List.range (ceilDiv ys.length b)).map (fun i => signScale ((ys.drop (b * i)).take b))
    let vs := ys.zipIdx.map (fun p => sc.getD (p.2 / b) 0 ^^^ (p.1 / 2 ^ 31 * 2 ^ 31))
    { vals := vs, idx := sc, j := j, errs := (ys.zip vs).map (fun p => f32dec (f32sub p.1 p.2)), bad := anyNonFin sc }
  else { vals := ys, idx := [], j := 0, errs := ys.map (fun _ => FVal.zero), bad := false }

/-- Stores the new error terms with SR, purpose 4 (R158 to R160, R67). -/
def storeErrs (seed : Nat) (r : BktReq) (m : Ram) (es : List FVal) : Ram :=
  es.zipIdx.foldl (fun (x : Ram) p =>
    let i := p.2 / r.cols
    let j := p.2 % r.cols
    putElem x r.de 10 (dT r.de) i j (bf16.encode .sr false (keyedDraw seed r.step (drawW1 (dTid r.de) 4 r.slot) (elemIndex r.de i j)) p.1)) m

/-- The error terms of an accepted BKT are written into DE (R158 to R160, R345). -/
def State.keepErrs (s : State) (p : Nat) (r : BktReq) (errs : List FVal) : State :=
  if r.een then s.modTile p (fun t => { t with mem := storeErrs s.seed r t.mem errs }) else s

/-- +0 for every error term (R160). -/
def zeroErrs (r : BktReq) : List FVal := List.replicate (r.rows * r.cols) FVal.zero

/-- A contribution may enter the leaf (R345). -/
def leafTakes (tree : List Nat) (rank : Option Nat) (h : BHalf) (b : Bucket) (slot : Nat) : Bool :=
  (match rank with | none => false | some r => tree.contains r) && !h.leaf.any (fun c => c.slot == slot) && decide (h.leaf.length < b.cpm) && !h.closed

/-- Counts an accepted contribution for READY (R314). -/
def State.countContrib (s : State) (id n a : Nat) : State :=
  s.modStep n (fun r => if r.attempt = a then { r with counts := kvMod r.counts id 0 (· + 1) } else r)

/-- Rows per packet of width `d` (R357, R358). -/
def rowsPer (d : Nat) : Nat := max 1 (1024 / max d 1)

/-- The packets of one A2A segment (R357): slots first, then rows. -/
def State.a2aOut (s : State) (n a id bkt x : Nat) (b : Bucket) (me : MapEnt) (count start : Nat) (rows : List (List Nat)) : State :=
  let cp := max 1 (ceilDiv count 1024)
  let s1 := (List.range cp).foldl (fun (y : State) i =>
    let k := min 1024 (count - 1024 * i)
    let body := colHead n a count (if i + 1 = cp then 2 else 0) 0 k ++ (List.range k).flatMap (fun e => toLE 4 (start + 1024 * i + e))
    y.colOut n id bkt (y.colPkt 0x3B 3 me.home (id * 2 ^ 44 + x * 2 ^ 32 + 1024 * i) 0 b.layout body)) s
  let per := rowsPer me.width
  let dp := ceilDiv count per
  (List.range dp).foldl (fun (y : State) i =>
    let rs := (rows.drop (start + per * i)).take (min per (count - per * i))
    let body := colHead n a 0 (if i + 1 = dp then 2 else 0) 0 rs.length ++ rs.flatten.flatMap (fun w => toLE 4 w)
    y.colOut n id bkt (y.colPkt 0x3C 3 me.home (id * 2 ^ 44 + x * 2 ^ 32 + per * i) 0 b.layout body)) s1

/-- Offsets of the parts of a receive region (R342). -/
def a2aSlotsAt (members : Nat) : Nat := up64 (4 * members)
def a2aRowsAt (members cap : Nat) : Nat := up64 (4 * members) + up64 (4 * members * cap)
/-- Row stride RS (R342). -/
def MapEnt.rs (m : MapEnt) : Nat := up64 (m.width * elemBytes m.rfmt)

/-- A2A_RET packets of one rank (R358). -/
def State.retOut (s : State) (n a id bkt : Nat) (b : Bucket) (me : MapEnt) (r dst count : Nat) (rows : List (List Nat)) : State :=
  let nm := s.members.length
  let per := rowsPer me.width
  let parts := max 1 (ceilDiv count per)
  (List.range parts).foldl (fun (y : State) i =>
    let k := min per (count - per * i)
    let rs := (rows.drop (r * me.cap + per * i)).take k
    let at_ := me.region + a2aSlotsAt nm + 4 * (r * me.cap + per * i)
    let slot := leNat (y.ownRead at_ 4)
    let body := colHead n a 0 (if i + 1 = parts then 2 else 0) 0 rs.length ++ rs.flatten.flatMap (fun w => toLE 4 w)
    (y.ownSeen at_ 4).colOut n id bkt (y.colPkt 0x3D 3 dst (id * 2 ^ 44 + per * i) (if k = 0 then 0 else slot) b.layout body)) s

/-- A refused BKT (R345). -/
def State.bktRefused (s : State) (p serial status : Nat) (r : BktReq) : State :=
  (s.colErr 4 1 (r.bucket % 2 ^ 32) r.attempt s.self).moveDone p serial status

/-- An accepted contribution (R345, R346, R158 to R160). -/
def State.bktAccept (s : State) (p serial : Nat) (r : BktReq) (b : Bucket) (h : BHalf) (c : Contrib) (errs : List FVal) (bad : Bool) : State :=
  let s1 := s.keepErrs p r errs
  let s2 := if bad then s1.ovfSource r.step 4 else s1
  let h1 := { h with leaf := h.leaf ++ [c] }
  let s3 := (((s2.putHalf r.bucket h1).bump pgCOL 0x05C 1).countContrib r.bucket r.step r.attempt).moveDone p serial 0
  if b.cpm = 1 then
    -- the area keeps no leaf copy (R343), so the BKT is in process until its data has left
    let (q, s4) := s3.nextSerial
    (s4.closeLeaf r.bucket r.step r.attempt).markOuts s4.col.outs.length (q + 1)
  else if b.cpm ≤ h1.leaf.length then s3.closeLeaf r.bucket r.step r.attempt
  else s3

/-- The bytes that a BKT reads (R130): its data, and with EEN = 1 its error terms. -/
def bktEnds (r : BktReq) : List (Nat × Nat) :=
  if r.een then [(dBase r.ds, footEnd r.ds (dFmt r.ds) (dT r.ds) - dBase r.ds), (dBase r.de, footEnd r.de 10 (dT r.de) - dBase r.de)]
  else [(dBase r.ds, footEnd r.ds (dFmt r.ds) (dT r.ds) - dBase r.ds)]

/-- A sum bucket's contribution with its new error terms (R158 to R160). -/
def bktSent (m : Ram) (r : BktReq) : Sent := bktForm r (bktSums m r (bktWords m r))

/-- The words of a top-k contribution: the first 16 of a row are values, the others positions, which take no error term (log entry 78). -/
def topkWords (m : Ram) (r : BktReq) : List Nat :=
  let ys := bktSums m r (bktWords m r)
  (List.range r.rows).flatMap (fun i => (List.range 32).map (fun j =>
    if j < 16 then canonNaN (if r.een then ys.getD (32 * i + j) 0 else elemCode m r.ds 12 (dT r.ds) i j) else elemCode m r.ds 12 (dT r.ds) i j))

/-- Row counts of an all-to-all BKT, one for each segment, then their first rows (R357). -/
def segCounts (m : Ram) (r : BktReq) (b : Bucket) : List Nat := (List.range b.elems).map (fun x => m.readLE (r.param % 2 ^ 24 + 4 * x) 4)
def segStarts (m : Ram) (r : BktReq) (b : Bucket) : List Nat := (List.range b.elems).map (fun x => m.readLE (r.param % 2 ^ 24 + 4 * b.elems + 4 * x) 4)

/-- What R345 asks of a BKT for a bucket of each kind. -/
def State.bktFits (s : State) (r : BktReq) (b : Bucket) (h : BHalf) : Bool :=
  let takes := leafTakes (treeList s.colSec b.tree) (s.rankOf s.self) h b r.slot
  let me := mapAt s.colSec b.offset
  if b.kind = 0 then decide (r.rows * r.cols = b.elems) && takes
  else if b.kind = 1 then decide (r.form = 0 ∧ dFmt r.ds = 12 ∧ dScale r.ds = 0 ∧ r.cols = 32 ∧ r.rows = b.elems) && takes
  else if b.kind = 2 then decide (r.form = 0 ∧ r.cols = me.width ∧ r.param / 2 ^ 24 = 0)
  else decide (r.form = 0 ∧ me.home = s.self ∧ r.rows = s.members.length * me.cap ∧ r.cols = me.width)

/-- Some segment has more rows than its map entry takes (R345). -/
def State.segOver (s : State) (m : Ram) (r : BktReq) (b : Bucket) : Bool :=
  (segCounts m r b).zipIdx.any (fun c => decide ((mapAt s.colSec (b.offset + c.2)).cap < c.1))

/-- An accepted BKT whose rows leave at once (R160, R345): its error terms become +0. -/
def State.bktTaken (s : State) (p serial : Nat) (r : BktReq) : Nat × State :=
  let (bkt, s1) := s.nextSerial
  (bkt + 1, ((s1.keepErrs p r (zeroErrs r)).bump pgCOL 0x05C 1).moveDone p serial 0)

/-- The segments of an all-to-all BKT go to the experts' homes (R357). -/
def State.bktSegs (s : State) (p serial : Nat) (m : Ram) (r : BktReq) (b : Bucket) : State :=
  let (bkt, s2) := s.bktTaken p serial r
  (List.range b.elems).foldl (fun (y : State) x =>
    y.a2aOut r.step r.attempt r.bucket bkt x b (mapAt y.colSec (b.offset + x)) ((segCounts m r b).getD x 0) ((segStarts m r b).getD x 0) (bktRows m r)) s2

/-- The rows of a return BKT go back to the ranks they came from (R358). -/
def State.bktReturn (s : State) (p serial : Nat) (m : Ram) (r : BktReq) (b : Bucket) : State :=
  let me := mapAt s.colSec b.offset
  let (bkt, s2) := s.bktTaken p serial r
  (List.range s.members.length).foldl (fun (y : State) k =>
    (y.ownSeen (me.region + 4 * k) 4).retOut r.step r.attempt r.bucket bkt b me k (y.chipOf k) (leNat (y.ownRead (me.region + 4 * k) 4)) (bktRows m r)) s2

/-- The checks and the effect of one BKT (R345). -/
def State.bktRead (s : State) (p serial : Nat) (r : BktReq) : State :=
  let m := (s.tile p).mem
  if (firstBad m (bktEnds r)).isSome then (s.caseUE p).moveDone p serial 0xFF
  else match s.bucket? r.bucket with
  | none => s.bktRefused p serial stBAD r
  | some b => match s.bhalf r.bucket r.step r.attempt with
    | none => s.staleDrop.moveDone p serial stABORTED
    | some h =>
      if !s.bktFits r b h then s.bktRefused p serial stBAD r
      else if b.kind = 0 then
        let f := bktSent m r
        s.bktAccept p serial r b h { slot := r.slot, form := r.form, vals := f.vals, idx := f.idx, j := f.j } f.errs f.bad
      else if b.kind = 1 then
        s.bktAccept p serial r b h { slot := r.slot, form := 0, vals := topkWords m r, idx := [], j := 0 } (zeroErrs r) false
      else if b.kind = 2 then
        if s.segOver m r b then (s.colErr 3 2 r.bucket r.attempt s.self).bktRefused p serial stNORES r else s.bktSegs p serial m r b
      else s.bktReturn p serial m r b

/-- BKT_COLLATOR_READ (R345): the Collator reads the BKT that a tile issued. -/
def execBktCollatorRead (t : Fin 136) (serial : Nat) (errs : List CaseErr) (s : State) : Host.Outcome State Fault Refusal :=
  match (s.tile t.val).moves.find? (fun m => m.serial == serial && !m.ready) with
  | some m => match m.kind with
    | .bkt r => .next ((s.caseErrors t.val errs).bktRead t.val serial r)
    | _ => .next s
  | none => .next s

/-- Chunks received from the fabric (R364). -/
def State.chunkIn (s : State) (p : Packet) : State := if p.src = s.self then s else s.bump pgCOL 0x064 1

/-- C_UP (R350). -/
def execCUp (s : State) : Host.Outcome State Fault Refusal :=
  match s.takeOldest 0x30 with
  | none => .next s
  | some (o, s1) =>
    let p := o.pkt
    let id := colBucket p.addr
    let w := match s1.bucket? id with | some b => (if b.kind = 0 then 1 else 32) | none => 1
    let c : Chunk := { vals := colWords p.payload (colN p.payload * w), count := colCount p.payload, nf := colNF p.payload, np := p.arg }
    .next ((s1.chunkIn p).nodeInput id (colStep p.payload) (colAtt p.payload) (colChunk p.addr) (colSide p.addr) (colSplit p.addr) c)

/-- The pairs of a top-k Telegram's packet: index, value (R349). -/
def topkPairs (p : Packet) : List (Nat × Nat) := (List.range (colN p.payload)).map (fun i => (colWord p.payload (2 * i), colWord p.payload (2 * i + 1)))

/-- The values of a bucket that a Telegram's pairs stand for: +0 at every other index (R158). -/
def pairValues (b : Bucket) (pairs : List (Nat × Nat)) : List Nat :=
  (List.range b.elems).map (fun i => match pairs.find? (fun q => q.1 == i) with | some q => q.2 | none => 0)

/-- C_TOPK_TG (R349): pairs gather until LAST. -/
def execCTopkTg (s : State) : Host.Outcome State Fault Refusal :=
  match s.takeOldest 0x31 with
  | none => .next s
  | some (o, s1) =>
    let p := o.pkt
    let id := colBucket p.addr
    match s1.bucket? id, s1.bhalf id (colStep p.payload) (colAtt p.payload) with
    | some b, some h =>
      let pairs := h.tg ++ topkPairs p
      if colLast p.payload then .next (((s1.chunkIn p).putHalf id { h with tg := [] }).telegramIn p (pairValues b pairs))
      else .next (s1.putHalf id { h with tg := pairs })
    | some _, none => .next s1.staleDrop
    | none, _ => .next s1

/-- C_SIGN_TG (R349). -/
def execCSignTg (s : State) : Host.Outcome State Fault Refusal :=
  match s.takeOldest 0x32 with
  | none => .next s
  | some (o, s1) => match s1.bucket? (colBucket o.pkt.addr) with
    | none => .next s1
    | some b =>
      if (s1.bhalf (colBucket o.pkt.addr) (colStep o.pkt.payload) (colAtt o.pkt.payload)).isNone then .next (s1.chunkIn o.pkt).staleDrop
      else .next ((s1.chunkIn o.pkt).telegramIn o.pkt (signDecode b o.pkt.payload))

/-- COLLATION_OUTPUT_SEND (R350). -/
def execCollationOutputSend (s : State) : Host.Outcome State Fault Refusal := .next s.sendOut

/-- C_DELIVER (R351). -/
def execCDeliver (s : State) : Host.Outcome State Fault Refusal :=
  match s.takeOldest 0x38 with
  | none => .next s
  | some (o, s1) =>
    let p := o.pkt
    let c : Chunk := { vals := colWords p.payload (colN p.payload), count := colCount p.payload, nf := colNF p.payload, np := p.arg }
    .next ((s1.chunkIn p).ownerChunk (colBucket p.addr) (colStep p.payload) (colAtt p.payload) (colChunk p.addr) c)

/-- C_DONE (R352): the leader counts a bucket complete. -/
def execCDone (s : State) : Host.Outcome State Fault Refusal :=
  match s.takeOldest 0x33 with
  | none => .next s
  | some (o, s1) =>
    let p := o.pkt
    let n := colStep p.payload
    let a := colAtt p.payload
    if !s1.isLeader then .next s1
    else
      let s2 := s1.leadFor n a
      match s2.lead? n with
      | none => .next s2
      | some l =>
        if a < l.attempt then .next s2.staleDrop
        else
          let d : DoneRec := { count := colCount p.payload, norm := colWord p.payload 0, parts := p.arg, nonFin := colNF p.payload, noTable := colNoTable p.payload }
          .next ((s2.modLead n (fun l => { l with done := kvSet l.done (colBucket p.addr) d })).checkAllIn n)

/-- C_REPL (R353): the leader adds a slot, or takes a member's end packet. -/
def execCRepl (s : State) : Host.Outcome State Fault Refusal :=
  match s.takeOldest 0x34 with
  | none => .next s
  | some (o, s1) =>
    let p := o.pkt
    let n := colStep p.payload
    let a := colAtt p.payload
    match s1.exch? n a with
    | none => .next s1.staleDrop
    | some e =>
      let r := (s1.rankOf p.src).getD 0xFFFF
      if colN p.payload = 0 then .next ((s1.putExch { e with ends := kvSet e.ends r p.arg }).exchCheck n a)
      else
        let t := fld p.addr 40 12
        let w := match s1.table? t with | some tb => tb.width | none => 0
        let s2 := s1.putExch { e with added := kvMod e.added r 0 (· + 1) }
        .next ((s2.placeSlot t (p.addr % 2 ^ 40) n (dslotOf w (p.payload.drop 16)) true).exchCheck n a)

/-- A packet of the replicated exchange goes on down the tree; the first one of a pair clears the slots that it replaces (R353, R355). -/
def State.replDown (s : State) (e : Exch) (p : Packet) : State :=
  let s1 := match s.rankOf s.self with
    | some i => s.bcastForward s.members i (colStep p.payload) 0 p false
    | none => s
  if e.downGot == 0 && e.downNeed.isNone then s1.exchClear (colStep p.payload) else s1

/-- C_REPL_DOWN (R353, R355): a member replaces its slots and forwards the packet. -/
def execCReplDown (s : State) : Host.Outcome State Fault Refusal :=
  match s.takeOldest 0x3A with
  | none => .next s
  | some (o, s1) =>
    let p := o.pkt
    let n := colStep p.payload
    let a := colAtt p.payload
    match s1.exch? n a with
    | none => .next s1.staleDrop
    | some e =>
      let s3 := s1.replDown e p
      if colN p.payload = 0 then
        .next (s3.putExch { e with downNeed := some p.arg, down := true, done := e.downGot == p.arg })
      else
        let t := fld p.addr 40 12
        let w := match s3.table? t with | some tb => tb.width | none => 0
        let s4 := s3.putExch { e with downGot := e.downGot + 1, down := true, done := e.downNeed == some (e.downGot + 1) }
        .next (s4.placeSlot t (p.addr % 2 ^ 40) n (dslotOf w (p.payload.drop 16)) false)

/-- C_RESULT (R356). -/
def execCResult (s : State) : Host.Outcome State Fault Refusal :=
  match s.takeOldest 0x39 with
  | none => .next s
  | some (o, s1) => .next ((s1.chunkIn o.pkt).takeResult o.pkt)

/-- A row converted from FP32 words to RFMT (R357). -/
def rfmtBytes (fmt : Nat) (ws : List Nat) : Bytes :=
  let f := if fmt = 0 then e4m3 else if fmt = 1 then e5m2 else if fmt = 11 then fp16 else if fmt = 12 then fp32 else bf16
  ws.flatMap (fun w => toLE (elemBytes fmt) (f.encode .rne false 0 (f32dec w)))

/-- A segment's delivery (R357, R359). -/
def State.segDeliver (s : State) (i n a r : Nat) (me : MapEnt) (h : AHalf) (g : Seg) : State :=
  let fin := !g.done && (match g.count with | some c => decide (c ≤ g.got) | none => false)
  let s1 := s.setCol (fun c => { c with maps := kvSet c.maps (i * 2 + n % 2) { h with segs := kvSet h.segs r { g with done := g.done || fin } } })
  if fin then s1.flagWrite me.flag n a else s1

/-- A packet of an A2A segment at the expert's home: map entry, its half, the source's rank, its segment. -/
def State.segOf (s : State) (p : Packet) : Option (Nat × MapEnt × Nat × Option (AHalf × Seg)) :=
  match s.bucket? (colBucket p.addr) with
  | none => none
  | some b =>
    let i := b.offset + fld p.addr 32 12
    match s.rankOf p.src with
    | none => none
    | some r => some (i, mapAt s.colSec i, r, (s.ahalf i (colStep p.payload) (colAtt p.payload)).map (fun h => (h, kvGet h.segs r { count := none, slots := 0, got := 0, done := false })))

/-- A2A_COUNT (R357). -/
def execA2aCount (s : State) : Host.Outcome State Fault Refusal :=
  match s.takeOldest 0x3B with
  | none => .next s
  | some (o, s1) => match s1.segOf o.pkt with
    | none => .next s1
    | some (_, _, _, none) => .next s1.staleDrop
    | some (i, me, r, some (h, g)) =>
      let p := o.pkt
      let k := colN p.payload
      let nm := s1.members.length
      let s2 := s1.ownWrite (me.region + 4 * r) (toLE 4 (colCount p.payload))
      let s3 := if k = 0 then s2 else s2.ownWrite (me.region + a2aSlotsAt nm + 4 * (r * me.cap + p.addr % 2 ^ 32)) ((p.payload.drop 16).take (4 * k))
      .next (s3.segDeliver i (colStep p.payload) (colAtt p.payload) r me h { g with count := some (colCount p.payload), slots := g.slots + k })

/-- The rows of a packet, converted to RFMT, go to consecutive places of the stride RS from a base of this module's DRAM (R357, R358). -/
def State.placeRows (s : State) (base : Nat) (me : MapEnt) (b : Bytes) : State :=
  (List.range (colN b)).foldl (fun (x : State) q =>
    x.ownWrite (base + q * me.rs) (rfmtBytes me.rfmt ((List.range me.width).map (fun e => colWord b (q * me.width + e))))) s

/-- A2A_DATA (R357). -/
def execA2aData (s : State) : Host.Outcome State Fault Refusal :=
  match s.takeOldest 0x3C with
  | none => .next s
  | some (o, s1) => match s1.segOf o.pkt with
    | none => .next s1
    | some (_, _, _, none) => .next s1.staleDrop
    | some (i, me, r, some (h, g)) =>
      let p := o.pkt
      let k := colN p.payload
      let s2 := s1.placeRows (me.region + a2aRowsAt s1.members.length me.cap + (r * me.cap + p.addr % 2 ^ 32) * me.rs) me p.payload
      .next ((s2.bump pgCOL 0x07C k).segDeliver i (colStep p.payload) (colAtt p.payload) r me h { g with got := g.got + k })

/-- A2A_RET (R358). -/
def execA2aRet (s : State) : Host.Outcome State Fault Refusal :=
  match s.takeOldest 0x3D with
  | none => .next s
  | some (o, s1) =>
    let p := o.pkt
    let id := colBucket p.addr
    let n := colStep p.payload
    let a := colAtt p.payload
    match s1.bucket? id, s1.bhalf id n a with
    | some b, some h =>
      let me := mapAt s1.colSec b.offset
      let s2 := s1.placeRows (b.deliv + p.arg * me.rs) me p.payload
      let s3 := (s2.bump pgCOL 0x07C (colN p.payload)).putHalf id { h with closed := h.closed || colLast p.payload }
      .next (if colLast p.payload && !h.closed then s3.flagWrite b.flag n a else s3)
    | some _, none => .next s1.staleDrop
    | none, _ => .next s1

end Sys2Proof.Machine
end

