-- ==== Sys2Proof/Machine/Resil.lean ====
section
/-! DEFINITION. Redundancy (R365 to R392): parity slots and deltas at their home, quiet periods, rebuild and repair by UNIT_READ, heartbeats, fencing of a member. -/

namespace Sys2Proof.Machine

/-- Data units of a member (R376). -/
def State.nUnits (s : State) : Nat := 128 * s.unitsPerChan

/-- Group, position and group size of this module in a layer. -/
def State.myGroup (s : State) (l : Nat) : Nat × Nat × Nat :=
  match s.rankOf s.self with
  | some r => s.groupOf l r
  | none => (0, 0, 0)

/-- Parity slots of this module in a layer (R376). -/
def State.slotsOf (s : State) (l : Nat) : Nat := ceilDiv s.nUnits (max ((s.myGroup l).2.2 - 1) 1)

/-- Channel and channel offset of a parity slot (R376). -/
def State.slotAt (s : State) (l c : Nat) : Nat × Nat := (c % 128, s.pbase l + c / 128 * 4096)

/-- Channel and channel offset of a data unit (R376). -/
def State.unitAt (s : State) (u : Nat) : Nat × Nat := (u / max s.unitsPerChan 1, u % max s.unitsPerChan 1 * 4096)

/-- Where a work item's bytes lie. -/
def State.itemAt (s : State) (it : WorkItem) : Nat × Nat :=
  let (ch, co) := if it.kind = 0 then s.unitAt it.index else s.slotAt it.layer it.index
  (ch, co + it.line * 64)

/-- The byte is excluded from parity (R377): a Delta half of a PUT slot, or a dense shard's gradient buffer. -/
def State.excluded (s : State) (ch coff : Nat) : Bool :=
  let off := dramOffset ch coff
  [0, 1].any (fun f => match (s.putOf f).base with
    | none => false
    | some b => decide (b ≤ off) && decide (off < b + putEntries * 16384) && decide (0x40 ≤ (off - b) % 16384) && decide ((off - b) % 16384 < 0x20C0))
  || s.par.shards.any (fun x => x.ink == ch && (match s.table? x.table with
    | none => false
    | some t => decide (shardGrad x t.opt ≤ coff) && decide (coff < shardGrad x t.opt + 4 * x.elems)))

/-- The hold area in use of a layer, in units of 64 bytes (R383, R391). -/
def State.holdUsed (s : State) (l : Nat) : Nat := (s.res.held.filter (fun h => h.layer == l)).foldl (fun a h => a + (1 + ceilDiv h.data.length 64)) 0

/-- The parity slot that a delta of a sender belongs to, when the packet keeps the rules of R380. -/
def State.deltaPlace (s : State) (p : Packet) : Option (Nat × Nat × Nat) :=
  let coff := p.addr % 2 ^ 33
  let ch := fld p.addr 33 7
  let l := fld p.addr 40 1
  let n := leAt p.payload 10 2
  let ok := p.addr / 2 ^ 41 == 0 && p.arg / 4 == 0 && p.arg % 4 < 2 && coff % 16 == 0 && n % 16 == 0 && decide (16 ≤ n) && decide (n ≤ 4096)
    && p.payload.length == 16 + n && allZero (sliceB p.payload 12 4) && decide (coff % 4096 + n ≤ 4096) && decide (coff < s.window) && decide (l < s.layers)
  match (if ok then s.rankOf p.src else none), s.rankOf s.self with
  | some r, some _ =>
    let (gid, m, g) := s.groupOf l r
    let (mygid, mym, _) := s.myGroup l
    let (_, t, c) := unitToStripe g m (ch * s.unitsPerChan + coff / 4096)
    if gid = mygid ∧ t = mym ∧ m ≠ mym then
      let (sc, so) := s.slotAt l c
      some (l, sc, so + coff % 4096)
    else none
  | _, _ => none

/-- PARITY_DELTA at the parity home (R380, R384): its status. -/
def State.takeDelta (s : State) (p : Packet) : State × Nat :=
  match s.deltaPlace p with
  | none => (s, stBAD)
  | some (l, ch, co) =>
    let d := p.payload.drop 16
    if p.arg % 4 = 0 then
      let h : Held := { layer := l, src := p.src, step := leAt p.payload 0 8, chan := ch, coff := co, data := d }
      (({ s with res := { s.res with held := s.res.held ++ [h] } }).bump pgPMS 0x064 1, 0)
    else ((s.xorSlot ch co d).bump pgPMS 0x068 1, 0)

/-- The beginning of a resilience message: step and attempt of the newest unreleased step, 0 without one (R390). -/
def State.resHead (s : State) : Bytes :=
  match s.fmn.steps.foldl (fun (a : Option StepRec) r => match a with | none => some r | some b => some (if b.n < r.n then r else b)) none with
  | none => sliceHead 0 0
  | some r => sliceHead r.n r.attempt

/-- Sends a resilience message (R390). -/
def State.sendRes (s : State) (dst kind : Nat) (rest : Bytes) (org : Origin) : State :=
  s.send (s.mkPkt 0x50 5 dst 0 kind (pad16 (s.resHead ++ rest))) org

/-- Sends it to each of a list of chips. -/
def State.sendResAll (s : State) (dsts : List Nat) (kind : Nat) (rest : Bytes) : State :=
  dsts.foldl (fun x d => x.sendRes d kind rest (.slice kind 0 0)) s

/-- The torus neighbours of a chip, without repeats and without the chip itself (R298, R299). -/
def State.neighboursOf (s : State) (c : Nat) : List Nat :=
  ((List.range 3).flatMap (fun k =>
    let n := max (s.shape k) 1
    let x := chipCoord c k
    let put := fun (t : Nat) => if k = 0 then c - x + t else if k = 1 then c - x * 16 + t * 16 else c - x * 256 + t * 256
    [put ((x + 1) % n), put ((x + n - 1) % n)])).eraseDups.filter (· != c)

/-- The active states in which heartbeats run (R370, R371). -/
def State.beating (s : State) : Bool := s.fmn.state == .joined || s.fmn.state == .stepping || s.fmn.state == .quiesced

/-- Records the chip of the latest SUSPECT, PROBE or fence (R391). -/
def State.resChip (s : State) (c : Nat) : State := s.setField pgPMS 0x044 0 14 c

/-- The layers in which a set of members can be recovered one at a time (R365). -/
def State.recoverStep (s : State) (f : List Nat) : List Nat :=
  f.filter (fun x => !(List.range s.layers).any (fun l =>
    match s.rankOf x with
    | none => true
    | some r => !f.any (fun y => y != x && (match s.rankOf y with | some q => (s.groupOf l q).1 == (s.groupOf l r).1 | none => false))))

/-- Takes recoverable members away while there are any: none is left of a recoverable set. -/
def State.unrecovered (s : State) : Nat → List Nat → List Nat
  | 0, f => f
  | n + 1, f => s.unrecovered n (s.recoverStep f)

/-- PMS_PAR_LOST (R366, R369). -/
def State.parLost (s : State) : State := (s.setField pgPMS 0x044 28 4 3).latch pgPMS 6

/-- R366 at the leader: a failure that leaves the set unrecoverable, or a shape without a chip that could be a spare. -/
def State.checkLost (s : State) : State :=
  let f := s.fmn.fencedMembers ++ s.res.rebuilds.filterMap (fun p => s.members[p.1]?)
  let noSpare := decide (s.shape 0 * s.shape 1 * s.shape 2 ≤ s.members.length)
  if !(s.unrecovered f.length f).isEmpty || noSpare then s.parLost else s

/-- Takes every port toward a chip out of service (R310, R372). -/
def State.cutPorts (s : State) (c : Nat) : State :=
  (List.range 12).foldl (fun (x : State) p => if x.neighbour p = c ∧ c ≠ x.self ∧ (x.link p = 1 ∨ x.link p = 2) then x.portDown p 0 else x) s

/-- A rebuild is abandoned when a member is fenced (R387). -/
def State.abandonRebuild (s : State) : State :=
  if s.res.busy = some 2 then
    (({ s with res := { s.res with busy := none, quietSent := false, job := none, lead := none, rebuilds := [] } }).setField pgPMS 0x044 28 4 0).latch pgPMS 5
  else s

/-- LEADER_TAKEOVER (R277): the deputy becomes leader, the member with the next lowest chip number becomes deputy. -/
def State.takeover (s : State) : State :=
  let new := s.deputy
  let rest := s.members.filter (fun c => decide (new < c) && !s.fmn.fencedMembers.contains c)
  let dep := (lowest rest).getD 0x3FFF
  let s1 := ((s.setField pgFMN 0x050 0 14 new).setField pgFMN 0x050 16 14 dep).latch pgFMN 7
  if new = s1.self then s1.newLeader s.leader else s1

/-- What every module does that learns of a fenced chip (R277, R372, R387). -/
def State.chipFenced (s : State) (c : Nat) : State :=
  let s1 := (s.setFmn (fun f => { f with fencedMembers := setIns f.fencedMembers c })).cutPorts c
  let s2 := s1.abandonRebuild
  if c = s2.leader ∧ s2.deputy ≠ 0x3FFF ∧ s2.members.contains c then s2.takeover else s2

/-- The leader fences a member (R372), or the deputy its leader (R277): FENCE_ORDER, then SUSPEND for every unreleased step. -/
def State.fenceMember (s : State) (c : Nat) : State :=
  let dsts := (s.members ++ s.neighboursOf c).eraseDups.filter (· != s.self)
  let s1 := ((s.sendResAll dsts 0x13 (toLE 2 c ++ toLE 1 7)).bump pgPMS 0x078 dsts.length).resChip c
  let s2 := (s1.latch pgPMS 2).chipFenced c
  (if s2.isLeader then s2.leaderLost c else s2).checkLost

/-- This module handles suspicion of a chip: the leader, or the deputy when the leader is suspected (R277, R371). -/
def State.judges (s : State) (c : Nat) : Bool := s.isLeader && c != s.self || (s.imp.active.isSome && s.deputy == s.self && s.leader == c)

/-- PROBE to a suspected chip; `k` counts the PROBEs sent. -/
def State.probe (s : State) (c k : Nat) : State :=
  (({ s with res := { s.res with suspects := kvSet s.res.suspects c k } }).resChip c).sendRes c 0x12 [] (.slice 0x12 0 0)

/-- The answer to a PROBE: the chip is alive, and its links are at fault (R371). -/
def State.probeAnswered (s : State) (c : Nat) : State :=
  if kvHas s.res.suspects c then
    (({ s with res := { s.res with suspects := kvDel s.res.suspects c } }).resChip c).latch pgPMS 0
  else s

/-- Layers in which no other absent member shares this module's group (R369, R387). -/
def State.serves (s : State) (l : Nat) (absent : List Nat) : Bool :=
  !absent.any (fun y => y != s.self && (match s.rankOf y with | some q => (s.groupOf l q).1 == (s.myGroup l).1 | none => false))

/-- The chips that this module cannot read from: fenced ones, and those rebuilt after it (R387). -/
def State.absentChips (s : State) : List Nat :=
  let n := leAt (s.sec 5) 4 4
  let o := 0x40 + 4 * s.members.length * s.layers
  let ranks := (List.range n).map (fun i => leAt (s.sec 5) (o + 4 * i) 2)
  let later := match s.rankOf s.self with
    | none => []
    | some r => (ranks.dropWhile (· != r)).drop 1
  s.fmn.fencedMembers ++ (if s.res.busy = some 2 then later.filterMap (fun r => s.members[r]?) else [])

/-- The layer that serves the data of this module (R387): layer 0, or layer 1 where layer 0 cannot. -/
def State.dataLayer (s : State) : Nat := if s.serves 0 s.absentChips ∨ s.layers < 2 then 0 else 1

/-- Item `k` of a job: the slots of every layer for INIT; data units, then slots, for REBUILD; the asked lines for REPAIR. -/
def State.jobItem (s : State) (j : Job) (k : Nat) : WorkItem :=
  let slot := fun (i : Nat) =>
    let l := if i < s.slotsOf 0 then 0 else 1
    ({ layer := l, kind := 1, index := if l = 0 then i else i - s.slotsOf 0, line := 0, lines := 64 } : WorkItem)
  if j.reason = 1 then slot k
  else if j.reason = 2 then
    if k < s.nUnits then { layer := s.dataLayer, kind := 0, index := k, line := 0, lines := 64 } else slot (k - s.nUnits)
  else j.items.getD k { layer := 0, kind := 0, index := 0, line := 0, lines := 1 }

/-- Items of a job. -/
def State.jobTotal (s : State) (reason : Nat) : Nat :=
  let slots := (List.range s.layers).foldl (fun a l => a + s.slotsOf l) 0
  if reason = 1 then slots else if reason = 2 then s.nUnits + slots else s.res.asks.length

/-- The units and slots that an item is the XOR of (R376): chip, kind, index. A data unit at or above N is zero. -/
def State.itemNeeds (s : State) (it : WorkItem) : List (Nat × Nat × Nat) :=
  let (gid, m, g) := s.myGroup it.layer
  let d := max (g - 1) 1
  let (t, c) := if it.kind = 0 then (let u := unitToStripe g m it.index; (u.2.1, u.2.2)) else (m, it.index)
  let datas := ((List.range g).filter (fun p => p != m && p != t)).filterMap (fun p =>
    let k := c * d + (if t < p then t else t - 1)
    if k < s.nUnits then (s.memberAt it.layer gid p).map (fun ch => (ch, 0, k)) else none)
  if it.kind = 0 then datas ++ ((s.memberAt it.layer gid t).map (fun ch => (ch, 1, c))).toList else datas

/-- UNIT_READ of one source of item `k` (R386, R390). -/
def State.askUnit (s : State) (k : Nat) (it : WorkItem) (n : Nat × Nat × Nat) : State :=
  s.sendRes n.1 0x1A (toLE 1 it.layer ++ toLE 1 n.2.1 ++ toLE 2 0 ++ toLE 8 n.2.2 ++ toLE 2 it.line ++ toLE 2 it.lines ++ toLE 4 0) (.repair k)

/-- Changes the job. -/
def State.setJob (s : State) (j : Option Job) : State := { s with res := { s.res with job := j } }

/-- The current item is done: its bytes are written without a delta (R381), or it failed; the next one begins. `fuel` bounds items without a source. -/
def State.runJob (s : State) : Nat → State
  | 0 => s
  | fuel + 1 =>
    match s.res.job with
    | none => s
    | some j =>
      if j.total ≤ j.next ∨ 0 < j.wait then s
      else
        let it := s.jobItem j j.next
        let (ch, co) := s.itemAt it
        let s1 := if j.bad then s else
          let w := (s.chanStore ch co (sliceB j.acc 0 (64 * it.lines))).1
          if j.reason = 3 then (w.bump pgPMS 0x070 1).latch pgPMS 3
          else if j.reason = 2 then w.set64 pgPMS 0x048 (w.reg64 pgPMS 0x048 + 1) else w
        let j1 : Job := { j with next := j.next + 1, acc := [], bad := false, failed := j.failed + b2n j.bad }
        if j.total ≤ j1.next then s1.setJob (some j1)
        else
          let nx := s1.jobItem j1 j1.next
          let needs := s1.itemNeeds nx
          let s2 := s1.setJob (some { j1 with wait := needs.length })
          (needs.foldl (fun (x : State) n => x.askUnit j1.next nx n) s2).runJob fuel

/-- The member's work of the quiet period begins (R385, R387): all members for INIT, the named chip otherwise. -/
def State.startJob (s : State) : State :=
  match s.res.busy with
  | none => s
  | some r =>
    if s.res.job.isSome ∨ !s.res.quietSent ∨ (r ≠ 1 ∧ s.res.busyChip ≠ s.self) then s
    else
      let total := s.jobTotal r
      let j : Job := { reason := r, next := 0, total := total, items := s.res.asks, wait := 0, acc := [], bad := false, failed := 0 }
      let s0 := if r = 2 then (s.set64 pgPMS 0x048 0).set64 pgPMS 0x050 total else s
      if total = 0 then s0.setJob (some j)
      else
        let it := s0.jobItem j 0
        let needs := s0.itemNeeds it
        let s1 := s0.setJob (some { j with wait := needs.length })
        (needs.foldl (fun (x : State) n => x.askUnit 0 it n) s1).runJob total

/-- The reply to a UNIT_READ of item `k`: a target that is not quiet yet is asked again, any other failure leaves the item without its value. -/
def State.unitReply (s : State) (k : Nat) (req : Packet) (status : Nat) (data : Bytes) : State :=
  match s.res.job with
  | none => s
  | some j =>
    if k ≠ j.next ∨ j.wait = 0 then s
    else if status = stILLEGAL then s.send { req with tag := 0, resend := false } (.repair k)
    else
      let n := 64 * (s.jobItem j k).lines
      let ok := status == 0 && decide (n ≤ data.length)
      let acc := if j.acc.isEmpty then sliceB data 0 n else xorB j.acc (sliceB data 0 n)
      let j1 : Job := { j with wait := j.wait - 1, acc := if ok then acc else j.acc, bad := j.bad || !ok }
      (s.setJob (some j1)).runJob j1.total

/-- A poisoned line of the window or of a parity slot, as the item that repairs it (R369). -/
def State.repairItem (s : State) (u : Nat) : Option WorkItem :=
  let (ch, co) := dramLocate (u * 64)
  if co < s.window then
    some { layer := s.dataLayer, kind := 0, index := ch * s.unitsPerChan + co / 4096, line := co % 4096 / 64, lines := 1 }
  else
    ((List.range s.layers).find? (fun l => decide (s.pbase l ≤ co) && decide ((co - s.pbase l) / 4096 * 128 + ch < s.slotsOf l))).map (fun l =>
      { layer := l, kind := 1, index := (co - s.pbase l) / 4096 * 128 + ch, line := (co - s.pbase l) % 4096 / 64, lines := 1 })

/-- REPAIR_REQ to the leader for every poisoned line that it has not been asked about (R369). -/
def State.askRepairs (s : State) : State :=
  if s.layers = 0 ∨ !s.members.contains s.self then s
  else
    s.dram.poison.foldl (fun (x : State) u =>
      match x.repairItem u with
      | none => x
      | some it =>
        if x.res.asks.contains it then x
        else
          ({ x with res := { x.res with asks := x.res.asks ++ [it] } }).sendRes x.leader 0x1B
            (toLE 1 it.layer ++ toLE 1 it.kind ++ toLE 2 0 ++ toLE 8 it.index ++ toLE 2 it.line ++ toLE 2 0) (.slice 0x1B 0 0)) s

/-- STATE_SYNC to a replacement (R387, R390). -/
def State.sendSync (s : State) (c : Nat) : State :=
  let held := s.fmn.steps.filter (fun r => r.await)
  let oldest := (lowest (held.map (·.n))).getD s.stepNext
  let att := fun (i : Nat) => match s.step? (oldest + i) with | some r => if r.await then r.attempt else 0 | none => 0
  s.sendRes c 0x19 (toLE 8 oldest ++ toLE 1 (wrapN 8 s.num.lsCur) ++ toLE 1 s.num.slotC ++ toLE 2 s.num.clean ++ toLE 1 (min held.length 2) ++ toLE 3 0
    ++ toLE 2 (att 0) ++ toLE 2 (att 1) ++ toLE 12 0) (.slice 0x19 0 0)

/-- The leader starts a quiet period (R385, R387). -/
def State.startQuiet (s : State) (reason chip : Nat) : State :=
  let s1 : State := { s with res := { s.res with lead := some (reason, chip), quiets := [], dones := [] } }
  let s2 := s1.sendResAll s1.members 0x15 (toLE 1 reason ++ toLE 1 0 ++ toLE 2 chip)
  if reason = 2 then s2.sendSync chip else s2

/-- A quiet period with reason REPAIR for the first chip that asked, when none runs (R369). -/
def State.nextRepair (s : State) : State :=
  match s.res.lead, s.res.repairs with
  | none, c :: rest => ({ s with res := { s.res with repairs := rest } }).startQuiet 3 c
  | _, _ => s

/-- The first rebuild of the list, with reason REBUILD (R387). -/
def State.nextRebuild (s : State) : State :=
  match s.res.rebuilds with
  | [] => s
  | (r, _) :: _ => s.startQuiet 2 (s.members.getD r 0x3FFF)

/-- RESUME when steps are held, after the new epoch and its quiet period (R276, R279, R387). -/
def State.resumeHeld (s : State) : State := if s.fmn.state = .quiesced ∨ s.fmn.steps.any (fun r => r.await) then s.leaderResume else s

/-- A PAR_DONE at the leader (R385, R387): PAR_READY when every one has arrived, the next rebuild before that. -/
def State.takeParDone (s : State) (src : Nat) : State :=
  match s.res.lead with
  | none => s
  | some (reason, chip) =>
    let s1 : State := { s with res := { s.res with dones := setIns s.res.dones src } }
    let all := if reason = 1 then s1.members.all (fun c => s1.res.dones.contains c) else s1.res.dones.contains chip
    if !all then s1
    else
      let left := s1.res.rebuilds.drop 1
      if reason = 2 ∧ !left.isEmpty then ({ s1 with res := { s1.res with rebuilds := left } }).nextRebuild
      else
        let s2 : State := { s1 with res := { s1.res with lead := none, rebuilds := [] } }
        let s3 := s2.sendResAll s2.members 0x18 []
        (if reason ≠ 3 then s3.resumeHeld else s3).nextRepair

end Sys2Proof.Machine
end

