-- ==== Sys2Proof/Machine/Command.lean ====
section
/-! DEFINITION. The Sprinov engine (R406 to R418): which command starts next, the checks before its own rules, refusals. -/

namespace Sys2Proof.Machine

/-- Not sequenced: session.hello, session.auth, session.close (R409). -/
def unsequenced (op : Nat) : Bool := op == 1 || op == 2 || op == 3

/-- Repeatable commands (R410). -/
def repeatable (op : Nat) : Bool := op == 0x11 || op == 0x10 || op == 0x72

/-- Commands that need no authentication (R408). -/
def openToAll (op : Nat) : Bool := unsequenced op || op == 0x10 || op == 0x72

/-- The argument bytes of an opcode with a fixed layout (R413); reg.write's depends on COUNT. -/
def argLen : Nat → Option Nat
  | 0x01 => some 8 | 0x02 => some 196 | 0x03 => some 0 | 0x10 => some 0 | 0x11 => some 8 | 0x13 => some 68 | 0x20 => some 20 | 0x21 => some 4
  | 0x30 => some 16 | 0x31 => some 16 | 0x32 => some 4 | 0x33 => some 16 | 0x40 => some 128 | 0x41 => some 4 | 0x42 => some 32 | 0x43 => some 16
  | 0x50 => some 8 | 0x51 => some 56 | 0x52 => some 8 | 0x60 => some 4 | 0x70 => some 16 | 0x71 => some 0 | 0x72 => some 32 | 0x73 => some 0x81C | 0x74 => some 0
  | 0x75 => some 16 | 0x76 => some 0 | _ => none

/-- Reserved bytes of the arguments: offset and length (R413). -/
def argZero : Nat → List (Nat × Nat)
  | 0x01 => [(3, 1)] | 0x02 => [(97, 3)] | 0x11 => [(6, 2)] | 0x12 => [(6, 2)] | 0x13 => [(65, 3)] | 0x20 => [(17, 3)] | 0x21 => [(2, 2)]
  | 0x30 => [(12, 4)] | 0x31 => [(12, 4)] | 0x33 => [(12, 4)] | 0x41 => [(2, 2)] | 0x42 => [(5, 3), (20, 4)] | 0x43 => [(4, 4)] | 0x51 => [(1, 7)]
  | 0x60 => [(2, 2)] | 0x70 => [(12, 4)] | 0x73 => [(1, 3), (0x95, 3)] | 0x75 => [(1, 7)] | _ => []

/-- The opcode is one of R413. -/
def knownOp (op : Nat) : Bool := (argLen op).isSome || op == 0x12

/-- The layout check of R413. -/
def layoutOk (op : Nat) (b : Bytes) : Bool :=
  knownOp op && (argZero op).all (fun p => allZero (sliceB b p.1 p.2))
  && (match argLen op with
    | some n => b.length == n
    | none => decide (8 ≤ b.length) && decide (1 ≤ leAt b 4 2) && decide (leAt b 4 2 ≤ 64) && b.length == 8 + 4 * leAt b 4 2)
  && (op != 0x11 || (decide (1 ≤ leAt b 4 2) && decide (leAt b 4 2 ≤ 64)))

/-- The legality matrix (R417). -/
def legalIn (op : Nat) (m : ModState) : Bool :=
  let j := m == .joined
  let st := m == .stepping
  let q := m == .quiesced
  let i := m == .idle
  let sv := m == .service
  if openToAll op || op == 0x11 || op == 0x13 then m != .cold && m != .boot
  else if op = 0x12 then i || j || st || q || sv
  else if op = 0x20 ∨ op = 0x21 ∨ op = 0x31 ∨ op = 0x32 then i || j || st || q
  else if op = 0x30 ∨ op = 0x33 ∨ op = 0x40 ∨ op = 0x52 then j || st || q
  else if op = 0x41 ∨ op = 0x42 ∨ op = 0x43 ∨ op = 0x50 ∨ op = 0x51 then j || st
  else if op = 0x60 ∨ op = 0x75 then m == .wipe || i || j || st || q || sv
  else if op = 0x70 ∨ op = 0x71 then i || j || st || q || sv
  else if op = 0x73 ∨ op = 0x74 then i || sv
  else i || q || m == .fenced || sv

/-- The first command of a queue that has not started and starts in order (R411). -/
def CmdQueue.front (k : CmdQueue) : Option Cmd := k.entries.find? (fun c => !c.started && !unsequenced c.op)

/-- The queues in round-robin order after the last one served (R411). -/
def State.robin (s : State) : List Nat := (List.range 64).map (fun i => (s.spv.turn + 1 + i) % 64)

/-- The command that the engine starts next (R411, R412). -/
def State.nextStart (s : State) : Option (Nat × Cmd) :=
  if s.spv.paused then none
  else match s.robin.find? (fun q => ((s.queue q).front).isSome) with
    | none => none
    | some q => ((s.queue q).front).map (fun c => (q, c))

/-- The command of queue `q` with an opcode that can start now. -/
def State.startable (s : State) (q op : Nat) : Option Cmd :=
  if unsequenced op then (if s.spv.paused then none else (s.queue q).entries.find? (fun c => !c.started && c.op == op))
  else match s.nextStart with
    | some (p, c) => if p = q ∧ c.op = op then some c else none
    | none => none

/-- The command starts: its entry stays occupied; the engine goes on after its queue. -/
def State.started (s : State) (q : Nat) (c : Cmd) : State :=
  let s1 := s.modQueue q (fun k => { k with entries := k.entries.map (fun e => if e == c then { e with started := true } else e) })
  if unsequenced c.op then s1 else { s1 with spv := { s1.spv with turn := q } }

/-- ERR_INFO of the SPV page (R429). -/
def spvHi (op q : Nat) : Nat := op % 65536 * 65536 + q % 64

/-- A refusal, with the counters and events of its status (R408, R417, R429, R430). -/
def State.refuse (s : State) (r : ReplyTo) (op st : Nat) : State :=
  let s1 :=
    if st = stILLEGAL then
      ((s.bump pgSPV 0x048 1).setN pgSPV 0x04C (op % 65536 * 65536 + s.fmn.state.code * 4096 + r.queue % 64)).latchErr pgSPV 0 1 (r.seq % 2 ^ 32) (spvHi op r.queue)
    else if st = stAUTH then s.bump pgSPV 0x050 1
    else if st = stVERSION then s.latch pgSPV 1
    else s
  s1.replyTo r st []

/-- The checks of R417 in their order; none when the command's own rules follow. -/
def State.precheck (s : State) (q : Nat) (c : Cmd) : Option Nat :=
  let k := s.queue q
  if c.op ≠ 1 ∧ k.session ∧ c.ver ≠ 1 then some stVERSION
  else if !openToAll c.op && !k.auth then some stAUTH
  else if !layoutOk c.op c.body then some stBAD
  else if !legalIn c.op s.fmn.state then some stILLEGAL
  else none

/-- A command of queue `q` starts: the checks, then its own rules. -/
def State.command (s : State) (q op : Nat) (own : Bytes → ReplyTo → State → State) : State :=
  match s.startable q op with
  | none => s
  | some c =>
    let s1 := s.started q c
    let r : ReplyTo := { queue := q, seq := c.seq }
    match s1.precheck q c with
    | some st => s1.refuse r op st
    | none => own c.body r s1

/-- The reply to the command in the Postmaster mailbox frees the mailbox (R36, R412). -/
def State.mboxDone (s : State) (r : ReplyTo) : State :=
  match s.spv.mbox with
  | some (q, c) => if q = r.queue ∧ c.seq = r.seq then { s with spv := { s.spv with mbox := none } } else s
  | none => s

/-- A reply through the mailbox. -/
def State.mgmtReply (s : State) (r : ReplyTo) (st : Nat) (data : Bytes) : State := ((s.mboxDone r).aliveHalf 8 false).replyTo r st data

/-- A refusal through the mailbox (R417, R430). -/
def State.mgmtRefuse (s : State) (r : ReplyTo) (op st : Nat) : State := ((s.mboxDone r).aliveHalf 8 false).refuse r op st

/-- A command of the management group: it passes through the Postmaster's mailbox, one at a time, in start order, none during a handover's pause (R36, R412). -/
def State.mgmtCommand (s : State) (q op : Nat) (own : Bytes → ReplyTo → State → State) : State :=
  let run := fun (x : State) (c : Cmd) => own c.body { queue := q, seq := c.seq } (({ x with spv := { x.spv with mbox := some (q, c) } }).aliveHalf 8 true)
  match s.spv.mbox, s.spv.mwait with
  | none, (p, c) :: rest => if p = q ∧ c.op = op ∧ !s.spv.paused then run { s with spv := { s.spv with mwait := rest } } c else s
  | _, _ =>
    match s.startable q op with
    | none => s
    | some c =>
      let s1 := s.started q c
      match s1.precheck q c with
      | some st => s1.refuse { queue := q, seq := c.seq } op st
      | none => if s1.spv.mbox.isSome then { s1 with spv := { s1.spv with mwait := s1.spv.mwait ++ [(q, { c with started := true })] } } else run s1 { c with started := true }

/-- The data of a reply with OK. -/
def State.ok (s : State) (r : ReplyTo) (data : Bytes) : State := s.replyTo r stOK data

/-- An extent is mapped, holds no poison (R413), and its controllers take accesses (R255). -/
def State.extentOk (s : State) (off len : Nat) : Bool := dramMapped off len && !s.dramBad off len && s.memOpen off len

end Sys2Proof.Machine
end

