-- ==== Sys2Proof/Machine/StepRows.lean ====
section
/-! DEFINITION. Commands of the step state table: micro-batches, opening, READY, ALL_IN, norms, decisions, commit, release, resume, abort (R137, R261 to R280, R354). -/

namespace Sys2Proof.Machine

/-- STEPPING ends when no step is forming or unreleased (R279). -/
def State.settle (s : State) : State :=
  if s.fmn.state = .stepping ∧ s.fmn.steps.isEmpty ∧ s.fmn.forming.isNone then s.setMod .joined else s

/-- A slice message for the Postmaster waits in its ingress while a handover pauses the Postmaster; HEARTBEAT and PROBE do not (R508, R509). -/
def State.postWaits (s : State) (kind : Nat) : Bool := s.mgmt.handover == .paused && decide (0x10 < kind) && kind != 0x12

/-- Takes the first delivered SLICE packet of a kind, acts, and answers OK (R313). -/
def State.slice (s : State) (kind : Nat) (own : Packet → State → State) : State :=
  if s.postWaits kind then s
  else match s.takeArrived (fun p => p.type == 0x50 && p.arg % 256 == kind) with
    | none => s
    | some (o, s1) => (own o.pkt s1).reply o stOK []

/-- R280: step.open on a replacement module places the next held step in ROLLING_BACK, awaiting repeat; the optimiser records are read then (R215). -/
def State.openHeld (s : State) (n : Nat) (r : ReplyTo) : State :=
  match s.fmn.held with
  | [] => s.replyTo r stBAD []
  | (m, a) :: rest =>
    if n ≠ s.stepNext ∨ n ≠ m ∨ s.fmn.staged.isEmpty then s.replyTo r stBAD []
    else
      -- its scale record goes into both rings before the step opens (R137); with its few held steps a slot is free (R157)
      let sc := (s.recordOf n).getD (s.formRecord n (s.freeEf.getD 0))
      let s := s.putRecord { sc with epoch := s.epoch }
      let rec0 := s.newStep n a sc (s.pinFor n) .rollingBack
      -- after a RESUME that came first, the step opens again as soon as it can
      let go := s.fmn.resumed
      let held : StepRec := { rec0 with after := some (if go then Verdict.repeat else Verdict.suspend), rolled := true, await := !go }
      let s1 := s.setFmn (fun f => { f with steps := f.steps ++ [held], staged := [], held := rest, takeover := !(go && rest.isEmpty), resumed := go && !rest.isEmpty })
      (((s1.takeSnapshots n).set64 pgFMN 0x040 (n + 1)).newestRegs).ok r []

/-- STEP_OPEN (R266, R280). -/
def execStepOpen (q : Fin 64) (s : State) : Host.Outcome State Fault Refusal :=
  .next (s.command q.val 0x50 (fun b r x =>
    let n := leAt b 0 8
    if x.fmn.takeover then x.openHeld n r
    else if x.fmn.forming.isSome then x.refuse r 0x50 stILLEGAL
    else if n ≠ x.stepNext ∨ x.fmn.staged.isEmpty then x.replyTo r stBAD []
    else x.setFmn (fun f => { f with forming := some { n := n, reply := r, waited := false, scale := none, recWaited := false } })))

/-- MB_SUBMIT (R264, R265, R280). -/
def execMbSubmit (q : Fin 64) (s : State) : Host.Outcome State Fault Refusal :=
  .next (s.command q.val 0x51 (fun b r x =>
    let slot := leAt b 0 1
    let m := b.drop 8
    if 3 < slot ∨ leAt m 0 4 = 0 ∨ 1 < leAt m 4 1 ∨ !allZero (sliceB m 5 3) ∨ dramSize < leAt m 8 8 + leAt m 0x10 8 then x.replyTo r stBAD []
    else if kvHas x.fmn.staged slot ∨ (!x.fmn.takeover ∧ bitOf x.busySlots slot) then (x.bump pgFMN 0x090 1).replyTo r stNORES []
    else (x.setFmn (fun f => { f with staged := kvSet f.staged slot (sliceB m 0 48) })).ok r []))

/-- STEP_ABORT (R278). -/
def execStepAbort (q : Fin 64) (s : State) : Host.Outcome State Fault Refusal :=
  .next (s.command q.val 0x52 (fun b r x =>
    let n := leAt b 0 8
    match x.fmn.forming with
    | some f =>
      if f.n = n then (((x.setFmn (fun m => { m with forming := none })).replyTo f.reply stABORTED []).ok r []).settle
      else if (x.step? n).isSome then (x.modStep n (fun w => { w with aborters := w.aborters ++ [r] })).askAbort n 6
      else x.replyTo r stBAD []
    | none =>
      if (x.step? n).isSome then (x.modStep n (fun w => { w with aborters := w.aborters ++ [r] })).askAbort n 6
      else if n = x.stepNext then (x.setFmn (fun m => { m with staged := [] })).ok r []
      else x.replyTo r stBAD []))

/-- SCALE_RECORD_WRITE (R137, R138, R157): the record of the forming step; an aborted step's record serves its number again, under the epoch in which it opens. -/
def execScaleRecordWrite (s : State) : Host.Outcome State Fault Refusal :=
  match s.fmn.forming with
  | none => .next s
  | some f =>
    if f.scale.isSome then .next s
    else
      let take := fun (x : State) (r : ScaleRec) => x.setFmn (fun m => { m with forming := some { f with scale := some r } })
      match s.recordOf f.n with
      | some r => .next (if r.epoch = s.epoch then take s r else take (s.putRecord { r with epoch := s.epoch }) { r with epoch := s.epoch })
      | none => match s.slotFree f.n, s.freeEf with
        | true, some ef => let r := s.formRecord f.n ef; .next (take (s.putRecord r) r)
        | _, _ =>
          if f.recWaited then .next s
          else .next ((s.setFmn (fun m => { m with forming := some { f with recWaited := true } })).bump pgNUM 0x0B0 1 |>.latch pgNUM 6)

/-- STEP_OPENING (R75, R266, R269): the forming step opens, or its wait is counted once; it waits too for the spare of a tile that is still marked after the boundary. -/
def execStepOpening (s : State) : Host.Outcome State Fault Refusal :=
  match s.fmn.forming with
  | none => .next s
  | some f =>
    if (s.fmn.state = .joined ∨ s.fmn.state = .stepping) ∧ s.canOpen f then
      match f.scale with
      | some r => if s.boundary.spareWait then .next s.boundary.openWaits else .next (s.openForming f r)
      | none => .next s
    else .next s.openWaits

/-- Operations of the step that R269 waits for: every SPOST and BKT. -/
def State.stepMoves (s : State) : Bool :=
  s.enabledTiles.any (fun p => (s.tile p).moves.any (fun m => match m.kind with | .bkt _ => true | .spost _ _ => true | _ => false))

/-- STEP_MICRO_BATCHES_ENDED (R269): READY goes to leader and deputy. -/
def execStepMicroBatchesEnded (s : State) : Host.Outcome State Fault Refusal :=
  match s.fmn.steps.find? (fun r => r.state == .opened) with
  | none => .next s
  | some r => if s.allIdle && !s.stepMoves then .next (s.sendReady r.n false) else .next s

/-- READY (R271, R272, R314). -/
def execReady (s : State) : Host.Outcome State Fault Refusal :=
  .next (s.slice 1 (fun p x => x.takeReady p.src (sliceStep p) (sliceAttempt p) (sliceRest p)))

/-- COLLATION_DEADLINE (R272): the attempt of step `n` is late at the leader. -/
def execCollationDeadline (n : Nat) (s : State) : Host.Outcome State Fault Refusal :=
  match s.lead? n with
  | none => .next s
  | some l =>
    if !s.isLeader ∨ !l.armed ∨ l.allIn ∨ l.decided.isSome then .next s
    else
      let late := s.members.filter (fun c => !l.readyChips.contains c)
      .next ((s.modLead n (fun l => { l.stopped 1 (late.head?.getD s.self) with late := late.foldl setIns [] })).leaderDecide n)

/-- ALL_IN (R269, R353): the Delta half closes and the replicated exchange begins. -/
def execAllIn (s : State) : Host.Outcome State Fault Refusal :=
  .next (s.slice 2 (fun p x =>
    let n := sliceStep p
    let a := sliceAttempt p
    match x.step? n with
    | none => x
    | some r =>
      if r.attempt = a ∧ r.state = .collating ∧ x.firstAct 2 n a then
        (((x.boundary.acted 2 n a).modStep n (fun r => { r with state := .deciding, tAllIn := some (x.reg64 pgDTL 0x040) })).exchSend n a)
      else x))

/-- The exchange that is done and whose norm partial has not left. -/
def State.normReady (s : State) : Option Exch :=
  (s.col.exch.find? (fun p => p.2.done && !p.2.normSent && (match s.step? p.2.step with
    | some r => r.state == .deciding && r.attempt == p.2.attempt
    | none => false))).map (·.2)

/-- NORM_PARTIAL_SEND (R213, R354): E_r goes to the leader as C_NORM. -/
def execNormPartialSend (s : State) : Host.Outcome State Fault Refusal :=
  match s.normReady with
  | none => .next s
  | some e =>
    let s1 := (s.putExch { e with normSent := true }).modStep e.step (fun r => { r with normSent := true })
    .next (s1.send (s1.colPkt 0x35 2 s1.leader 0 (s.normPartial e.step) (s1.layoutFor 1) (colHead e.step e.attempt 0 0 0 0)) .none)

/-- C_NORM (R354): the leader takes a member's partial and decides when all are in. -/
def execCNorm (s : State) : Host.Outcome State Fault Refusal :=
  match s.takeOldest 0x35 with
  | none => .next s
  | some (o, s1) =>
    let n := colStep o.pkt.payload
    match s1.lead? n, s1.rankOf o.pkt.src with
    | some l, some r =>
      if colAtt o.pkt.payload < l.attempt then .next s1.staleDrop
      else if l.attempt < colAtt o.pkt.payload then .next s1
      else .next ((s1.modLead n (fun l => { l with norms := kvSet l.norms r o.pkt.arg })).leaderDecide n)
    | _, _ => .next s1

/-- NORM_DEADLINE (R354): a C_NORM is missing, so the attempt is late. -/
def execNormDeadline (n : Nat) (s : State) : Host.Outcome State Fault Refusal :=
  match s.lead? n with
  | none => .next s
  | some l =>
    if !s.isLeader ∨ !l.allIn ∨ l.decided.isSome then .next s
    else
      let missing := s.members.filter (fun c => match s.rankOf c with | some r => !kvHas l.norms r | none => false)
      .next ((s.modLead n (fun l => l.stopped 1 (missing.head?.getD s.self))).leaderDecide n)

/-- The committing step whose every item is done and which may report (R269, R220). -/
def State.committedStep (s : State) : Option StepRec :=
  s.fmn.steps.find? (fun r => r.state == .committing && !s.fmn.steps.any (fun q => decide (q.n < r.n))
    && s.par.items.all (fun i => i.step != r.n || (i.done && !i.failed)))

/-- STEP_COMMIT_DONE, or COMMIT_FAIL of a step with a failed item (R222, R269). -/
def State.tryCommitDone (s : State) : State :=
  let s0 := match s.fmn.steps.find? (fun r => r.state == .committing && !r.failed && s.par.items.any (fun i => i.step == r.n && i.failed)) with
    | none => s
    | some r => (s.modStep r.n (fun r => { r with failed := true })).sendSlice s.leader 4 r.n r.attempt (toLE 1 1 ++ toLE 15 0)
  match s0.committedStep with
  | none => s0
  | some r =>
    let s1 := s0.boundary.modStep r.n (fun r => { r with state := .committed })
    let s2 := s1.pghNofill (fun l => l.filter (· != r.n))
    s2.sendSlice s2.leader 4 r.n r.attempt (toLE 1 0 ++ toLE 15 0)

/-- The report of a decision, after NUM's part (R143 to R151, R163, R289). -/
def State.reportDecision (s : State) (n : Nat) (d : DecMsg) : State :=
  match s.step? n with
  | none => s
  | some r =>
    let direct := s.directTouched n
    let (s1, silent) := s.numDecide r d
    ((s1.modStep n (fun r => { r with dec := some d, direct := direct })).writeReport r d silent direct).countDecision r d

/-- The boundary of a decision, and its entry in the report (R269, R270). -/
def State.decided (s : State) (n a : Nat) (d : DecMsg) : State := (s.boundary.acted (32 + d.verdict.code) n a).reportDecision n d

/-- COMMIT at a member (R270). -/
def State.takeCommit (s : State) (n a : Nat) (d : DecMsg) : State :=
  let s1 := ((s.decided n a d).pghInvalidate.pghNofill (fun l => l ++ [n])).modStep n (fun r => { r with state := .committing })
  (s1.buildItems n).tryCommitDone

/-- A step of the rollback set (R270, R276): another starts to roll back; one that rolls back already keeps on, with what now follows it, at once when it has been restored. -/
def State.rollOne (s : State) (v : Verdict) (m : Nat) : State :=
  match s.step? m with
  | none => s
  | some q =>
    if q.state ≠ .rollingBack then s.startRollback m v
    else if q.after = some Verdict.repeat ∨ (v = .abort ∧ q.after = some Verdict.suspend) then
      let s1 := s.modStep m (fun q => { q with after := some v, await := false })
      if q.rolled then s1.rollEnds m else s1
    else s

/-- The steps from `n` on roll back (R270). -/
def State.rollFrom (s : State) (n : Nat) (v : Verdict) : State := ((s.rollSet n).foldl (fun (x : State) m => x.rollOne v m) s).beginRestores

/-- REPEAT, SUSPEND or ABORT at a member. -/
def State.takeRoll (s : State) (n a : Nat) (d : DecMsg) : State := (s.decided n a d).rollFrom n d.verdict

/-- A SUSPEND of a step that this member does not hold: its later steps roll back, and a member without any is QUIESCED (R270, R279). -/
def State.takeSuspend (s : State) (n a : Nat) : State :=
  let s1 := s.acted (32 + Verdict.suspend.code) n a
  if (s1.rollSet n).isEmpty then s1.quiesce else s1.rollFrom n .suspend

/-- A member carries out a decision (R269, R270). -/
def State.takeDecision (s : State) (n a : Nat) (d : DecMsg) : State :=
  match s.step? n with
  | none => if d.verdict = .suspend ∧ s.firstAct (32 + d.verdict.code) n a then s.takeSuspend n a else s
  | some r =>
    if r.attempt ≠ a ∨ !s.firstAct (32 + d.verdict.code) n a then s
    else match d.verdict with
    | .commit => if r.state ≠ .deciding then s else s.takeCommit n a d
    | .skip => if r.state ≠ .deciding then s else ((s.decided n a d).startRollback n .skip).beginRestores
    | v =>
      if r.state = .rollingBack ∧ (r.after = some Verdict.skip ∨ r.after = some Verdict.abort ∨ v = .repeat) then s else s.takeRoll n a d

/-- DECISION (R269, R276). -/
def execDecision (s : State) : Host.Outcome State Fault Refusal :=
  .next (s.slice 3 (fun p x => match decOf (sliceRest p) with
    | none => x
    | some d =>
      let y := if x.self = x.deputy then
          (x.leadFor (sliceStep p) (sliceAttempt p)).modLead (sliceStep p) (fun l => if l.attempt = sliceAttempt p then { l with decided := some d } else l)
        else x
      y.takeDecision (sliceStep p) (sliceAttempt p) d))

/-- COMMIT_DONE (R276, R277). -/
def execCommitDone (s : State) : Host.Outcome State Fault Refusal :=
  .next (s.slice 4 (fun p x => x.takeCommitDone p.src (sliceStep p) (sliceAttempt p) (bitOf (leAt (sliceRest p) 0 1) 0)))

/-- A step is released at a member (R220, R227, R228, R231, R269, R274, R384). -/
def State.takeRelease (s : State) (n a : Nat) : State :=
  match s.step? n with
  | none => s
  | some r =>
    if r.attempt ≠ a ∨ r.state ≠ .committed then s
    else
      let s1 := ((s.endingStep n).boundary.applyHeld n).releasePut n
      let s2 := ((s1.armRepls n).demote).shipAll n
      let s3 := s2.setPar (fun q => { q with items := q.items.filter (fun i => i.step != n), jrn := setDel q.jrn n })
      let s4 := (s3.clearHalf (n % 2)).replyAll r.aborters stBAD
      ((((s4.dropStep n).publishAll edWaiting).publishAll edBuilt).noteEdition (n + 1)).tryCommitDone

/-- RELEASE (R269, R277). -/
def execRelease (s : State) : Host.Outcome State Fault Refusal :=
  .next (s.slice 5 (fun p x =>
    let n := sliceStep p
    let a := sliceAttempt p
    let y := if x.self = x.deputy then (x.leadFor n a).modLead n (fun l => if l.attempt = a then { l with released := true } else l) else x
    y.takeRelease n a))

/-- RESUME (R269, R276, R279): the steps held for repeat open again, in increasing number. -/
def execResume (s : State) : Host.Outcome State Fault Refusal :=
  .next (s.slice 6 (fun _ x =>
    let held := x.fmn.steps.any (fun r => r.await)
    let y := x.setFmn (fun f =>
      { f with takeover := !f.held.isEmpty, resumed := !f.held.isEmpty, steps := f.steps.map (fun r => if r.await then { r with await := false, after := some Verdict.repeat } else r) })
    if x.fmn.state = .quiesced ∨ (x.fmn.state = .joined ∧ held) then (y.setMod .stepping).settle else y))

/-- STEP_REOPEN (R75, R269): the lowest step that can open again does, on the spare of a tile that was marked. -/
def execStepReopen (s : State) : Host.Outcome State Fault Refusal :=
  match (s.fmn.steps.filter (fun r => s.canReopen r)).map (·.n) |> lowest with
  | none => .next s
  | some n => if s.boundary.spareWait then .next s.boundary else .next (s.reopenStep n)

/-- ABORT_REQ (R276, R278): the leader decides ABORT. -/
def execAbortReq (s : State) : Host.Outcome State Fault Refusal :=
  .next (s.slice 0x0B (fun p x =>
    if !x.isLeader then x
    else
      let n := sliceStep p
      let cause := if p.src = x.self then (match x.step? n with | some r => (if r.cause = 0 then 6 else r.cause) | none => 6) else 6
      x.takeAbort n (sliceAttempt p) cause p.src))

end Sys2Proof.Machine
end

