-- ==== Sys2Proof/Machine/ResilRows.lean ====
section
/-! DEFINITION. Commands of redundancy (R368 to R387): deltas, heartbeats, suspicion, fencing, the Spine, quiet periods, STATE_SYNC, UNIT_READ, repair requests. -/

namespace Sys2Proof.Machine

/-- PARITY_DELTA (R380, R384). -/
def execParityDelta (s : State) : Host.Outcome State Fault Refusal :=
  match s.takeArrived (fun p => p.type == 0x40) with
  | none => .next s
  | some (o, s1) =>
    let (s2, st) := s1.takeDelta o.pkt
    .next (s2.reply o st [])

/-- HEARTBEAT_PERIOD (R371): a HEARTBEAT with its counter to each torus neighbour. -/
def execHeartbeatPeriod (s : State) : Host.Outcome State Fault Refusal :=
  if s.beating then
    .next (({ s with res := { s.res with beat := (s.res.beat + 1) % 2 ^ 64 } }).sendResAll (s.neighboursOf s.self) 0x10 (toLE 8 s.res.beat ++ toLE 8 0))
  else .next s

/-- HEARTBEAT (R371): received and answered by the Postmaster. -/
def execHeartbeat (s : State) : Host.Outcome State Fault Refusal := .next (s.slice 0x10 (fun _ x => x))

/-- HEARTBEAT_TIMEOUT (R371): no heartbeat from neighbour `chip` for TIMEOUT, or both ports toward it down. -/
def execHeartbeatTimeout (chip : Nat) (s : State) : Host.Outcome State Fault Refusal :=
  if s.beating && (s.neighboursOf s.self).contains chip && s.members.contains chip && !s.fmn.fencedMembers.contains chip then
    .next ((((s.bump pgPMS 0x074 1).resChip chip).latch pgPMS 1).sendResAll s.leaderAndDeputy 0x11 (toLE 2 chip ++ toLE 14 0))
  else .next s

/-- ISOLATION_TIMEOUT (R370): no heartbeat on any port. -/
def execIsolationTimeout (s : State) : Host.Outcome State Fault Refusal := if s.beating then .next (s.fenceFor 6) else .next s

/-- SUSPECT (R371): the leader probes the chip, the deputy when the leader is suspected (R277). -/
def execSuspect (s : State) : Host.Outcome State Fault Refusal :=
  .next (s.slice 0x11 (fun p x =>
    let c := leAt (sliceRest p) 0 2
    let y := (x.resChip c).latch pgPMS 1
    if y.judges c && y.members.contains c && !kvHas y.res.suspects c && !y.fmn.fencedMembers.contains c then y.probe c 1 else y))

/-- PROBE (R371): the Postmaster answers. -/
def execProbe (s : State) : Host.Outcome State Fault Refusal := .next (s.slice 0x12 (fun _ x => x))

/-- PROBE_RETRY (R371): no answer from `chip` after 5 ms. -/
def execProbeRetry (chip : Nat) (s : State) : Host.Outcome State Fault Refusal :=
  if kvFind s.res.suspects chip = some 1 then .next (s.probe chip 2) else .next s

/-- PROBE_TIMEOUT (R371, R372): neither PROBE to `chip` is answered within 10 ms. -/
def execProbeTimeout (chip : Nat) (s : State) : Host.Outcome State Fault Refusal :=
  if kvFind s.res.suspects chip = some 2 ∧ s.judges chip then
    .next (({ s with res := { s.res with suspects := kvDel s.res.suspects chip } }).fenceMember chip)
  else .next s

/-- FENCE_ORDER (R277, R370, R372). -/
def execFenceOrder (s : State) : Host.Outcome State Fault Refusal :=
  .next (s.slice 0x13 (fun p x =>
    let c := leAt (sliceRest p) 0 2
    let y := ((x.bump pgPMS 0x078 1).resChip c).latch pgPMS 2
    if c = y.self then y.fenceFor 7 else y.chipFenced c))

/-- FENCED_NOTICE (R276, R277, R372): the leader suspends the steps; the deputy acts for a leader that fenced itself. -/
def execFencedNotice (s : State) : Host.Outcome State Fault Refusal :=
  .next (s.slice 0x14 (fun p x =>
    let c := p.src
    if c = x.self then x
    else if x.members.contains c ∧ c = x.leader ∧ x.deputy = x.self ∧ !x.fmn.fencedMembers.contains c then x.fenceMember c
    else
      let y := ((x.resChip c).cutPorts c).abandonRebuild
      if x.members.contains c ∧ x.isLeader then ((y.setFmn (fun f => { f with fencedMembers := setIns f.fencedMembers c })).leaderLost c).checkLost else y))

/-- The replies of commands that had started when the module was fenced (R418). -/
def State.fenceCommands (s : State) : State :=
  let open_ := (List.range 64).flatMap (fun q => ((s.queue q).entries.filter (·.started)).map (fun c => ({ queue := q, seq := c.seq } : ReplyTo)))
  { s.replyAll open_ stFENCED with spv := { (s.replyAll open_ stFENCED).spv with mbox := none, mwait := [] } }

/-- MODULE_FENCE (R373): FENCED_NOTICE, nothing issued any more, FMN_FENCED, every Post port out of service. -/
def execModuleFence (s : State) : Host.Outcome State Fault Refusal :=
  match s.fencing with
  | none => .next s
  | some cause =>
    let dsts := ((if s.imp.active.isSome then s.leaderAndDeputy else []) ++ s.neighboursOf s.self).eraseDups.filter (· != s.self)
    let s1 : State := { s with fencing := none, fab := { s.fab with out := [] }, col := { s.col with outs := [] } }
    let s2 := ((s1.sendResAll dsts 0x14 (toLE 1 cause ++ toLE 15 0)).setMod .fenced).latch pgFMN 8
    let s3 := (List.range 12).foldl (fun (x : State) p => if x.link p = 1 ∨ x.link p = 2 then x.portDown p 0 else x) s2
    .next (s3.fenceCommands.lifeAdd 6 1)

/-- Bit of a Spine segment's count in SPN.STATE (R393): FF-A, FF-B, FP-0, FP-1. -/
def spnLo (seg : Nat) : Nat := 15 - 5 * seg

/-- SPINE_LINE_REPLAY (R368). -/
def execSpineLineReplay (seg : Fin 4) (s : State) : Host.Outcome State Fault Refusal :=
  .next ((s.bump pgSPN (0x040 + 4 * seg.val) 1).latch pgSPN 0)

/-- SPINE_SUBLINK_FAILURE (R25, R368): traffic held for `us` microseconds, the sub-link removed. -/
def execSpineSublinkFailure (seg : Fin 4) (us : Nat) (s : State) : Host.Outcome State Fault Refusal :=
  let n := s.field pgSPN 0x00C (spnLo seg.val) 5
  let up := s.field pgSPN 0x00C (28 + seg.val) 1
  if n = 0 ∨ up = 0 then .next s
  else
    let s1 := (((s.setField pgSPN 0x00C (spnLo seg.val) 5 (n - 1)).setN pgSPN 0x050 (min us 0xFFFFFFFF))).latch pgSPN 1
    if 8 ≤ n - 1 then .next s1
    else
      let s2 := (s1.setField pgSPN 0x00C (28 + seg.val) 1 0).latch pgSPN 2
      let fp := decide (2 ≤ seg.val)
      let ff := s2.field pgSPN 0x00C 28 2 == 0
      if fp || ff then .next (s2.fenceFor 5) else .next s2

/-- PAR_BUSY (R385): steps are kept from opening and window writes wait. -/
def execParBusy (s : State) : Host.Outcome State Fault Refusal :=
  .next (s.slice 0x15 (fun p x =>
    let r := leAt (sliceRest p) 0 1
    if r = 0 ∨ 3 < r then x
    else
      let again := x.res.busy == some r
      let y : State := { x with res := { x.res with busy := some r, busyChip := leAt (sliceRest p) 2 2, quietSent := again && x.res.quietSent, job := none } }
      ((y.setField pgPMS 0x044 28 4 1).setField pgPMS 0x044 26 2 r).startJob))

/-- SLICE_QUIET_REACHED (R385): every step is released, has ended, or is held for repeat; the member's work begins. -/
def execSliceQuietReached (s : State) : Host.Outcome State Fault Refusal :=
  if s.res.busy.isSome && !s.res.quietSent && s.fmn.steps.all (fun r => r.await) then
    .next ((({ s with res := { s.res with quietSent := true } }).sendRes s.leader 0x16 [] (.slice 0x16 0 0)).startJob)
  else .next s

/-- QUIET at the leader (R385). -/
def execQuiet (s : State) : Host.Outcome State Fault Refusal :=
  .next (s.slice 0x16 (fun p x => { x with res := { x.res with quiets := setIns x.res.quiets p.src } }))

/-- PAR_DONE at the leader (R385, R387). -/
def execParDone (s : State) : Host.Outcome State Fault Refusal := .next (s.slice 0x17 (fun p x => x.takeParDone p.src))

/-- STATE_SYNC (R280, R387): the replacement takes held steps, loss scale, clean count, feedback slot and STEP_NEXT. -/
def execStateSync (s : State) : Host.Outcome State Fault Refusal :=
  .next (s.slice 0x19 (fun p x =>
    let b := sliceRest p
    let n := leAt b 0 8
    let k := min (leAt b 12 1) 2
    let y := x.setFmn (fun f => { f with takeover := k != 0, resumed := false, held := (List.range k).map (fun i => (n + i, leAt b (16 + 2 * i) 2)) })
    ({ y with num := { y.num with lsCur := sext 8 (leAt b 8 1), slotC := leAt b 9 1 % 4, clean := leAt b 10 2 } }).set64 pgFMN 0x040 n))

/-- The bytes that a UNIT_READ returns (R377, R386), or its failing status. -/
def State.unitBytes (s : State) (b : Bytes) : Nat × Bytes × State :=
  let l := leAt b 0 1
  let kind := leAt b 1 1
  let idx := leAt b 4 8
  let first := leAt b 12 2
  let lines := leAt b 14 2
  if !(s.res.busy.isSome && s.res.quietSent) then (stILLEGAL, [], s)
  else if s.layers ≤ l ∨ 1 < kind ∨ lines = 0 ∨ 64 < first + lines ∨ (if kind = 0 then s.nUnits else s.slotsOf l) ≤ idx ∨ !allZero (sliceB b 2 2) then (stBAD, [], s)
  else
    let (ch, co) := s.itemAt { layer := l, kind := kind, index := idx, line := first, lines := lines }
    let (bs, bad, s1) := s.chanLoad ch co (64 * lines)
    if bad then (stPOISON, [], s1)
    else (0, if kind = 0 then bs.zipIdx.map (fun p => if s.excluded ch (co + p.2) then 0 else p.1) else bs, s1)

/-- UNIT_READ (R386, R390). -/
def execUnitRead (s : State) : Host.Outcome State Fault Refusal :=
  if s.postWaits 0x1A then .next s
  else match s.takeArrived (fun p => p.type == 0x50 && p.arg % 256 == 0x1A) with
    | none => .next s
    | some (o, s1) =>
      let (st, bs, s2) := s1.unitBytes (sliceRest o.pkt)
      .next (s2.reply o st bs)

/-- REPAIR_REQ at the leader (R369). -/
def execRepairReq (s : State) : Host.Outcome State Fault Refusal :=
  .next (s.slice 0x1B (fun p x =>
    if !x.isLeader ∨ x.res.repairs.contains p.src then x
    else ({ x with res := { x.res with repairs := x.res.repairs ++ [p.src] } }).nextRepair))

end Sys2Proof.Machine
end

