-- ==== Sys2Proof/Machine/Stage.lean ====
section
/-! DEFINITION. The checks of imposition.stage (R281 to R283, R323, R343, R379). -/

namespace Sys2Proof.Machine

/-- Entries of `n` bytes of a section. -/
def entries (sec : Bytes) (n : Nat) : List Bytes := (List.range (sec.length / n)).map (fun i => sliceB sec (n * i) n)

/-- The image's section `i`: offset and length (R281). -/
def secOff (img : Bytes) (i : Nat) : Nat := leAt img (0x20 + 8 * i) 4
def secLen (img : Bytes) (i : Nat) : Nat := leAt img (0x24 + 8 * i) 4

/-- The imposition that an image holds. -/
def impoOf (img : Bytes) : Impo :=
  let sec := fun (i : Nat) => sliceB img (secOff img i) (secLen img i)
  { epoch := leAt img 8 4, staleness := leAt img 6 1, layouts := leAt img 7 1, seed := leAt img 0x10 8,
    members := (entries (sec 0) 2).map (fun e => leNat e % 16384), secs := (List.range 8).map sec }

/-- The CRC of an image holds (R281). -/
def imageCrc (img : Bytes) : Bool := crc32c (patchB img 0x64 [0, 0, 0, 0]) == leAt img 0x64 4

/-- The header and the plain sections: lengths, extents, reserved fields (R281, R282, R169). -/
def plainOk (img : Bytes) : Bool :=
  let total := leAt img 0x60 4
  let n := leAt img 0xC 2
  let m := impoOf img
  leAt img 4 2 == 1 && decide (leAt img 6 1 ≤ 1) && decide (1 ≤ leAt img 7 1) && decide (leAt img 7 1 < 16)
  && allZero (sliceB img 0xE 2) && allZero (sliceB img 0x18 8) && allZero (sliceB img 0x68 24)
  && (List.range 8).all (fun i => decide (secOff img i + secLen img i ≤ total))
  && n != 0 && secLen img 0 == 2 * n && (entries (m.sec 0) 2).all (fun e => decide (leNat e < 16384))
  && secLen img 1 % 2 == 0 && (entries (m.sec 1) 2).all (fun e => decide (leNat e < 16384))
  && secLen img 2 % 16 == 0 && (entries (m.sec 2) 16).all (fun e => allZero (sliceB e 2 2) && allZero (sliceB e 14 2))
  && secLen img 3 % 32 == 0 && (entries (m.sec 3) 32).all (fun e => allZero (sliceB e 7 1) && allZero (sliceB e 20 12))
  && secLen img 7 % 64 == 0 && (entries (m.sec 7) 64).all (fun e =>
    decide (leAt e 0 2 < 4096) && decide (leAt e 2 1 < 32) && allZero (sliceB e 0x15 1) && allZero (sliceB e 0x1C 4) && allZero (sliceB e 0x28 24) && decide (leAt e 0x14 1 ≤ 40))

/-- Rings of dimension k. -/
def ringsOf (sz : Nat → Nat) (k : Nat) : Nat := if k = 0 then sz 1 * sz 2 else if k = 1 then sz 0 * sz 2 else sz 0 * sz 1

/-- A walk of R323 from `c` toward `e`: it keeps one direction and arrives within `fuel` hops. -/
def walkOk (code : Nat → Nat) (sk e : Nat) : Nat → Nat → Option Bool → Bool
  | fuel, c, dir =>
    if c = e then true
    else match fuel with
      | 0 => false
      | f + 1 =>
        let fwd := (e + sk - c) % sk
        let x := code c
        let plus := x == 1 || (x == 0 && decide (fwd ≤ sk - fwd))
        (match dir with | none => true | some d => d == plus) && walkOk code sk e f (if plus then (c + 1) % sk else (c + sk - 1) % sk) (some plus)

/-- Section 6 (R322, R323). -/
def routingOk (sec : Bytes) (shape : Nat → Nat) : Bool :=
  let maps := leAt sec 4 1
  let len := mapPart shape 0 + mapPart shape 1 + mapPart shape 2
  let ns := bitsSet 4 maps
  decide (0x10 ≤ sec.length) && decide (leAt sec 0 1 ≤ 5) && (List.range 3).all (fun k => leAt sec (1 + k) 1 == shape k) && decide (maps < 16)
  && allZero (sliceB sec 5 11) && sec.length == 0x10 + ns.length * len
  && ns.all (fun n => (List.range 3).all (fun k => (List.range (ringsOf shape k)).all (fun r =>
    (List.range (shape k)).all (fun c => (List.range (shape k)).all (fun e =>
      dirCode sec shape n k r c e != 3
      && walkOk (fun x => dirCode sec shape n k r x e) (shape k) e (shape k - 1) c none)))))

/-- A flag word of R341 and R342: a tile and an aligned address, or 0. -/
def flagOk (f : Nat) : Bool := decide (f < 2 ^ 31) && f % 4 == 0

/-- An address on each member: chip field 16,383, an allowed space, a multiple of 64 (R341, R342). -/
def everyOk (a : Nat) (spaces : List Nat) : Bool := gaChip a == 0x3FFF && spaces.contains (gaSpace a) && a % 64 == 0

/-- Elements of a shard in section 3, if listed. -/
def shardElems (sec3 : Bytes) (t i : Nat) : Option Nat :=
  ((entries sec3 32).find? (fun e => leAt e 0 2 == t && leAt e 2 2 == i)).map (fun e => leAt e 16 4)

/-- Tree records (R340). -/
def treesOk (sec : Bytes) (n : Nat) : Bool :=
  (List.range (nTrees sec)).all (fun t =>
    let off := treeRecAt sec t (treeOff sec)
    let l := leAt sec off 2
    let rs := treeList sec t
    decide (1 ≤ l) && decide (l ≤ 10240) && decide (off + treeRecLen l ≤ sec.length) && allZero (sliceB sec (off + 2) 6) && rs.all (fun r => decide (r < n)) && rs.eraseDups.length == rs.length)

/-- One bucket record (R341, R343). -/
def bucketOk (sec sec3 : Bytes) (i : Nat) : Bool :=
  let b := bucketAt sec i
  let o := bucketOff sec + 32 * i
  let base := decide (b.kind ≤ 3) && decide (leAt sec (o + 2) 1 < 4) && allZero (sliceB sec (o + 3) 1) && allZero (sliceB sec (o + 6) 2)
  let treed := decide (1 ≤ b.cpm) && decide (b.cpm ≤ 4) && decide (b.tree < nTrees sec)
  let noTable := b.table == 0 && b.shard == 0
  base && (
    if b.kind = 0 then
      treed && decide (1 ≤ b.elems) && decide (b.elems ≤ 4096) && b.flag == 0 && b.deliv == 0
      && (match shardElems sec3 b.table b.shard with | none => false | some n => decide (b.offset + b.elems ≤ n))
    else if b.kind = 1 then
      treed && noTable && b.offset == 0 && decide (1 ≤ b.elems) && decide (b.elems ≤ 128) && flagOk b.flag && everyOk b.deliv [1]
    else if b.kind = 2 then
      b.cpm == 0 && b.tree == 0 && noTable && b.flag == 0 && b.deliv == 0 && decide (1 ≤ b.elems) && decide (b.elems ≤ 4096) && decide (b.offset + b.elems ≤ nMap sec)
      && (List.range b.elems).all (fun x => (mapAt sec (b.offset + x)).width == (mapAt sec b.offset).width && (mapAt sec (b.offset + x)).rfmt == (mapAt sec b.offset).rfmt)
    else b.cpm == 0 && b.tree == 0 && noTable && b.elems == 0 && decide (b.offset < nMap sec) && flagOk b.flag && everyOk b.deliv [0, 1])

/-- One A2A map entry (R342). -/
def mapEntOk (sec : Bytes) (i : Nat) : Bool :=
  let m := mapAt sec i
  let o := mapOff sec + 32 * i
  decide (leAt sec o 2 < 16384) && decide (1 ≤ m.width) && decide (m.width ≤ 1024) && [0, 1, 0xA, 0xB, 0xC].contains m.rfmt
  && allZero (sliceB sec (o + 5) 1) && decide (1 ≤ m.cap) && everyOk m.region [0, 1] && flagOk m.flag && allZero (sliceB sec (o + 0x14) 12)

/-- Section 4 (R339 to R343), its BAD_ARGUMENT conditions. -/
def colOk (sec sec3 : Bytes) (n : Nat) : Bool :=
  sec.isEmpty || (
    decide (64 ≤ sec.length) && decide (1 ≤ nTrees sec) && decide (nMap sec ≤ 4096) && allZero (sliceB sec 2 2) && allZero (sliceB sec 0x18 40)
    && decide (bucketOff sec + 32 * nBuckets sec ≤ sec.length) && decide (mapOff sec + 32 * nMap sec ≤ sec.length)
    && treesOk sec n && (List.range (nBuckets sec)).all (bucketOk sec sec3) && (List.range (nMap sec)).all (mapEntOk sec))

/-- z_b of R343. -/
def bucketBytes (b : Bucket) : Nat := up64 (if b.kind = 0 then b.elems * 4 else b.elems * 128)

/-- The area need of the module with chip `self` (R343). -/
def areaNeed (m : Impo) (self : Nat) : Nat :=
  let sec := m.sec 4
  let rank := firstIdx (fun c => c == self) m.members
  let maps := ((List.range (nMap sec)).filter (fun i => (mapAt sec i).home == self)).length
  (List.range (nBuckets sec)).foldl (fun a i =>
    let b := bucketAt sec i
    let z := bucketBytes b
    if 1 < b.kind then a
    else
      let l := treeList sec b.tree
      match rank with
      | none => a
      | some r => match firstIdx (fun x => x == r) l with
        | none => a
        | some p => a + (if p + 1 < l.length then 2 * (64 + z) else 0) + (if 2 ≤ b.cpm then 2 * b.cpm * z else 0))
    (128 * nBuckets sec + 128 * maps)

/-- Internal nodes that the module hosts: one in each tree in which it is not the last leaf (R337). -/
def nodesHosted (m : Impo) (self : Nat) : Nat :=
  match firstIdx (fun c => c == self) m.members with
  | none => 0
  | some r => ((List.range (nTrees (m.sec 4))).filter (fun t =>
      let l := treeList (m.sec 4) t
      match firstIdx (fun x => x == r) l with | some p => decide (p + 1 < l.length) | none => false)).length

/-- Group fields of a rank in section 5 (R378). -/
def secGroup (sec : Bytes) (n l r : Nat) : Nat × Nat × Nat :=
  let o := 0x40 + 4 * (l * n + r)
  (leAt sec o 2, leAt sec (o + 2) 1, leAt sec (o + 3) 1)

/-- Channel-offset ranges of a DRAM range in each half (R241): half, first, end. -/
def chanRanges (off len : Nat) : List (Nat × Nat × Nat) :=
  [0, 1].filterMap (fun h =>
    let a := max off (h * halfSize)
    let e := min (off + len) ((h + 1) * halfSize)
    if a < e then some (h, (a - h * halfSize) / 16384 * 256, ceilDiv (e - h * halfSize) 16384 * 256) else none)

/-- The parity slot areas and hold areas of the module: half, first, end, by channel offset (R379, R383). -/
def parityAreas (m : Impo) (self : Nat) : List (List (Nat × Nat × Nat)) :=
  let sec := m.sec 5
  let n := m.members.length
  match firstIdx (fun c => c == self) m.members with
  | none => []
  | some r => (List.range (leAt sec 0 1)).flatMap (fun l =>
      let d := max ((secGroup sec n l r).2.2 - 1) 1
      let slots := ceilDiv (128 * (leAt sec 8 8 / 4096)) d
      let p := leAt sec (0x18 + 8 * l) 8
      let e := p + ceilDiv slots 128 * 4096
      [[(0, p, e), (1, p, e)], chanRanges (leAt sec (0x28 + 8 * l) 8) (2 * d * leAt sec 0x10 8)])

/-- Two ranges of one half meet. -/
def rangesMeet (a b : List (Nat × Nat × Nat)) : Bool :=
  a.any (fun x => b.any (fun y => x.1 == y.1 && decide (x.2.1 < y.2.2) && decide (y.2.1 < x.2.2)))

/-- No two of a list of areas meet. -/
def disjoint : List (List (Nat × Nat × Nat)) → Bool
  | [] => true
  | a :: r => r.all (fun b => !rangesMeet a b) && disjoint r

/-- Section 5 (R378, R379). -/
def parityOk (m : Impo) (self : Nat) : Bool :=
  let sec := m.sec 5
  let n := m.members.length
  let ls := leAt sec 0 1
  let nr := leAt sec 4 4
  let cw := leAt sec 8 8
  let rebuild := entries (sec.drop (0x40 + 4 * n * ls)) 4
  let areas := parityAreas m self
  sec.isEmpty || (
    decide (0x40 ≤ sec.length) && decide (ls ≤ 2) && allZero (sliceB sec 1 3) && decide (nr ≤ 64) && allZero (sliceB sec 0x38 8)
    && cw % 2 ^ 20 == 0 && decide (0xA00000 ≤ cw) && decide (cw ≤ 0x1E0000000) && leAt sec 0x10 8 % 64 == 0
    && leAt sec 0x18 8 % 4096 == 0 && leAt sec 0x20 8 % 4096 == 0 && leAt sec 0x28 8 % 65536 == 0 && leAt sec 0x30 8 % 65536 == 0
    && (decide (2 ≤ ls) || (leAt sec 0x20 8 == 0 && leAt sec 0x30 8 == 0))
    && sec.length == 0x40 + 4 * n * ls + 4 * nr
    && (List.range ls).all (fun l => (List.range n).all (fun r =>
      let g := secGroup sec n l r
      let same := (List.range n).filter (fun q => (secGroup sec n l q).1 == g.1)
      decide (2 ≤ g.2.2) && decide (g.2.2 ≤ 16) && decide (g.2.1 < g.2.2) && same.length == g.2.2 && same.all (fun q => (secGroup sec n l q).2.2 == g.2.2)
      && same.all (fun q => q == r || (secGroup sec n l q).2.1 != g.2.1)))
    && (decide (ls < 2) || (List.range n).all (fun r => (List.range n).all (fun q => r == q
      || (secGroup sec n 0 r).1 != (secGroup sec n 0 q).1 || (secGroup sec n 1 r).1 != (secGroup sec n 1 q).1)))
    && (List.range ls).all (fun l => match firstIdx (fun c => c == self) m.members with
      | none => true
      | some r => dramMapped (leAt sec (0x28 + 8 * l) 8) (2 * ((secGroup sec n l r).2.2 - 1) * leAt sec 0x10 8))
    && areas.all (fun a => a.all (fun x => decide (cw ≤ x.2.1 ∨ x.2.1 = x.2.2) && decide (x.2.2 ≤ chanSize))) && disjoint areas
    && rebuild.all (fun e => decide (leAt e 0 2 < n) && !m.members.contains (leAt e 2 2)))

/-- Limits that are answered NO_RESOURCE (R170, R283, R343). -/
def limitsOk (img : Bytes) (m : Impo) (self area : Nat) : Bool :=
  decide (leAt img 0xC 2 ≤ 10240) && decide (secLen img 1 / 2 ≤ 65536) && decide (secLen img 2 / 16 ≤ 65536)
  && (entries (m.sec 7) 64).all (fun e => decide (leAt e 0x18 4 + leAt e 0x16 2 ≤ 65536)) && decide ((m.sec 7).length / 64 ≤ 4096)
  && (m.sec 4 == [] || (decide (nTrees (m.sec 4) ≤ 4096) && decide (nBuckets (m.sec 4) ≤ 2 ^ 20) && decide (areaNeed m self ≤ area)))

/-- The reply to imposition.stage for an image in DRAM, by the groups of R283. -/
def State.stageCheck (s : State) (img : Bytes) (len : Nat) : Nat :=
  let m := impoOf img
  if len < 128 ∨ 2 ^ 26 < len ∨ leAt img 0x60 4 ≠ len ∨ leAt img 0 4 ≠ 0x4C4D494D ∨ !imageCrc img then stBAD
  else if 1 < leAt img 4 2 then stVERSION
  else if !plainOk img || !routingOk (m.sec 6) s.shape || !colOk (m.sec 4) (m.sec 3) m.members.length || !parityOk m s.self
      || (s.fmn.state == .idle && !m.members.contains s.self) then stBAD
  else if m.epoch ≤ s.epoch then stEPOCH
  else if !limitsOk img m s.self (s.reg64 pgCOL 0x048) then stNORES
  else stOK

end Sys2Proof.Machine
end

