-- ==== Sys2Proof/Machine/ImpRows.lean ====
section
/-! DEFINITION. Commands of the imposition controller (R281 to R287): staging, activation, draining, the epoch change. -/

namespace Sys2Proof.Machine

/-- Changes the imposition controller. -/
def State.setImp (s : State) (f : ImpCtl → ImpCtl) : State := { s with imp := f s.imp }

/-- The coordinator of the staged epoch (R286): the lowest chip of its member list. -/
def State.coordinator (s : State) : Option Nat := match s.imp.staged with | none => none | some m => lowest m.members

/-- DRAINED to the coordinator (R284, R313). -/
def State.sendDrained (s : State) : State :=
  match s.imp.staged, s.coordinator with
  | some m, some c => (s.setImp (fun i => { i with drainSent := true })).sendSlice c 7 0 0 (toLE 4 m.epoch ++ toLE 12 0)
  | _, _ => s

/-- IMPOSITION_STAGE (R281 to R283, R323, R343, R379, R413). -/
def execImpositionStage (q : Fin 64) (s : State) : Host.Outcome State Fault Refusal :=
  .next (s.command q.val 0x31 (fun b r x =>
    let off := leAt b 0 8
    let len := leAt b 8 4
    if !x.extentOk off len then x.replyTo r stBAD []
    else
      let (img, _, x) := x.dramLoad off len
      let x := x.pmkCheck 4 (crc32c (patchB img 0x64 [0, 0, 0, 0])) (imageCrc img) 0
      let st := x.stageCheck img len
      if st ≠ stOK then x.refuse r 0x31 st
      else
        let m := impoOf img
        -- an activation accepted for an earlier image is given up with it (log entry 40)
        let y := x.replyAll x.imp.replies stEPOCH
        let z := y.setImp (fun i => { i with staged := some m, accepted := false, replies := [], drainSent := false, activateRx := false, confirms := [] })
        let w := (((z.setN pgIMP 0x044 m.epoch).set64 pgCOL 0x050 (areaNeed m z.self)).latch pgIMP 0).ok r []
        if w.fmn.state = .idle then w.sendDrained else w))

/-- Some domain has REQ = 0 (R438, R494). -/
def State.someReqOff (s : State) : Bool :=
  (List.range 8).any (fun i => !bitOf (s.regN (pgSRT i) 0x030) 0) || (List.range 2).any (fun i => !bitOf (s.regN (pgPGH i) 0x030) 0)
  || (List.range 12).any (fun i => !bitOf (s.regN (pgPPT i) 0x030) 0 && !bitOf (s.regN (pgPRF i) 0x030) 0)

/-- IMPOSITION_ACTIVATE (R284, R494). -/
def execImpositionActivate (q : Fin 64) (s : State) : Host.Outcome State Fault Refusal :=
  .next (s.command q.val 0x32 (fun b r x =>
    match x.imp.staged with
    | none => x.replyTo r stEPOCH []
    | some m => if m.epoch ≠ leAt b 0 4 then x.replyTo r stEPOCH []
      else if x.someReqOff then x.replyTo r stNORES []
      else x.setImp (fun i => { i with accepted := true, replies := i.replies ++ [r] })))

/-- Packets of this module on the untagged lanes, replies and collation, have left a port and are acknowledged (R284). -/
def Port.drained (p : Port) (self : Nat) : Bool :=
  p.queue.all (fun q => q.src != self) && p.txBytes.all (fun b => taggedLane (b.1 / 2) || b.2.isEmpty) && p.replay.all (fun f => taggedLane f.lane)

/-- No request, reply or collation of the old epoch that this module sent is outstanding (R284). -/
def State.drainedOut (s : State) : Bool :=
  s.fab.ports.all (fun p => p.2.drained s.self) &&
  s.fmn.steps.all (fun r => r.await) && s.fab.unreplied.isEmpty && s.fab.out.isEmpty && s.col.outs.isEmpty
  && s.fab.router.all (fun r => r.inPort != 12) && s.fab.arrived.all (fun o => o.pkt.src != s.self)

/-- EPOCH_DRAIN_COMPLETE (R284). -/
def execEpochDrainComplete (s : State) : Host.Outcome State Fault Refusal :=
  if s.imp.drainSent || s.imp.staged.isNone then .next s
  else if s.fmn.state == .idle || (s.imp.accepted && s.drainedOut) then .next s.sendDrained
  else .next s

/-- The staged epoch that the body of an epoch-change packet names. -/
def State.namesStaged (s : State) (p : Packet) : Bool := match s.imp.staged with | some m => leAt (sliceRest p) 0 4 == m.epoch | none => false

/-- The members that have sent DRAINED for an epoch. -/
def ImpCtl.drainedFor (i : ImpCtl) (epoch : Nat) : List Nat := (i.drained.filter (fun d => d.2 == epoch)).map (·.1)

/-- DRAINED at the coordinator (R284, R286): ACTIVATE to every member of the new list when all of them have drained. One that comes before the image is staged here is kept. -/
def execDrained (s : State) : Host.Outcome State Fault Refusal :=
  .next (s.slice 7 (fun p x =>
    let e := leAt (sliceRest p) 0 4
    let y := x.setImp (fun i => { i with drained := i.drained.filter (fun d => d.1 != p.src) ++ [(p.src, e)] })
    match y.imp.staged with
    | none => y
    | some m =>
      if m.epoch = e ∧ y.coordinator = some y.self ∧ m.members.contains p.src ∧ m.members.all (fun c => (y.imp.drainedFor e).contains c) then
        y.sendSliceAll m.members 8 0 0 (toLE 4 e ++ toLE 12 0)
      else y))

/-- ACTIVATE (R284). -/
def execActivate (s : State) : Host.Outcome State Fault Refusal :=
  .next (s.slice 8 (fun p x => if x.namesStaged p then x.setImp (fun i => { i with activateRx := true, tAct := x.reg64 pgDTL 0x040 }) else x))

/-- A shard of section 3 that is homed here; one that this module already held keeps its buffer states, another takes them from its header (R223). -/
def State.shardOf (s : State) (e : Bytes) : Shard :=
  let x : Shard := { table := leAt e 0 2, index := leAt e 2 2, ink := leAt e 6 1 % 128, coff := leAt e 8 8, elems := leAt e 16 4, states := [] }
  match s.par.shards.find? (fun y => y.table == x.table && y.index == x.index && y.ink == x.ink && y.coff == x.coff) with
  | some y => { x with states := y.states }
  | none =>
    if leNat (s.chanPeek x.ink x.coff 4) = x.elems ∧ x.elems ≠ 0 then
      { x with states := ((List.range 5).filter (fun b => s.edn x b != 0xFFFFFFFF)).map (fun b => (b, edPublished)) }
    else x

/-- The home fields that a table takes from section 7 (R169, R414). -/
def Table.homed (t : Table) (sec7 : Bytes) : Table :=
  match (entries sec7 64).find? (fun e => leAt e 0 2 == t.id) with
  | none => t
  | some e => { t with blk := leAt e 0x14 1, nhomes := leAt e 0x16 2, hlBase := leAt e 0x18 4 }

/-- IMMEDIATE_DELTA_RESEND (R382): kept deltas go to the parity homes of the new arrangement. -/
def State.resendKept (s : State) : State :=
  let ks := s.res.kept
  let s0 : State := { s with res := { s.res with kept := [] } }
  ks.foldl (fun (x : State) k =>
    if x.layers ≤ k.layer ∨ x.window ≤ k.coff then x
    else match x.parityHome k.layer (k.chan * x.unitsPerChan + k.coff / 4096) with
      | none => x
      | some d => x.send (x.deltaPkt d k.layer k.chan k.coff 1 0 0 k.data) (.parity k.chan 0 k.serial)) s0

/-- Section 5 without its REBUILD entries. -/
def parityBase (m : Impo) : Bytes :=
  let sec := m.sec 5
  patchB (sec.take (0x40 + 4 * m.members.length * leAt sec 0 1)) 4 [0, 0, 0, 0]

/-- What quiet period an activation starts (R385): 0 none, 1 INIT, 2 REBUILD. -/
def quietReason (old : Option Impo) (m : Impo) : Nat :=
  if leAt (m.sec 5) 4 4 ≠ 0 ∧ leAt (m.sec 5) 0 1 ≠ 0 then 2
  else
    let was : Impo := old.getD { epoch := 0, staleness := 0, layouts := 0, seed := 0, members := [], secs := [] }
    let same := was.members.all (fun c => match firstIdx (fun x => x == c) was.members, firstIdx (fun x => x == c) m.members with
      | some a, some b => a == b
      | _, _ => true)
    if same && (if (was.sec 5).isEmpty then (m.sec 5).isEmpty else parityBase was == parityBase m) then 0 else 1

/-- The REBUILD entries of section 5. -/
def rebuildList (m : Impo) : List (Nat × Nat) :=
  let sec := m.sec 5
  (entries (sec.drop (0x40 + 4 * m.members.length * leAt sec 0 1)) 4).map (fun e => (leAt e 0 2, leAt e 2 2))

/-- Poste restante is delivered in order of arrival (R284). -/
def State.deliverPoste (s : State) : State :=
  let held := s.imp.poste
  held.foldl (fun (x : State) r => x.accept r.pkt) (s.setImp (fun i => { i with poste := [] }))

/-- The member leaves the slice (R204, R279): steps held are discarded, staged slots cleared, its tables deleted. -/
def State.leaveSlice (s : State) (epoch : Nat) : State :=
  let s0 := s.boundary
  let s1 := match s0.fmn.forming with | some f => s0.replyTo f.reply stABORTED [] | none => s0
  let s2 := s1.setFmn (fun f => { f with steps := [], forming := none, staged := [], held := [], takeover := false, resumed := false, leaders := [], fencedMembers := [], editions := [] })
  let s3 := ({ s2 with par := { Params.reset with optNow := s2.par.optNow }, res := Resil.reset, col := { s2.col with halves := [], maps := [], outs := [], exch := [], flags := [] } }).pghDrop (fun _ => true)
  let s4 := s3.setImp (fun i => { i with active := none, staged := none, accepted := false, replies := [], drainSent := false, drained := [], activateRx := false })
  let s4 : State := { s4 with num := { s4.num with undecided := [] } }
  let s5 := (((s4.setN pgIMP 0x040 epoch).setN pgIMP 0x044 0).setN pgCOL 0x058 0).setMod .idle
  (s5.latch pgIMP 1).replyAll s.imp.replies stOK

/-- A new epoch's values on this chip, at the boundary: the active image, its registers, the shards it holds and its scale records (R284, R324). -/
def State.enterEpoch (s0 : State) (m : Impo) : State :=
  let leader := (lowest m.members).getD 0
  let deputy := (lowest (m.members.filter (· != leader))).getD 0x3FFF
  let rank := (firstIdx (fun c => c == s0.self) m.members).getD 0
  let micros := min ((s0.reg64 pgDTL 0x040 - s0.imp.tAct) / 1000) 0xFFFFFFFF
  let s1 := s0.setImp (fun i => { i with active := some m, staged := none, accepted := false, replies := [], drainSent := false, drained := i.drained.filter (fun d => decide (m.epoch < d.2)), activateRx := false })
  let s2 := (((((s1.setN pgIMP 0x040 m.epoch).setN pgIMP 0x044 0).setN pgIMP 0x04C rank).setN pgIMP 0x060 micros).setField pgFMN 0x050 0 14 leader).setField pgFMN 0x050 16 14 deputy
  let s3 : State := { s2 with fab := { s2.fab with nextTag := [], windows := [], unreplied := [] } }
  let shards := ((entries (m.sec 3) 32).filter (fun e => leAt e 4 2 % 16384 == s3.self)).map (fun e => s3.shardOf e)
  let s4 := s3.setPar (fun p => { p with
    shards := shards, tables := p.tables.map (fun t => (t.1, t.2.homed (m.sec 7))), creating := p.creating.map (fun t => t.homed (m.sec 7)) })
  s4.setFmn (fun f => { f with
    forming := f.forming.map (fun w => { w with scale := w.scale.map (fun r => { r with epoch := m.epoch }) }),
    fencedMembers := f.fencedMembers.filter (fun c => m.members.contains c) })

/-- The forming step's scale record takes its place in the table (R73, R284). -/
def State.keepScale (s : State) : State :=
  match s.fmn.forming with
  | some f => (match f.scale with | some r => s.putRecord r | none => s)
  | none => s

/-- Work that ends with the old epoch: quiet work, rebuilds and repairs (R284); an idle Foreman joins. -/
def State.clearWork (s5 : State) (m : Impo) : State :=
  let s6 : State := { s5 with res := { s5.res with busy := none, quietSent := false, job := none, asks := [], lead := none, quiets := [], dones := [], repairs := [], rebuilds := [], suspects := [] } }
  let s7 := (s6.setN pgCOL 0x058 (nodesHosted m s6.self)).setField pgPMS 0x044 28 4 0
  if s7.fmn.state = .idle then (s7.setFmn (fun f => { f with anyDecided := false })).setMod .joined else s7

/-- The leader starts the quiet work that the difference between the epochs asks for (R284, R324). -/
def State.startWork (s : State) (old : Option Impo) (m : Impo) (leader : Nat) : State :=
  let reason := quietReason old m
  if leader ≠ s.self ∨ reason = 0 then s
  else if reason = 1 then s.startQuiet 1 0x3FFF
  else ({ s with res := { s.res with rebuilds := rebuildList m } }).nextRebuild

/-- The member activates the staged epoch (R284, R324). -/
def State.activateEpoch (s : State) (m : Impo) : State :=
  let s0 := s.boundary
  let leader := (lowest m.members).getD 0
  let s8 := ((s0.enterEpoch m).keepScale).clearWork m
  let s9 := (s8.latch pgIMP 1).deliverPoste.resendKept
  let s10 := s9.sendSlice leader 9 0 0 (toLE 4 m.epoch ++ toLE 12 0)
  (s10.replyAll s.imp.replies stOK).startWork s0.imp.active m leader

/-- EPOCH_ACTIVATION (R284): after ACTIVATE, or for a member that the new list leaves out, once it has drained. -/
def execEpochActivation (s : State) : Host.Outcome State Fault Refusal :=
  match s.imp.staged with
  | none => .next s
  | some m =>
    if m.members.contains s.self then (if s.imp.activateRx then .next (s.activateEpoch m) else .next s)
    else if s.imp.accepted && s.imp.drainSent && s.drainedOut then .next (s.leaveSlice m.epoch)
    else .next s

/-- CONFIRM at the leader (R284): CONFIRMED when all have confirmed; held steps go on when no quiet period follows (R279). -/
def execConfirm (s : State) : Host.Outcome State Fault Refusal :=
  .next (s.slice 9 (fun p x =>
    let e := leAt (sliceRest p) 0 4
    let y := if e = x.epoch ∨ x.namesStaged p then x.setImp (fun i => { i with confirms := setIns i.confirms p.src }) else x
    if y.isLeader && e == y.epoch && y.members.all (fun c => y.imp.confirms.contains c) then
      let z := (y.setImp (fun i => { i with confirms := [] })).sendSliceAll y.members 0x0A 0 0 (toLE 4 e ++ toLE 12 0)
      if z.res.lead.isNone then z.resumeHeld else z
    else y))

/-- FORWARDING_DROP (R228): entries whose override the confirmed epoch holds. -/
def State.dropForwards (s : State) : State :=
  let gone := s.par.migs.filter (fun m => m.state == .forwarding && overrideFind (s.sec 2) m.table m.row == some m.dest)
  gone.foldl (fun (x : State) m => (x.setPar (fun p => { p with migs := p.migs.filter (fun u => u != m) })).latch (pgINK m.ink) 8) s

/-- CONFIRMED (R228, R284). -/
def execConfirmed (s : State) : Host.Outcome State Fault Refusal :=
  .next (s.slice 0x0A (fun p x =>
    let e := leAt (sliceRest p) 0 4
    if e = x.epoch ∧ x.imp.active.isSome then ((x.setN pgIMP 0x048 e).latch pgIMP 2).dropForwards else x))

end Sys2Proof.Machine
end

