-- ==== Sys2Proof/Machine/Tables.lean ====
section
/-! DEFINITION. Tables (R168, R169, R202 to R204, R375, R383, R414): their checks, areas, descriptors, creation and deletion; the configuration area. -/

namespace Sys2Proof.Machine

/-- h(b) of R383. -/
def holdBytes (b : Nat) : Nat := b + 64 * (ceilDiv b 4096 + 1)

/-- The commit volume of a list of tables (R383). -/
def State.volumeOf (s : State) (ts : List Table) : Nat :=
  let tier := ts.filter (·.hasTier)
  ts.foldl (fun a t =>
    if t.dense then
      (s.par.shards.filter (fun x => x.table == t.id)).foldl (fun b x => b + holdBytes 64 + holdBytes (2 * x.elems) + holdBytes (shardMom t.opt x.elems)) a
    else a + t.inkSet.2 * (t.dslots * holdBytes t.recB)) 0
  + (if tier.isEmpty then 0 else 2 * 65536 * (holdBytes (tier.foldl (fun a t => max a t.recB) 0) + holdBytes 64))

/-- The tables with a directory entry. -/
def State.tableList (s : State) : List Table := s.par.tables.map (·.2)

/-- The table of table.create's arguments (R414): the directory entry, then the Inker block; home fields from section 7. -/
def tableOf (b : Bytes) (sec7 : Bytes) (p : Placement) : Table :=
  let k := b.drop 64
  let dense := leAt k 0 1 == 1
  let fmt := leAt b 3 1
  let width := leAt b 4 2
  let opt := leAt k 1 1
  let mfmt := leAt k 2 1
  let img := if dense then 0 else imgBytesOf fmt width
  let t : Table :=
    { id := leAt b 0 2 % 4096, flags := leAt b 2 1, fmt := fmt, width := width, eT := sext 16 (leAt b 6 2), rows := leAt b 8 8, img := img,
      blk := 0, nhomes := 1, hlBase := 0, dense := dense, opt := opt, mfmt := mfmt, place := leAt k 3 1, lsb := sext 16 (leAt k 4 2),
      tierQp := leAt k 6 2 % 1024, dslots := leAt k 8 4, mslots := leAt k 0xC 4, pslots := leAt k 0x10 4, pfreq := leAt k 0x14 4, ldram := leAt k 0x18 8,
      tierBase := leAt k 0x20 8, tierKey := leAt k 0x28 4, recB := if dense then 0 else recBytesOf fmt width opt mfmt,
      seg := p.seg, delta := p.delta, jrn := p.jrn, mig := p.mig, promo := p.promo, res := p.res }
  t.homed sec7

/-- The formats of a SPARSE table (R168). -/
def sparseFmt (f : Nat) : Bool := [0xA, 0xB, 0, 1, 8, 9].contains f

/-- The BAD_ARGUMENT conditions of table.create on its arguments (R168, R203, R414). -/
def State.tableArgsOk (s : State) (b : Bytes) : Bool :=
  let k := b.drop 64
  let dense := leAt k 0 1 == 1
  let flags := leAt b 2 1
  let repl := bitOf flags 1
  let direct := bitOf flags 3
  let tier := bitOf flags 4
  let fmt := leAt b 3 1
  let width := leAt b 4 2
  let rows := leAt b 8 8
  let opt := leAt k 1 1
  let mfmt := leAt k 2 1
  let listed := (entries (s.sec 7) 64).any (fun e => leAt e 0 2 == leAt b 0 2)
  !bitOf flags 0 && decide (flags < 32) && allZero (sliceB b 0x10 48) && decide (1 ≤ rows) && decide (rows ≤ 2 ^ 40)
  && decide (leAt k 0 1 ≤ 1) && decide (opt ≤ 7) && (mfmt == 0xA || mfmt == 0 || mfmt == 1) && decide (leAt k 3 1 ≤ 2) && decide (leAt k 6 2 < 1024)
  && allZero (sliceB k 0x2C 20)
  && (if dense then width == 0 && fmt == 0xA && !repl && !direct && !tier && mfmt == 0xA
      else width % 8 == 0 && decide (8 ≤ width) && decide (width ≤ 1024) && sparseFmt fmt
        && (!repl || decide (rows * width * elemBytes fmt ≤ 2 ^ 28)) && !(direct && (repl || tier)) && (!direct || opt == 0)
        && decide (recBytesOf fmt width opt mfmt ≤ 6208) && (repl || listed))

/-- The home index of this module in a table's home list. -/
def State.homeIndex (s : State) (t : Table) : Option Nat := (List.range t.nhomes).find? (fun h => s.homeEntry (t.hlBase + h) == s.self)

/-- Local rows of this module (R205): its whole blocks. -/
def State.localRows (s : State) (t : Table) : Nat :=
  if t.repl then t.rows
  else match s.homeIndex t with
    | none => 0
    | some h =>
      let blocks := ceilDiv t.rows (2 ^ t.blk)
      if h < blocks then ceilDiv (blocks - h) (max t.nhomes 1) * 2 ^ t.blk else 0

/-- The areas of a table at an Inker by channel offset, with whether they belong inside the parity window (R375): first, bytes, inside. -/
def State.tableAreas (s : State) (t : Table) (ink : Nat) : List (Nat × Nat × Bool) :=
  let n := t.inkSet.2
  let jrnShards := (s.shardsAt t.id ink).foldl (fun a y => a + up64 (96 + shardMom t.opt y.elems)) 0
  if t.dense then [(t.jrn, jrnShards, false)]
  else
    [(t.seg, ceilDiv t.ldram n * t.recB, true), (t.delta, 2 * t.dslots * dslotBytes t.width, false), (t.jrn, t.dslots * t.jrnEntry, false),
     (t.mig, t.mslots * t.migStride, true), (t.promo, (if t.hasTier then t.pslots * t.promoStride else 0), true),
     (t.res, (if t.hasTier then 4 * ceilDiv (s.localRows t - t.ldram) n else 0), true)]

/-- The DRAM extent of a PUT data area. -/
def putArea : Nat := putEntries * 16384

/-- Every area of a table in the form of `rangesMeet`, one list for each; Inkers stand in place of halves. -/
def State.areasOf (s : State) (t : Table) : List (List (Nat × Nat × Nat)) :=
  (s.inksOf t).flatMap (fun i => ((s.tableAreas t i).filter (fun a => a.2.1 != 0)).map (fun a => [(i, a.1, a.1 + a.2.1)]))

/-- A range of both halves or of one half, spread over its Inkers. -/
def byInk (r : List (Nat × Nat × Nat)) : List (Nat × Nat × Nat) := r.flatMap (fun x => (List.range 64).map (fun i => (64 * x.1 + i, x.2.1, x.2.2)))

/-- The shards that section 3 places here come into a dense table that is created again after its deletion (R204, R282). -/
def State.takeShards (s : State) (id : Nat) : State :=
  if s.par.shards.any (fun x => x.table == id) then s
  else
    let es := (entries (s.sec 3) 32).filter (fun e => leAt e 0 2 == id && leAt e 4 2 % 16384 == s.self)
    let new := es.map (fun e => { s.shardOf e with states := [] })
    s.setPar (fun p => { p with shards := p.shards ++ new })

/-- The area of a shard under an optimiser. -/
def Shard.area (x : Shard) (opt : Nat) : List (Nat × Nat × Nat) := [(x.ink, x.coff, x.coff + shardBytes opt x.elems)]

/-- The areas in use but for the shards of table `id`: tables, shards, PUT data areas, parity slots and hold areas. -/
def State.usedAreas (s : State) (id : Nat) : List (List (Nat × Nat × Nat)) :=
  (s.tableList ++ s.par.creating).flatMap (fun t => s.areasOf t)
  ++ (s.par.shards.filter (fun x => x.table != id)).map (fun x => x.area (match s.table? x.table with | some t => t.opt | none => 4))
  ++ [0, 1].filterMap (fun f => (s.putOf f).base.map (fun b => byInk (chanRanges b putArea)))
  ++ (match s.imp.active with | none => [] | some m => (parityAreas m s.self).map byInk)

/-- The PUT data areas that this table.create reserves (R230). -/
def State.newPuts (s : State) (t : Table) (p : Placement) : List (Nat × Nat) :=
  if t.hasTier then [0, 1].filterMap (fun f =>
    if (s.putOf f).base.isNone && (s.inksOf t).any (fun i => inkFolio i == f) then some (f, if f = 0 then p.put0 else p.put1) else none) else []

/-- A placement that the module can make: aligned areas above the replacement area, inside the channel, that meet nothing. -/
def State.placeFits (s : State) (t : Table) (p : Placement) : Bool :=
  let mine := s.areasOf t
  let own := if t.dense then (s.par.shards.filter (fun x => x.table == t.id)).map (fun x => x.area t.opt) else []
  let puts := (s.newPuts t p).map (fun x => byInk (chanRanges x.2 putArea))
  let used := s.usedAreas t.id
  mine.all (fun a => a.all (fun x => x.2.1 % 64 == 0 && decide (0x980000 ≤ x.2.1) && decide (x.2.2 ≤ chanSize)))
  && (s.newPuts t p).all (fun x => x.2 % 16384 == 0 && decide (x.1 * halfSize ≤ x.2) && decide (x.2 + putArea ≤ (x.1 + 1) * halfSize))
  && puts.all (fun a => a.all (fun x => decide (0x980000 ≤ x.2.1)))
  && disjoint (own ++ mine ++ puts) && (own ++ mine ++ puts).all (fun a => used.all (fun b => !rangesMeet a b))

/-- The layout needs a channel offset at or above 0x1_E000_0000 (R242). -/
def State.pastChannel (s : State) (t : Table) : Bool := (s.areasOf t).any (fun a => a.any (fun x => decide (chanSize < x.2.2)))

/-- No place at all keeps the areas of a table inside a channel (R242). -/
def State.tooLong (s : State) (t : Table) : Bool :=
  (s.inksOf t).any (fun i => decide (chanSize < 0x980000 + ((s.tableAreas t i).foldl (fun a x => a + x.2.1) 0)))

/-- The rule of R375 for the areas of a new table: parameter areas inside the window, Delta and journal areas outside it. -/
def State.placeWindow (s : State) (t : Table) (p : Placement) : Bool :=
  s.window == 0 || (
    (s.inksOf t).all (fun i => (s.tableAreas t i).all (fun a => a.2.1 == 0 || (if a.2.2 then decide (a.1 + a.2.1 ≤ s.window) else decide (s.window ≤ a.1))))
    && (s.newPuts t p).all (fun x => (chanRanges x.2 putArea).all (fun r => decide (r.2.2 ≤ s.window))))

/-- An accepted table.create reserves its PUT data areas, and its table waits for the boundary (R168, R230). -/
def State.createPending (s : State) (t : Table) (p : Placement) : State :=
  ((s.newPuts t p).foldl (fun (z : State) u => z.modPut u.1 (fun f => { f with base := some u.2 })) s).setPar (fun k => { k with creating := k.creating ++ [t] })

/-- Room for the table and for the commit volume that it adds (R168, R375, R383). -/
def State.hasRoom (s v : State) (t : Table) (p : Placement) : Bool :=
  v.placeFits t p && (s.window == 0 || decide (v.volumeOf (t :: s.par.creating ++ s.tableList) ≤ s.vmax))

/-- TABLE_CREATE (R168, R203, R375, R383, R414): `place` is where the module finds room, none when the areas do not fit. -/
def execTableCreate (q : Fin 64) (place : Option Placement) (s : State) : Host.Outcome State Fault Refusal :=
  .next (s.command q.val 0x40 (fun b r x =>
    let id := leAt b 0 2
    if x.imp.active.isNone then x.refuse r 0x40 stILLEGAL
    else if 4096 ≤ id then x.replyTo r stNORES []
    else if !x.tableArgsOk b || kvHas x.par.tables id then x.replyTo r stBAD []
    else if x.par.creating.any (fun t => t.id == id) then x.replyTo r stNORES []
    else
      let v := if leAt b 0x40 1 = 1 then x.takeShards id else x
      let t := tableOf b (x.sec 7) (place.getD { seg := 0, delta := 0, jrn := 0, mig := 0, promo := 0, res := 0, put0 := 0, put1 := 0 })
      match place with
      | none => x.replyTo r (if v.tooLong t then stBAD else stNORES) []
      | some p =>
        if !v.placeWindow t p ∨ v.pastChannel t then x.replyTo r stBAD []
        else if !x.hasRoom v t p then x.replyTo r stNORES []
        else (x.createPending t p).ok r []))

/-- The Inker table descriptor (R202). -/
def Table.descr (t : Table) : Bytes :=
  toLE 2 t.id ++ toLE 1 (b2n t.dense + 2 * b2n t.direct + 4 * b2n t.repl + 8 * b2n t.hasTier + 16 * t.opt) ++ toLE 1 t.mfmt ++ toLE 2 t.width ++ toLE 2 (wrapN 16 t.lsb)
  ++ toLE 4 t.recB ++ toLE 1 t.place ++ toLE 3 0 ++ toLE 8 t.seg ++ toLE 8 t.ldram ++ toLE 8 t.delta ++ toLE 4 t.dslots ++ toLE 4 t.mslots
  ++ toLE 8 t.jrn ++ toLE 8 t.mig ++ toLE 8 t.promo ++ toLE 4 t.pslots ++ toLE 4 t.pfreq ++ toLE 8 t.res ++ toLE 8 t.tierBase ++ toLE 4 t.tierKey
  ++ toLE 2 t.tierQp ++ toLE 26 0

/-- REP_BASE (R169, R205): the DRAM offset of record 0 of a replicated table. -/
def Table.repBase (t : Table) : Nat := if t.repl then dramOffset t.inkSet.1 t.seg else 0

/-- The directory entry (R169). -/
def Table.entry (t : Table) : Bytes :=
  toLE 2 t.id ++ toLE 1 (setFld t.flags 0 1 1) ++ toLE 1 t.fmt ++ toLE 2 t.width ++ toLE 2 (wrapN 16 t.eT) ++ toLE 8 t.rows ++ toLE 4 t.img
  ++ toLE 1 t.blk ++ toLE 1 0 ++ toLE 2 t.nhomes ++ toLE 4 t.hlBase ++ toLE 4 0 ++ toLE 8 t.repBase ++ toLE 24 0

/-- The optimiser record in DRAM of a table at an Inker (R215). -/
def State.optInDram (s : State) (ink : Nat) (t : Table) : OptRec :=
  let b := s.dram.read (s.inForce64 (pgINK ink) 0x098 + 64 * t.id) 64
  let o := optOf b
  if o.opt = t.opt then o else s.optFor 0 ink t.id

/-- A new record (R208): zero payload (code 128 in format 0x9, whose zero point is 128), initial moments, VALID. -/
def State.initRecord (s : State) (ink : Nat) (t : Table) : Bytes :=
  rowHeader 0 0 1 0 ++ sliceB (payloadBytes t.fmt t.width 0 (List.replicate t.width (if t.fmt = 9 then 128 else 0))) 0 (t.img - 16) ++ initMoments (s.optInDram ink t) t.opt t.mfmt t.width

/-- The records, residence words and slots of a new sparse table at one Inker (R208, R229, R232). -/
def State.initSparse (s : State) (t : Table) (ink : Nat) : State :=
  let (f, n) := t.inkSet
  let recs := if ink - f < t.ldram then ceilDiv (t.ldram - (ink - f)) n else 0
  let new := s.initRecord ink t
  let s1 := (List.range recs).foldl (fun (x : State) i => (x.winPut ink (t.seg + i * t.recB) new).1) s
  let s2 := (s1.chanZero ink t.delta (2 * t.dslots * dslotBytes t.width)).chanZero ink t.jrn (t.dslots * t.jrnEntry)
  let s3 := (List.range t.mslots).foldl (fun (x : State) i => (x.winPut ink (t.mig + i * t.migStride) (toLE 8 0)).1) s2
  if t.hasTier then
    let s4 := (List.range t.pslots).foldl (fun (x : State) i => (x.winPut ink (t.promo + i * t.promoStride + t.recB) (toLE 8 0)).1) s3
    (List.range (ceilDiv (s4.localRows t - t.ldram) n)).foldl (fun (x : State) i => (x.winPut ink (t.res + 4 * i) (toLE 4 0xFFFFFFFF)).1) s4
  else s3

/-- A shard of a new dense table (R223, R273): header, zero or initial moments; edition STEP_NEXT is published in buffer 0. -/
def State.initShard (s : State) (t : Table) (x : Shard) : State :=
  let o := s.optInDram x.ink t
  let hdr := toLE 4 x.elems ++ toLE 4 0 ++ toLE 4 (s.stepNext % 2 ^ 32) ++ (List.range 4).flatMap (fun _ => toLE 4 0xFFFFFFFF) ++ toLE 36 0
  let mb := shardMom t.opt x.elems
  let mom := if mb = 0 then [] else sliceB (initMoments o t.opt 10 x.elems) 0 mb
  let s1 := (s.winPut x.ink x.coff hdr).1
  let s2 := (s1.winPut x.ink (x.coff + 64 + 10 * x.elems) mom).1
  s2.setPar (fun p => { p with shards := p.shards.map (fun y => if y.table == x.table && y.index == x.index then { y with states := [(0, edPublished)] } else y) })

/-- The configuration area of the Inkers of a table, and the PUT data areas (R375). -/
def State.cfgTable (s : State) (id : Nat) (inks : List Nat) (desc : Bytes) : State :=
  let s1 := inks.foldl (fun (x : State) i => (x.winPut i (id * 128) desc).1) s
  [0, 1].foldl (fun (x : State) f =>
    let v := toLE 8 ((x.putOf f).base.getD 0)
    if x.chanPeek 0 (0x84008 + 8 * f) 8 = v then x else (x.winPut 0 (0x84008 + 8 * f) v).1) s1

/-- An accepted table takes effect: directory, records or shards, descriptors (R168, R202, R208, R273). -/
def State.enterTable (s : State) (t : Table) : State :=
  let y := (if t.dense then s.takeShards t.id else s).setPar (fun p => { p with tables := kvSet p.tables t.id t })
  let z := if t.dense then (y.par.shards.filter (fun u => u.table == t.id)).foldl (fun (w : State) u => w.initShard t u) (y.noteEdition y.stepNext)
    else (y.inksOf t).foldl (fun (w : State) i => w.initSparse t i) y
  z.cfgTable t.id (z.inksOf t) t.descr

/-- TABLE_CREATE_APPLY (R33, R168, R202, R208, R385): at a step boundary outside a quiet period, the accepted tables take effect. -/
def execTableCreateApply (s : State) : Host.Outcome State Fault Refusal :=
  if s.par.creating.isEmpty || s.res.busy.isSome then .next s
  else
    let s0 := s.boundary
    .next (s0.par.creating.foldl (fun (x : State) t => x.enterTable t) (s0.setPar (fun p => { p with creating := [] })))

/-- A dense table that a GRAD bucket of the active imposition names (R204). -/
def State.gradTable (s : State) (t : Nat) : Bool := s.gradBuckets.any (fun b => (bucketAt s.colSec b).table == t)

/-- TABLE_DELETE (R204). -/
def execTableDelete (q : Fin 64) (s : State) : Host.Outcome State Fault Refusal :=
  .next (s.command q.val 0x41 (fun b r x =>
    let id := leAt b 0 2
    match x.table? id with
    | none => x.replyTo r stBAD []
    | some t =>
      if x.par.repls.any (fun u => u.table == id) ∨ x.par.migs.any (fun m => m.table == id) ∨ (t.dense ∧ x.gradTable id) then x.replyTo r stBAD []
      else if x.par.deleting.any (fun d => d.id == id) then x.replyTo r stNORES []
      else x.setPar (fun p => { p with deleting := p.deleting ++ [{ id := id, reply := r }] })))

/-- One deletion takes effect (R204): directory entry, descriptors, areas, cache entries. -/
def State.deleteTable (s : State) (d : WaitDelete) : State :=
  let inks := match s.table? d.id with | some t => s.inksOf t | none => []
  let s1 := s.cfgTable d.id inks (List.replicate 128 0)
  let s2 := s1.setPar (fun p => { p with
    tables := kvDel p.tables d.id, migIns := p.migIns.filter (fun m => m.table != d.id),
    shards := p.shards.filter (fun x => x.table != d.id) })
  ([0, 1].foldl (fun (x : State) c => x.dropWays c (fun w => w.table == d.id)) s2).replyTo d.reply stOK []

/-- TABLE_DELETE_APPLY (R204): at a boundary with no step forming or unreleased. -/
def execTableDeleteApply (s : State) : Host.Outcome State Fault Refusal :=
  if s.par.deleting.isEmpty || !s.fmn.steps.isEmpty || s.fmn.forming.isSome || s.res.busy.isSome then .next s
  else
    let s0 := s.boundary
    let ds := s0.par.deleting
    .next (ds.foldl (fun (x : State) d => x.deleteTable d) (s0.setPar (fun p => { p with deleting := [] })))

/-- The table whose descriptor an Inker's configuration area holds, with the rest of its directory entry from section 7 (R282, R375, R387). -/
def State.tableFromCfg (s : State) (id : Nat) : Option Table :=
  match (List.range 128).find? (fun i => !allZero (s.chanPeek i (id * 128) 128)), (entries (s.sec 7) 64).find? (fun e => leAt e 0 2 == id) with
  | some i, some e =>
    let d := s.chanPeek i (id * 128) 128
    let mode := leAt d 2 1
    some { id := id, flags := leAt e 2 1, fmt := leAt e 3 1, width := leAt d 4 2, eT := sext 16 (leAt e 6 2), rows := leAt e 8 8,
           img := if bitOf mode 0 then 0 else imgBytesOf (leAt e 3 1) (leAt d 4 2), blk := leAt e 0x14 1, nhomes := leAt e 0x16 2, hlBase := leAt e 0x18 4,
           dense := bitOf mode 0, opt := mode / 16, mfmt := leAt d 3 1, place := leAt d 0xC 1, lsb := sext 16 (leAt d 6 2), tierQp := leAt d 0x64 2 % 1024,
           dslots := leAt d 0x28 4, mslots := leAt d 0x2C 4, pslots := leAt d 0x48 4, pfreq := leAt d 0x4C 4, ldram := leAt d 0x18 8, tierBase := leAt d 0x58 8,
           tierKey := leAt d 0x60 4, recB := leAt d 8 4, seg := leAt d 0x10 8, delta := leAt d 0x20 8, jrn := leAt d 0x30 8, mig := leAt d 0x38 8,
           promo := leAt d 0x40 8, res := leAt d 0x50 8 }
  | _, _ => none

/-- The migrated-in rows that the slot tags of a table show (R229). -/
def State.slotsHeld (s : State) (t : Table) : List MigIn :=
  if t.dense then []
  else (s.inksOf t).flatMap (fun i => (List.range t.mslots).filterMap (fun k =>
    let tag := leNat (s.chanPeek i (t.mig + k * t.migStride) 8)
    if bitOf tag 40 then some { table := t.id, row := fld tag 0 40, ink := i, slot := k, valid := true } else none))

/-- A replacement loads tables, the tensor table and the base offsets from its rebuilt configuration area (R375, R387). -/
def State.loadConfig (s : State) : State :=
  let s0 := s.boundary
  let ts := (List.range 4096).filterMap (fun id => s0.tableFromCfg id)
  let ent := fun (i : Nat) => s0.chanPeek 0 (0x80000 + 16 * i) 16
  let tt := (List.range 1024).foldl (fun (m : AMap TensorEnt) i =>
    if allZero (ent i) then m
    else kvSet m i { tid := leAt (ent i) 0 4, word := leAt (ent i) 4 4, hist := [], silent := 0, reported := false, sCur := sext 16 (leAt (ent i) 10 2) }) s0.num.table
  let opt := leNat (s0.chanPeek 0 0x84000 8)
  let s1 := s0.setPar (fun p => { p with tables := ts.foldl (fun m t => kvSet m t.id t) p.tables })
  let s2 := [0, 1].foldl (fun (x : State) f =>
    let v := leNat (x.chanPeek 0 (0x84008 + 8 * f) 8)
    if v = 0 then x else x.modPut f (fun u => { u with base := some v })) s1
  let s3 := (List.range 128).foldl (fun (x : State) i => x.set64 (pgINK i) 0x098 opt) { s2 with num := { s2.num with table := tt } }
  let secs := (entries (s3.sec 3) 32).filter (fun e => leAt e 4 2 % 16384 == s3.self)
  let s4 := s3.setPar (fun p => { p with shards := [] })
  s4.setPar (fun p => { p with shards := secs.map (fun e => s4.shardOf e), migIns := ts.flatMap (fun t => s4.slotsHeld t) })

/-- What the end of a member's parity work leaves, by the reason of the quiet period (R369, R385, R387): 1 INIT, 2 REBUILD, 3 REPAIR. -/
def State.workEnded (s : State) (j : Job) (ms : Nat) : State :=
  let s0 := s.setJob none
  if j.reason = 3 then
    let s1 := if j.failed ≠ 0 then s0.parLost else s0
    { s1 with res := { s1.res with asks := s1.res.asks.filter (fun a => !j.items.contains a || (let p := s1.itemAt a; s1.dram.bad (dramOffset p.1 p.2 / 64))) } }
  else
    let s1 := s0.setN pgPMS 0x058 (min ms 0xFFFFFFFF)
    if j.reason = 2 then s1.loadConfig.latch pgPMS 4 else s1

/-- PARITY_WORK_DONE (R369, R385, R387): PAR_DONE when every item of the member's work is written; `ms` is how long it took. -/
def execParityWorkDone (ms : Nat) (s : State) : Host.Outcome State Fault Refusal :=
  match s.res.job with
  | none => .next s
  | some j =>
    if j.next < j.total then .next s
    else
      let s3 := s.workEnded j ms
      .next (s3.sendRes s3.leader 0x17 (toLE 1 (b2n (j.failed != 0)) ++ toLE 7 0 ++ toLE 8 (j.total - j.failed)) (.slice 0x17 0 0))

end Sys2Proof.Machine
end

