-- ==== Sys2Proof/Machine/InkRows.lean ====
section
/-! DEFINITION. Commands of the Inkers and of the remote tier (R39, R179, R205 to R232). -/

namespace Sys2Proof.Machine

/-- A COMMIT operation of an older step, which can run, goes before a queued operation (R38, R209). -/
def State.itemFirst (s : State) (ink step : Nat) : Bool :=
  match s.nextItem ink with
  | none => false
  | some it => decide (it.step < step) && (match it.kind with
    | .row => true
    | .shard => (match s.par.shards.find? (fun x => x.table == it.table && x.index == it.idx) with | some x => x.freeBuf.isSome | none => true)
    | .put => (match kvFind (s.putOf (inkFolio it.ink)).ents it.idx with | some e => e.image || !s.hasFetch it.ink it.table e.row | none => true))

/-- Runs the next row operation of an Inker when it is of a kind (R38, R209). -/
def State.runOp (s : State) (ink : Nat) (kinds : List Nat) (f : RowOp → State → State) : State :=
  match s.nextOp ink with
  | none => s
  | some (i, o) => if kinds.contains o.kind ∧ !s.itemFirst ink o.step then f o (s.takeOp ink i) else s

/-- A contribution; a poisoned record of a DIRECT table asks for line repair (R214, R369). -/
def State.runContrib (s : State) (ink : Nat) (o : RowOp) : State :=
  let direct := match s.table? o.table with
    | some t => t.direct && (match s.recLoc t ink (s.rowKey t o.row).2 with | .dram co => s.chanBad ink co t.recB | _ => false)
    | none => false
  if direct then (s.doContrib ink o).askRepairs else s.doContrib ink o

/-- INKER_READ (R205, R231, R268). -/
def execInkerRead (ink : Fin 128) (s : State) : Host.Outcome State Fault Refusal := .next (s.runOp ink.val [0] (fun o x => x.doRead ink.val o))

/-- INKER_CONTRIB (R209 to R214, R231). -/
def execInkerContrib (ink : Fin 128) (s : State) : Host.Outcome State Fault Refusal := .next (s.runOp ink.val [1] (fun o x => x.runContrib ink.val o))

/-- INKER_GATHER (R224). -/
def execInkerGather (ink : Fin 128) (s : State) : Host.Outcome State Fault Refusal := .next (s.runOp ink.val [2] (fun o x => x.doGather ink.val o))

/-- DENSE_SUM (R209, R351). -/
def execDenseSum (ink : Fin 128) (s : State) : Host.Outcome State Fault Refusal :=
  .next (s.runOp ink.val [3] (fun o x =>
    let y := x.writeSum o
    match o.req with
    | .sum id k => y.sumWritten id o.step o.slot k
    | _ => y))

/-- ROW_LOCK_RESUME (R210, R228, R268): the wait of a row operation is over, and it proceeds. -/
def execRowLockResume (ink : Fin 128) (s : State) : Host.Outcome State Fault Refusal :=
  .next (s.runOp ink.val [0, 1, 2] (fun o x => if o.kind = 0 then x.doRead ink.val o else if o.kind = 1 then x.runContrib ink.val o else x.doGather ink.val o))

/-- One item of the oldest committing step runs; a failure asks for line repair (R220, R222, R369). -/
def State.commitStep (s : State) (it : Item) : State :=
  let s1 := s.runItem it
  let s2 := if s1.par.items.any (fun i => i.serial == it.serial && i.failed) then s1.askRepairs else s1
  s2.tryCommitDone

/-- INKER_COMMIT (R217 to R223, R231). -/
def execInkerCommit (ink : Fin 128) (s : State) : Host.Outcome State Fault Refusal :=
  match s.nextItem ink.val with
  | none => .next s
  | some it => .next (s.commitStep it)

/-- COMMIT_BUFFER_RESUME (R225): a shard's commit waited for a construction buffer, and one is free. -/
def execCommitBufferResume (ink : Fin 128) (s : State) : Host.Outcome State Fault Refusal :=
  match s.nextItem ink.val with
  | none => .next s
  | some it =>
    let free : Bool := match s.par.shards.find? (fun x => x.table == it.table && x.index == it.idx) with | some x => x.freeBuf.isSome | none => false
    if it.kind == ItemKind.shard && it.waited && free then .next (s.commitStep it) else .next s

/-- Every Inker has restored step `n`: its journal, its commit fetches and its half are free, and the rollback ends (R221). -/
def State.restoredAll (s : State) (n : Nat) : State :=
  let s1 := s.setPar (fun p => { p with restoreStep := none, jrn := setDel p.jrn n, fetches := p.fetches.filter (fun f => !(f.commit && f.step == n)) })
  ([0, 1].foldl (fun (x : State) f => x.freeEnts f) (s1.clearHalf (n % 2))).rollbackDone n

/-- INKER_RESTORE (R221): one Inker restores the step that is rolled back first; the last one ends the rollback. -/
def execInkerRestore (ink : Fin 128) (s : State) : Host.Outcome State Fault Refusal :=
  match s.par.restoreStep with
  | none => .next s
  | some n =>
    if !s.par.restoring.contains ink.val then .next s
    else
      let (s1, _) := s.restoreInk ink.val n
      let left := setDel s1.par.restoring ink.val
      let s2 := s1.setPar (fun p => { p with restoring := left })
      .next (if left.isEmpty then s2.restoredAll n else s2)

/-- Fetches under way on a queue pair, and in all (R37). -/
def State.fetchesOut (s : State) (qp : Option Nat) : Nat :=
  (s.par.fetches.filter (fun f => f.issued && (match qp with | none => true | some q => (match s.table? f.table with | some t => t.tierQp == q | none => false)))).length

/-- The step is the oldest unreleased one (R39). -/
def State.oldestStep (s : State) (n : Nat) : Bool := s.fmn.steps.all (fun r => decide (n ≤ r.n))

/-- Replaces the `i`-th fetch. -/
def State.setFetch (s : State) (i : Nat) (f : Fetch) : State := s.setPar (fun p => { p with fetches := setNth p.fetches i f })

/-- A fetch that cannot be served ends its operation (R39, R40). -/
def State.promoFull (s : State) (i : Nat) (f : Fetch) : State :=
  let s1 := (s.setPar (fun p => { p with fetches := dropNth p.fetches i })).latchAt (pgINK f.ink) 10 f.step
  let s2 := s1.askAbort f.step 9
  match f.op with | some o => s2.answerOp o stABORTED [] true | none => s2

/-- The fetch gets its entry; a contribution needs the entry only (R231): it is added at once. -/
def State.useEnt (i : Nat) (f : Fetch) (t : Table) (x : State) (slot : Nat) : State :=
  match f.op with
  | some o =>
    if o.kind = 1 then ({ x with par := { x.par with fetches := dropNth x.par.fetches i } } : State).putContrib t f.ink slot o
    else x.setFetch i { f with put := some slot }
  | none => x.setFetch i { f with put := some slot }

/-- Step 1 of R179 under R39: the fetch has an entry or a promotion slot, shares an entry, takes a new one, is promoted for the oldest step, or waits (none). -/
def State.reserve (s : State) (i : Nat) (f : Fetch) (t : Table) : Option State :=
  if f.put.isSome ∨ f.promote then some s
  else
    match s.putFind f.ink f.table f.row with
    | some (slot, _) => some (State.useEnt i f t (s.modEnt (inkFolio f.ink) slot (fun e => if (e.stepOf (f.step % 2)).isSome then e else e.setHalf (f.step % 2) (some f.step) false)) slot)
    | none =>
      match s.takeEnt f.ink f.table f.row f.step with
      | some (slot, s1) => some (State.useEnt i f t s1 slot)
      | none =>
        if !s.oldestStep f.step then none
        else
          let coming := (s.par.fetches.filter (fun g => g.promote && g.ink == f.ink && g.table == f.table)).length
          if coming < (s.freePromo t f.ink).length then some (s.setFetch i { f with promote := true }) else some (s.promoFull i f)

/-- A TIER queue pair is connected in a slot (R399, R405). -/
def State.tierUp (s : State) (slot : Nat) : Bool := s.eth.qps.any (fun p => p.2.role == 2 && p.2.slot == slot && p.2.live)

/-- A fetch ends in an RDMA error: NO_ROUTE to its operation, a failed commit item (R222, R405). -/
def State.fetchFailed (s : State) (i : Nat) (f : Fetch) : State :=
  let s1 := s.setPar (fun p => { p with fetches := dropNth p.fetches i })
  match f.op with
  | some o => s1.answerOp o stNOROUTE [] true
  | none => match s1.par.items.find? (fun it => it.kind == .put && it.step == f.step && it.ink == f.ink && some it.idx == f.put) with
    | some it => (s1.failItem it).tryCommitDone
    | none => s1

/-- The tier agent of a fetch (R179): Sorter 4F + row mod 4. -/
def State.tierAgent (s : State) (t : Table) (f : Fetch) : Nat := 4 * inkFolio f.ink + s.globalRow t f.ink f.row % 4

/-- Steps 2 and 3 of R179: a fetch with its entry is held at the RDMA bounds of R37, else its RDMA READ leaves; without a connected queue pair it fails (R405). -/
def State.sendFetch (s : State) (i : Nat) (t : Table) : State :=
  match s.par.fetches[i]? with
  | none => s
  | some f =>
    if f.issued ∨ (f.put.isNone ∧ !f.promote) ∨ f.table ≠ t.id then s
    else if !s.tierUp t.tierQp then s.fetchFailed i f
    else if 64 ≤ s.fetchesOut (some t.tierQp) ∨ 16384 ≤ s.fetchesOut none then
      if bitOf f.counted 0 then s
      else
        let s1 := ((s.setFetch i { f with counted := f.counted + 1 }).bump pgETH 0x06C 1).latch pgETH 3
        (s1.bump (pgSRT (s.tierAgent t f)) 0x054 1).latchAt (pgSRT (s.tierAgent t f)) 7 f.step
    else (((s.setFetch i { f with issued := true }).bump (pgSRT (s.tierAgent t f)) 0x06C 1).bump64 (pgINK f.ink) 0x040 1).ethSend (.tierRead t.tierQp t.tierKey (t.hostAddr f.row) t.recB)

/-- A contribution that took its entry left the list of fetches, and nothing leaves for it (R180, R231). -/
def State.reserved? (s s1 : State) : Bool := s1.par.fetches.length == s.par.fetches.length

/-- TIER_FETCH_ISSUE (R37, R39, R179, R405): the `i`-th fetch reserves its entry and its RDMA READ leaves; at the RDMA bounds it is held. -/
def execTierFetchIssue (i : Nat) (s : State) : Host.Outcome State Fault Refusal :=
  match s.par.fetches[i]? with
  | none => .next s
  | some f =>
    match s.table? f.table with
    | none => .next s
    | some t =>
      if f.issued then .next s
      else match s.reserve i f t with
        | some s1 => .next (if s.reserved? s1 then s1.sendFetch i t else s1)
        | none =>
          if bitOf f.counted 1 then .next s
          else .next (((s.setFetch i { f with counted := f.counted + 2 }).bump (pgSRT (s.tierAgent t f)) 0x058 1).latchAt (pgSRT (s.tierAgent t f)) 7 f.step)

/-- PUT_ENTRY_GRANT (R39): an entry is free, and the first look-up that waits for one takes it and issues. -/
def execPutEntryGrant (folio : Fin 2) (s : State) : Host.Outcome State Fault Refusal :=
  match firstIdx (fun (f : Fetch) => !f.issued && f.put.isNone && !f.promote && inkFolio f.ink == folio.val) s.par.fetches with
  | none => .next s
  | some i => match s.par.fetches[i]? with
    | none => .next s
    | some f => match s.table? f.table with
      | none => .next s
      | some t =>
        if putEntries ≤ s.putUsed folio.val then .next s
        else match s.reserve i f t with
          | some s1 => .next (if s.reserved? s1 then s1.sendFetch i t else s1)
          | none => .next s

/-- A fetched record is used: for a promotion, a commit, or the requester (R179, R231). -/
def State.fetched (s : State) (f : Fetch) (t : Table) (rec_ : Bytes) : State :=
  let answer := fun (x : State) => match f.op with | some o => x.answerOp o 0 (rec_.take t.img) true | none => x
  if f.promote then
    match (s.freePromo t f.ink).head? with
    | none => s.promoFull s.par.fetches.length f
    | some slot =>
      let s1 := s.promoteRow t f.ink f.row slot rec_ true
      match f.op with
      | some o => if o.kind = 1 then s1.contribAt t f.ink f.row o else answer s1
      | none => s1
  else if f.commit then
    match f.put with
    | none => s
    | some slot =>
      let (s1, _, _) := s.dramWindow f.ink (s.putImageAt (inkFolio f.ink) slot) rec_ none
      s1.modEnt (inkFolio f.ink) slot (fun e => { e with image := true })
  else
    match f.op, s.putFind f.ink f.table f.row with
    | some o, some (_, e) => if e.image && e.state != .open then s.readAt t f.ink o else answer s
    | _, _ => answer s

/-- TIER_FETCH_COMPLETE (R179, R231): the `i`-th fetch ends with the host's record, or in an RDMA error. -/
def execTierFetchComplete (i : Nat) (data : Bytes) (err : Bool) (s : State) : Host.Outcome State Fault Refusal :=
  match s.par.fetches[i]? with
  | none => .next s
  | some f =>
    match s.table? f.table with
    | none => .next s
    | some t =>
      if !f.issued then .next s
      else
        if err then .next (s.fetchFailed i f)
        else .next ((s.setPar (fun p => { p with fetches := dropNth p.fetches i })).fetched f t (sliceB data 0 t.recB))

/-- The host memory of a write-back's table cannot be reached (R405). -/
def State.backDown (s : State) (b : Writeback) : Bool := match s.table? b.table with | some t => !s.tierUp t.tierQp | none => false

/-- The entry's half of a written-back step is free; a state WRITING_BACK becomes OPEN without an image (R231). -/
def PutEnt.written (e : PutEnt) (step : Nat) : PutEnt :=
  let e1 := if e.stepOf (step % 2) = some step then e.setHalf (step % 2) none false else e
  if e.state = .writingBack then { e1 with state := .open, image := false } else e1

/-- TIER_WRITEBACK_COMPLETE (R39, R231, R232, R405): the `i`-th write-back ends. -/
def execTierWritebackComplete (i : Nat) (err : Bool) (s : State) : Host.Outcome State Fault Refusal :=
  match s.par.backs[i]? with
  | none => .next s
  | some b =>
    if b.failed then .next s
    else if err || s.backDown b then .next ((s.setPar (fun p => { p with backs := setNth p.backs i { b with failed := true } })).latch (pgINK b.ink) 7)
    else
      let s1 := ((s.setPar (fun p => { p with backs := dropNth p.backs i })).bump (pgINK b.ink) 0x090 1).bump64 (pgINK b.ink) 0x040 1
      match b.put with
      | some slot =>
        let f := inkFolio b.ink
        .next ((s1.modEnt f slot (fun e => e.written b.step)).freeEnts f)
      | none => match s1.table? b.table with
        | none => .next s1
        | some t => .next (((s1.winPut b.ink (t.promo + b.row * t.promoStride + t.recB) (toLE 8 0)).1).bump (pgINK b.ink) 0x08C 1)

/-- TIER_WRITEBACK_RETRY (R231). -/
def execTierWritebackRetry (i : Nat) (s : State) : Host.Outcome State Fault Refusal :=
  match s.par.backs[i]? with
  | none => .next s
  | some b =>
    if b.failed then
      let s1 := (s.setPar (fun p => { p with backs := setNth p.backs i { b with failed := false } })).bump (pgINK b.ink) 0x094 1
      .next (match s1.table? b.table with | some t => s1.sendBack t b | none => s1)
    else .next s

end Sys2Proof.Machine
end

