-- ==== Sys2Proof/Machine/MigRows.lean ====
section
/-! DEFINITION. Row replacement (R226, R227), hot-row migration (R228, R229), and row requests of other modules (R312). -/

namespace Sys2Proof.Machine

/-- The row is homed at this module (R170, R228). -/
def State.homedHere (s : State) (t : Table) (r : Nat) : Bool := s.homeChip t r == 16383 || s.homeChip t r == s.self

/-- A row of this module kept in DRAM outside the remote tier: below LDRAM, or migrated in (R205). -/
def State.dramRow (s : State) (t : Table) (r : Nat) : Bool := let l := (s.rowKey t r).2; decide (l < t.ldram) || decide (2 ^ 40 - 1 - l < t.mslots)

/-- The rows of a staging array (R226). -/
def State.stagedRows (s : State) (t : Table) (off count : Nat) : List Nat := (List.range count).map (fun i => leNat (s.dram.read (off + i * (64 + t.img)) 8))

/-- Replacement slots in use at an Inker. -/
def State.replUsed (s : State) (ink : Nat) : List Nat := (s.par.repls.filter (fun r => r.ink == ink)).map (·.slot)

/-- One row goes into its Inker's replacement area (R226). -/
def State.stageRow (s : State) (t : Table) (row ver at_ : Nat) (keep : Bool) (ready : Option Nat) (img : Bytes) : State :=
  let ink := (s.rowKey t row).1
  let used := s.replUsed ink
  match (List.range 4096).find? (fun i => !used.contains i) with
  | none => s
  | some slot =>
    let tag := toLE 2 t.id ++ toLE 2 0 ++ toLE 2 ver ++ toLE 1 (1 + 2 * b2n keep) ++ toLE 1 0 ++ toLE 8 row ++ toLE 8 at_ ++ toLE 40 0
    let s1 := (s.winPut ink (0x100000 + slot * 2176) (tag ++ sliceB img 0 t.img)).1
    let s2 := s1.setPar (fun p => { p with repls := p.repls ++ [{ ink := ink, slot := slot, table := t.id, row := row, atStep := at_, ver := ver, keep := keep, ready := ready, live := false }] })
    s2

/-- What R226 answers for the rows of a staging array: 0 where every row can be staged. -/
def State.replaceStatus (s : State) (t : Table) (rows : List Nat) : Nat :=
  let busy := fun (ink : Nat) => (s.replUsed ink).length + (rows.filter (fun w => (s.rowKey t w).1 == ink)).length
  if rows.any (fun w => t.rows ≤ w || !s.homedHere t w || !s.dramRow t w) then stBAD
  else if rows.any (fun w => (s.migOf t.id w).isSome) then stEPOCH
  else if rows.any (fun w => decide (4096 < busy (s.rowKey t w).1)) then stNORES
  else stOK

/-- The rows of a staging array go into their replacement areas; before any decision they are installed at once (R226, R227). -/
def State.stageAll (s : State) (t : Table) (b : Bytes) (rows : List Nat) : State :=
  let off := leAt b 24 8
  let n := 64 + t.img
  let now := s.fmn.steps.isEmpty && !s.fmn.anyDecided
  let y := rows.zipIdx.foldl (fun (z : State) w =>
    z.stageRow t w.1 (leAt b 2 2) (leAt b 8 8) (bitOf (leAt b 4 1) 0) (if now then some s.stepNext else none) (s.dram.read (off + w.2 * n + 64) t.img))
    (s.dramSeen off (leAt b 16 4 * n))
  if now then y.installReady else y

/-- ROW_REPLACE (R226, R227); it waits during a quiet period (R385). -/
def execRowReplace (q : Fin 64) (s : State) : Host.Outcome State Fault Refusal :=
  if s.res.busy.isSome then .next s
  else .next (s.command q.val 0x42 (fun b r x =>
    match x.table? (leAt b 0 2) with
    | none => x.replyTo r stBAD []
    | some t =>
      if t.dense ∨ 1 < leAt b 4 1 ∨ !x.extentOk (leAt b 24 8) (leAt b 16 4 * (64 + t.img)) then x.replyTo r stBAD []
      else
        let rows := x.stagedRows t (leAt b 24 8) (leAt b 16 4)
        let st := x.replaceStatus t rows
        if st ≠ stOK then x.replyTo r st [] else (x.stageAll t b rows).ok r []))

/-- What R228 asks of a row that is to migrate to `d`. -/
def State.canMigrate (s : State) (t : Table) (row d : Nat) : Bool :=
  !(t.repl || t.direct || t.dense) && decide (row < t.rows) && s.homedHere t row && s.dramRow t row && !s.par.repls.any (fun u => u.table == t.id && u.row == row)
  && (s.migOf t.id row).isNone && d != s.self && decide (d < 16383)

/-- TABLE_MIGRATE (R37, R228); it waits during a quiet period (R385). -/
def execTableMigrate (q : Fin 64) (s : State) : Host.Outcome State Fault Refusal :=
  if s.res.busy.isSome then .next s
  else .next (s.command q.val 0x43 (fun b r x =>
    let row := leAt b 8 8
    let d := leAt b 2 2
    match x.table? (leAt b 0 2) with
    | none => x.replyTo r stBAD []
    | some t =>
      if !x.canMigrate t row d then x.replyTo r stBAD []
      else
        let ink := (x.rowKey t row).1
        if 4096 ≤ (x.par.migs.filter (fun m => m.ink == ink)).length then x.replyTo r stNORES []
        else
          let m : Mig := { table := t.id, row := row, ink := ink, dest := d, state := .reserving, epoch := x.epoch, reply := some r, key := 0 }
          (x.setPar (fun p => { p with migs := p.migs ++ [m] })).send (x.mkPkt 0x60 6 d (t.id * 2 ^ 40 + row) 0 []) (.migrate t.id row 0)))

/-- Changes the forwarding entry of a row. -/
def State.setMig (s : State) (t r : Nat) (f : Mig → Mig) : State :=
  s.setPar (fun p => { p with migs := p.migs.map (fun m => if m.table == t && m.row == r then f m else m) })

/-- D's answer to MIG_RESERVE (R228): MIGRATING, shipped at once when no step is open, or the entry is freed. -/
def State.reserved (s : State) (t r status : Nat) : State :=
  match s.migOf t r with
  | none => s
  | some m =>
    if m.state ≠ .reserving then s
    else
      let answer := fun (x : State) (st : Nat) => match m.reply with | some w => x.replyTo w st [] | none => x
      if status = 0 ∨ status = stDUP then
        let s1 := answer (s.setMig t r (fun u => { u with state := .migrating, reply := none })) stOK
        if s1.fmn.steps.isEmpty then (match s1.migOf t r with | some u => s1.shipRow u s1.fmn.lastEnded | none => s1) else s1
      else answer (s.setPar (fun p => { p with migs := p.migs.filter (fun u => u != m) })) (if status = stBAD then stBAD else stNORES)

/-- MIG_SHIP_ACK (R228): MOVED, forwarding installed, the lock released; a row that left a migration slot leaves a tombstone (R229). -/
def State.shipped (s : State) (t r status : Nat) : State :=
  match s.migOf t r, s.table? t with
  | some m, some tb =>
    if m.state ≠ .shipped then s
    else if status = 0 ∨ status = stDUP then
      let l := (s.rowKey tb r).2
      let s1 := match s.recLoc tb m.ink l with
        | .dram co => (s.winPut m.ink (co + 6) (toLE 1 (setFld (leNat (s.chanPeek m.ink (co + 6) 1)) 1 1 1))).1
        | _ => s
      let s2 := match s1.par.migIns.find? (fun u => u.table == t && u.row == r && u.valid) with
        | some u => ((s1.winPut u.ink (tb.mig + u.slot * tb.migStride) (toLE 8 (r % 2 ^ 40 + 2 ^ 41))).1).setPar (fun p => { p with migIns := p.migIns.filter (fun w => w != u) })
        | none => s1
      s2.setMig t r (fun u => { u with state := .forwarding, epoch := s2.epoch })
    else s.setMig t r (fun u => { u with state := .migrating })
  | _, _ => s

/-- A migration slot for a row at its Inker (R228, R229): linear search from the row's hash. -/
def State.migSlot (s : State) (t : Table) (r ink : Nat) : Option Nat :=
  let h := rowHash t.id r % max t.mslots 1
  ((List.range t.mslots).map (fun i => (h + i) % max t.mslots 1)).find? (fun i => !s.par.migIns.any (fun m => m.table == t.id && m.ink == ink && m.slot == i))

/-- The ADDR and ARG of a MIG_RESERVE, SHIP or FORWARD are as R312 lays them out. -/
def migForm (p : Packet) : Bool := decide (p.addr < 2 ^ 52) && p.arg == 0

/-- A MIG_RESERVE that a table can take (R228, R312). -/
def reserveForm (tb : Table) (p : Packet) : Bool := migForm p && p.payload.isEmpty && !(tb.dense || tb.repl || tb.direct) && decide (fld p.addr 0 40 < tb.rows)

/-- MIG_RESERVE at the destination (R228, R312). -/
def execMigReserve (s : State) : Host.Outcome State Fault Refusal :=
  match s.takeArrived (fun p => p.type == 0x60) with
  | none => .next s
  | some (o, s1) =>
    let t := fld o.pkt.addr 40 12
    let r := fld o.pkt.addr 0 40
    match s1.table? t with
    | none => .next (s1.reply o stBAD [])
    | some tb =>
      if !reserveForm tb o.pkt then .next (s1.reply o stBAD [])
      else if s1.par.migIns.any (fun m => m.table == t && m.row == r) then .next (s1.reply o stOK [])
      else
        let ink := rowHash t r % 128
        match (if (s1.inksOf tb).contains ink then s1.migSlot tb r ink else none) with
        | none => .next (s1.reply o stNORES [])
        | some i => .next ((s1.setPar (fun p => { p with migIns := p.migIns ++ [{ table := t, row := r, ink := ink, slot := i, valid := false }] })).reply o stOK [])

/-- The Delta slots that follow a shipped record of `tb.recB` bytes: step and slot (R312). -/
def shippedSlots (tb : Table) (b : Bytes) : List (Nat × DSlot) :=
  let w := 16 + dslotBytes tb.width
  (List.range ((b.length - tb.recB) / w)).map (fun i => (leAt b (tb.recB + i * w) 8, dslotOf tb.width (sliceB b (tb.recB + i * w + 16) (dslotBytes tb.width))))

/-- A shipped record is installed in the slot reserved for it, with its tag, and its Delta slots are added (R228, R229). -/
def State.installShip (s : State) (tb : Table) (m : MigIn) (b : Bytes) : State :=
  let s1 := (s.winPut m.ink (tb.mig + m.slot * tb.migStride) (toLE 8 (m.row % 2 ^ 40 + 2 ^ 40) ++ sliceB b 0 tb.recB)).1
  let s2 := s1.setPar (fun p => { p with migIns := p.migIns.map (fun u => if u == m then { u with valid := true } else u) })
  let s3 := (shippedSlots tb b).foldl (fun (x : State) u => if u.2.valid then x.addShipped tb m.ink (migKey m.slot) u.1 u.2 else x) s2
  (s3.bump (pgINK m.ink) 0x074 1).bump64 (pgINK m.ink) 0x040 1

/-- SHIP at the destination (R228, R229): the record is installed, its Delta slots are added, the reply acknowledges. -/
def execShip (s : State) : Host.Outcome State Fault Refusal :=
  match s.takeArrived (fun p => p.type == 0x61) with
  | none => .next s
  | some (o, s1) =>
    let t := fld o.pkt.addr 40 12
    let r := fld o.pkt.addr 0 40
    match s1.table? t, (if migForm o.pkt then s1.par.migIns.find? (fun m => m.table == t && m.row == r && !m.valid) else none) with
    | some tb, some m => .next ((s1.installShip tb m o.pkt.payload).reply o stOK [])
    | _, _ => .next (s1.reply o stBAD [])

/-- A ROW_READ or CONTRIB of another module joins its Inker's queue (R209, R312); `o` is the packet that is answered. -/
def State.takeRowOp (s : State) (o : OutPkt) (p : Packet) : State :=
  let id := p.addr / 2 ^ 40
  let r := fld p.addr 0 40
  match (if id < 4096 then s.table? id else none) with
  | none => s.reply o stBAD []
  | some t =>
    let mine := s.homedHere t r || s.par.migIns.any (fun m => m.table == id && m.row == r && m.valid) || (s.migOf id r).isSome
    let form := if p.type = 4 then p.payload.isEmpty else p.type == 5 && p.payload.length == 4 * t.width
    if t.dense || decide (t.rows ≤ r) || !mine || !form then s.reply o stBAD []
    else
      s.pushOp (s.rowKey t r).1 { kind := if p.type = 4 then 0 else 1, table := id, row := r, step := s.fullStep p.arg, slot := p.slot,
                                  vals := (List.range (p.payload.length / 4)).map (fun j => leAt p.payload (4 * j) 4), addr := 0, len := 0, req := .packet o }

/-- ROW_READ (R312): the request reaches its home Inker. -/
def execRowRead (s : State) : Host.Outcome State Fault Refusal :=
  match s.takeArrived (fun p => p.type == 4) with
  | none => .next s
  | some (o, s1) => .next (s1.takeRowOp o o.pkt)

/-- CONTRIB (R312). -/
def execContrib (s : State) : Host.Outcome State Fault Refusal :=
  match s.takeArrived (fun p => p.type == 5) with
  | none => .next s
  | some (o, s1) => .next (s1.takeRowOp o o.pkt)

/-- FORWARD (R228, R312): the packet inside is executed here, and its reply answers the FORWARD. -/
def execForward (s : State) : Host.Outcome State Fault Refusal :=
  match s.takeArrived (fun p => p.type == 0x62) with
  | none => .next s
  | some (o, s1) =>
    let b := o.pkt.payload
    if !migForm o.pkt then .next (s1.reply o stBAD []) else .next (s1.takeRowOp o (parsePacket (b.take (wireLen b))))

end Sys2Proof.Machine
end

