-- ==== Sys2Proof/Machine/SortRows.lean ====
section
/-! DEFINITION. Sorters and the Pigeonhole cache (R171 to R193): acceptance, passes, look-ups, pooling, gradients, dispatch, completion. -/

namespace Sys2Proof.Machine

/-- A field of a descriptor (R171). -/
def SDesc.at (d : SDesc) (off n : Nat) : Nat := leAt d.raw off n
def SDesc.op (d : SDesc) : Nat := fld (d.at 0 1) 0 2
def SDesc.mode (d : SDesc) : Nat := fld (d.at 1 1) 0 2
def SDesc.topk (d : SDesc) : Bool := d.mode == 3 && d.op != 2
def SDesc.k (d : SDesc) : Nat := fld (d.at 1 1) 4 4 + 1
def SDesc.ofmt (d : SDesc) : Nat := fld (d.at 2 1) 0 3
def SDesc.flag (d : SDesc) (i : Nat) : Bool := bitOf (d.at 3 1) i
def SDesc.wen (d : SDesc) : Bool := d.flag 0
def SDesc.oobZero (d : SDesc) : Bool := d.flag 3
def SDesc.src (d : SDesc) : Bool := d.flag 5
def SDesc.table (d : SDesc) : Nat := d.at 4 2
def SDesc.nbags (d : SDesc) : Nat := d.at 8 8
def SDesc.nidx (d : SDesc) : Nat := d.at 0x10 8
def SDesc.outAddr (d : SDesc) : Nat := d.at 0x30 8
def SDesc.outStride (d : SDesc) : Nat := d.at 0x38 4
def SDesc.auxAddr (d : SDesc) : Nat := d.at 0x40 8
def SDesc.auxStride (d : SDesc) : Nat := d.at 0x48 4
def SDesc.bufAddr (d : SDesc) : Nat := d.at 0x50 8
def SDesc.bufStride (d : SDesc) : Nat := d.at 0x58 4
def SDesc.bufFmt (d : SDesc) : Nat := fld (d.at 0x5C 1) 0 4
def SDesc.statAddr (d : SDesc) : Nat := d.at 0x68 8

/-- The output format of an OFMT code (R171), as a format and its element code (R49). -/
def ofmtOf (c : Nat) : FFmt × Nat :=
  match c with
  | 0 => (fp32, 12) | 1 => (bf16, 10) | 2 => (fp16, 11) | 3 => (e4m3, 0) | _ => (e5m2, 1)

/-- Bytes of an output element. -/
def SDesc.outBytes (d : SDesc) : Nat := fmtBits (ofmtOf d.ofmt).2 / 8

/-- A Sorter. -/
def State.srt (s : State) (q : Nat) : Sorter := kvGet s.sorters q Sorter.reset
/-- Changes a Sorter. -/
def State.modSrt (s : State) (q : Nat) (f : Sorter → Sorter) : State := { s with sorters := kvMod s.sorters q Sorter.reset f }
/-- A queued descriptor by its serial number. -/
def State.desc? (s : State) (q ser : Nat) : Option SDesc := (s.srt q).queue.find? (fun d => d.serial == ser)
/-- Changes a queued descriptor. -/
def State.modDesc (s : State) (q ser : Nat) (f : SDesc → SDesc) : State :=
  s.modSrt q (fun k => { k with queue := k.queue.map (fun d => if d.serial == ser then f d else d) })

/-- Elements of a row of the descriptor. -/
def State.descWidth (s : State) (d : SDesc) : Nat :=
  if d.src then d.at 0x5E 2 else match s.table? d.table with | some t => t.width | none => 0

/-- The bound that an index must stay below (R173). -/
def State.descRows (s : State) (d : SDesc) : Nat :=
  if d.op = 2 then d.table else if d.src then d.at 0x60 8 else match s.table? d.table with | some t => t.rows | none => 0

/-- R172: a buffer address of this module in space 0 or 1, a multiple of `m`. -/
def State.bufOk (s : State) (a m : Nat) : Bool := s.gaHere a && decide (gaSpace a ≤ 1) && a % m == 0

/-- Fields that R171 requires to be 0, or to lie in a range. -/
def SDesc.layoutBad (d : SDesc) : Bool :=
  let pool := d.at 1 1
  let out := d.at 2 1
  let fl := d.at 3 1
  let fmtOk := d.at 0x5C 1 == 0 || d.at 0x5C 1 == 1 || d.at 0x5C 1 == 10 || d.at 0x5C 1 == 11 || d.at 0x5C 1 == 12
  let poolBad := fld pool 2 2 != 0 || (d.mode != 3 && fld pool 4 4 != 0)
  let outBad := fld out 5 3 != 0 || decide (4 < d.ofmt)
  decide (2 < d.at 0 1) || d.at 0x3C 4 != 0 || d.at 0x4C 4 != 0 || !allZero (sliceB d.raw 0x70 16)
  || decide (d.nbags < 1) || decide (2 ^ 32 ≤ d.nbags) || decide (2 ^ 40 < d.nidx)
  || (match d.op with
    | 0 => poolBad || outBad || bitOf fl 7 || (d.src && !fmtOk)
    | 1 => poolBad || out != 0 || fld fl 4 4 != 0 || d.at 6 2 != 0 || d.outAddr != 0 || d.outStride != 0
           || (d.at 0x5C 1 != 10 && d.at 0x5C 1 != 12) || d.at 0x5D 1 != 0 || d.at 0x5E 2 != 0 || d.at 0x60 8 != 0
    | _ => pool != 0 || outBad || (fl &&& 0xD0) != 0 || !d.src || decide (d.table < 1) || decide (4096 < d.table) || d.at 6 2 != 0
           || decide (2 ^ 24 < d.nidx) || d.auxStride != 0 || d.at 0x5D 1 != 0 || !fmtOk)

/-- Addresses and strides of R172, for the fields that the operation uses. -/
def State.descAddrBad (s : State) (d : SDesc) : Bool :=
  let w := s.descWidth d
  let rows := if d.topk then d.k else 1
  !s.bufOk (d.at 0x18 8) 8 || !s.bufOk (d.at 0x20 8) 8 || (d.wen && !s.bufOk (d.at 0x28 8) 8)
  || !s.bufOk d.statAddr 64 || gaSpace d.statAddr != 1
  || d.outStride % 64 != 0 || d.auxStride % 64 != 0
  || (d.op != 1 && (!s.bufOk d.outAddr 64 || decide (d.outStride < rows * w * d.outBytes)))
  || ((d.op != 0 || d.topk) && !s.bufOk d.auxAddr 8)
  || ((d.src || (d.op == 1 && d.topk)) && !s.bufOk d.bufAddr 8)

/-- R173: the checks at acceptance. -/
def State.descBadArg (s : State) (d : SDesc) : Bool :=
  d.layoutBad
  || (d.op != 2 && (d.mode == 0 || d.mode == 3) && !d.wen)
  || (if d.src then d.op != 2 && d.table != 0 else decide (4095 < d.table) || (s.table? d.table).isNone)
  || s.descAddrBad d

/-- R173: a Sorter copies a posted descriptor into its queue of 256 and checks the copy; a refused one completes with BAD_ARGUMENT. -/
def execSorterPostAccept (sorter : Fin 8) (s : State) : Host.Outcome State Fault Refusal :=
  let q := sorter.val
  match (s.srt q).posts with
  | [] => .next s
  | d :: r =>
    if 256 ≤ (s.srt q).queue.length then .next s
    else
      let e : SDesc := if d.fail.isNone && s.descBadArg d then { d with fail := some (0, stBAD) } else d
      .next (s.modSrt q (fun k => { k with posts := r, queue := k.queue ++ [e] }))

/-- The buffers of a descriptor as ranges of (address, bytes) (R171, R172). -/
def SDesc.buffers (d : SDesc) : List (Nat × Nat) :=
  [(d.at 0x18 8, d.nidx * (if d.flag 1 then 8 else 4)), (d.at 0x20 8, (d.nbags + 1) * (if d.flag 2 then 8 else 4)), (d.at 0x28 8, d.nidx * 4),
   (d.auxAddr, d.nbags * d.auxStride), (d.bufAddr, (if d.op = 1 then d.nbags else d.at 0x60 8) * d.bufStride)]

/-- The errors that the reads of a descriptor's buffers meet in the Cases of this module (R77). -/
def State.srtErrs (s : State) (d : SDesc) (errs : List (Fin 136 × CaseErr)) : State :=
  errs.foldl (fun x e =>
    if d.buffers.any (fun r => gaSpace r.1 == 1 && s.physical (fld r.1 24 7) == some e.1.val && !(errsIn [e.2] (r.1 % 2 ^ 24) r.2).isEmpty)
    then x.caseErrors e.1.val [e.2] else x) s

/-- A buffer read of a descriptor. -/
def State.srtRead (s : State) (a n : Nat) : Bytes × Nat × State :=
  if n = 0 then ([], 0, s) else s.spaceRead (gaSpace a) (gaOff a) n s.self

/-- The offset of bag `b` (R172). -/
def State.offAt (s : State) (d : SDesc) (b : Nat) : Nat × Nat × State :=
  let w := if d.flag 2 then 8 else 4
  let (bs, st, s1) := s.srtRead (d.at 0x20 8 + b * w) w
  (leNat bs, st, s1)

/-- R172 for the offsets of bag `b`. -/
def SDesc.offBad (d : SDesc) (b o0 o1 : Nat) : Bool :=
  (b == 0 && o0 != 0) || decide (o1 < o0) || decide (2 ^ 23 < o1 - o0) || (b + 1 == d.nbags && o1 != d.nidx)

/-- R173: the descriptor ends at a failing bag; bags below it still complete. One that its step's end stopped keeps STEP_ABORTED (R186). -/
def SDesc.failAt (d : SDesc) (b st : Nat) : SDesc :=
  match d.fail with
  | some (f, old) => if f ≤ b ∨ old = stABORTED then d else { d with fail := some (b, st), running := false, bags := d.bags.filter (fun x => decide (x.bag < b)) }
  | none => { d with fail := some (b, st), running := false, bags := d.bags.filter (fun x => decide (x.bag < b)) }

/-- R175: the pooling anchor. -/
def State.descAnchor (s : State) (d : SDesc) : Int :=
  if d.flag 6 then sext 16 (d.at 6 2)
  else
    let et : Int := if d.src then sext 8 (d.at 0x5D 1) else match s.table? d.table with | some t => t.eT | none => 0
    clamp16 (et + (if d.mode = 0 then sext 16 (d.at 6 2) else 0) - 7)

/-- Rounding mode of the output. -/
def SDesc.round (d : SDesc) : RMode := if bitOf (d.at 2 1) 3 then .rtz else .rne

/-- One output element (R65, R66). -/
def SDesc.outCode (d : SDesc) (v : FVal) : Nat := (ofmtOf d.ofmt).1.encode d.round (bitOf (d.at 2 1) 4) 0 v

/-- Writes output elements; counts the non-finite ones (R174, R196). -/
def State.writeOut (s : State) (q : Nat) (d : SDesc) (a : Nat) (codes : List Nat) : State :=
  let bad := (codes.filter (fun c => (elemBase (ofmtOf d.ofmt).2 0 c).nonFinite)).length
  let s1 := s.ownWrite a (codes.flatMap (fun c => toLE d.outBytes c))
  if bad = 0 then s1
  else (s1.modDesc q d.serial (fun x => { x with nonFin := x.nonFin + bad })).latchAt (pgSRT q) 2 d.step

/-- Writes a completed bag of a POOL (R175 to R177) or the packed rows of a source row (R181). -/
def State.writeBag (s : State) (q : Nat) (d : SDesc) (b : OpenBag) : State :=
  let w := s.descWidth d
  let at0 := d.outAddr + b.bag * d.outStride
  if d.op = 2 then b.outs.foldl (fun (x : State) o => x.writeOut q d (d.outAddr + o.1 * d.outStride) o.2) s
  else if d.topk then
    let cell := fun (r j : Nat) => (kvGet b.tops j [])[r]?
    let s1 := (List.range d.k).foldl (fun (x : State) r =>
      x.writeOut q d (at0 + r * w * d.outBytes) ((List.range w).map (fun j => match cell r j with
        | some (v, _) => d.outCode v
        | none => (ofmtOf d.ofmt).1.nan))) s
    s1.ownWrite (d.auxAddr + b.bag * d.auxStride) ((List.range (d.k * w)).flatMap (fun i => toLE 4 (match cell (i / w) (i % w) with
      | some (_, p) => p
      | none => 0xFFFFFFFF)))
  else
    let a := s.descAnchor d
    let res := (List.range w).map (fun j => (kvGet b.acc j Acc.clear).result)
    let sat := (res.filter (·.setsOvf)).length
    let s1 := if sat = 0 then s else
      ((s.modDesc q d.serial (fun x => { x with ovf := x.ovf + sat })).bump (pgSRT q) 0x068 sat).latchAt (pgSRT q) 0 d.step
    s1.writeOut q d at0 (res.map (fun r => d.outCode (r.value (a - 80))))

/-- Completed bags leave in bag order; at most `fuel` of them. -/
def State.flushBags (s : State) (q ser : Nat) : Nat → State
  | 0 => s
  | fuel + 1 => match s.desc? q ser with
    | none => s
    | some d => match d.bags with
      | [] => s
      | b :: r => if b.left = 0 then ((s.writeBag q d b).modDesc q ser (fun x => { x with bags := r })).flushBags q ser fuel else s

/-- Bags in flight, and one more round. -/
def State.flush (s : State) (q ser : Nat) : State := match s.desc? q ser with | none => s | some d => s.flushBags q ser d.bags.length

/-- The pass has issued its last look-up (R184): the descriptor goes behind the others. -/
def State.passIssued (s : State) (q ser : Nat) : State :=
  match s.desc? q ser with
  | none => s
  | some d => if d.running ∧ d.passEnd ≤ d.nextBag then
      s.modSrt q (fun k => { k with queue := k.queue.filter (fun x => x.serial != ser) ++ [{ d with running := false }] })
    else s

/-- Empty bags at the point of issue (R176), offsets that break R172, and the end of the pass. -/
def State.skipEmpty (s : State) (q ser : Nat) : Nat → State
  | 0 => s.passIssued q ser
  | fuel + 1 => match s.desc? q ser with
    | none => s
    | some d =>
      if !d.running then s
      else if d.passEnd ≤ d.nextBag then s.passIssued q ser
      else if d.nextPos ≠ 0 then s
      else
        let (o0, st0, s1) := s.offAt d d.nextBag
        let (o1, st1, s2) := s1.offAt d (d.nextBag + 1)
        let st := if st0 = 0 then st1 else st0
        if st ≠ 0 then s2.modDesc q ser (fun x => x.failAt d.nextBag st)
        else if d.offBad d.nextBag o0 o1 then s2.modDesc q ser (fun x => x.failAt d.nextBag stBAD)
        else if o1 = o0 then
          let e := OpenBag.mk d.nextBag 0 0 [] [] []
          (s2.modDesc q ser (fun x => { x with nextBag := x.nextBag + 1, bags := if x.op = 1 then x.bags else x.bags ++ [e] })).skipEmpty q ser fuel
        else s

/-- After a bag: empty bags, outputs, the end of the pass. -/
def State.srtSettle (s : State) (q ser : Nat) : State :=
  match s.desc? q ser with
  | none => s
  | some d => ((s.skipEmpty q ser (d.passEnd - d.nextBag + 1)).flush q ser)

/-- R184: the first bag after the pass that starts at `start`. -/
def planPass (off : Nat → Nat) (nb start : Nat) : Nat → Nat → Nat
  | 0, b => b
  | fuel + 1, b =>
    if nb ≤ b then b
    else if off (b + 1) < off b then b + 1
    else if 2 ^ 24 < off (b + 1) - off start then (if b = start then b + 1 else b)
    else planPass off nb start fuel (b + 1)

/-- R268: a look-up on a table that the older step can still change waits for that step's decision. -/
def State.stepWaits (s : State) (d : SDesc) : Bool :=
  match s.imp.active, s.table? d.table with
  | some m, some t =>
    m.staleness == 1 && !d.src && !t.static && s.fmn.steps.any (fun r => decide (r.n < d.step)
      && !(match r.dec with | some x => x.verdict == .commit || x.verdict == .skip | none => false)
      && !(s.optFor r.n t.inkSet.1 t.id).freeze)
  | _, _ => false

/-- An index of the descriptor with its read status. -/
def State.idxAt (s : State) (d : SDesc) (e : Nat) : Nat × Nat × State :=
  let w := if d.flag 1 then 8 else 4
  let (bs, st, s1) := s.srtRead (d.at 0x18 8 + e * w) w
  (leNat bs, st, s1)

/-- The bag at which a DISPATCH fails, if any, and the expert ids of the bags below it (R173, R181). -/
def State.dispatchScan (s : State) (d : SDesc) : Nat → Nat → List Nat → List Nat × Option (Nat × Nat)
  | 0, _, ids => (ids, none)
  | fuel + 1, b, ids =>
    let (o0, st0, _) := s.offAt d b
    let (o1, st1, _) := s.offAt d (b + 1)
    let st := if st0 = 0 then st1 else st0
    if st ≠ 0 then (ids, some (b, st))
    else if d.offBad b o0 o1 then (ids, some (b, stBAD))
    else
      let xs := (List.range (o1 - o0)).map (fun i => let r := s.idxAt d (o0 + i); (r.1, r.2.1))
      match xs.find? (fun x => x.2 != 0) with
      | some x => (ids, some (b, x.2))
      | none =>
        if !d.oobZero && xs.any (fun x => decide (d.table ≤ x.1)) then (ids, some (b, stBAD))
        else s.dispatchScan d fuel (b + 1) (ids ++ xs.map (·.1))

/-- R181: counts, starts and slots; an entry out of range has no slot, and its word is the free value of counter `base` + entry (log entry 30). -/
def dispatchPack (base n : Nat) (ids : List Nat) : List Nat × List Nat × List Nat :=
  let counts := ids.foldl (fun (m : AMap Nat) x => if x < n then kvMod m x 0 (· + 1) else m) []
  let cs := (List.range n).map (fun x => kvGet counts x 0)
  let starts := (cs.foldl (fun (a : List Nat × Nat) c => (a.1 ++ [a.2], a.2 + c)) ([], 0)).1
  let slots := (ids.foldl (fun (a : AMap Nat × List Nat) x =>
    if x < n then (kvMod a.1 x 0 (· + 1), a.2 ++ [starts.getD x 0 + kvGet a.1 x 0]) else (a.1, a.2 ++ [(Config.freeValue (base + a.2.length)).toNat % 2 ^ 32])) ([], [])).2
  (cs, starts, slots)

/-- DISPATCH_PACK at the start of the pass (R181): AUX receives counts, starts and the slot map. -/
def State.dispatchStart (s : State) (q : Nat) (d : SDesc) : State :=
  let (ids, _) := s.dispatchScan d d.nbags 0 []
  let (cs, st, sl) := dispatchPack s.freeCtr d.table ids
  let s1 := ({ s with freeCtr := s.freeCtr + ids.length } : State).ownWrite d.auxAddr ((cs ++ st ++ sl).flatMap (fun v => toLE 4 v))
  s1.modDesc q d.serial (fun x => { x with starts := sl.zipIdx.map (fun p => (p.2, p.1)) })

/-- The descriptor whose pass starts next (R184): the oldest step's first that is ready, none while a pass issues. -/
def State.nextPass (s : State) (q : Nat) : Option SDesc :=
  let k := s.srt q
  if k.queue.any (·.running) then none
  else (k.queue.filter (fun d => d.fail.isNone && decide (d.nextBag < d.nbags) && !s.stepWaits d)).foldl
    (fun (a : Option SDesc) d => match a with | none => some d | some b => if d.step < b.step then some d else some b) none

/-- R184: the next pass of the oldest open step's next descriptor, when no pass issues; a first pass of DISPATCH packs. -/
def execPassStart (sorter : Fin 8) (errs : List (Fin 136 × CaseErr)) (s0 : State) : Host.Outcome State Fault Refusal :=
  let q := sorter.val
  let s := match s0.nextPass q with | none => s0 | some d => s0.srtErrs d errs
  match s.nextPass q with
  | none => .next s
  | some d =>
    let off := fun (b : Nat) => (s.offAt d b).1
    let stop := if d.op = 2 then d.nbags else planPass off d.nbags d.nextBag 65536 d.nextBag
    let s1 := s.modDesc q d.serial (fun x => { x with running := true, passEnd := stop, passes := x.passes + 1 })
    let s2 := if d.passes = 0 then s1 else (s1.bump (pgSRT q) 0x04C 1).latchAt (pgSRT q) 6 d.step
    let s3 := if d.op = 2 then s2.dispatchStart q d else s2
    .next (s3.srtSettle q d.serial)

/-- Larger for R177: the values of R90's order, NaN lowest, ties to the lower position. -/
def topAbove (x y : FVal × Nat) : Bool :=
  if x.1.isNaN && y.1.isNaN then decide (x.2 < y.2)
  else if x.1.isNaN then false
  else if y.1.isNaN then true
  else if y.1.lt x.1 then true
  else if x.1.lt y.1 then false
  else decide (x.2 < y.2)

/-- Insertion into a rank-ordered list of at most `k`. -/
def topIns (k : Nat) (x : FVal × Nat) : List (FVal × Nat) → List (FVal × Nat)
  | [] => if k = 0 then [] else [x]
  | y :: r => if k = 0 then [] else if topAbove x y then (x :: y :: r).take k else y :: topIns (k - 1) x r

/-- One row enters a bag (R175, R177): the bag, and products below the window. -/
def OpenBag.pool (b : OpenBag) (d : SDesc) (anchor : Int) (pos w : Nat) (vals : List FVal) : OpenBag × Nat :=
  let c := { b with left := b.left - 1 }
  if d.topk then
    ({ c with tops := vals.zipIdx.foldl (fun (m : AMap (List (FVal × Nat))) p =>
        kvMod m p.2 [] (topIns d.k ((f32dec w).mul p.1, pos))) c.tops }, 0)
  else
    vals.zipIdx.foldl (fun (a : OpenBag × Nat) p =>
      let r := (kvGet a.1.acc p.2 Acc.clear).enter anchor ((f32dec w).mul p.1)
      ({ a.1 with acc := kvSet a.1.acc p.2 r.acc }, a.2 + b2n r.loss)) (c, 0)

/-- A row enters its open bag, with the counts of LOSS (R175, R196). -/
def State.poolRow (s : State) (q : Nat) (d : SDesc) (bag pos w : Nat) (vals : List FVal) : State :=
  match d.bags.find? (fun b => b.bag == bag) with
  | none => s
  | some b =>
    let (c, lost) := b.pool d (s.descAnchor d) pos w vals
    let s1 := s.modDesc q d.serial (fun x => { x with bags := x.bags.map (fun y => if y.bag == bag then c else y), loss := x.loss + lost })
    if lost = 0 then s1 else (s1.bump (pgSRT q) 0x064 lost).latchAt (pgSRT q) 1 d.step

/-- The weight of R175 for a bag of `len` indices. -/
def SDesc.weightOf (d : SDesc) (w len : Nat) : Nat :=
  if d.op = 2 then (if d.wen then w else f1)
  else if d.mode = 1 then f1 else if d.mode = 2 then f32div f1 (f32enc (FVal.ofInt (len : Int) 0)) else w

/-- Set salt and filter salts of R188. -/
def setSalt : Nat := 0x5F2CA8E13B9764D0
def cmsSalts : List Nat := [0x71D42A9C5E03B86F, 0xC38A1F5790E62D4B, 0x2B95E0C74A16F938, 0x9E4F73B10D8AC562]

/-- Results of R189. -/
inductive CacheRes where
  | hit (way : Nat)
  | join (filler : Nat)
  | miss (fill : Bool)
  deriving DecidableEq, Repr

/-- The key of R188. -/
def pghKey (t r : Nat) : Nat := t * 2 ^ 40 ||| r

/-- Ages the use counters and the filter (R189). -/
def State.pghHalve (s : State) (f : Nat) : State :=
  ((s.modCache f (fun g => { g with ways := g.ways.map (fun p => (p.1, { p.2 with use := p.2.use / 2 })), cms := g.cms.map (fun p => (p.1, p.2 / 2)) })).bump
    (pgPGH f) 0x06C 1).latch (pgPGH f) 2

/-- The filter's counters of a key, as indices of the cache's map (R188). -/
def cmsIdx (key : Nat) : List Nat := cmsSalts.zipIdx.map (fun p => p.2 * 4096 + mix64 (key ^^^ p.1) % 4096)

/-- The way that a miss takes: the lowest invalid one, else the least used that is not filling (R189). -/
def Pgh.victim (g : Pgh) (base : Nat) : Option (Nat × Option Way) :=
  match (List.range 16).find? (fun w => !kvHas g.ways (base + w)) with
  | some w => some (base + w, none)
  | none => (List.range 16).foldl (fun (a : Option (Nat × Option Way)) w => match kvFind g.ways (base + w) with
    | none => a
    | some y => if y.filling then a else match a with
      | some (_, some z) => if y.use < z.use then some (base + w, some y) else a
      | _ => some (base + w, some y)) none

/-- PGH_ACCESS (R189) for a row of a table; `id` is the look-up that fills. -/
def State.pghAccess (s : State) (f : Nat) (t : Table) (r id : Nat) : CacheRes × State :=
  let pg := pgPGH f
  let s1 := s.bump64 pg 0x040 1
  let g := s1.cache f
  let key := pghKey t.id r
  let sets := 2 ^ (15 - fld (s.inForce pg 0x008) 1 3)
  let base := mix64 (key ^^^ setSalt) % sets * 16
  match (List.range 16).find? (fun w => match kvFind g.ways (base + w) with | some y => y.table == t.id && y.row == r | none => false) with
  | some w =>
    match kvFind g.ways (base + w) with
    | none => (.miss false, s1)
    | some y =>
      let s2 := s1.bump64 pg 0x048 1
      if y.filling then (.join y.filler, s2)
      else (.hit (base + w), s2.modCache f (fun c => { c with ways := kvSet c.ways (base + w) { y with use := min (y.use + 1) 255 } }))
  | none =>
    let cms := (cmsIdx key).foldl (fun (m : AMap Nat) i => kvMod m i 0 (fun c => min (c + 1) 255)) g.cms
    let est := (cmsIdx key).foldl (fun a i => min a (kvGet cms i 0)) 255
    let s2 := s1.modCache f (fun c => { c with cms := cms })
    if !g.nofill.isEmpty && !t.static then (.miss false, s2.bump pg 0x05C 1)
    else match g.victim base with
      | none => (.miss false, s2.bump pg 0x054 1)
      | some (w, old) =>
        let refused := match old with | some y => decide (est ≤ y.use) | none => false
        if refused then (.miss false, s2.bump pg 0x054 1)
        else if 1024 ≤ (g.ways.filter (fun p => p.2.filling)).length then (.miss false, (s2.bump pg 0x060 1).latch pg 0)
        else (.miss true, s2.modCache f (fun c => { c with ways := kvSet c.ways w (Way.mk t.id r t.static true id est 0 []) }))

/-- A look-up goes to the row's home (R178). -/
def State.goHome (s : State) (q id : Nat) (d : SDesc) (t : Table) (r kind : Nat) (vals : List Nat) : State :=
  let chip := s.homeChip t r
  if chip = 16383 then
    s.pushOp (s.rowKey t r).1 { kind := kind, table := t.id, row := r, step := d.step, slot := d.slot, vals := vals, addr := 0, len := 0, req := .lookup q id }
  else
    let p := s.mkPkt (if kind = 0 then 4 else 5) 0 chip (t.id * 2 ^ 40 + r) (d.step % 2 ^ 32) (vals.flatMap (fun v => toLE 4 v))
    s.send { p with slot := d.slot } (.lookup q id)

/-- Adds an outstanding look-up. -/
def State.pushLookup (s : State) (q : Nat) (u : Lookup) : State :=
  ({ s.modSrt q (fun k => { k with lookups := k.lookups ++ [u] }) with serial := s.serial + 1 }).bump64 (pgSRT q) 0x040 1

/-- The row's table is not DIRECT and its image fits a slot (R187). -/
def State.cacheable (s : State) (f : Nat) (t : Table) : Bool := !t.direct && decide (t.img ≤ 128 * 2 ^ fld (s.inForce (pgPGH f) 0x008) 1 3)

/-- BYPASS counts a look-up of a row that is not cacheable, or made while DIAG = 1 (R187, R193, R201). -/
def State.bypass (s : State) (f : Nat) (able : Bool) : State :=
  if s.domOn (160 + f) && (!able || bitOf (s.inForce (pgPGH f) 0x008) 4) then s.bump (pgPGH f) 0x058 1 else s

/-- The entries of the row's set whose tags fail their parity (R192). -/
def State.tagErrors (s : State) (f : Nat) (t : Table) (r : Nat) (tags : List (Fin 16)) : List Nat :=
  let sets := 2 ^ (15 - fld (s.inForce (pgPGH f) 0x008) 1 3)
  let base := mix64 (pghKey t.id r ^^^ setSalt) % sets * 16
  ((tags.map (fun w => base + w.val)).eraseDups).filter (fun w => kvHas (s.cache f).ways w)

/-- Entries lost to tag parity errors: invalidated and counted as uncorrectable errors (R192). -/
def State.dropTagged (s : State) (f : Nat) (ways : List Nat) : State :=
  ((s.modCache f (fun g => { g with ways := g.ways.filter (fun p => !ways.contains p.1) })).bump (pgPGH f) 0x068 ways.length).latch (pgPGH f) 4

/-- The row read of a table (R178, R187, R192, R494): `ecc` is what the access meets; none where the access is not the kind that the command handles. -/
def State.rowRead (s : State) (q : Nat) (d : SDesc) (t : Table) (u : Lookup) (ecc : CacheEcc) (halve : Bool) : Option State :=
  let f := q / 4
  let ctrl := s.inForce (pgPGH f) 0x008
  let diag := bitOf ctrl 4
  let able := s.cacheable f t
  let on := s.domOn (160 + f)
  let use := on && able && !diag && bitOf ctrl 0 && !d.flag 4 && s.inForce (pgSRT q) 0x008 % 2 == 0
  let ages := use && (s.reg64 (pgPGH f) 0x040 + 1) % 2 ^ 20 == 0
  if ages != halve then none
  else if !use then
    some (((s.bypass f able).pushLookup q u).goHome q u.id d t u.row 0 [])
  else
    let s0 := if ages then s.pghHalve f else s
    let lost := s0.tagErrors f t u.row ecc.tags
    let (res, s1) := if lost.isEmpty then s0.pghAccess f t u.row u.id else (.miss false, (s0.bump64 (pgPGH f) 0x040 1).dropTagged f lost)
    match res with
    | .hit w =>
      match kvFind (s1.cache f).ways w with
      | none => some ((s1.pushLookup q u).goHome q u.id d t u.row 0 [])
      | some y =>
        if ecc.ue then
          let s2 := ((s1.modCache f (fun g => { g with ways := kvDel g.ways w })).bump (pgPGH f) 0x068 1).latch (pgPGH f) 4
          some ((s2.pushLookup q u).goHome q u.id d t u.row 0 [])
        else
          let s2 := if ecc.ce = 0 then s1 else (s1.bump (pgPGH f) 0x064 ecc.ce).latch (pgPGH f) 3
          some (s2.pushLookup q { u with data := some y.image, path := 1 })
    | .join i => some (s1.pushLookup q { u with fill := some i, path := 1 })
    | .miss fill => some ((s1.pushLookup q { u with fill := if fill then some u.id else none }).goHome q u.id d t u.row 0 [])

/-- A row of FP32 words of a buffer (R180). -/
def gradWords (fmt n : Nat) (bs : Bytes) : List Nat :=
  (unpackCodes fmt n bs).map (fun c => if fmt = 10 then c * 65536 else c)

/-- R180: the contribution of the index at position `pos` of bag `b`, none where its position was not selected; with the read status. -/
def State.contribOf (s : State) (d : SDesc) (b pos w : Nat) : Option (List Nat) × Nat × State :=
  let n := s.descWidth d
  let rows := if d.topk then d.k else 1
  let (gb, st, s1) := s.srtRead (d.auxAddr + b * d.auxStride) (rows * n * elemBytes d.bufFmt)
  let g := gradWords d.bufFmt (rows * n) gb
  if st ≠ 0 then (none, st, s1)
  else if d.topk then
    let (pb, st2, s2) := s1.srtRead (d.bufAddr + b * d.bufStride) (rows * n * 4)
    if st2 ≠ 0 then (none, st2, s2)
    else
      let sel := (List.range n).map (fun j => (List.range rows).find? (fun r => leAt pb ((r * n + j) * 4) 4 == pos))
      (if sel.all (·.isNone) then none
       else some (sel.zipIdx.map (fun p => match p.1 with | some r => f32mul w (g.getD (r * n + p.2) 0) | none => 0)), 0, s2)
  else (some (g.map (fun v => f32mul w v)), 0, s1)

/-- The index at the point of issue is done: the next one. -/
def SDesc.step1 (d : SDesc) (len : Nat) : SDesc :=
  let e := { d with indices := d.indices + 1, held := false }
  if d.nextPos + 1 < len then { e with nextPos := d.nextPos + 1 } else { e with nextPos := 0, nextBag := d.nextBag + 1 }

/-- The bag at the point of issue is among the open ones. -/
def SDesc.openAt (d : SDesc) (len : Nat) : SDesc :=
  if d.op = 1 || d.bags.any (fun b => b.bag == d.nextBag) then d else { d with bags := d.bags ++ [OpenBag.mk d.nextBag len len [] [] []] }

/-- The descriptor moves past the issued look-up (R178, R184). -/
def State.issued (s : State) (q : Nat) (d : SDesc) (len : Nat) : State :=
  (s.modDesc q d.serial (fun y => (y.openAt len).step1 len)).srtSettle q d.serial

/-- An index beyond the table with OOB zero (R187): counted, latched, and a zero row takes its place. -/
def State.issueOob (s2 : State) (q : Nat) (d : SDesc) (len w : Nat) : State :=
  let b := d.nextBag
  let s3 := ((s2.modDesc q d.serial (fun x => { (x.openAt len) with oob := x.oob + 1 })).bump (pgSRT q) 0x060 1).latchAt (pgSRT q) 3 d.step
  let zero := List.replicate (s2.descWidth d) FVal.zero
  match s3.desc? q d.serial with
  | none => s3
  | some d1 =>
    let s4 := if d.op = 1 then s3
      else if d.op = 2 then s3.modDesc q d.serial (fun x => { x with bags := x.bags.map (fun y => if y.bag == b then { y with left := y.left - 1 } else y) })
      else s3.poolRow q d1 b d.nextPos (if d.topk then f1 else w) zero
    s4.issued q d len

/-- A contribution goes to its row's home (R178, R186). -/
def State.issueHome (s2 : State) (q : Nat) (d : SDesc) (len w idx : Nat) (u : Lookup) (t : Table) : State :=
  match s2.contribOf d d.nextBag d.nextPos w with
  | (none, 0, s3) => s3.issued q d len
  | (none, st3, s3) => s3.modDesc q d.serial (fun x => x.failAt d.nextBag st3)
  | (some vals, _, s3) => (((s3.bypass (q / 4) (s3.cacheable (q / 4) t)).pushLookup q u).goHome q u.id d t idx 1 vals).issued q d len

/-- A row of a buffer in DRAM (R181). -/
def State.issueSrc (s2 : State) (q : Nat) (d : SDesc) (len e idx : Nat) (u : Lookup) : State :=
  let row := if d.op = 2 then d.nextBag else idx
  let (rb, st3, s3) := s2.srtRead (d.bufAddr + row * d.bufStride) (s2.descWidth d * elemBytes d.bufFmt)
  let pos := if d.op = 2 then kvGet d.starts e 0 else d.nextPos
  ((s3.bypass (q / 4) true).pushLookup q { u with row := row, pos := pos, data := some rb, status := st3 }).issued q d len

/-- The look-up with its index and weight read, to where it goes (R178 to R187); `s` is the state before the reads. -/
def State.issueAs (s s2 : State) (q : Nat) (d : SDesc) (len e idx w st : Nat) (ecc : CacheEcc) (halve : Bool) : State :=
  let b := d.nextBag
  let u : Lookup := { id := s.serial, desc := d.serial, bag := b, pos := d.nextPos, row := idx, weight := w, fill := none, data := none, status := 0, path := 0 }
  if st ≠ 0 then if halve then s else s2.modDesc q d.serial (fun x => x.failAt b st)
  else if s.descRows d ≤ idx then
    if halve then s
    else if !d.oobZero then s2.modDesc q d.serial (fun x => x.failAt b stBAD)
    else s2.issueOob q d len w
  else if d.op = 1 then
    if halve then s
    else match s.table? d.table with
      | none => s2.modDesc q d.serial (fun x => x.failAt b stBAD)
      | some t => s2.issueHome q d len w idx u t
  else if d.src then
    if halve then s else s2.issueSrc q d len e idx u
  else match s.table? d.table with
    | none => if halve then s else s2.modDesc q d.serial (fun x => x.failAt b stBAD)
    | some t => match s2.rowRead q d t u ecc halve with
      | none => s
      | some s3 => s3.issued q d len

/-- The bags of a Sorter that hold pooling accumulators (R183). -/
def State.openBags (s : State) (q : Nat) : Nat :=
  ((s.srt q).queue.map (fun d => (d.bags.filter (fun x => x.len != 0)).length)).foldl (· + ·) 0

/-- LOOKUP_ISSUE (R178, R180, R183): the next index of the pass; nothing where it waits. -/
def State.issueOne (s0 : State) (q : Nat) (ecc : CacheEcc) (errs : List (Fin 136 × CaseErr)) (halve : Bool) : State :=
  match (s0.srt q).queue.find? (·.running) with
  | none => s0
  | some d =>
    let s := s0.srtErrs d errs
    let b := d.nextBag
    let o0 := (s.offAt d b).1
    let len := (s.offAt d (b + 1)).1 - o0
    let fresh := d.nextPos == 0 && d.op != 1
    if s.stepWaits d ∨ (fresh ∧ 16 ≤ s.openBags q) then s
    else if 8192 ≤ (s.srt q).lookups.length then
      if d.held then s else (s.modDesc q d.serial (fun x => { x with held := true })).bump (pgSRT q) 0x050 1
    else
      let e := o0 + d.nextPos
      let (idx, st1, s1) := s.idxAt d e
      let (wb, st2, s2) := if d.wen then s1.srtRead (d.at 0x28 8 + 4 * e) 4 else ([], 0, s1)
      s.issueAs s2 q d len e idx (d.weightOf (leNat wb) len) (if st1 = 0 then st2 else st1) ecc halve

/-- R178: a Sorter issues one look-up; `ecc` is what the cache access meets (R192), `errs` the Case errors of its buffer reads (R77). -/
def execLookupIssue (sorter : Fin 8) (ecc : CacheEcc) (errs : List (Fin 136 × CaseErr)) (s : State) : Host.Outcome State Fault Refusal := .next (s.issueOne sorter.val ecc errs false)

/-- R189: the access that takes the count to a multiple of 2^20 is handled after every counter was halved. -/
def execPghHalving (sorter : Fin 8) (ecc : CacheEcc) (errs : List (Fin 136 × CaseErr)) (s : State) : Host.Outcome State Fault Refusal := .next (s.issueOne sorter.val ecc errs true)

/-- The fill of a look-up's data (R190): the entry holds every sector; a fill that failed or lost its entry answers those that joined it. -/
def State.fillData (s : State) (q : Nat) (u : Lookup) (data : Bytes) : State :=
  if u.fill ≠ some u.id then s
  else
    let f := q / 4
    match (s.cache f).ways.find? (fun p => p.2.filling && p.2.filler == u.id) with
    | none => s.fillReply u.id u.status data
    | some (w, y) =>
      if u.status = 0 then s.modCache f (fun g => { g with ways := kvSet g.ways w { y with image := data, sectors := 2 ^ (data.length / 64) - 1 } })
      else (s.modCache f (fun g => { g with ways := kvDel g.ways w })).fillReply u.id u.status data

/-- R190: a fill whose sectors are all written becomes visible, and the look-ups that joined it receive the reply. -/
def execPghFillComplete (folio : Fin 2) (s : State) : Host.Outcome State Fault Refusal :=
  let f := folio.val
  match (s.cache f).ways.find? (fun p => p.2.filling && p.2.sectors != 0) with
  | none => .next s
  | some (w, y) =>
    .next (((s.modCache f (fun g => { g with ways := kvSet g.ways w { y with filling := false } })).bump (pgPGH f) 0x050 1).fillReply y.filler 0 y.image)

/-- Counts of a served look-up (R174). -/
def SDesc.served (d : SDesc) (path : Nat) : SDesc :=
  let p := path % 4
  { d with hits := d.hits + b2n (p == 1), loc := d.loc + b2n (p == 2), remote := d.remote + b2n (p == 3), tier := d.tier + path / 4 % 2 }

/-- R175, R177, R181: the data of a look-up enters its bag. -/
def State.takeRow (s : State) (q : Nat) (d : SDesc) (u : Lookup) (data : Bytes) : State :=
  let n := s.descWidth d
  let s1 := s.modDesc q d.serial (fun x => x.served u.path)
  if d.op = 1 then s1
  else if d.src then
    let vals := (unpackCodes d.bufFmt n data).map (fun c => elemBase d.bufFmt 0 c)
    if d.op = 2 then
      let codes := vals.map (fun v => d.outCode (if d.wen then v.mul (f32dec u.weight) else v))
      s1.modDesc q d.serial (fun x => { x with bags := x.bags.map (fun y => if y.bag == u.bag then { y with left := y.left - 1, outs := y.outs ++ [(u.pos, codes)] } else y) })
    else match s1.desc? q d.serial with
      | none => s1
      | some d1 => s1.poolRow q d1 u.bag u.pos u.weight vals
  else match s.table? d.table with
    | none => s1.modDesc q d.serial (fun x => x.failAt u.bag stBAD)
    | some t =>
      let tv := leAt data 4 2
      let s2 := s1.modDesc q d.serial (fun x => { x with tvMin := min x.tvMin tv, tvMax := max x.tvMax tv })
      match s2.desc? q d.serial with
      | none => s2
      | some d1 => s2.poolRow q d1 u.bag u.pos u.weight (imageVals t.fmt t.width data)

/-- R175: the reply of the i-th outstanding look-up, where it has arrived; the data of a descriptor that failed at its bag or below is discarded (R173, R186). -/
def execLookupReply (sorter : Fin 8) (i : Nat) (s : State) : Host.Outcome State Fault Refusal :=
  let q := sorter.val
  match (s.srt q).lookups[i]? with
  | none => .next s
  | some u => match u.data with
    | none => .next s
    | some data =>
      let s1 := (s.modSrt q (fun k => { k with lookups := dropNth k.lookups i })).fillData q u data
      match s1.desc? q u.desc with
      | none => .next s1
      | some d =>
        let dead := match d.fail with | some (f, _) => decide (f ≤ u.bag) | none => false
        if dead then .next s1
        else if u.status ≠ 0 then .next ((s1.modDesc q d.serial (fun x => x.failAt u.bag u.status)).flush q d.serial)
        else .next ((s1.takeRow q d u data).flush q d.serial)

/-- The completion record (R174). -/
def SDesc.stat (d : SDesc) : Bytes :=
  let st := match d.fail with | some f => f.2 | none => 0
  let bad := match d.fail with | some f => f.1 % 2 ^ 32 | none => 0xFFFFFFFF
  let c := fun (n : Nat) => toLE 4 (min n 0xFFFFFFFF)
  toLE 1 st ++ toLE 1 (d.at 0 1) ++ toLE 2 (min d.passes 0xFFFF) ++ toLE 4 bad ++ toLE 8 d.indices ++ c d.hits ++ c d.loc ++ c d.remote ++ c d.tier
  ++ c d.oob ++ c d.loss ++ c d.ovf ++ toLE 2 d.tvMin ++ toLE 2 d.tvMax ++ c d.nonFin ++ toLE 12 0

/-- A descriptor has nothing left to issue, to receive or to write. -/
def State.descDone (s : State) (q : Nat) (d : SDesc) : Bool :=
  !d.running && d.bags.isEmpty && (d.fail.isSome || decide (d.nbags ≤ d.nextBag)) && !(s.srt q).lookups.any (fun u => u.desc == d.serial)

/-- R174: the first finished descriptor leaves the queue: its completion record is written at a STAT_ADDR that R172 allows, its SPOST completes (R131), events latch. -/
def execDescriptorComplete (sorter : Fin 8) (s : State) : Host.Outcome State Fault Refusal :=
  let q := sorter.val
  match (s.srt q).queue.find? (s.descDone q) with
  | none => .next s
  | some d =>
    let st := match d.fail with | some f => f.2 | none => 0
    let s1 := if s.bufOk d.statAddr 64 && gaSpace d.statAddr == 1 then s.ownWrite d.statAddr d.stat else s
    let s2 := (s1.modSrt q (fun k => { k with queue := k.queue.filter (fun x => x.serial != d.serial) })).bump (pgSRT q) 0x048 1
    let s3 := if st = 0 then s2 else if st = stABORTED then s2.latchAt (pgSRT q) 5 d.step else s2.latchAt (pgSRT q) 4 d.step
    .next (s3.moveDone d.tile d.move st)

end Sys2Proof.Machine
end

