-- ==== Sys2Proof/Machine/TileOps.lean ====
section
/-! DEFINITION. Issue of Press instructions (R94, R107, R109, R118 to R120), tile faults (R102, R119), Case reads by a tile's own units (R77). -/

namespace Sys2Proof.Machine

/-- R102: a fault of a tile: it stops issuing, the error registers and PRS_FAULT are set, and its step's READY goes out with FAULT (R269). The boundary that this READY is leaves the tile FAULTED: the next one resets it (log entry 84). A failed residue check marks the tile for retirement also when it has faulted already (R74). -/
def State.tileFault (s : State) (p code lo hi : Nat) : State :=
  let t := s.tile p
  if t.run = .off then s
  else if t.run = .faulted then (if code = 0x85 then s.markTile p else s)
  else
    let s1 := s.setTile p { t with run := .faulted, wait := none, newFault := (match s.step? t.step with | some r => r.state == .opened | none => false) }
    let s2 := (s1.setErr (pgPRS p) code (lo % 2 ^ 32) (t.ctx % 256 * 2 ^ 24 + hi % 2 ^ 24)).latchAt (pgPRS p) 2 t.step
    let s3 := if code = 0x85 then s2.markTile p else s2
    s3.sendReady t.step true

/-- A unit of the tile has read a poisoned word (R77, R102). -/
def State.caseFault (s : State) (p addr : Nat) : State := (s.caseUE p).tileFault p 0x80 addr 0

/-- A Case read of ranges by a unit of the tile: the errors that it meets, and the first poisoned word's address. -/
def State.caseRead (s : State) (p : Nat) (ranges : List (Nat × Nat)) (errs : List CaseErr) : State × Option Nat :=
  let hit := errs.filter (fun e => ranges.any (fun r => decide (r.1 < e.addr / 8 * 8 + 8) && decide (e.addr / 8 * 8 < r.1 + r.2)))
  let s1 := s.caseErrors p hit
  (s1, firstBad (s1.tile p).mem ranges)

/-- The sheet code of the resident context. -/
def State.code (s : State) (p : Nat) : List (BitVec 64) := match s.sheet? (s.tile p).sheet with | none => [] | some sh => sh.code

/-- The loop levels that end at the instruction at PC (R120): the next PC and the depth. A closed level keeps its last LCOUNT, LSTART and LEND (log entry 85). -/
def Tile.loopEnd (t : Tile) : Nat → Tile
  | 0 => { t with pc := t.pc + 1, depth := 0 }
  | d + 1 =>
    if kvGet t.lend d 0 = t.pc then
      let c := kvGet t.lcount d 0
      if 1 < c then { t with pc := kvGet t.lstart d 0, depth := d + 1, lcount := kvSet t.lcount d (c - 1) }
      else t.loopEnd d
    else { t with pc := t.pc + 1, depth := d + 1 }

/-- The instruction at PC has issued without a transfer of control (R120): loop ends, and the run past the sheet's last instruction. A STOP that waits takes effect at this instruction boundary (R103). -/
def State.advance (s : State) (p : Nat) : State :=
  let t := s.tile p
  let n := (s.code p).length
  let u := { t.loopEnd t.depth with stalled := 0 }
  let stop := s.regN (pgPRS p) 0x008 % 2 = 1
  if u.pc < n then s.setTile p (if stop then { u with run := .stopped, stopWas := .running } else u)
  else (s.setTile p u).tileFault p 0x10 t.pc n

/-- A transfer of control to an instruction of the sheet. -/
def State.jump (s : State) (p target : Nat) : State :=
  let t := s.tile p
  let n := (s.code p).length
  let u := { t with pc := target, stalled := 0 }
  let stop := s.regN (pgPRS p) 0x008 % 2 = 1
  if target < n then s.setTile p (if stop then { u with run := .stopped, stopWas := .running } else u)
  else (s.setTile p u).tileFault p 0x10 t.pc n

/-- The instruction word at the PC of a running tile. -/
def State.wordAt (s : State) (p : Nat) : Option (BitVec 64) :=
  let t := s.tile p
  if t.run = .running ∧ t.role = .enabled then (s.code p)[t.pc]? else none

/-- Issue (R107, R109): the word at the PC is this instruction; it waits, faults with its lowest failing check, or takes effect. -/
def State.issueRaw (s : State) (p op : Nat) (b : Body) (wait : Tile → Bool) (chk : Tile → List PFault) (eff : Tile → State) : State :=
  match s.wordAt p with
  | none => s
  | some w =>
    if w.toNat ≠ op * 2 ^ 56 + b.toNat then s
    else
      let t := s.tile p
      match worstFault (chk t) with
      | some f => s.tileFault p f.code t.pc f.info
      | none => if wait t then s else eff t

/-- Goes on after an effect that left the tile running. -/
def State.goOn (s : State) (p : Nat) : State := if (s.tile p).run = .running then s.advance p else s

/-- Issue of an instruction that does not transfer control. -/
def State.issue (s : State) (p op : Nat) (b : Body) (wait : Tile → Bool) (chk : Tile → List PFault) (eff : Tile → State) : State :=
  s.issueRaw p op b wait chk (fun t => (eff t).goOn p)

/-- No structural wait. -/
def noWait : Tile → Bool := fun _ => false

/-- A poisoned read ends in the tile's fault; otherwise the tile changes and goes on. -/
def State.readThen (s : State) (p : Nat) (ranges : List (Nat × Nat)) (errs : List CaseErr) (f : Tile → Tile) : State :=
  match s.caseRead p ranges errs with
  | (s1, some a) => s1.caseFault p a
  | (s1, none) => (s1.modTile p f).goOn p

/-- A K slice of the bank is under way, or a drain of it has not ended (R85). -/
def Tile.bankBusy (t : Tile) (b : Bool) : Bool := t.platen.any (fun k => k.bankB == b) || (t.bank b).drain.isSome

/-- A movement of the tile that reaches its Galley views or state block is outstanding (R85). -/
def Tile.galleyMove (t : Tile) : Bool := t.moves.any (·.view)

/-- The micro-batch slot of the phase state (R117). -/
def Tile.mbSlot (t : Tile) : Nat := fld t.phase 2 2

/-- Changes the progress of a context of a tile. -/
def Tile.modCtx (t : Tile) (c : Nat) (f : Ctx → Ctx) : Tile :=
  { t with slices := t.slices.zipIdx.map (fun (q : Ctx × Nat) => if q.2 == c then f q.1 else q.1) }

/-- The SLOT of a bucket contribution (R336): that of an open FWD or BWD phase, 0 outside one. -/
def Tile.bktSlot (t : Tile) : Nat := if t.inGradPhase then t.mbSlot else 0

/-- The draw for element index `i` of a tensor under a purpose (R67, R114). -/
def State.tileDraw (s : State) (t : Tile) (tid purpose i : Nat) : Nat := keyedDraw s.seed t.step (drawW1 tid purpose t.mbSlot) i

end Sys2Proof.Machine
end

