-- ==== Sys2Proof/Machine/SeqRows.lean ====
section
/-! DEFINITION. Sequencer instructions of a Press tile: control (R99, R120, R121), scalar (R122), descriptors and streams (R123), reserved opcodes (R118). -/

namespace Sys2Proof.Machine

/-- R107: NOP does nothing. -/
def execNop (t : Fin 136) (b : Body) (s : State) : Host.Outcome State Fault Refusal :=
  .next (s.issue t.val 0x00 b noWait (fun _ => reservedChk b 0 []) (fun _ => s))

/-- The range rule of R120 for a branch target or loop end. -/
def rangeChk (t : Tile) (n : Nat) (target : Int) : List PFault :=
  let out := decide (target < 0) || decide ((n : Int) ≤ target)
  let outer := t.depth != 0 && (decide (target < ((kvGet t.lstart (t.depth - 1) 0 : Nat) : Int)) || decide (((kvGet t.lend (t.depth - 1) 0 : Nat) : Int) < target))
  failIf (out || outer) 0x10 (wrapN 16 target)

/-- R120: LOOP opens a level, or with a count of 0 goes to the instruction after the body. -/
def execLoop (t : Fin 136) (b : Body) (s : State) : Host.Outcome State Fault Refusal :=
  let src := bbit b 55
  let len := bfld b 21 13
  .next (s.issueRaw t.val 0x01 b noWait
    (fun u => reservedChk b (ones 55 55 + (if src then ones 38 34 else ones 54 39) + ones 33 21) []
      ++ failIf (4 ≤ u.depth) 0x0F 0 ++ rangeChk u (s.code t.val).length ((u.pc + len + 1 : Nat) : Int))
    (fun u =>
      let c := if src then u.reg (bfld b 34 5) % 2 ^ 32 else bfld b 39 16
      if c = 0 then s.jump t.val (u.pc + len + 2)
      else (s.setTile t.val { u with depth := u.depth + 1, lcount := kvSet u.lcount u.depth c, lstart := kvSet u.lstart u.depth (u.pc + 1), lend := kvSet u.lend u.depth (u.pc + len + 1) }).jump
        t.val (u.pc + 1)))

/-- The condition of BR (R120). -/
def brTaken (cond a b : Nat) : Bool :=
  match cond with
  | 0 => true
  | 1 => a == b
  | 2 => a != b
  | 3 => decide (sext 64 a < sext 64 b)
  | 4 => decide (sext 64 b ≤ sext 64 a)
  | 5 => decide (a < b)
  | _ => decide (b ≤ a)

/-- R120: BR. -/
def execBr (t : Fin 136) (b : Body) (s : State) : Host.Outcome State Fault Refusal :=
  let off := sext 14 (bfld b 28 14)
  .next (s.issueRaw t.val 0x02 b noWait
    (fun u => reservedChk b (ones 55 28) [(decide (6 < bfld b 52 4), 52)] ++ rangeChk u (s.code t.val).length ((u.pc : Int) + off))
    (fun u => if brTaken (bfld b 52 4) (u.reg (bfld b 47 5)) (u.reg (bfld b 42 5)) then s.jump t.val ((u.pc : Int) + off).toNat else s.advance t.val))

/-- R99: YIELD stops issuing; the context continues after it when it is restored. -/
def execYield (t : Fin 136) (b : Body) (s : State) : Host.Outcome State Fault Refusal :=
  .next (s.issueRaw t.val 0x03 b noWait (fun u => reservedChk b 0 [] ++ failIf (u.slices.length < 2) 0x12 0)
    (fun _ =>
      let s1 := s.advance t.val
      let u := s1.tile t.val
      if u.run = .running ∨ u.run = .stopped then s1.setTile t.val { u with run := .yielding, atPc := (s.tile t.val).pc } else s1))

/-- The context after the resident one that has not ended (R98, R121). -/
def Tile.nextCtx (t : Tile) : Option Nat :=
  ((List.range t.slices.length).map (fun i => (t.ctx + 1 + i) % t.slices.length)).find? (fun c => match t.slices[c]? with
    | some x => !x.ended
    | none => false)

/-- Bytes of the save record before the extent (R100). -/
def saveHead : Nat := 0x42000

/-- The save record of the resident context (R100): state block, raw views, extent. -/
def Tile.saveRecord (t : Tile) (extent : Nat) : Bytes :=
  t.readAt 0x860000 0x2000 ++ t.readAt 0x820000 0x40000 ++ t.mem.read 0 extent

/-- A tile with a save record restored (R99, R100). -/
def Tile.restore (t : Tile) (rec0 : Bytes) (ctx extent : Nat) : Tile :=
  let u := ((t.clearBanks.writeAt 0x820000 (sliceB rec0 0x2000 0x40000)).writeAt 0x860000 (sliceB rec0 0 0x2000)).writeAt 0 (sliceB rec0 saveHead extent)
  { u with ctx := ctx }

/-- R101, R240: a save area that cannot be written or read faults the tile with CONTEXT_IO; an unmapped one latches MEM_UNMAPPED too. -/
def State.saveFault (s : State) (p area n : Nat) : State :=
  (if dramMapped area n then s else s.unmapped 0 area s.self).tileFault p 0x83 (s.tile p).atPc 0

/-- Issue resumes with context `c` resident (R99), or the tile stops where STOP is set (R103). -/
def State.resumed (s : State) (p c : Nat) (v : Tile) : Tile :=
  { v.modCtx c (fun x => { x with started := true }) with run := if s.regN (pgPRS p) 0x008 % 2 = 1 then .stopped else .running, stopWas := .running, stalled := 0 }

/-- R99: CONTEXT_SWITCH. The outgoing context's work is done; its record is saved, the incoming one restored, or started at its sheet with cleared banks; issue resumes. A save area that cannot be used faults the tile with CONTEXT_IO (R101). -/
def execContextSwitch (t : Fin 136) (errs : List CaseErr) (s : State) : Host.Outcome State Fault Refusal :=
  let p := t.val
  let u := s.tile p
  if u.run ≠ .yielding ∨ !u.platen.isEmpty ∨ u.bankA.drain.isSome ∨ u.bankB.drain.isSome ∨ !u.moves.isEmpty then .next s
  else match u.nextCtx, u.slices[u.ctx]? with
    | some c, some out =>
      match u.slices[c]? with
      | none => .next s
      | some inc =>
        let ext := min out.extent 0x800000
        let (s0, bad) := s.caseRead p [(0, ext)] errs
        match bad with
        | some a => .next (s0.caseFault p a)
        | none =>
          let n := saveHead + ext
          if !dramMapped out.save n || !s.memOpen out.save n then .next (s0.saveFault p out.save n)
          else
            let s1 := (s0.dramKeep out.save (u.saveRecord ext)).1
            if !inc.started then
              match s1.sheet? inc.sheet with
              | none => .next (s1.tileFault p 0x83 u.atPc 0)
              | some sh => .next (s1.setTile p (s.resumed p c (({ u.clearBanks with ctx := c } : Tile).beginAt sh)))
            else
              let m := saveHead + min inc.extent 0x800000
              if !dramMapped inc.save m || !s1.memOpen inc.save m then .next (s1.saveFault p inc.save m)
              else
                let (bs, poison, s2) := s1.dramLoad inc.save m
                if poison then .next (s2.tileFault p 0x83 u.atPc 0)
                else .next (s2.setTile p (s.resumed p c (u.restore bs c (min inc.extent 0x800000))))
    | _, _ => .next s

/-- The sheet that follows the tile's (R121); none where its NEXT is 0xFFFF. -/
def State.nextSheet (s : State) (t : Tile) : Option Sheet := (s.sheet? t.sheet).bind (fun sh => if sh.next = 0xFFFF then none else s.sheet? sh.next)

/-- R121: END finishes the sheet: the next sheet, a yield to a context that has not ended, or IDLE. -/
def execEndSheet (t : Fin 136) (b : Body) (s : State) : Host.Outcome State Fault Refusal :=
  .next (s.issueRaw t.val 0x04 b noWait
    (fun u => reservedChk b 0 [] ++ failIf (bitOf u.phase 4) 0x11 u.phase)
    (fun u =>
      match s.nextSheet u with
      | some sh => (s.setTile t.val (({ u with depth := 0, lcount := [], lstart := [], lend := [] } : Tile).applyInits sh)).jump t.val sh.entry
      | none =>
        let u1 := { u.modCtx u.ctx (fun c => { c with ended := true }) with depth := 0, stalled := 0 }
        s.setTile t.val { u1 with run := if u1.nextCtx.isSome then .yielding else .idle, atPc := u.pc }))

/-- R121: TRAP faults the tile with its code. -/
def execTrap (t : Fin 136) (b : Body) (s : State) : Host.Outcome State Fault Refusal :=
  .next (s.issueRaw t.val 0x05 b noWait (fun _ => reservedChk b (ones 15 0) []) (fun u => s.tileFault t.val 0x7F u.pc (bfld b 0 16)))

/-- The functions of ALU and ALUI (R122). -/
def aluFn (fn a b : Nat) : Nat :=
  match fn with
  | 0 => wrap64 (a + b)
  | 1 => wrap64 (a + 2 ^ 64 - b % 2 ^ 64)
  | 2 => a &&& b
  | 3 => a ||| b
  | 4 => a ^^^ b
  | 5 => wrap64 (a <<< (b % 64))
  | 6 => a >>> (b % 64)
  | 7 => wrapN 64 (sext 64 a / ((2 ^ (b % 64) : Nat) : Int))
  | 8 => wrap64 (a * b)
  | 9 => if sext 64 a ≤ sext 64 b then a else b
  | 10 => if sext 64 a ≤ sext 64 b then b else a
  | 11 => min a b
  | _ => max a b

/-- R122: ALU. -/
def execAlu (t : Fin 136) (b : Body) (s : State) : Host.Outcome State Fault Refusal :=
  .next (s.issue t.val 0x08 b noWait (fun _ => reservedChk b (ones 55 35) [(decide (0x0C < bfld b 50 6), 50)])
    (fun u => s.setTile t.val (u.setReg (bfld b 45 5) (aluFn (bfld b 50 6) (u.reg (bfld b 40 5)) (u.reg (bfld b 35 5))))))

/-- R122: ALUI. -/
def execAlui (t : Fin 136) (b : Body) (s : State) : Host.Outcome State Fault Refusal :=
  .next (s.issue t.val 0x09 b noWait (fun _ => reservedChk b (ones 55 40 + ones 31 0) [(decide (0x0C < bfld b 50 6), 50)])
    (fun u => s.setTile t.val (u.setReg (bfld b 45 5) (aluFn (bfld b 50 6) (u.reg (bfld b 40 5)) (wrapN 64 (sext 32 (bfld b 0 32)))))))

/-- R122: MOVI. -/
def execMovi (t : Fin 136) (b : Body) (s : State) : Host.Outcome State Fault Refusal :=
  .next (s.issue t.val 0x0A b noWait (fun _ => reservedChk b (ones 55 50 + ones 31 0) [])
    (fun u =>
      let d := bfld b 51 5
      s.setTile t.val (u.setReg d (if bbit b 50 then bfld b 0 32 * 2 ^ 32 + u.reg d % 2 ^ 32 else wrapN 64 (sext 32 (bfld b 0 32))))))

/-- The checks of a scalar Case access of `n` bytes (R122, R123). -/
def scalarChk (t : Tile) (a n reg : Nat) : List PFault := failIf (a % n != 0) 0x0C reg ++ failIf (rangeOut t a n) 0x0B reg

/-- R122: LDG. -/
def execLdg (t : Fin 136) (b : Body) (errs : List CaseErr) (s : State) : Host.Outcome State Fault Refusal :=
  let ad := fun (u : Tile) => addrOff (u.reg (bfld b 46 5)) (bfld b 30 16)
  .next (s.issueRaw t.val 0x0B b noWait (fun u => reservedChk b (ones 55 30) [] ++ scalarChk u (ad u) 8 (bfld b 46 5))
    (fun u => s.readThen t.val [(ad u, 8)] errs (fun v => v.setReg (bfld b 51 5) (v.mem.readLE (ad u) 8))))

/-- R122: STG. -/
def execStg (t : Fin 136) (b : Body) (s : State) : Host.Outcome State Fault Refusal :=
  let ad := fun (u : Tile) => addrOff (u.reg (bfld b 46 5)) (bfld b 30 16)
  .next (s.issue t.val 0x0C b noWait (fun u => reservedChk b (ones 55 30) [] ++ scalarChk u (ad u) 8 (bfld b 46 5))
    (fun u => s.setTile t.val (u.writeAt (ad u) (toLE 8 (u.reg (bfld b 51 5))))))

/-- The values that SYSR reads (R122). -/
def State.sysr (s : State) (t : Tile) (sel : Nat) : Nat :=
  if sel = 0 then t.step else if sel = 1 then t.mbSlot else if sel = 2 then fld t.phase 0 2 else if sel = 3 then t.logical
  else if sel = 4 then t.ctx else if sel ≤ 8 then kvGet t.lcount (sel - 5) 0 else if sel = 9 then s.self else s.epoch

/-- R122: SYSR. -/
def execSysr (t : Fin 136) (b : Body) (s : State) : Host.Outcome State Fault Refusal :=
  .next (s.issue t.val 0x0D b noWait (fun _ => reservedChk b (ones 55 47) [(decide (10 < bfld b 47 4), 47)])
    (fun u => s.setTile t.val (u.setReg (bfld b 51 5) (s.sysr u (bfld b 47 4)))))

/-- R123: DLD. -/
def execDld (t : Fin 136) (b : Body) (errs : List CaseErr) (s : State) : Host.Outcome State Fault Refusal :=
  let ad := fun (u : Tile) => u.reg (bfld b 47 5)
  .next (s.issueRaw t.val 0x10 b noWait (fun u => reservedChk b (ones 55 47) [] ++ scalarChk u (ad u) 64 (bfld b 47 5))
    (fun u => s.readThen t.val [(ad u, 64)] errs (fun v => v.setDesc (bfld b 52 4) (BitVec.ofNat 512 (v.mem.readLE (ad u) 64)))))

/-- R123: DSET. -/
def execDset (t : Fin 136) (b : Body) (s : State) : Host.Outcome State Fault Refusal :=
  .next (s.issue t.val 0x11 b noWait (fun _ => reservedChk b (ones 55 43) [])
    (fun u => s.setTile t.val (u.setDesc (bfld b 52 4) (BitVec.ofNat 512 (setFld (u.desc (bfld b 52 4)).toNat (32 * bfld b 48 4) 32 (u.reg (bfld b 43 5)))))))

/-- R123: SLD. -/
def execSld (t : Fin 136) (b : Body) (errs : List CaseErr) (s : State) : Host.Outcome State Fault Refusal :=
  let ad := fun (u : Tile) => u.reg (bfld b 48 5)
  .next (s.issueRaw t.val 0x12 b noWait (fun u => reservedChk b (ones 55 48) [] ++ scalarChk u (ad u) 32 (bfld b 48 5))
    (fun u => s.readThen t.val [(ad u, 32)] errs (fun v => v.setStream (bfld b 53 3) (v.mem.readLE (ad u) 32))))

/-- R123: SSET. -/
def execSset (t : Fin 136) (b : Body) (s : State) : Host.Outcome State Fault Refusal :=
  .next (s.issue t.val 0x13 b noWait (fun _ => reservedChk b (ones 55 45) [])
    (fun u => s.setTile t.val (u.setStream (bfld b 53 3) (setFld (u.stream (bfld b 53 3)) (32 * bfld b 50 3) 32 (u.reg (bfld b 45 5))))))

/-- The opcodes of R118. -/
def knownOpcode (op : Nat) : Bool :=
  decide (op ≤ 5) || (decide (8 ≤ op) && decide (op ≤ 0x0D)) || (decide (0x10 ≤ op) && decide (op ≤ 0x13)) || (decide (0x20 ≤ op) && decide (op ≤ 0x24))
  || (decide (0x30 ≤ op) && decide (op ≤ 0x34)) || op == 0x40 || op == 0x48 || (decide (0x50 ≤ op) && decide (op ≤ 0x53)) || op == 0x58
  || (decide (0x60 ≤ op) && decide (op ≤ 0x62)) || op == 0x68

/-- R118: a reserved opcode at the PC faults the tile with OPCODE. -/
def execOpcodeFault (t : Fin 136) (s : State) : Host.Outcome State Fault Refusal :=
  match s.wordAt t.val with
  | none => .next s
  | some w =>
    let op := w.toNat / 2 ^ 56
    if knownOpcode op then .next s else .next (s.tileFault t.val 1 (s.tile t.val).pc op)

end Sys2Proof.Machine
end

