-- ==== Sys2Proof/Machine/PlatenRows.lean ====
section
/-! DEFINITION. Platen and Galley instructions of a Press tile (R79 to R88, R124, R125). -/

namespace Sys2Proof.Machine

/-- The bytes that a descriptor's logical matrix occupies: its stored rows, and the rows of its block-scale array (R113). -/
def descRanges (d : DescWord) (code : Nat) (t forB : Bool) : List (Nat × Nat) :=
  let (sr, per) := storedShape t (dRows d) (dCols d)
  let rows := (List.range sr).map (fun r => (dBase d + r * dStride d, rowBytes code per))
  let (n, along) := if forB then (dCols d, dRows d) else (dRows d, dCols d)
  rows ++ (if isMX code then (List.range n).map (fun r => (dSbase d + r * dSstride d, ceilDiv along 32)) else [])

/-- The banks take the operations of R85 in program order: this one waits for slices, a drain or a movement under way. -/
def Tile.galleyWait (t : Tile) (b : Bool) : Bool := t.bankBusy b || t.galleyMove

/-- FORMAT_PAIR for two operand descriptors (R51). Its detail names the descriptor whose own format is refused, else B; SHAPE names A or B by the limit that fails, and MX_BLOCK the first MX operand (log entry 88). -/
def pairChk (da db : DescWord) (ia ib : Nat) : List PFault :=
  failIf (!pairOk (dFmt da) (dFmt db)) 4 (if 12 ≤ dFmt da then ia else ib)

/-- The product count that an instruction behind the drain of a bank meets: 0 when the drain zeroes the bank (R83, R85). -/
def Bank.countNow (k : Bank) : Nat := match k.drain with | some e => if e.zero.isSome then 0 else k.count | none => k.count

/-- The Platen executes one MMA and holds one accepted one; a third waits (R110). -/
def Tile.platenFull (t : Tile) : Bool := match t.platen with | [] => false | k :: r => match r.find? (fun x => x.mma != k.mma) with | none => false | some _ => true

/-- A descriptor with its BASE replaced (R124). -/
def withBase (d : DescWord) (a : Int) : DescWord := if 0 ≤ a ∧ a < 2 ^ 24 then BitVec.ofNat 512 (setFld d.toNat 0 32 a.toNat) else d

/-- The operands of MMA: descriptors after the stream uses, the tile with advanced streams, and the checks of the streams. -/
def mmaOperands (u : Tile) (b : Body) : DescWord × DescWord × Tile × List PFault :=
  let use := fun (on : Bool) (st : Nat) (d : DescWord) (v : Tile) =>
    if on then
      let x := v.stream st
      let a := streamAddr x
      (withBase d a, v.setStream st (streamNext x), failIf (streamBad x) 2 st ++ failIf (decide (a < 0) || decide (((v.extent : Nat) : Int) ≤ a)) 0x0B st)
    else (d, v, [])
  let (da, v1, f1) := use (bbit b 46) (bfld b 43 3) (u.desc (bfld b 51 4)) u
  let (db, v2, f2) := use (bbit b 42) (bfld b 39 3) (u.desc (bfld b 47 4)) v1
  (da, db, v2, f1 ++ f2)

/-- Slices of a bank that are under way. -/
def Tile.slicesOf (t : Tile) (b : Bool) : Nat := (t.platen.filter (fun k => k.bankB == b)).length

/-- The checks of MMA (R124). -/
def mmaChk (u : Tile) (b : Body) : List PFault :=
  let bank := bbit b 55
  let ia := bfld b 51 4
  let ib := bfld b 47 4
  let (da, db, _, fs) := mmaOperands u b
  let k := dCols da
  reservedChk b (ones 55 46 + (if bbit b 46 then ones 45 43 else 0) + ones 42 42 + (if bbit b 42 then ones 41 39 else 0)) []
  ++ fs ++ failIf (descInvalid da false) 3 ia ++ failIf (descInvalid db true) 3 ib ++ pairChk da db ia ib
  ++ failIf (decide (64 < dRows da)) 5 ia ++ failIf (decide (64 < dCols db)) 5 ib ++ failIf (dCols da != dRows db) 5 ib
  ++ failIf ((isMX (dFmt da) || isMX (dFmt db)) && k % 32 != 0) 6 (if isMX (dFmt da) then ia else ib)
  ++ failIf (!u.galleyMove && decide (2 ^ 23 < (u.bank bank).countNow + u.slicesOf bank + k)) 7 (b2n bank)
  ++ failIf (descOut u da (dFmt da) (dT da) false) 0x0B ia ++ failIf (descOut u db (dFmt db) (dT db) true) 0x0B ib

/-- The tile cycles that K slice `k` of an operand pair takes at M1: two slices share a cycle where both codes are MXFP6 or MXFP4, and one takes two in BF16 or FP16 (R80; log entry 75). -/
def m1Cycles (ca cb k : Nat) : Nat :=
  let fast := fun (c : Nat) => decide (4 ≤ c) && decide (c ≤ 6)
  if fast ca && fast cb then (k + 1) % 2 else if 10 ≤ ca then 2 else 1

/-- The K slices of an MMA (R60, R80): one for each column of A, with its row of B. -/
def mmaSlices (bank : Bool) (mma pc : Nat) (da db : DescWord) (m : Ram) : List KSlice :=
  (List.range (dCols da)).map (fun k => KSlice.mk bank mma pc (m1Cycles (dFmt da) (dFmt db) k) ((List.range (dRows da)).map (fun i => elemAt m da false i k))
    ((List.range (dCols db)).map (fun j => elemAt m db true k j)))

/-- R124: MMA reads its operands and hands its K slices to the Platen; a poisoned operand faults the tile. -/
def execMma (t : Fin 136) (b : Body) (errs : List CaseErr) (s : State) : Host.Outcome State Fault Refusal :=
  .next (s.issueRaw t.val 0x20 b (fun u => u.platenFull || u.galleyMove) (fun u => mmaChk u b)
    (fun u =>
      let (da, db, v, _) := mmaOperands u b
      let s0 : State := { (s.setTile t.val v) with serial := s.serial + 1 }
      s0.readThen t.val (descRanges da (dFmt da) (dT da) false ++ descRanges db (dFmt db) (dT db) true) errs (fun w =>
        { w with platen := w.platen ++ mmaSlices (bbit b 55) s.serial u.pc da db w.mem })))

/-- R60, R80: the oldest K slice enters its bank; one that fails its residue check enters none, nor do later slices of its instruction, and the tile faults with PLATEN_CHECK (R81). -/
def execProductEntry (t : Fin 136) (residue : Bool) (s : State) : Host.Outcome State Fault Refusal :=
  let u := s.tile t.val
  match u.platen with
  | [] => .next s
  | k :: r =>
    if (u.bank k.bankB).drain.isSome || u.galleyMove then .next s
    else if residue then .next (((s.setTile t.val { u with platen := r.filter (fun x => x.mma != k.mma) }).bump64 (pgPRS t.val) 0x088 k.m1).tileFault t.val 0x85 k.pc (b2n k.bankB * 2 ^ 16))
    else .next ((s.setTile t.val (({ u with platen := r } : Tile).setBank k.bankB ((u.bank k.bankB).enterSlice k))).bump64 (pgPRS t.val) 0x088 k.m1)

/-- The checks of a scale-derived anchor (R57, R125). -/
def anchorChk (u : Tile) (ia ib : Nat) : List PFault :=
  failIf (descInvalid (u.desc ia) false) 3 ia ++ failIf (descInvalid (u.desc ib) true) 3 ib ++ pairChk (u.desc ia) (u.desc ib) ia ib

/-- R125: ZERO. -/
def execZero (t : Fin 136) (b : Body) (s : State) : Host.Outcome State Fault Refusal :=
  let bank := bbit b 55
  let src := bfld b 53 2
  .next (s.issue t.val 0x21 b (fun u => u.galleyWait bank)
    (fun u => reservedChk b (ones 55 53 + (if src = 1 then ones 52 45 else if src = 0 then ones 44 29 else 0)) [(decide (1 < src), 53)]
      ++ (if src = 1 then anchorChk u (bfld b 49 4) (bfld b 45 4) else []) ++ failIf (!u.galleyMove && (u.bank bank).held) 9 (b2n bank))
    (fun u => s.setTile t.val (u.setBank bank ((u.bank bank).zero
      (if src = 1 then scaleAnchor (u.desc (bfld b 49 4)) (u.desc (bfld b 45 4)) else sext 16 (bfld b 29 16))))))

/-- One drained value in an output format (R65, R66): its code, whether it sets OVF, the value of the code. OFMT 5 is INT32. -/
def drainCode (ofmt : Nat) (mode : RMode) (sat : Bool) (r24 : Nat) (v : FVal) : Nat × Bool × FVal :=
  if ofmt = 5 then
    match v with
    | .nan => (0, true, FVal.zero)
    | .inf n => (if n then 0x80000000 else 0x7FFFFFFF, !sat, FVal.ofInt (if n then -(2 ^ 31) else 2 ^ 31 - 1) 0)
    | w =>
      let x := roundInt mode r24 w
      let y := clampInt (-(2 ^ 31)) (2 ^ 31 - 1) x
      (wrapN 32 y, !sat && decide (x ≠ y), FVal.ofInt y 0)
  else
    let (f, code) := ofmtOf ofmt
    let c := f.encode mode sat r24 v
    (c, false, elemBase code 0 c)

/-- Element code of an OFMT (R49); INT32 has the width of FP32. -/
def drainFmt (ofmt : Nat) : Nat := if ofmt = 5 then 12 else (ofmtOf ofmt).2

/-- The checks of DRAIN (R125). -/
def drainChk (u : Tile) (b : Body) : List PFault :=
  let bank := bbit b 55
  let io := bfld b 51 4
  let d := u.desc io
  let of := bfld b 48 3
  let zm := bfld b 42 2
  reservedChk b (ones 55 34 + (if zm = 1 then ones 33 18 else if zm = 2 then ones 25 18 else 0) + ones 17 9)
    [(decide (5 < of), 48), (bfld b 46 2 == 3, 46), (zm == 3, 42)]
  ++ failIf (descBad d (drainFmt of) false false false) 3 io
  ++ (if zm = 2 then anchorChk u (bfld b 18 4) (bfld b 22 4) else [])
  ++ failIf (decide (64 < dRows d) || decide (64 < dCols d)) 5 io
  ++ failIf (!u.galleyMove && (u.bank bank).held && !bbit b 44) 9 (b2n bank)
  ++ failIf (bbit b 17 && u.tag (bfld b 14 3) == 0xFFFFFFFF) 0x0A (bfld b 14 3)
  ++ failIf (descOut u d (drainFmt of) false false) 0x0B io

/-- MODE of a DRAIN (R125). -/
def drainMode (b : Body) : RMode := if bfld b 46 2 = 0 then .rne else if bfld b 46 2 = 1 then .rtz else .sr

/-- One element of a drain: the tile with the element written and counted, OVF, a non-finite or limited value. -/
def State.drainElem (s : State) (b : Body) (d : DescWord) (u : Tile) (i j : Nat) (v : FVal) : Tile × Bool :=
  let of := bfld b 48 3
  let r24 := s.tileDraw u (dTid d) 0 (elemIndex d i j)
  let (c, _, q) := drainCode of (drainMode b) (bbit b 45) r24 v
  let u1 := { u with mem := putElem u.mem d (drainFmt of) false i j c }
  let u2 := if bbit b 17 then u1.tally (bfld b 14 3) q else u1
  let u3 := if bbit b 13 then u2.fount (bfld b 9 4) v (v.sub q) else u2
  (u3, v.nonFinite || q.nonFinite)

/-- The weight exponent of one unit of a drained accumulator (R65, R125). -/
def drainWeight (u : Tile) (b : Body) : Int := (u.bank (bbit b 55)).anchor - 80 + sext 8 (bfld b 34 8)

/-- Every element of a DRAIN: the tile after it, and whether some value was non-finite. -/
def State.drainAll (s : State) (b : Body) (u : Tile) : Tile × Bool :=
  let d := u.desc (bfld b 51 4)
  (List.range (dRows d)).foldl (fun (a : Tile × Bool) i => (List.range (dCols d)).foldl (fun (c : Tile × Bool) j =>
    let (x, n) := s.drainElem b d c.1 i j ((((u.bank (bbit b 55)).at (i * 64 + j)).result).value (drainWeight u b))
    (x, c.2 || n)) a) (u, false)

/-- Some accumulator of a DRAIN sets OVF (R61, R65), or leaves the range of an unlimited INT32 (R66). -/
def State.drainOvf (s : State) (b : Body) (u : Tile) : Bool :=
  let k := u.bank (bbit b 55)
  let d := u.desc (bfld b 51 4)
  (List.range slots).any (fun i => (k.at i).result.setsOvf
    || (bfld b 48 3 == 5 && (drainCode 5 (drainMode b) (bbit b 45) (s.tileDraw u (dTid d) 0 (elemIndex d (i / 64) (i % 64))) ((k.at i).result.value (drainWeight u b))).2.1))

/-- The anchor at which a DRAIN's end zeroes the bank; none without ZERO (R83, R125). -/
def drainZero (u : Tile) (b : Body) : Option Int :=
  if bfld b 42 2 = 0 then none else if bfld b 42 2 = 1 then some (sext 16 (bfld b 18 16)) else some (scaleAnchor (u.desc (bfld b 18 4)) (u.desc (bfld b 22 4)))

/-- R125: DRAIN converts every accumulator, writes the elements of DO, and leaves its end to DRAIN_COMPLETE. -/
def execDrain (t : Fin 136) (b : Body) (s : State) : Host.Outcome State Fault Refusal :=
  let bank := bbit b 55
  .next (s.issue t.val 0x22 b (fun u => u.galleyWait bank) (fun u => drainChk u b)
    (fun u =>
      let k := u.bank bank
      let (u1, nf) := s.drainAll b u
      s.setTile t.val (u1.setBank bank { k with held := k.held && !bbit b 44, drain := some { ovf := s.drainOvf b u, nonFin := nf, phase := u.inGradPhase, zero := drainZero u b } })))

/-- R83: the end of a drain: LOSS totals, PRS_OVF and PRS_LOSS, the sources of R147, and the zeroing that the instruction asked for. -/
def execDrainComplete (t : Fin 136) (bank : Bool) (s : State) : Host.Outcome State Fault Refusal :=
  let p := t.val
  let u := s.tile p
  let k := u.bank bank
  match k.drain with
  | none => .next s
  | some e =>
    let s1 := ((s.bump64 (pgPRS p) 0x050 k.loss).bump (pgPRS p) 0x058 k.loss)
    let s2 := if e.ovf then (s1.bump (pgPRS p) 0x05C 1).latchAt (pgPRS p) 0 u.step else s1
    let s3 := if k.loss = 0 then s2 else s2.latchAt (pgPRS p) 1 u.step
    let s4 := if e.phase && e.ovf then s3.ovfSource u.step 0 else s3
    let s5 := if e.phase && e.nonFin then s4.ovfSource u.step 1 else s4
    let k1 := { k with ovf := k.ovf || e.ovf, drain := none }
    .next (s5.modTile p (fun v => v.setBank bank (match e.zero with | none => k1 | some a => k1.zero a)))

/-- The checks of MERGE (R86, R125). -/
def mergeChk (u : Tile) (b : Body) : List PFault :=
  let bank := bbit b 55
  let img := bbit b 54
  let d := u.bank bank
  let o := u.bank (!bank)
  let ga := bfld b 49 5
  let settled := d.drain.isNone && !u.galleyMove && (img || (o.drain.isNone && !u.bankBusy (!bank)))
  reservedChk b (ones 55 54 + (if img then ones 53 33 else 0)) []
  ++ failIf (settled && d.anchor != (if img then sext 16 (bfld b 33 16) else o.anchor)) 8 (b2n bank)
  ++ failIf (!img && settled && decide (2 ^ 23 < d.count + u.slicesOf bank + o.count + u.slicesOf (!bank))) 7 (b2n bank)
  ++ (if img then failIf (rangeOut u (u.reg ga) 65536) 0x0B ga ++ failIf (u.reg ga % 64 != 0) 0x0C ga else [])

/-- R86, R125: MERGE adds the other bank, or a Case image, exactly. -/
def execMerge (t : Fin 136) (b : Body) (errs : List CaseErr) (s : State) : Host.Outcome State Fault Refusal :=
  let bank := bbit b 55
  .next (s.issueRaw t.val 0x23 b (fun u => u.galleyWait bank || (!bbit b 54 && u.bankBusy (!bank))) (fun u => mergeChk u b)
    (fun u =>
      if bbit b 54 then
        let a := u.reg (bfld b 49 5)
        s.readThen t.val [(a, 65536)] errs (fun v => v.setBank bank ((v.bank bank).mergeImage (fun i => BitVec.ofNat 112 (v.mem.readLE (a + 16 * i) 14))))
      else (s.setTile t.val (u.setBank bank ((u.bank bank).merge (u.bank (!bank))))).goOn t.val))

/-- R87: HOLD marks a bank. -/
def execHold (t : Fin 136) (b : Body) (s : State) : Host.Outcome State Fault Refusal :=
  let bank := bbit b 55
  .next (s.issue t.val 0x24 b (fun u => (u.bank bank).drain.isSome || u.galleyMove) (fun _ => reservedChk b (ones 55 55) [])
    (fun u => s.setTile t.val (u.setBank bank { (u.bank bank) with held := true })))

end Sys2Proof.Machine
end

