-- ==== Sys2Proof/Machine/StickRows.lean ====
section
/-! DEFINITION. Stick, Fount conversion and Tally instructions of a Press tile (R89 to R93, R126 to R129, R140, R152, R153). -/

namespace Sys2Proof.Machine

/-- The 64 FP32 words of a vector (R116). -/
def Tile.vec (t : Tile) (a : Int) : List Nat := (List.range 64).map (fun i => t.mem.readLE (a.toNat + 4 * i) 4)

/-- VOP functions (R126) on FP32 words. -/
def vopFn (fn a b c : Nat) : Nat :=
  match fn with
  | 0 => f32add a b
  | 1 => f32sub a b
  | 2 => f32mul a b
  | 3 => f32fma a b c
  | 4 => f32min a b
  | 5 => f32max a b
  | 6 => a % 2 ^ 31
  | 7 => a ^^^ 2 ^ 31
  | 10 => f32sqrt a
  | 15 => if f32lt b a then c else 0
  | 16 => a
  | _ => stickFn fn a

/-- Operands that a function reads. -/
def vopReads (fn : Nat) : Nat := if fn ≤ 2 ∨ fn = 4 ∨ fn = 5 then 2 else if fn = 3 ∨ fn = 15 then 3 else 1

/-- An operand field of VOP: low bit of its kind and of its index. -/
def vopFields : List (Nat × Nat) := [(45, 40), (38, 33), (31, 26)]

/-- The streams that VOP uses for each vector, in the order a, b, c, destination (R126). -/
def vopStreams (b : Body) : List Nat :=
  ((vopFields.take (vopReads (bfld b 50 6))).filter (fun f => bfld b f.1 2 == 0)).map (fun f => bfld b f.2 3) ++ [bfld b 47 3]

/-- Uses of several streams in order, `n` rounds of them: the addresses of each round, and the tile after them. -/
def takeRounds (streams : List Nat) : Nat → Tile → List (List Int) × Tile
  | 0, t => ([], t)
  | n + 1, t =>
    let (a, t1) := streams.foldl (fun (x : List Int × Tile) i =>
      let (u, v) := takeUses 1 i x.2
      (x.1 ++ u, v)) ([], t)
    let (r, t2) := takeRounds streams n t1
    (a :: r, t2)

/-- Checks of stream uses: malformed streams, then vectors that leave the Case or the extent (R116). -/
def useChk (u : Tile) (streams : List Nat) (rounds : List (List Int)) (n : Nat) : List PFault :=
  streams.flatMap (fun i => failIf (streamBad (u.stream i)) 2 i)
  ++ (rounds.flatMap (fun r => r.zip streams)).flatMap (fun p => failIf (useOut u p.1 n) 0x0B p.2)

/-- The checks of VOP's encoding. -/
def vopChk (u : Tile) (b : Body) : List PFault :=
  let fn := bfld b 50 6
  let fs := vopFields.take (vopReads fn)
  let named := fs.foldl (fun a f => a + ones (f.1 + 1) f.1 + (if bfld b f.1 2 = 0 then ones (f.2 + 2) f.2 else ones (f.2 + 4) f.2)) (ones 55 47 + ones 25 14)
  reservedChk b named ((decide (0x10 < fn), 50) :: fs.map (fun f => (decide (1 < bfld b f.1 2), f.1)))
  ++ useChk u (vopStreams b) (takeRounds (vopStreams b) (bfld b 14 12 + 1) u).1 256

/-- One vector of VOP: its operands, its result written; the address of a poisoned operand. -/
def vopVector (b : Body) (t : Tile) (adr : List Int) : Tile × Option Nat :=
  let fn := bfld b 50 6
  let fs := vopFields.take (vopReads fn)
  let src := adr.dropLast
  match firstBad t.mem (src.map (fun a => (a.toNat, 256))) with
  | some x => (t, some x)
  | none =>
    let ops := (fs.foldl (fun (x : List (List Nat) × List Int) f =>
      if bfld b f.1 2 = 0 then (x.1 ++ [t.vec (x.2.headD 0)], x.2.drop 1)
      else (x.1 ++ [List.replicate 64 (t.reg (bfld b f.2 5) % 2 ^ 32)], x.2)) ([], src)).1
    let o := fun (k i : Nat) => (ops.getD k []).getD i 0
    (t.writeAt (adr.getLastD 0).toNat ((List.range 64).flatMap (fun i => toLE 4 (vopFn fn (o 0 i) (o 1 i) (o 2 i)))), none)

/-- The vectors of VOP one after another, up to one with a poisoned operand. -/
def vopRun (b : Body) (rounds : List (List Int)) (t : Tile) : Tile × Option Nat :=
  rounds.foldl (fun (a : Tile × Option Nat) r => if a.2.isSome then a else vopVector b a.1 r) (t, none)

/-- The ranges that VOP reads. -/
def vopRanges (rounds : List (List Int)) : List (Nat × Nat) := rounds.flatMap (fun r => r.dropLast.map (fun a => (a.toNat, 256)))

/-- R126: VOP, vector after vector. -/
def execVop (t : Fin 136) (b : Body) (errs : List CaseErr) (s : State) : Host.Outcome State Fault Refusal :=
  .next (s.issueRaw t.val 0x30 b noWait (fun u => vopChk u b)
    (fun u =>
      let (rounds, v) := takeRounds (vopStreams b) (bfld b 14 12 + 1) u
      let (s1, _) := (s.setTile t.val v).caseRead t.val (vopRanges rounds) errs
      let (w, bad) := vopRun b rounds (s1.tile t.val)
      let s2 := s1.setTile t.val w
      match bad with | some a => s2.caseFault t.val a | none => s2.goOn t.val))

/-- Pairs combined level after level (R127). -/
def treeFold (f : Nat → Nat → Nat) : Nat → List Nat → Nat
  | 0, l => l.headD 0
  | n + 1, l => treeFold f n ((List.range (l.length / 2)).map (fun i => f (l.getD (2 * i) 0) (l.getD (2 * i + 1) 0)))

/-- R127: the reduction of vectors. -/
def vredFn (fn : Nat) (vs : List (List Nat)) : Nat :=
  if fn = 4 then (vs.flatten.filter (fun w => (f32dec w).nonFinite)).length
  else
    let op := if fn ≤ 1 then f32add else if fn = 2 then f32max else f32min
    let lane := fun (l : Nat) =>
      let xs := vs.map (fun v => v.getD l 0)
      if fn = 1 then xs.foldl (fun a x => f32fma x x a) 0
      else match xs with | [] => 0 | x :: r => r.foldl op x
    treeFold op 6 ((List.range 64).map lane)

/-- Source vectors of a stream read by the Stick or the Tally: advances the stream, reads, and goes on with the vectors' words. -/
def State.readVecs (s : State) (p st n : Nat) (u : Tile) (errs : List CaseErr) (f : List (List Nat) → Tile → Tile) : State :=
  let (as, v) := takeUses n st u
  (s.setTile p v).readThen p (as.map (fun a => (a.toNat, 256))) errs (fun w => f (as.map w.vec) w)

/-- R127: VRED. -/
def execVred (t : Fin 136) (b : Body) (errs : List CaseErr) (s : State) : Host.Outcome State Fault Refusal :=
  let st := bfld b 49 3
  let n := bfld b 32 12 + 1
  .next (s.issueRaw t.val 0x31 b noWait
    (fun u => reservedChk b (ones 55 32) [(decide (4 < bfld b 52 4), 52)] ++ useChk u [st] (takeRounds [st] n u).1 256)
    (fun u => s.readVecs t.val st n u errs (fun vs w => w.setReg (bfld b 44 5) (vredFn (bfld b 52 4) vs % 2 ^ 32))))

/-- The 128 bytes that TOPK writes (R92, R127): 16 values, then 16 positions. -/
def topkImage (k base : Nat) (ws : List Nat) : Bytes :=
  let best := ws.zipIdx.foldl (fun (l : List (FVal × Nat)) p => topIns k (f32dec p.1, (base + p.2) % 2 ^ 32) l) []
  (List.range 16).flatMap (fun i => toLE 4 (match best[i]? with | some e => f32enc e.1 | none => fp32.nan))
    ++ (List.range 16).flatMap (fun i => toLE 4 (match best[i]? with | some e => e.2 | none => 0xFFFFFFFF))

/-- R127: TOPK. -/
def execTopk (t : Fin 136) (b : Body) (errs : List CaseErr) (s : State) : Host.Outcome State Fault Refusal :=
  let st := bfld b 49 3
  let dst := bfld b 46 3
  let n := bfld b 29 12 + 1
  let k := bfld b 52 4 + 1
  .next (s.issueRaw t.val 0x32 b noWait
    (fun u => reservedChk b (ones 55 29) []
      ++ useChk u [st] (takeRounds [st] n u).1 256 ++ useChk u [dst] (takeRounds [dst] 1 (takeUses n st u).2).1 128)
    (fun u =>
      let (as, v) := takeUses n st u
      let (ds, v1) := takeUses 1 dst v
      (s.setTile t.val v1).readThen t.val (as.map (fun a => (a.toNat, 256))) errs
        (fun w => w.writeAt (ds.headD 0).toNat (topkImage k (u.reg (bfld b 41 5) % 2 ^ 32) (as.map w.vec).flatten))))

/-- R127: DRAW. -/
def execDraw (t : Fin 136) (b : Body) (s : State) : Host.Outcome State Fault Refusal :=
  .next (s.issue t.val 0x33 b noWait (fun _ => reservedChk b (ones 55 36) [])
    (fun u => s.setTile t.val (u.setReg (bfld b 51 5) (keyedDraw s.seed (u.reg (bfld b 46 5)) (u.reg (bfld b 41 5)) (u.reg (bfld b 36 5))))))

/-- R91: the index that a draw selects among weights; none where the rule names none (an infinite running sum, log entry 31). The product with the last sum is exact (log entry 92). -/
def sampleFn (ws : List Nat) (u : Nat) : Option Nat :=
  let sums := (ws.foldl (fun (a : List Nat × Nat) w => let x := if a.1.isEmpty then w else f32add a.2 w; (a.1 ++ [x], x)) ([], 0)).1
  let last := sums.getLastD 0
  if ws.any (fun w => (f32dec w).isNaN || (f32dec w).lt FVal.zero) || (f32dec last).isZero then some 0xFFFFFFFF
  else
    let lim := (FVal.fin false u (-24)).mul (f32dec last)
    firstIdx (fun x => lim.lt (f32dec x)) sums

/-- The ranges of `n` FP32 weights in vectors of 64. -/
def sampleRanges (as : List Int) (n : Nat) : List (Nat × Nat) := as.zipIdx.map (fun p => (p.1.toNat, 4 * min 64 (n - 64 * p.2)))

/-- R91, R127: SAMPLE. -/
def execSample (t : Fin 136) (b : Body) (errs : List CaseErr) (s : State) : Host.Outcome State Fault Refusal :=
  let st := bfld b 53 3
  let n := bfld b 27 16 + 1
  let vecs := ceilDiv n 64
  .next (s.issueRaw t.val 0x34 b noWait
    (fun u => reservedChk b (ones 55 27) [] ++ useChk u [st] (takeRounds [st] vecs u).1 256)
    (fun u =>
      let (as, v) := takeUses vecs st u
      match (s.setTile t.val v).caseRead t.val (sampleRanges as n) errs with
      | (s1, some a) => s1.caseFault t.val a
      | (s1, none) =>
        let ws := ((as.map (s1.tile t.val).vec).flatten).take n
        match sampleFn ws (u.reg (bfld b 48 5) % 2 ^ 24) with
        | some i => (s1.modTile t.val (fun w => w.setReg (bfld b 43 5) i)).goOn t.val
        | none =>
          let (f, s2) := s1.fresh
          (s2.modTile t.val (fun w => w.setReg (bfld b 43 5) (f.toNat % 2 ^ 32))).goOn t.val))

/-- E_f of R153. -/
def mxEf (code : Nat) : Int := match code with | 2 => 8 | 3 => 15 | 4 => 4 | 5 => 2 | 6 => 2 | _ => 0

/-- The element format of a floating code (R49). -/
def elemFmt (code : Nat) : FFmt :=
  match code with
  | 0 => e4m3 | 1 => e5m2 | 2 => e4m3 | 3 => e5m2 | 4 => e3m2 | 5 => e2m3 | 6 => e2m1 | 10 => bf16 | 11 => fp16 | _ => fp32

/-- R153: the block scale of 32 values before the raise; none for a block with a non-finite value. -/
def blockScale (code : Nat) (ys : List FVal) : Option Nat :=
  if ys.any FVal.nonFinite then none
  else
    let a := ys.foldl (fun (m : FVal) y => if m.lt y.abs then y.abs else m) FVal.zero
    if a.isZero then some 0 else some (clampInt 0 254 (a.lead - mxEf code + 127)).toNat

/-- R58, R153: the block scales of a conversion, by row and block, raised to the spread limit. -/
def blockScales (code rows cols : Nat) (y : Nat → Nat → FVal) : List (List Nat) :=
  let raw := (List.range rows).map (fun i => (List.range (cols / 32)).map (fun k => blockScale code ((List.range 32).map (fun j => y i (32 * k + j)))))
  let top := raw.flatten.foldl (fun a x => max a (x.getD 0)) 0
  raw.map (fun r => r.map (fun x => match x with | none => 255 | some v => max v (top - spreadLimit code)))

/-- R152, R153: the code of y in a destination format, after division by its scale (every code, log entry 83); `x` is the block scale of an MX destination. -/
def cvtCode (code zp : Nat) (sc : Int) (x : Nat) (mode : RMode) (sat : Bool) (r24 : Nat) (y : FVal) : Nat :=
  if isMX code then
    if x = 255 then 0
    else
      let v := y.scale (-sc - ((x : Int) - 127))
      if code = 7 then wrapN 8 (clampInt (-127) 127 (roundInt mode r24 (v.scale 6)))
      else (elemFmt code).encode mode true r24 v
  else if isInt8 code then
    let z : Int := if code = 8 then sext 8 zp else ((zp % 256 : Nat) : Int)
    let lo : Int := if code = 8 then -128 else 0
    let hi : Int := if code = 8 then 127 else 255
    wrapN 8 (match y with
      | .nan => z
      | .inf n => if n then lo else hi
      | w => clampInt lo hi (roundInt mode r24 (w.scale (-sc)) + z))
  else (elemFmt code).encode mode sat r24 (y.scale (-sc))

/-- The checks of CVT (R128). -/
def cvtChk (u : Tile) (b : Body) : List PFault :=
  let is := bfld b 52 4
  let id := bfld b 48 4
  let ie := bfld b 43 4
  let een := bbit b 47
  let ds := u.desc is
  let dd := u.desc id
  let de := u.desc ie
  let all := [(ds, is), (dd, id)] ++ (if een then [(de, ie)] else [])
  reservedChk b (ones 55 47 + (if een then ones 46 43 else 0) + ones 42 23) [(bfld b 41 2 == 3, 41)]
  ++ all.flatMap (fun p => failIf (descInvalid p.1 false) 3 p.2)
  ++ failIf (een && dFmt de != 10) 4 ie ++ failIf (dFmt dd == 12 && bfld b 41 2 == 2) 4 id
  ++ all.flatMap (fun p => failIf (dRows p.1 != dRows ds || dCols p.1 != dCols ds) 5 p.2)
  ++ all.flatMap (fun p => failIf (isMX (dFmt p.1) && dCols p.1 % 32 != 0) 6 p.2)
  ++ failIf (bbit b 39 && u.tag (bfld b 36 3) == 0xFFFFFFFF) 0x0A (bfld b 36 3)
  ++ all.flatMap (fun p => failIf (descOut u p.1 (dFmt p.1) (dT p.1) false) 0x0B p.2)

/-- One element of a CVT: destination code written, statistics, error term; true for a non-finite value. -/
def State.cvtElem (s : State) (b : Body) (dd de : DescWord) (xs : List (List Nat)) (y : FVal) (u : Tile) (i j : Nat) : Tile × Bool :=
  let code := dFmt dd
  let mode := if bfld b 41 2 = 0 then RMode.rtz else if bfld b 41 2 = 1 then RMode.rne else RMode.sr
  let x := (xs.getD i []).getD (j / 32) 127
  let c := cvtCode code (dZp dd) (dScale dd) x mode (bbit b 40) (s.tileDraw u (dTid dd) 6 (elemIndex dd i j)) y
  let q := elemVal code (dZp dd) (dScale dd) x c
  let dead := y.nonFinite || (isMX code && x == 255)
  let yy := if dead then FVal.nan else y
  let d := y.sub q
  let u1 := { u with mem := putElem u.mem dd code (dT dd) i j c }
  let u2 := if bbit b 47 then
      let e := if dead then 0 else bf16.encode .sr false (s.tileDraw u (dTid de) 4 (elemIndex de i j)) d
      { u1 with mem := putElem u1.mem de 10 (dT de) i j e }
    else u1
  let u3 := if bbit b 39 then u2.tally (bfld b 36 3) (elemBase code (dZp dd) c) else u2
  let u4 := if bbit b 35 then u3.fount (bfld b 31 4) yy d else u3
  (u4, dead || q.nonFinite)

/-- Every element of a CVT, and the block scales of an MX destination (R152, R153): the tile after it, and whether some value was non-finite. -/
def State.cvtAll (s : State) (b : Body) (w : Tile) : Tile × Bool :=
  let ds := w.desc (bfld b 52 4)
  let dd := w.desc (bfld b 48 4)
  let de := w.desc (bfld b 43 4)
  let y := fun (i j : Nat) => ((elemAt w.mem ds false i j).scale (sext 8 (bfld b 23 8))).add (if bbit b 47 then errAt w.mem de i j else FVal.zero)
  let xs := if isMX (dFmt dd) then blockScales (dFmt dd) (dRows dd) (dCols dd) y else []
  let (w1, nf) := (List.range (dRows dd)).foldl (fun (a : Tile × Bool) i => (List.range (dCols dd)).foldl (fun (c : Tile × Bool) j =>
    let (v, n) := s.cvtElem b dd de xs (y i j) c.1 i j
    (v, c.2 || n)) a) (w, false)
  (xs.zipIdx.foldl (fun (v : Tile) r => v.writeAt (dSbase dd + r.2 * dSstride dd) (r.1.map (BitVec.ofNat 8))) w1, nf)

/-- The ranges that CVT reads: its source, and its error-term tensor. -/
def cvtRanges (u : Tile) (b : Body) : List (Nat × Nat) :=
  let ds := u.desc (bfld b 52 4)
  let de := u.desc (bfld b 43 4)
  descRanges ds (dFmt ds) (dT ds) false ++ (if bbit b 47 then descRanges de 10 (dT de) false else [])

/-- R128, R152, R153: CVT. -/
def execCvt (t : Fin 136) (b : Body) (errs : List CaseErr) (s : State) : Host.Outcome State Fault Refusal :=
  .next (s.issueRaw t.val 0x40 b noWait (fun u => cvtChk u b)
    (fun u =>
      match s.caseRead t.val (cvtRanges u b) errs with
      | (s1, some a) => s1.caseFault t.val a
      | (s1, none) =>
        let (w, nf) := s1.cvtAll b (s1.tile t.val)
        let s2 := s1.setTile t.val w
        (if nf && u.inGradPhase then s2.ovfSource u.step 1 else s2).goOn t.val))

/-- R129: TLY with OP = 0 assigns a tensor id to a slot; a new one clears the slot's bins. -/
def execTlyAssign (t : Fin 136) (b : Body) (s : State) : Host.Outcome State Fault Refusal :=
  if bbit b 55 then .next s
  else
    let k := bfld b 52 3
    .next (s.issue t.val 0x48 b noWait (fun _ => reservedChk b (ones 55 47) [])
      (fun u =>
        let id := u.reg (bfld b 47 5) % 2 ^ 32
        let bins := if u.tag k = id then u.tlyBin else u.tlyBin.filter (fun p => p.1 / 64 != k)
        s.setTile t.val { u with tlyTag := if id = 0xFFFFFFFF then kvDel u.tlyTag k else kvSet u.tlyTag k id, tlyBin := bins }))

/-- R129: TLY with OP = 1 counts the exponents of vectors. -/
def execTlyCount (t : Fin 136) (b : Body) (errs : List CaseErr) (s : State) : Host.Outcome State Fault Refusal :=
  if !bbit b 55 then .next s
  else
    let k := bfld b 52 3
    let st := bfld b 44 3
    let n := bfld b 32 12 + 1
    .next (s.issueRaw t.val 0x48 b noWait
      (fun u => reservedChk b (ones 55 52 + ones 46 32) [] ++ useChk u [st] (takeRounds [st] n u).1 256 ++ failIf (u.tag k == 0xFFFFFFFF) 0x0A k)
      (fun u => s.readVecs t.val st n u errs (fun vs w => vs.flatten.foldl (fun (x : Tile) v => x.tally k (f32dec v)) w)))

end Sys2Proof.Machine
end

