-- ==== Sys2Proof/Machine/MoveRows.lean ====
section
/-! DEFINITION. Movement, collation and Sorter instructions, waits, fences, barriers and phase markers of a Press tile (R95, R130 to R133, R288, R401). -/

namespace Sys2Proof.Machine

/-- A stall of the instruction at the PC, counted once. -/
def State.stallOnce (s : State) (p bit : Nat) (f : State → State) : State :=
  let t := s.tile p
  if bitOf t.stalled bit then s else f (s.setTile p { t with stalled := t.stalled + 2 ^ bit })

/-- Movement requests outstanding (R37, R130). -/
def Tile.requests (t : Tile) : Nat := (t.moves.filter (fun m => match m.kind with | .spost _ _ => false | _ => true)).length

/-- The checks of a local range of `n` bytes (R95, R130). -/
def localChk (t : Tile) (a n reg : Nat) : List PFault :=
  failIf (a % 64 != 0) 0x0C reg
  ++ failIf (decide (0x862000 < a + n) || (decide (a < 0x800000) && decide (t.extent < min (a + n) 0x800000))) 0x0B reg

/-- Pieces of at most 4,096 bytes (R312). -/
def pieces (n : Nat) : List (Nat × Nat) := (List.range (ceilDiv n 4096)).map (fun k => (4096 * k, min 4096 (n - 4096 * k)))

/-- A request packet of a tile (R321, R133). -/
def State.tilePkt (s : State) (u : Tile) (type ga arg : Nat) (payload : Bytes) : Packet :=
  { s.mkPkt type 0 (gaChip ga) ga arg payload with layout := u.layout, slot := u.mbSlot }

/-- A global range of `n` bytes reaches the Galley views or the state block of the tile itself (R85, R95). -/
def State.ownView (s : State) (t : Tile) (ga n : Nat) : Bool :=
  s.gaHere ga && gaSpace ga == 1 && gaOff ga / 2 ^ 24 == t.logical && decide (0x800000 < gaOff ga % 2 ^ 24 + n)

/-- The local or the global range of a movement reaches the tile's own Galley views or state block (R85). -/
def State.moveView (s : State) (t : Tile) : MoveKind → Bool
  | .mov _ gl ga lines => decide (0x800000 < gl + 64 * lines) || s.ownView t ga (64 * lines)
  | .gath gl _ _ lines => decide (0x800000 < gl + 64 * lines)
  | .signal ga _ => s.ownView t ga 4
  | .bkt _ => false
  | .spost _ _ => false

/-- Adds a movement request; its serial number is the next one. -/
def State.pushMove (s : State) (p grp : Nat) (kind : MoveKind) (parts : Nat) (ready : Bool) : State :=
  let t := s.tile p
  { (s.setTile p { t with moves := t.moves ++ [Move.mk s.serial grp t.pc kind parts 0 ready (s.moveView t kind)] }) with serial := s.serial + 1 }

/-- Issue of a movement request: the bound of 64, a layout switch under way for one that leaves the module (R288), then the request. -/
def State.moveIssue (s : State) (p : Nat) (remote : Bool) (f : State → State) : State :=
  let t := s.tile p
  if 64 ≤ t.requests then s.stallOnce p 0 (fun x => x.bump (pgPRS p) 0x064 1)
  else if remote && t.layoutSw.isSome then s.stallOnce p 3 (fun x => x.bump pgIMP 0x064 1)
  else (f s).goOn p

/-- A local range that reaches the Galley or state block waits for the banks (R85). -/
def Tile.viewWait (t : Tile) (a n : Nat) : Bool := decide (0x800000 < a + n) && (t.bankBusy false || t.bankBusy true)

/-- A movement that reaches the tile's own views by global address waits for the banks too (R85, R95). -/
def State.ownViewWait (s : State) (u : Tile) (ga n : Nat) : Bool := s.ownView u ga n && (u.bankBusy false || u.bankBusy true)

/-- R130: MOV between a local and a global range. Pieces for another module leave as READ or WRITE packets; a move inside the module is performed when it completes. -/
def execMov (t : Fin 136) (b : Body) (errs : List CaseErr) (s : State) : Host.Outcome State Fault Refusal :=
  let p := t.val
  let n := 64 * (bfld b 29 16 + 1)
  let rl := bfld b 50 5
  let rg := bfld b 45 5
  let out := bbit b 55
  .next (s.issueRaw p 0x50 b (fun u => u.viewWait (u.reg rl) n || s.ownViewWait u (u.reg rg) n)
    (fun u => reservedChk b (ones 55 26) [] ++ localChk u (u.reg rl) n rl ++ failIf (u.reg rg % 64 != 0) 0x0C rg
      ++ failIf (decide (1 < gaSpace (u.reg rg))) 0x0D rg)
    (fun u =>
      let gl := u.reg rl
      let ga := u.reg rg
      let here := s.gaHere ga
      let kind := MoveKind.mov out gl ga (bfld b 29 16 + 1)
      s.moveIssue p (!here) (fun x =>
        if here then x.pushMove p (bfld b 26 3) kind 0 true
        else
          match (if out ∧ gl < 0x800000 then x.caseRead p [(gl, n)] errs else (x, none)) with
          | (x1, some a) => x1.caseFault p a
          | (x1, none) =>
            let y := x1.pushMove p (bfld b 26 3) kind (pieces n).length false
            (pieces n).foldl (fun (z : State) q =>
              z.send (if out then z.tilePkt u 2 (ga + q.1) q.2 (u.readAt (gl + q.1) q.2) else z.tilePkt u 1 (ga + q.1) q.2 []) (.move p x.serial q.1)) y)))

/-- R130, R224: GATH reads an edition of a dense shard from its owner. -/
def execGath (t : Fin 136) (b : Body) (s : State) : Host.Outcome State Fault Refusal :=
  let p := t.val
  let n := 64 * (bfld b 24 16 + 1)
  let rl := bfld b 50 5
  let rg := bfld b 45 5
  .next (s.issueRaw p 0x51 b (fun u => u.viewWait (u.reg rl) n)
    (fun u => reservedChk b (ones 54 21) [] ++ localChk u (u.reg rl) n rl ++ failIf (u.reg rg % 64 != 0) 0x0C rg
      ++ failIf (gaSpace (u.reg rg) != 0) 0x0D rg)
    (fun u =>
      let gl := u.reg rl
      let ga := u.reg rg
      let ed := u.reg (bfld b 40 5) % 2 ^ 32
      let here := s.gaHere ga
      let kind := MoveKind.gath gl ga ed (bfld b 24 16 + 1)
      s.moveIssue p (!here) (fun x =>
        if here then
          let y := x.pushMove p (bfld b 21 3) kind 1 false
          if dramMapped (gaOff ga) n then
            y.pushOp (dramLocate (gaOff ga)).1 { kind := 2, table := 0, row := ed, step := u.step, slot := u.mbSlot, vals := [], addr := gaOff ga, len := n, req := .gath p x.serial 0 }
          else (y.unmapped 0 (gaOff ga) y.self).selfReply (y.tilePkt u 6 ga ed []) (.move p x.serial 0) stBAD []
        else
          let y := x.pushMove p (bfld b 21 3) kind (pieces n).length false
          (pieces n).foldl (fun (z : State) q => z.send (z.tilePkt u 6 (ga + q.1) ed (toLE 4 q.2 ++ toLE 12 0)) (.move p x.serial q.1)) y)))

/-- R130: SIGNAL adds to a flag word of space 1. -/
def execSignal (t : Fin 136) (b : Body) (s : State) : Host.Outcome State Fault Refusal :=
  let p := t.val
  let rg := bfld b 50 5
  .next (s.issueRaw p 0x52 b (fun u => s.ownViewWait u (u.reg rg) 4)
    (fun u => reservedChk b (ones 54 31) [] ++ failIf (u.reg rg % 4 != 0) 0x0C rg ++ failIf (gaSpace (u.reg rg) != 1) 0x0D rg)
    (fun u =>
      let ga := u.reg rg
      let here := s.gaHere ga
      let kind := MoveKind.signal ga (bfld b 34 16)
      s.moveIssue p (!here) (fun x =>
        if here then x.pushMove p (bfld b 31 3) kind 0 true
        else (x.pushMove p (bfld b 31 3) kind 1 false).send (x.tilePkt u 3 ga (bfld b 34 16) []) (.move p x.serial 0))))

/-- The checks of BKT (R130, R346). -/
def bktChk (u : Tile) (b : Body) : List PFault :=
  let is := bfld b 50 4
  let ie := bfld b 37 4
  let een := bbit b 41
  let ds := u.desc is
  let de := u.desc ie
  let f := dFmt ds
  reservedChk b (ones 55 37) [(bfld b 54 2 == 3, 54)]
  ++ failIf (descInvalid ds false) 3 is ++ failIf (een && descInvalid de false) 3 ie
  ++ failIf (!(f == 12 || f == 10 || f == 11 || f == 0 || f == 1)) 4 is ++ failIf (een && dFmt de != 10) 4 ie
  ++ failIf (een && (dRows de != dRows ds || dCols de != dCols ds)) 5 ie
  ++ failIf (descOut u ds f (dT ds) false) 0x0B is ++ failIf (een && descOut u de 10 (dT de) false) 0x0B ie

/-- The contribution that a BKT hands over (R130, R336, R345). -/
def State.bktReq (s : State) (u : Tile) (b : Body) : BktReq :=
  let g := u.reg (bfld b 45 5)
  let ds := u.desc (bfld b 50 4)
  BktReq.mk (bfld b 54 2) (g % 2 ^ 32) (g / 2 ^ 32) (dRows ds) (dCols ds) ds (bbit b 41) (u.desc (bfld b 37 4)) u.step (s.attemptOf u.step) u.bktSlot u.inGradPhase

/-- The errors among `errs` in the rows of a BKT's source (R77). -/
def bktMeets (u : Tile) (b : Body) (errs : List CaseErr) : List CaseErr :=
  let ds := u.desc (bfld b 50 4)
  errs.filter (fun e => (descRanges ds (dFmt ds) (dT ds) false).any (fun r => decide (r.1 < e.addr / 8 * 8 + 8) && decide (e.addr / 8 * 8 < r.1 + r.2)))

/-- R130: BKT hands a bucket contribution to the module's Collator; it stalls on collation-up credit (R345). -/
def execBkt (t : Fin 136) (b : Body) (errs : List CaseErr) (s : State) : Host.Outcome State Fault Refusal :=
  let p := t.val
  .next (s.issueRaw p 0x53 b noWait (fun u => bktChk u b)
    (fun u =>
      if 1024 ≤ s.bktCredit then s.stallOnce p 2 (fun x => (x.bump (pgPRS p) 0x06C 1).bump pgCOL 0x060 1)
      else s.moveIssue p false (fun x => (x.caseErrors p (bktMeets u b errs)).pushMove p (bfld b 42 3) (.bkt (s.bktReq u b)) 0 false)))

/-- The descriptor that SPOST posts: its number, its 128 bytes, and the step and slot of its tile (R173). -/
def postDesc (serial : Nat) (raw : Bytes) (p : Nat) (u : Tile) : SDesc :=
  SDesc.mk serial raw p serial u.step u.mbSlot false false 0 0 0 0 none [] 0 0 0 0 0 0 0 0 0xFFFF 0 0 []

/-- R130, R173: SPOST posts a descriptor to a Sorter of its Folio; a full descriptor queue stalls it. -/
def execSpost (t : Fin 136) (b : Body) (errs : List CaseErr) (s : State) : Host.Outcome State Fault Refusal :=
  let p := t.val
  let q := bfld b 53 3
  let ra := bfld b 48 5
  .next (s.issueRaw p 0x58 b noWait
    (fun u => reservedChk b (ones 55 45) [] ++ failIf (u.reg ra % 64 != 0) 0x0C ra ++ failIf (rangeOut u (u.reg ra) 128) 0x0B ra
      ++ failIf (q / 4 != tileFolio p) 0x0E q)
    (fun u =>
      let k := s.srt q
      if !s.domOn (136 + q) then
        -- R494: the Sorter's domain is off
        ((s.pushMove p (bfld b 45 3) (.spost q s.serial) 0 true).modTile p (fun v =>
          { v with moves := v.moves.map (fun m => if m.serial == s.serial then { m with status := stNORES } else m) })).goOn p
      else if 256 ≤ k.queue.length + k.posts.length then
        s.stallOnce p 1 (fun x => (x.bump (pgPRS p) 0x068 1).bump (pgSRT q) 0x05C 1)
      else match s.caseRead p [(u.reg ra, 128)] errs with
        | (s0, some a) => s0.caseFault p a
        | (s0, none) =>
          ((s0.pushMove p (bfld b 45 3) (.spost q s.serial) 0 false).modSrt q (fun x => { x with posts := x.posts ++ [postDesc s.serial (u.mem.read (u.reg ra) 128) p u] })).goOn p))

/-- A region with T_RO = 1 covers the line (R401). -/
def State.roLine (s : State) (off : Nat) : Bool :=
  s.eth.regions.any (fun r => bitOf r.2.access 2 && decide (r.2.off < off + 64) && decide (off < r.2.off + r.2.len))

/-- One line of a MOV inside the module, with the status so far (R131, R401). -/
def State.moveLine (s : State) (p : Nat) (out : Bool) (errs : List CaseErr) (gl ga st : Nat) : State × Nat :=
  let sp := gaSpace ga
  let off := gaOff ga
  if out then
    if sp = 0 ∧ s.roLine off then (s, if st = 0 then stBAD else st)
    else
      let (r, s1) := s.spaceWrite sp off ((s.tile p).readAt gl 64) s.self (some p)
      (s1, if st = 0 then r else st)
  else
    let (bs, r, s1) := (s.spaceErrs sp off 64 s.self errs (some p)).spaceRead sp off 64 s.self (some p)
    if r = 0 then (s1.modTile p (fun t => t.writeAt gl bs), st) else (s1, if st = 0 then r else st)

/-- The work of an operation that is performed when it completes: a MOV or SIGNAL inside the module. Answers its status, none when the tile's own read met poison. -/
def State.performMove (s : State) (p : Nat) (errs : List CaseErr) (m : Move) : State × Option Nat :=
  match m.kind with
  | .mov out gl ga lines =>
    if !s.gaHere ga then (s, some m.status)
    else match (if out ∧ gl < 0x800000 then s.caseRead p [(gl, 64 * lines)] errs else (s, none)) with
      | (s0, some a) => (s0.caseFault p a, none)
      | (s0, none) =>
        let (s1, st) := (List.range lines).foldl (fun (a : State × Nat) i => a.1.moveLine p out errs (gl + 64 * i) (ga + 64 * i) a.2) (s0, m.status)
        (s1, some st)
  | .signal ga add =>
    if !s.gaHere ga then (s, some m.status)
    else
      let (st, s1) := (s.spaceErrs 1 (gaOff ga) 4 s.self errs (some p)).spaceAdd (gaOff ga) add s.self (some p)
      (s1, some st)
  | _ => (s, some m.status)

/-- R131: an operation of a completion group completes; an error or poison faults the tile with MOVE_ERROR, and a retired edition aborts the step. -/
def execMoveComplete (t : Fin 136) (serial : Nat) (errs : List CaseErr) (s : State) : Host.Outcome State Fault Refusal :=
  let p := t.val
  match (s.tile p).moves.find? (fun m => m.serial == serial && m.ready) with
  | none => .next s
  | some m =>
    let (s1, st) := s.performMove p errs m
    let s2 := s1.modTile p (fun u => { u with moves := u.moves.filter (fun x => x.serial != serial) })
    match st with
    | none => .next s2
    | some 0 => .next s2
    | some c =>
      let retired := match m.kind with | .gath _ _ _ _ => c == stRETIRED | _ => false
      let s3 := if retired then s2.askAbort (s2.tile p).step 4 else s2
      .next (s3.tileFault p 0x14 m.pc (m.grp * 256 + c % 256))

/-- Everything that a full fence waits for (R132). -/
def Tile.fenced (t : Tile) (units : Nat) : Bool :=
  (!bitOf units 4 || (t.platen.isEmpty && t.bankA.drain.isNone && t.bankB.drain.isNone)) && (!bitOf units 0 || t.moves.isEmpty)

/-- The condition of a wait holds (R132). -/
def Tile.waitDone (t : Tile) : Wait → Bool
  | .groups m => !t.moves.any (fun x => bitOf m x.grp)
  | .flag eq a v => let w := t.mem.readLE a 4; if eq then w == v else decide (v ≤ w)
  | .fence u => t.fenced u
  | .barrier _ => false

/-- Holds issue on a wait, or goes on at once. -/
def State.holdOn (s : State) (p : Nat) (w : Wait) : State :=
  let t := s.tile p
  if t.waitDone w then s.advance p else s.setTile p { t with run := .waiting, wait := some w }

/-- R132: WAIT on groups. -/
def execWaitGroups (t : Fin 136) (b : Body) (s : State) : Host.Outcome State Fault Refusal :=
  if bfld b 54 2 ≠ 0 then .next s
  else .next (s.issueRaw t.val 0x60 b noWait (fun _ => reservedChk b (ones 55 46) []) (fun _ => s.holdOn t.val (.groups (bfld b 46 8))))

/-- R132: WAIT on a flag; a poisoned flag word faults the tile (R77). -/
def execWaitFlag (t : Fin 136) (b : Body) (errs : List CaseErr) (s : State) : Host.Outcome State Fault Refusal :=
  let k := bfld b 54 2
  if k = 0 then .next s
  else
    let ra := bfld b 41 5
    .next (s.issueRaw t.val 0x60 b noWait
      (fun u => reservedChk b (ones 55 54 + (if k = 3 then 0 else ones 45 36)) [(k == 3, 54)] ++ failIf (u.reg ra % 4 != 0) 0x0C ra ++ failIf (rangeOut u (u.reg ra) 4) 0x0B ra)
      (fun u => match s.caseRead t.val [(u.reg ra, 4)] errs with
        | (s1, some a) => s1.caseFault t.val a
        | (s1, none) => s1.holdOn t.val (.flag (k == 2) (u.reg ra) (u.reg (bfld b 36 5) % 2 ^ 32))))

/-- R132: FENCE. -/
def execFence (t : Fin 136) (b : Body) (s : State) : Host.Outcome State Fault Refusal :=
  .next (s.issueRaw t.val 0x61 b noWait (fun _ => reservedChk b (ones 55 51) []) (fun _ => s.holdOn t.val (.fence (bfld b 51 5))))

/-- R132: the condition of a WAIT or FENCE holds, and issue resumes. -/
def execWaitSatisfied (t : Fin 136) (errs : List CaseErr) (s : State) : Host.Outcome State Fault Refusal :=
  let u := s.tile t.val
  match u.wait with
  | none => .next s
  | some w =>
    if u.run ≠ .waiting then .next s
    else
      match (match w with | .flag _ a _ => s.caseRead t.val [(a, 4)] errs | _ => (s, none)) with
      | (s1, some a) => .next (s1.caseFault t.val a)
      | (s1, none) => if u.waitDone w then .next ((s1.setTile t.val { u with run := .running, wait := none }).advance t.val) else .next s1

/-- The members of a barrier of the resident sheet: the bitmap of R134. -/
def State.barMembers (s : State) (u : Tile) (id : Nat) : Option Nat := match s.sheet? u.sheet with | none => none | some sh => kvFind sh.bars id

/-- Some context of the same tile that belongs to a barrier's members `m` has not reached it (R132). -/
def Tile.barMissing (v : Tile) (m id : Nat) : Bool :=
  v.slices.zipIdx.any (fun (q : Ctx × Nat) => q.2 != v.ctx && bitOf m (8 * v.logical + q.2) && !(q.1.bar == some id && !q.1.passed))

/-- The resident context has been released from the barrier already (R132). -/
def Tile.barPassed (u : Tile) (id : Nat) : Bool := match u.slices[u.ctx]? with | some c => c.bar == some id && c.passed | none => false

/-- The checks of BAR: a barrier of the sheet that has this context among its members (R132, R134). -/
def State.barChk (s : State) (u : Tile) (b : Body) : List PFault :=
  let id := bfld b 52 4
  reservedChk b (ones 55 52) [] ++ failIf (match s.barMembers u id with | none => true | some m => !bitOf m (8 * u.logical + u.ctx)) 0x13 id

/-- R132: BAR, after a full fence. A context whose barrier lacks a non-resident context of the same tile yields. -/
def execBar (t : Fin 136) (b : Body) (s : State) : Host.Outcome State Fault Refusal :=
  let p := t.val
  let id := bfld b 52 4
  .next (s.issueRaw p 0x62 b (fun u => !u.fenced 0x1F)
    (fun u => s.barChk u b)
    (fun u =>
      if u.barPassed id then
        (s.setTile p (u.modCtx u.ctx (fun c => { c with bar := none, passed := false }))).advance p
      else
        let v := u.modCtx u.ctx (fun c => { c with bar := some id, passed := false })
        s.setTile p (if v.barMissing ((s.barMembers u id).getD 0) id then { v with run := .yielding, atPc := v.pc } else { v with run := .waiting, wait := some (.barrier id) })))

/-- The contexts of a barrier's bitmap (R134): tile times 8 plus context. -/
def barContexts (m : Nat) : List Nat := (List.range 1024).filter (bitOf m)

/-- Every context of the bitmap has reached the barrier (R132). -/
def State.barReached (s : State) (m id : Nat) : Bool :=
  (barContexts m).all (fun i => match s.physical (i / 8) with
    | none => false
    | some q => match (s.tile q).slices[i % 8]? with | some c => c.bar == some id && !c.passed | none => false)

/-- A context of a barrier is released (R132): a waiting resident one goes on; another passes the barrier when it is resident again. -/
def State.barRelease (x : State) (id i : Nat) : State :=
  match x.physical (i / 8) with
  | none => x
  | some q =>
    let v := x.tile q
    if v.ctx = i % 8 ∧ v.run = .waiting ∧ v.wait = some (.barrier id) then
      (x.setTile q { (v.modCtx v.ctx (fun c => { c with bar := none, passed := false })) with run := .running, wait := none }).advance q
    else x.setTile q (v.modCtx (i % 8) (fun c => { c with passed := true }))

/-- R132: every member has reached the barrier that tile `t` waits at, and all are released. -/
def execBarrierRelease (t : Fin 136) (s : State) : Host.Outcome State Fault Refusal :=
  let u := s.tile t.val
  match u.wait with
  | some (.barrier id) =>
    let m := (s.barMembers u id).getD 0
    if u.run ≠ .waiting ∨ !s.barReached m id then .next s
    else .next ((barContexts m).foldl (fun (x : State) i => x.barRelease id i) s)
  | _ => .next s

/-- A non-zero SLOT for GEN and UPD is a reserved field (R133). -/
def phaseNamed (b : Body) : Nat := ones 55 54 + ones 51 51 + (if bfld b 54 2 = 1 ∨ bfld b 54 2 = 2 then ones 53 52 else 0)

/-- R133, R288: PHASE with END = 0 opens the phase and selects a layout. -/
def execPhaseBegin (t : Fin 136) (b : Body) (s : State) : Host.Outcome State Fault Refusal :=
  if bbit b 51 then .next s
  else
    let kind := bfld b 54 2
    .next (s.issue t.val 0x68 b noWait (fun u => reservedChk b (phaseNamed b) [] ++ failIf (bitOf u.phase 4) 0x11 u.phase)
      (fun u =>
        let absent := match s.imp.active with | none => false | some m => !bitOf m.layouts kind
        let s1 := if absent then s.bump pgIMP 0x068 1 else s
        s1.setTile t.val { u with phase := kind + bfld b 52 2 * 4 + 16, layoutSw := some (s.layoutFor kind) }))

/-- R133, R88: PHASE with END = 1 closes the phase; a held bank at the end of BWD faults the tile with HELD_OPEN. -/
def execPhaseEnd (t : Fin 136) (b : Body) (s : State) : Host.Outcome State Fault Refusal :=
  if !bbit b 51 then .next s
  else
    let kind := bfld b 54 2
    .next (s.issueRaw t.val 0x68 b noWait
      (fun u => reservedChk b (phaseNamed b) [] ++ failIf (u.phase != kind + bfld b 52 2 * 4 + 16) 0x11 u.phase)
      (fun u =>
        if kind = 2 ∧ u.bankA.held then s.tileFault t.val 0x81 u.pc 0
        else if kind = 2 ∧ u.bankB.held then s.tileFault t.val 0x81 u.pc (2 ^ 16)
        else (s.setTile t.val { u with phase := u.phase % 16 }).goOn t.val))

/-- R288: the layout switch of a tile completes. -/
def execLayoutSwitchDone (t : Fin 136) (s : State) : Host.Outcome State Fault Refusal :=
  let u := s.tile t.val
  match u.layoutSw with
  | none => .next s
  | some l => .next (s.setTile t.val { u with layout := l, layoutSw := none })

end Sys2Proof.Machine
end

