-- ==== Sys2Proof/Machine/SheetRows.lean ====
section
/-! DEFINITION. Sheet images and their installation (R134 to R136), spares (R75). -/

namespace Sys2Proof.Machine

/-- Initialiser records of a sheet image (R134): (stream, index, content), and whether all lie inside the image and its ranges. -/
def sheetInits (img : Bytes) : Nat → Nat → List (Bool × Nat × Nat) × Bool
  | 0, _ => ([], true)
  | n + 1, off =>
    let k := leAt img off 1
    let i := leAt img (off + 1) 1
    let size := if k = 0 then 64 else 32
    if k ≤ 1 ∧ i < (if k = 0 then 16 else 8) ∧ off + 4 + size ≤ img.length then
      let (r, good) := sheetInits img n (off + 4 + size)
      ((k == 1, i, leAt img (off + 4) size) :: r, good)
    else ([], false)

/-- The check value of an image whose CRC field is 4 bytes at `at_`, computed with that field as 0. -/
def crcField0 (img : Bytes) (at_ : Nat) : Nat := crc32c (patchB img at_ [0, 0, 0, 0])

/-- The barrier records of a sheet image (R134). -/
def sheetBars (img : Bytes) : AMap Nat :=
  (List.range (leAt img 0x21 1)).foldl (fun (m : AMap Nat) i =>
    let o := leAt img 0x2C 4 + 132 * i
    kvSet m (leAt img o 1) (leAt img (o + 4) 128)) []

/-- R134, R135: a sheet image passes the checks that answer BAD_ARGUMENT. -/
def sheetOk (img : Bytes) : Bool :=
  let n := leAt img 0x0C 4
  decide (64 ≤ img.length) && leAt img 0 4 == 0x4C4D5348 && leAt img 4 2 == 1 && crcField0 img 0x3C == leAt img 0x3C 4
  && decide (leAt img 6 1 < 4) && leAt img 8 2 != 0xFFFF
  && decide (1 ≤ n) && decide (n ≤ 8192) && decide (leAt img 0x20 1 ≤ 24) && decide (leAt img 0x21 1 ≤ 16) && decide (leAt img 0x24 4 < n)
  && leAt img 0x28 4 % 0x10000 == 0 && decide (leAt img 0x28 4 ≤ 0x800000)
  && leAt img 0x34 4 % 8 == 0 && decide (leAt img 0x34 4 + 8 * n ≤ img.length)
  && decide (leAt img 0x2C 4 + 132 * leAt img 0x21 1 ≤ img.length)
  && (List.range (leAt img 0x21 1)).all (fun i => decide (leAt img (leAt img 0x2C 4 + 132 * i) 1 < 16))
  && decide (leAt img 0x30 4 ≤ img.length) && (sheetInits img (leAt img 0x20 1) (leAt img 0x30 4)).2

/-- The sheet that an image holds (R134). -/
def sheetOf (img : Bytes) (place : Nat) : Sheet :=
  let n := leAt img 0x0C 4
  Sheet.mk (leAt img 8 2) (leAt img 6 1) (leAt img 0x0A 2) (leAt img 0x10 16) (leAt img 0x24 4) (leAt img 0x28 4) place img.length (leAt img 0x3C 4)
    ((List.range n).map (fun i => BitVec.ofNat 64 (leAt img (leAt img 0x34 4 + 8 * i) 8))) (sheetInits img (leAt img 0x20 1) (leAt img 0x30 4)).1 (sheetBars img)

/-- Counts an image check of the Foreman on Postmark unit 4 (R454, R460). -/
def State.imageChecked (s : State) (crc : Nat) (good : Bool) : State := s.pmkCheck 4 crc good 0

/-- SHEET_LOAD (R134, R135, R413). -/
def execSheetLoad (q : Fin 64) (s : State) : Host.Outcome State Fault Refusal :=
  .next (s.command q.val 0x30 (fun b r x =>
    let off := leAt b 0 8
    let len := leAt b 8 4
    if !x.extentOk off len then x.replyTo r stBAD []
    else
      let (img, _, x1) := x.dramLoad off len
      let crc := crcField0 img 0x3C
      let y := x1.imageChecked crc (crc == leAt img 0x3C 4)
      if !sheetOk img then y.replyTo r stBAD []
      else if 1 < leAt img 0x22 2 then y.refuse r 0x30 stVERSION
      else
        let sh := sheetOf img off
        if 256 ≤ y.fmn.sheets.length ∧ !kvHas y.fmn.sheets sh.id then y.replyTo r stNORES []
        else (y.setFmn (fun m => { m with sheets := kvSet m.sheets sh.id sh })).ok r (toLE 2 sh.id)))

/-- The sheets reached from a SHEET_ID along NEXT_ID (R136): none when one is not held. -/
def reachSheets (held : AMap Sheet) : Nat → Nat → List Nat → Option (List Nat)
  | 0, _, seen => some seen
  | n + 1, id, seen =>
    if id = 0xFFFF ∨ seen.contains id then some seen
    else match kvFind held id with
      | none => none
      | some sh => reachSheets held n sh.next (seen ++ [id])

/-- A tile entry of an install record (R136): logical tile and contexts as (sheet, extent, save). -/
structure InstEntry where
  tile : Nat
  ctxs : List (Nat × Nat × Nat)
  deriving DecidableEq, Repr

/-- The tile entries of an install record. -/
def instEntries (img : Bytes) : List InstEntry :=
  (entries (img.drop 16) 264).map (fun e =>
    InstEntry.mk (leAt e 0 1) ((List.range (leAt e 1 1)).map (fun c => (leAt e (8 + 32 * c) 2, leAt e (12 + 32 * c) 4, leAt e (16 + 32 * c) 8))))

/-- R136: header, counts and reserved bytes of an install record. -/
def instOk (img : Bytes) : Bool :=
  let n := leAt img 6 2
  decide (16 ≤ img.length) && leAt img 0 4 == 0x4C4D5349 && leAt img 4 2 == 1 && decide (1 ≤ n) && decide (n ≤ 128) && leAt img 8 4 == 16 + 264 * n
  && img.length == 16 + 264 * n && crcField0 img 0xC == leAt img 0xC 4
  && (entries (img.drop 16) 264).all (fun e =>
      let c := leAt e 1 1
      decide (leAt e 0 1 < 128) && decide (1 ≤ c) && decide (c ≤ 8) && allZero (sliceB e 2 6)
      && (List.range 8).all (fun i => if i < c then allZero (sliceB e (10 + 32 * i) 2) && allZero (sliceB e (24 + 32 * i) 16) else allZero (sliceB e (8 + 32 * i) 32)))

/-- No item occurs twice. -/
def allDistinct : List Nat → Bool
  | [] => true
  | x :: r => !r.contains x && allDistinct r

/-- Extents that meet pairwise. -/
def someMeet : List (Nat × Nat) → Bool
  | [] => false
  | x :: r => r.any (fun y => decide (x.1 < y.1 + y.2) && decide (y.1 < x.1 + x.2)) || someMeet r

/-- The save areas that an install record names (R100, R136). -/
def saveAreas (es : List InstEntry) : List (Nat × Nat) :=
  es.flatMap (fun e => if e.ctxs.length < 2 then [] else e.ctxs.map (fun c => (c.2.2, 270336 + c.2.1)))

/-- Every sheet reached from a tile's contexts, without repeats. -/
def tileSheets (held : AMap Sheet) (e : InstEntry) : List Nat :=
  e.ctxs.foldl (fun (l : List Nat) c => ((reachSheets held 257 c.1 []).getD []).foldl (fun (l : List Nat) i => if l.contains i then l else l ++ [i]) l) []

/-- A held image in DRAM still matches its CRC (R136). -/
def State.sheetMatches (s : State) (sh : Sheet) : Bool :=
  s.extentOk sh.place sh.length && crcField0 (s.dram.read sh.place sh.length) 0x3C == sh.crc

/-- R136: the checks of an install record that answer BAD_ARGUMENT, on sheets and areas; SAVE is checked only as the place of a save area (log entry 59). -/
def State.instFits (s : State) (es : List InstEntry) : Bool :=
  let held := s.fmn.sheets
  allDistinct (es.map (·.tile))
  && es.all (fun e => e.ctxs.all (fun c =>
      c.1 != 0xFFFF && c.2.1 % 0x10000 == 0 && decide (c.2.1 ≤ 0x800000)
      && (match reachSheets held 257 c.1 [] with
        | none => false
        | some ids => ids.all (fun i => match kvFind held i with
          | none => false
          | some sh => s.sheetMatches sh && bitOf sh.tiles e.tile && decide (sh.extent ≤ c.2.1)))))
  && (saveAreas es).all (fun a => dramMapped a.1 a.2) && !someMeet (saveAreas es)

/-- Every sheet that the entries of an install record reach, without repeats. -/
def recordSheets (held : AMap Sheet) (es : List InstEntry) : List Nat :=
  es.foldl (fun (l : List Nat) e => (tileSheets held e).foldl (fun (l : List Nat) i => if l.contains i then l else l ++ [i]) l) []

/-- The images of the held sheets that an install record reaches are read (R32, R136). -/
def State.sheetsSeen (s : State) (es : List InstEntry) : State :=
  (recordSheets s.fmn.sheets es).foldl (fun (x : State) i => match kvFind s.fmn.sheets i with
    | some sh => x.dramSeen sh.place sh.length
    | none => x) s

/-- The sheets that an accepted install record reaches, as their images stand (R136). -/
def State.sheetsTaken (s : State) (es : List InstEntry) : AMap Sheet :=
  (recordSheets s.fmn.sheets es).foldl (fun (m : AMap Sheet) i => match kvFind s.fmn.sheets i with
    | some sh => kvSet m i (sheetOf (s.dram.read sh.place sh.length) sh.place)
    | none => m) []

/-- The contexts that an install record gives each logical tile. -/
def instTiles (es : List InstEntry) : AMap (List (Nat × Nat × Nat)) := es.foldl (fun (t : AMap (List (Nat × Nat × Nat))) e => kvSet t e.tile e.ctxs) []

/-- Instructions in the code of a tile's sheets (R136). -/
def tileCode (held : AMap Sheet) (e : InstEntry) : Nat :=
  (tileSheets held e).foldl (fun a i => a + (match kvFind held i with | some sh => sh.code.length | none => 0)) 0

/-- SHEET_INSTALL (R136, R413): the sheets are taken as their images stand when the record is accepted. -/
def execSheetInstall (q : Fin 64) (s : State) : Host.Outcome State Fault Refusal :=
  .next (s.command q.val 0x33 (fun b r x =>
    let off := leAt b 0 8
    let len := leAt b 8 4
    if !x.extentOk off len then x.replyTo r stBAD []
    else
      let (img, _, x1) := x.dramLoad off len
      let crc := crcField0 img 0xC
      let es := instEntries img
      let x2 := if instOk img then x1.sheetsSeen es else x1
      let y := x2.imageChecked crc (crc == leAt img 0xC 4)
      if !instOk img || !y.instFits es then y.replyTo r stBAD []
      else if es.any (fun e => decide (8192 < tileCode y.fmn.sheets e)) then y.replyTo r stNORES []
      else if y.fmn.install.isSome then y.replyTo r stNORES []
      else y.setFmn (fun m => { m with install := some (Install.mk r (instTiles es) (y.sheetsTaken es)) })))

/-- SHEET_INSTALL_APPLY (R136, R33): at a boundary with every enabled tile IDLE. -/
def execSheetInstallApply (s : State) : Host.Outcome State Fault Refusal :=
  .next (if s.fmn.install.isSome && s.allIdle then s.boundary.applyInstall else s)

/-- SPARE_READY (R75, R495): the spare has wiped its Case and banks. Until it is enabled its RUN stays OFF (log entry 89). -/
def execSpareReady (t : Fin 136) (s : State) : Host.Outcome State Fault Refusal :=
  let p := t.val
  if !(s.tile p).wiping then .next s
  else
    let s1 := s.modTile p (fun u => { u with wiping := false, ready := true, freq := 3600, mem := Ram.wiped, bankA := Bank.reset, bankB := Bank.reset, platen := [] })
    .next ((s1.setDom p 1).latch (pgPRS p) 6)

end Sys2Proof.Machine
end

