-- ==== Sys2Proof/Machine/RegView.lean ====
section
/-! DEFINITION. What a read of each register returns (R15 to R17, R434, R439 and the register tables of every chapter). -/

namespace Sys2Proof.Machine

/-- The life-cycle code of the LC fuses (R473). -/
def lcCode (lc : Nat) : Nat :=
  let ones := fun lo => b2n (bitOf lc lo) + b2n (bitOf lc (lo + 1)) + b2n (bitOf lc (lo + 2))
  if bitOf lc 9 then 5 else if ones 6 < ones 3 then 4 else if bitOf lc 2 then 3 else if bitOf lc 1 then 2 else if bitOf lc 0 then 1 else 0

/-- The life-cycle state of the module. -/
def State.lifeCycle (s : State) : Nat := lcCode s.sel.fuses.lc

/-- RMA entries left (R474). -/
def rmaLeft (lc : Nat) : Nat := 3 - (b2n (bitOf lc 3) + b2n (bitOf lc 4) + b2n (bitOf lc 5))

/-- BANK_A and BANK_B (R106): BUSY while the bank has a product or a drain in flight. -/
def Tile.bankView (t : Tile) (b : Bool) : Nat :=
  let k := t.bank b
  wrapN 16 k.anchor * 2 ^ 16 + b2n k.held * 4 + b2n k.ovf * 2 + b2n (k.drain.isSome || t.platen.any (fun x => x.bankB == b))

/-- PRS registers that show a tile (R104, R106). -/
def State.prsView (s : State) (p off : Nat) : Option Nat :=
  let t := s.tile p
  match off with
  | 0x00C => some (t.ctx * 2 ^ 24 + t.logical % 256 * 256 + t.role.code * 16 + t.run.code)
  | 0x040 => some (t.bankView false)
  | 0x044 => some (t.bankView true)
  | 0x048 => some (t.bankA.count % 2 ^ 24)
  | 0x04C => some (t.bankB.count % 2 ^ 24)
  | 0x070 => some t.pc
  | 0x074 => some t.slices.length
  | 0x078 => some t.freq
  | _ => none

/-- NUM registers that show its state (R166, R167). -/
def State.numView (s : State) (off : Nat) : Option Nat :=
  match off with
  | 0x048 => some s.lsState
  | 0x090 => some s.efState
  | 0x0A0 => some s.ttData2
  | 0x0A4 => some s.ttData3
  | _ => none

/-- SRT registers that show a Sorter (R195, R197). -/
def State.srtView (s : State) (i off : Nat) : Option Nat :=
  if off = 0x00C then some ((s.srt i).queue.length * 2 ^ 16 + (s.srt i).lookups.length)
  else if 0x074 ≤ off ∧ off ≤ 0x0B0 then
    some (match s.table? (s.regN (pgSRT i) 0x070) with | some t => leAt t.entry (off - 0x074) 4 | none => 0)
  else none

/-- INK registers that show an Inker (R234, R236). -/
def State.inkView (s : State) (i off : Nat) : Option Nat :=
  let valid := fun (h : Nat) => s.par.tables.foldl (fun a p => if p.2.dense || !(s.inksOf p.2).contains i then a else a + (s.validSlots p.2 i h).length) 0
  let base := (s.putOf (inkFolio i)).base.getD 0
  if off = 0x00C then
    some (s.inkPhase i * 2 ^ 28 + (s.inker i).queue.length * 2 ^ 16 + (s.par.migs.filter (fun m => m.ink == i)).length)
  else if off = 0x050 then some (valid 0)
  else if off = 0x054 then some (valid 1)
  else if off = 0x080 then some (s.par.repls.filter (fun r => r.ink == i)).length
  else if off = 0x084 then some (s.putUsed (inkFolio i))
  else if off = 0x0A0 then some (base % 2 ^ 32)
  else if off = 0x0A4 then some (base / 2 ^ 32)
  else if 0x0AC ≤ off ∧ off ≤ 0x128 then
    some (match s.table? (s.regN (pgINK i) 0x0A8) with
      | some t => if (s.inksOf t).contains i then leAt t.descr (off - 0x0AC) 4 else 0
      | none => 0)
  else none

/-- MEM registers that show a controller (R260); CFG is set at start-up from the Ledger (R479). -/
def State.memView (s : State) (m off : Nat) : Option Nat :=
  if off = 0x048 then some (s.scrubPos m)
  else if 0x054 ≤ off ∧ off ≤ 0x080 then some (s.chanReg m off)
  else none

/-- The codes of the unreleased steps, older and newer (R292). -/
def State.stepCodes (s : State) : Nat × Nat :=
  match s.fmn.steps with
  | [] => (0, 0)
  | [a] => (a.state.code, 0)
  | a :: b :: _ => if a.n < b.n then (a.state.code, b.state.code) else (b.state.code, a.state.code)

/-- FMN.STATE (R292). -/
def State.fmnState (s : State) : Nat :=
  let c := s.stepCodes
  s.fmn.state.code * 2 ^ 28 + c.1 * 2 ^ 24 + c.2 * 2 ^ 20 + s.stagedMask % 16 * 2 ^ 16 + s.busySlots % 16 * 2 ^ 12 + b2n s.fmn.forming.isSome * 2 ^ 11
  + b2n s.isLeader * 2 ^ 10 + b2n (s.imp.active.isSome && s.deputy == s.self) * 2 ^ 9

/-- IMP.STATE (R295). -/
def State.impState (s : State) : Nat :=
  let phase := if s.imp.staged.isSome then (if s.imp.accepted then 3 else 2) else if s.imp.active.isSome then 1 else 0
  phase * 2 ^ 30 + s.members.length * 2 ^ 16 + (match s.imp.active with | some m => m.layouts % 16 * 2 ^ 12 + m.staleness % 4 * 2 ^ 8 | none => 0)

/-- RTE.STATE (R333). -/
def State.rteState (s : State) : Nat :=
  let table := if s.imp.active.isSome then 3 else if s.regN pgRTE 0x044 = 0 then 0 else if s.fab.win.isEmpty then 2 else 1
  table * 2 ^ 30 + (match s.imp.active with | some m => leAt (m.sec 6) 0 1 % 8 * 2 ^ 27 + m.layouts % 16 * 2 ^ 20 | none => 0) + s.self

/-- RTE registers that show the router (R335). -/
def State.rteView (s : State) (off : Nat) : Option Nat :=
  match off with
  | 0x00C => some s.rteState
  | 0x054 => some (s.route (s.field pgRTE 0x050 14 2) (s.field pgRTE 0x050 0 14))
  | 0x058 => some (min s.fab.unreplied.length 0xFFFF)
  | _ => none

/-- COL.STATE (R362). -/
def State.colState (s : State) : Nat :=
  let exch := if s.col.exch.any (fun p => !p.2.done) then 1 else if s.isLeader && s.fmn.leaders.any (fun l => l.allIn && l.decided.isNone) then 2 else 0
  s.localBkts * 2 ^ 16 + exch

/-- Module READs outstanding on the tier (R427). -/
def State.readsOut (s : State) : Nat := (s.par.fetches.filter (·.issued)).length

/-- ETH registers that show the port (R425, R427). -/
def State.ethView (s : State) (off : Nat) : Option Nat :=
  match off with
  | 0x00C => some (setFld (s.regN pgETH 0x00C) 11 12 s.eth.qps.length)
  | 0x068 => some s.readsOut
  | 0x090 => some s.eth.regions.length
  | _ => none

/-- SPV registers that show the engine (R428, R430). -/
def State.spvView (s : State) (off : Nat) : Option Nat :=
  let q := s.regN pgSPV 0x088 % 64
  let k := s.queue q
  match off with
  | 0x00C =>
    let held := s.spv.queues.foldl (fun a p => a + p.2.entries.length) 0
    let sess := (s.spv.queues.filter (fun p => p.2.auth)).length
    some (b2n s.spv.paused * 2 ^ 24 + held * 2 ^ 9 + sess)
  | 0x070 => some s.lettersWaiting
  | 0x080 => some (match s.spv.mbox with | some (_, c) => c.op % 65536 * 2 ^ 16 + 1 | none => 0)
  | 0x08C =>
    some (b2n k.qp.isSome * 2 ^ 31 + b2n k.auth * 2 ^ 30 + b2n (kvHas s.subs q) * 2 ^ 29 + b2n ((kvGet s.subs q { pages := 0, beat := false, next := 0 }).beat) * 2 ^ 28
      + k.keySlot % 4 * 2 ^ 26 + k.entries.length)
  | 0x090 => some k.next
  | _ => none

/-- Slots of a key-hash array that are not empty (R462). -/
def slotMask (m : AMap Bytes) : Nat := (List.range 4).foldl (fun a i => if allZero (kvGet m i []) then a else a + 2 ^ i) 0

/-- SEL registers (R484, R486). -/
def State.selView (s : State) (off : Nat) : Option Nat :=
  let f := s.sel.fuses
  let d := s.sel.cur.data
  if off = 0x00C then
    some (s.sel.phase * 2 ^ 28 + s.lifeCycle * 2 ^ 24 + s.sel.slot % 2 * 2 ^ 23 + b2n s.sel.fallback * 2 ^ 22 + f.svnMin % 64 * 2 ^ 16 + s.sel.svn % 256 * 256
      + f.eRevoke % 16 * 16 + f.lRevoke % 16)
  else if 0x040 ≤ off ∧ off ≤ 0x06C then some (leAt s.sel.meas (off - 0x040) 4)
  else match off with
    | 0x070 => some (d.get 0x51).toNat
    | 0x074 => some (d.readLE 0x54 4)
    | 0x078 => some (d.readLE 0x58 4)
    | 0x07C => some (d.readLE 0x5C 4)
    | 0x080 => some (slotMask f.lHash * 16 + slotMask f.eHash)
    | 0x088 => some (rmaLeft f.lc)
    | _ => none

/-- A byte of the staged CONFIG section; CAK is write-only (R479, R489). -/
def State.cfgByte (s : State) (i : Nat) : Nat := if 0x100 ≤ i ∧ i < 0x120 then 0 else (kvGet s.sel.cfg i (s.sel.cur.data.get (0x900 + i))).toNat

/-- LDG registers (R487, R489). -/
def State.ldgView (s : State) (off : Nat) : Option Nat :=
  let q := s.sel.cur.seq
  let c := s.lifeCounter (s.regN pgLDG 0x050 % 16)
  let w := s.regN pgLDG 0x05C % 2048 / 4 * 4
  match off with
  | 0x00C => some (s.sel.ldgPhase * 2 ^ 28 + (if s.sel.ldgPhase = 0 then 0 else q % 2 * 2 ^ 27 + q / 2 % 1024))
  | 0x040 => some (q % 2 ^ 32)
  | 0x044 => some (q / 2 ^ 32 % 2 ^ 32)
  | 0x054 => some (c % 2 ^ 32)
  | 0x058 => some (c / 2 ^ 32 % 2 ^ 32)
  | 0x060 => some (s.cfgByte w + s.cfgByte (w + 1) * 2 ^ 8 + s.cfgByte (w + 2) * 2 ^ 16 + s.cfgByte (w + 3) * 2 ^ 24)
  | _ => none

/-- ALG of a Postmark unit in force (R452, R457). -/
def State.pmkAlg (s : State) (u : Nat) : Nat := s.field (pgPMK u) 0x008 2 2

/-- The running value of a unit (R453). -/
def State.pmkValue (s : State) (u : Nat) : Nat := s.reg64 (pgPMK u) 0x040 % 2 ^ algWidth (s.pmkAlg u)

/-- RESULT of a unit (R453, R460). -/
def State.pmkResult (s : State) (u : Nat) : Nat := s.pmkValue u ^^^ algXor (s.pmkAlg u)

/-- PMK registers that follow VALUE (R458, R460). -/
def State.pmkView (s : State) (u off : Nat) : Option Nat :=
  match off with
  | 0x00C => some (setFld (s.regN (pgPMK u) 0x00C) 2 2 (s.pmkAlg u))
  | 0x040 => some (s.pmkValue u % 2 ^ 32)
  | 0x044 => some (s.pmkValue u / 2 ^ 32)
  | 0x058 => some (s.pmkResult u % 2 ^ 32)
  | 0x05C => some (s.pmkResult u / 2 ^ 32)
  | _ => none

/-- The hottest sensor as int16, 0 before any reading (R510). -/
def State.tempMax (s : State) : Int :=
  s.power.sensors.foldl (fun (a : Option Int) p => match a with | none => some (sext 16 p.2) | some m => some (max m (sext 16 p.2))) none |>.getD 0

/-- The throttle level of a Folio (R498). -/
def State.throttle (s : State) (f : Nat) : Nat := kvGet s.power.level f 0

/-- Some sensor reads at or above 105 degrees (R498). -/
def State.hot (s : State) : Bool := s.power.sensors.any (fun p => decide (840 ≤ sext 16 p.2))

/-- PWR registers (R510, R512). -/
def State.pwrView (s : State) (off : Nat) : Option Nat :=
  let thermal := if s.power.tripped then 3 else if s.hot then 2 else if s.throttle 0 ≠ 0 ∨ s.throttle 1 ≠ 0 then 1 else 0
  let idx := s.regN pgPWR 0x05C % 256
  if 0x070 ≤ off ∧ off ≤ 0x084 then
    some ((List.range 32).foldl (fun a i => if s.domOn ((off - 0x070) / 4 * 32 + i) then a + 2 ^ i else a) 0)
  else match off with
    | 0x00C => some (thermal * 2 ^ 28 + s.throttle 1 % 8 * 2 ^ 24 + s.throttle 0 % 8 * 2 ^ 20 + wrapN 16 s.tempMax)
    | 0x048 => some (s.power.watts % 65536)
    | 0x058 => some (kvGet s.power.sensors (s.regN pgPWR 0x054 % 64) 0 % 65536)
    | 0x060 => some (kvGet s.power.prog (if idx = 255 then 0 else idx) 0)
    | _ => none

/-- Registers that show other state than the register file. -/
def State.liveView (s : State) (b : Blk) (i off : Nat) : Option Nat :=
  match b with
  | .glb =>
    match off with
    | 0x00C => some (s.fmn.state.code * 2 ^ 28 + s.lifeCycle * 2 ^ 24)
    | 0x044 => some (s.sel.fuses.serial % 2 ^ 32)
    | 0x048 => some (s.sel.fuses.serial / 2 ^ 32 % 2 ^ 32)
    | 0x04C => some s.self
    | _ => none
  | .prs => s.prsView i off
  | .num => s.numView off
  | .srt => s.srtView i off
  | .ink => s.inkView i off
  | .mem => s.memView i off
  | .fmn => if off = 0x00C then some s.fmnState else none
  | .imp =>
    match off with
    | 0x00C => some s.impState
    | 0x050 => some s.posteBytes
    | 0x054 => some s.imp.poste.length
    | _ => none
  | .rte => s.rteView off
  | .col => if off = 0x00C then some s.colState else none
  | .pms =>
    match off with
    | 0x05C => some (s.holdUsed 0)
    | 0x060 => some (s.holdUsed 1)
    | 0x07C => some (s.volumeOf s.tableList / 64)
    | _ => none
  | .eth => s.ethView off
  | .spv => s.spvView off
  | .sel => s.selView off
  | .ldg => s.ldgView off
  | .pmk => s.pmkView i off
  | .pwr => s.pwrView off
  | _ => none

/-- The value that a read of a register would return now, without captures: 0 for a block-specific register of a domain that is off (R434), for EVT_SET, WO fields and reserved offsets; STATUS of PWR follows the domain (R438). -/
def State.regView (s : State) (page off : Nat) : Nat :=
  match pageBlk page with
  | none => 0
  | some (b, i) =>
    if 0x040 ≤ off ∧ !s.domOn (domainOf b i) then 0
    else if off = 0x01C then 0
    else if off = 0x030 then s.regN page off % 2 ^ 30 + s.domStatus (domainOf b i) % 4 * 2 ^ 30
    else match s.liveView b i off with
      | some v => v % 2 ^ 32
      | none => s.regN page off

/-- Low halves of 64-bit counters that only time, or frames that no command shows, advance: cycles of a running tile, frames received and sent, bits checked, energy (R106, R328, R427, R512). What they hold is open once they can have advanced: each read takes a free value (log entry 13). -/
def State.openPair (s : State) (b : Blk) (i off : Nat) : Bool :=
  match b with
  | .prs => off == 0x080 && (s.tile i).ran
  | .eth => (off == 0x040 || off == 0x048) && s.eth.used
  | .prf => off == 0x040 && s.regN (pgPRF i) 0x00C != 0
  | .pwr => off == 0x04C
  | _ => false

/-- Words of the same kind: lane errors of a locked checker, the time throttled (R328, R512), and the running value of a path between Postmaster and blocks or Seal, whose messages the spec does not lay out (R455, R460). -/
def State.openWord (s : State) (b : Blk) (i off : Nat) : Bool :=
  match b with
  | .prf => decide (0x048 ≤ off) && decide (off ≤ 0x064) && s.regN (pgPRF i) 0x00C != 0
  | .pwr => off == 0x064 && s.regN pgPWR 0x068 != 0
  | .pmk => decide (6 ≤ i) && decide (i ≤ 9) && (off == 0x040 || off == 0x058) && s.reg64 (pgPMK i) 0x060 != 0
  | _ => false

/-- Bits of an open word: a check value of paths 6 to 9 has 16 (R452). -/
def openBits (b : Blk) : Nat := match b with | .pmk => 16 | _ => 32

/-- A read of a register with its captures (R17, R439): a low half captures its upper half, ERR_CODE both ERR_INFO registers; a captured value is returned once. -/
def State.regRead (s : State) (page off : Nat) : Nat × State :=
  match kvFind s.captured (regKey page off) with
  | some v => (v.toNat, { s with captured := kvDel s.captured (regKey page off) })
  | none =>
    let v := s.regView page off
    let put := fun (x : State) (o v : Nat) => ({ x with captured := kvSet x.captured (regKey page o) (BitVec.ofNat 32 v) } : State)
    match pageBlk page with
    | none => (v, s)
    | some (b, i) =>
      if s.openPair b i off && s.domOn (domainOf b i) then
        let (f, s1) := s.fresh
        (f.toNat % 2 ^ 32, put s1 (off + 4) (f.toNat / 2 ^ 32))
      else if (s.openPair b i (off - 4) || s.openWord b i off) && s.domOn (domainOf b i) then
        let (f, s1) := s.fresh
        (f.toNat % 2 ^ openBits b, s1)
      else if loHalf b off then (v, put s (off + 4) (s.regView page (off + 4)))
      else if off = 0x024 then (v, put (put s 0x028 (s.regView page 0x028)) 0x02C (s.regView page 0x02C))
      else (v, s)

end Sys2Proof.Machine
end

