-- ==== Sys2Proof/Machine/RegOps.lean ====
section
/-! DEFINITION. Writes of registers (R15, R16, R30, R34, R433, R434, R442, R443 and each register's own write rule), disconnection of queue pairs, power requests, general Postmark units. -/

namespace Sys2Proof.Machine

/-- Changes the power state. -/
def State.setPower (s : State) (f : Power → Power) : State := { s with power := f s.power }
/-- Changes the management state. -/
def State.setMgmt (s : State) (f : Mgmt → Mgmt) : State := { s with mgmt := f s.mgmt }
/-- Changes the Ethernet port. -/
def State.setEth (s : State) (f : Eth → Eth) : State := { s with eth := f s.eth }

/-- LINK of the Ethernet port (R425). -/
def State.ethLink (s : State) : Nat := s.field pgETH 0x00C 28 4

/-- A queue pair disconnects: a COMMAND queue's session is no longer authenticated, its letters are discarded (R408, R420). -/
def State.dropQp (s : State) (qp : Nat) : State :=
  match kvFind s.eth.qps qp with
  | none => s
  | some k =>
    let s1 := s.setEth (fun e => { e with qps := kvDel e.qps qp })
    if k.role = 0 then
      let s2 := s1.modQueue k.slot (fun c => { c with qp := none, auth := false })
      { s2 with letters := s2.letters.filter (fun l => l.queue != k.slot) }
    else s1

/-- Every queue pair disconnects. -/
def State.dropAllQps (s : State) : State := (s.eth.qps.map (·.1)).foldl (fun (x : State) q => x.dropQp q) s

/-- The Ethernet link leaves UP for another LINK value (R395, R423 to R426). -/
def State.ethLeave (s : State) (link : Nat) : State :=
  let s1 := (s.dropAllQps).setN pgETH 0x00C (link * 2 ^ 28)
  if s.ethLink = 2 then s1.latch pgETH 1 else s1

/-- The page and bit of a block's event for an ignored configuration write. -/
def cfgEvent (b : Blk) (i : Nat) : Option (Nat × Nat) :=
  match b with
  | .glb => some (pgGLB, 1) | .num => some (pgNUM, 5) | .ink => some (pgINK i, 4) | .mem => some (pgMEM i, 9) | .fmn => some (pgFMN, 9)
  | .rte => some (pgRTE, 7) | .ppt => some (pgRTE, 7) | .pgh => some (pgPGH i, 5) | .col => some (pgCOL, 5) | .eth => some (pgETH, 7)
  | .spv => some (pgSPV, 7) | .pmk => some (pgPMK i, 2) | .ldg => some (pgLDG, 4) | .pwr => some (pgPWR, 6) | .dtl => some (pgDTL, 5)
  | _ => none

/-- An FP32 word that is neither negative nor non-finite (R166). -/
def posFinite (v : Nat) : Bool := !bitOf v 31 && fld v 23 8 != 255

/-- A number lies in a range. -/
def within (lo hi x : Nat) : Bool := decide (lo ≤ x) && decide (x ≤ hi)

/-- A shape inside the ranges of R299. -/
def shapeOk (v : Nat) : Bool :=
  let xy := [4, 8, 12, 16]
  xy.contains (v % 256) && xy.contains (v / 256 % 256) && v / 65536 % 256 % 4 == 0 && within 4 40 (v / 65536 % 256)

/-- The read-only words of the configuration window (R489): a word is refused when a byte of CHIP, SHAPE or OPKEY would change or the word holds nothing else. -/
def State.cfgWordOk (s : State) (v : Nat) : Bool :=
  let w := s.regN pgLDG 0x05C % 2048 / 4
  if w = 0 ∨ (16 ≤ w ∧ w < 64) then false
  else if w = 1 then v % 256 == s.cfgByte 4
  else true

/-- A write that its register's own rule ignores (R146, R151, R166, R198, R236, R260, R294, R301, R332, R335, R364, R391, R423, R424, R427, R430, R460, R461, R489, R512, R515). `host` is false for a write of the Postmaster. -/
def State.ignores (s : State) (b : Blk) (i off v : Nat) (host : Bool) : Bool :=
  match b, off with
  | .glb, 0x054 => !within 10 10000 (v % 65536)
  | .num, 0x040 => !lsCfgOk v
  | .num, 0x04C => !within 1 64 (v % 128)
  | .num, 0x050 => v % 65536 == 0
  | .num, 0x058 => !posFinite v
  | .num, 0x05C => !posFinite v
  | .num, 0x080 => v % 32768 != 0
  | .num, 0x088 => v % 32768 != 0
  | .pgh, 0x008 => decide (5 ≤ fld v 1 3)
  | .ink, 0x098 => v % 2 ^ 18 != 0
  | .mem, 0x044 => decide (168 < v % 256)
  | .fmn, 0x048 => !within 1 60000 (v % 65536)
  | .fmn, 0x064 => v % 4096 != 0
  | .fmn, 0x06C => v % 2 ^ 19 != 0
  | .ppt, 0x068 => v % 256 == 0
  | .rte, 0x040 => s.regN pgRTE 0x044 != 0 && !s.chipExists (v % 16384)
  | .rte, 0x044 => !shapeOk (v % 2 ^ 24)
  | .rte, 0x048 => !within 1 1000 (v % 1024)
  | .rte, 0x04C => v % 16 == 0
  | .col, 0x040 => v % 65536 != 0 || decide (dramSize < v + s.regN pgCOL 0x044 * 2 ^ 32 + s.reg64 pgCOL 0x048)
  | .col, 0x044 => decide (dramSize < s.regN pgCOL 0x040 + v % 32768 * 2 ^ 32 + s.reg64 pgCOL 0x048)
  | .col, 0x048 => v % 65536 != 0 || decide (dramSize < v + s.regN pgCOL 0x04C * 2 ^ 32 + s.reg64 pgCOL 0x040)
  | .col, 0x04C => decide (dramSize < s.regN pgCOL 0x048 + v % 32768 * 2 ^ 32 + s.reg64 pgCOL 0x040)
  | .pms, 0x040 => !within 2 1000 (v / 65536) || !within 100 10000 (v % 65536)
  | .eth, 0x008 => fld v 4 2 == 3 || (bitOf v 2 && s.fmn.state != .service)
  | .eth, 0x088 => decide (v % 65536 < 64)
  | .eth, 0x08C => !within 10 60000 (v % 65536)
  | .spv, 0x078 => !within 10 10000 (v % 16384)
  | .pmk, 0x008 => decide (i < 10)
  | .pmk, 0x040 => decide (i < 10)
  | .pmk, 0x044 => decide (i < 10)
  | .pmk, 0x048 => decide (i < 10)
  | .pmk, 0x04C => decide (i < 10) || fld v 24 2 == 0
  | .ldg, 0x060 => !s.cfgWordOk v
  | .pwr, 0x040 => !within 0x230 0x340 (v % 65536)
  | .pwr, 0x044 => !within 600 1450 (v % 65536)
  | .pwr, 0x054 => decide (56 ≤ v % 64)
  | .pwr, 0x05C => within 128 254 (v % 256)
  | .dtl, 0x050 => (host && bitOf (s.regN pgDTL 0x008) 0) || decide (sext 32 v < -500000) || decide (500000 < sext 32 v)
  | _, _ => false

/-- IDLE with no imposition active (R301, R324). -/
def State.idleFree (s : State) : Bool := s.fmn.state == .idle && s.imp.active.isNone

/-- Bits of a write that R34 forbids in STEPPING: a change of an RW field, or an acting WO or W1S field, that does not wait for the boundary. -/
def State.changesNow (s : State) (page : Nat) (b : Blk) (i off v : Nat) : Bool :=
  let rw := rwMask b i off - (rwMask b i off &&& boundMask b off)
  let act := actMask b off - (actMask b off &&& boundMask b off)
  (v &&& rw) != (s.regView page off &&& rw) || (v &&& act) != 0 || (off == 0x01C && v % 2 ^ b.events != 0)

/-- The status with which a register write is refused, 0 when it is made (R34, R301, R415, R434). -/
def State.regCheck (s : State) (page off v : Nat) (host : Bool) : Nat :=
  match pageBlk page with
  | none => stBAD
  | some (b, i) =>
    if off % 4 ≠ 0 ∨ 0x1000 ≤ off then stBAD
    else if 0x040 ≤ off ∧ !s.domOn (domainOf b i) then stILLEGAL
    else if host ∧ s.fmn.state = .stepping ∧ dataPlane b i ∧ s.changesNow page b i off v then stILLEGAL
    else if off = 0x030 ∧ pwrSw b i ∧ v % 2 = 0 ∧ s.fmn.state ≠ .idle ∧ s.fmn.state ≠ .service then stILLEGAL
    else
      let illegal : Bool := match b, off with
        | .rte, 0x040 => !s.idleFree
        | .rte, 0x044 => !s.idleFree
        | .rte, 0x054 => !s.idleFree
        | .fmn, 0x040 => s.fmn.state != .joined || s.fmn.forming.isSome || !s.fmn.steps.isEmpty
        | .fmn, 0x044 => s.fmn.state != .joined || s.fmn.forming.isSome || !s.fmn.steps.isEmpty
        | .col, 0x040 => s.imp.active.isSome || s.imp.staged.isSome
        | .col, 0x044 => s.imp.active.isSome || s.imp.staged.isSome
        | .col, 0x048 => s.imp.active.isSome || s.imp.staged.isSome
        | .col, 0x04C => s.imp.active.isSome || s.imp.staged.isSome
        | .ldg, 0x008 => bitOf v 1 && s.fmn.state != .idle && s.fmn.state != .service
        | _, _ => false
      if illegal then stILLEGAL else 0

/-- Stores the RW bits of a write; bits that wait for the boundary keep their old value in force (R15, R34). -/
def State.storeRw (s : State) (page : Nat) (b : Blk) (i off v : Nat) : State :=
  let rw := rwMask b i off
  let bd := boundMask b off &&& rw
  let old := s.regN page off
  let new := old - (old &&& rw) + (v &&& rw)
  let s1 := s.setN page off new
  if bd = 0 then s1
  else
    let was := s.inForce page off
    let now := new - (new &&& bd) + (was &&& bd)
    if now = new then { s1 with heldOld := kvDel s1.heldOld (regKey page off) }
    else { s1 with heldOld := kvSet s1.heldOld (regKey page off) (BitVec.ofNat 32 now) }

/-- The request of a switchable domain, over the pages that share it (R438). -/
def State.domReq (s : State) (b : Blk) (i : Nat) : Bool :=
  match b with
  | .ppt => bitOf (s.regN (pgPPT i) 0x030) 0 || bitOf (s.regN (pgPRF i) 0x030) 0
  | .prf => bitOf (s.regN (pgPPT i) 0x030) 0 || bitOf (s.regN (pgPRF i) 0x030) 0
  | .srt => bitOf (s.regN (pgSRT i) 0x030) 0
  | .pgh => bitOf (s.regN (pgPGH i) 0x030) 0
  | _ => true

/-- R494, R495: a domain follows its request: off at once, on after its wipe. -/
def State.followReq (s : State) (b : Blk) (i : Nat) : State :=
  let d := domainOf b i
  if s.domReq b i then (if s.domStatus d = 0 then s.setDom d 2 else s)
  else
    let s1 := s.setDom d 0
    if (b = .ppt ∨ b = .prf) ∧ s.link i ≠ 0 then s1.portDown i 0 else s1

/-- R103: STOP stops a tile at its next instruction boundary, or resumes it. -/
def State.tileStop (s : State) (p : Nat) (stop : Bool) : State :=
  let t := s.tile p
  if stop then (if t.run = .running ∨ t.run = .idle then s.setTile p { t with run := .stopped, stopWas := t.run } else s)
  else if t.run = .stopped then s.setTile p { t with run := t.stopWas, ran := t.ran || t.stopWas == .running } else s

/-- Replaces the running value of a unit. -/
def State.setPmk (s : State) (u v : Nat) : State := (s.setN (pgPMK u) 0x040 (v % 2 ^ 32)).setN (pgPMK u) 0x044 (v / 2 ^ 32)

/-- A general unit compares RESULT with EXPECT (R456, R458). -/
def State.pmkCompare (s : State) (u : Nat) : State :=
  let r := s.pmkResult u
  let good := r == s.reg64 (pgPMK u) 0x050 % 2 ^ algWidth (s.pmkAlg u)
  let s1 := (s.setField (pgPMK u) 0x00C 0 2 (1 + 2 * b2n good)).bump64 (pgPMK u) 0x060 1
  if good then s1 else (s1.bump (pgPMK u) 0x068 1).latchErr (pgPMK u) 0 1 (r % 2 ^ 32) 0

/-- A write of PMK.CTRL of a general unit (R457): the compare first; INIT or a change of ALG loads the initial value. -/
def State.pmkCtrl (s : State) (u v : Nat) : State :=
  let s1 := if bitOf v 1 then s.pmkCompare u else s
  let alg := fld v 2 2
  let s2 := s1.setField (pgPMK u) 0x008 2 2 alg
  if bitOf v 0 ∨ alg ≠ s.pmkAlg u then s2.setPmk u (algStart alg) else s2

/-- A write of VALUE of a general unit (R460). -/
def State.pmkSet (s : State) (u off v : Nat) : State :=
  let alg := s.pmkAlg u
  if alg = 2 then
    if off = 0x040 then s.setMgmt (fun m => { m with stage := kvSet m.stage u v })
    else (s.setMgmt (fun m => { m with stage := kvDel m.stage u })).setPmk u (kvGet s.mgmt.stage u (s.regN (pgPMK u) 0x040) + v * 2 ^ 32)
  else if off = 0x040 then s.setPmk u (v % 2 ^ algWidth alg) else s

/-- PRF.CTRL (R328): GEN_EN and CHK_EN only in TEST, PATTERN 6 and 7 ignored; CLEAR clears the counters. -/
def State.prfCtrl (s : State) (i v : Nat) : State :=
  let test := if i < 12 then s.link i == 3 else s.ethLink == 3
  let old := s.regN (pgPRF i) 0x008
  let v1 := if test then v else setFld v 0 2 old
  let v2 := if 6 ≤ fld v 4 3 then setFld v1 4 3 (fld old 4 3) else v1
  let v3 := if i < 12 then setFld v2 12 4 0 else v2
  let s1 := s.setN (pgPRF i) 0x008 (v3 &&& 0xFF73)
  let s2 := if bitOf v3 1 then s1 else s1.prfFreeze i
  if bitOf v 2 then ((List.range 10).foldl (fun (x : State) k => x.setN (pgPRF i) (0x040 + 4 * k) 0) s2) else s2

/-- The words of CONFIG that the window stages (R489). -/
def State.cfgStage (s : State) (v : Nat) : State :=
  let w := s.regN pgLDG 0x05C % 2048 / 4 * 4
  s.setSel (fun k => { k with cfg := (toLE 4 v).zipIdx.foldl (fun (m : AMap (BitVec 8)) p => kvSet m (w + p.2) p.1) k.cfg })

/-- CFG_COMMIT and SYNC of LDG.CTRL (R487). -/
def State.ldgCtrl (s : State) (v : Nat) : State :=
  let s1 := if bitOf v 1 then
      (s.sel.cfg.foldl (fun (x : State) p => x.ledgerUpdate (0x900 + p.1) [p.2]) s).setSel (fun k => { k with cfg := [] })
    else s
  if bitOf v 0 then s1.ledgerUpdate 0 [] else s1

/-- What a write does beyond storing its RW bits. -/
def State.regEffect (s : State) (b : Blk) (i off v : Nat) : State :=
  match b, off with
  | .prs, 0x008 => s.tileStop i (bitOf v 0)
  | .num, 0x040 => if bitOf v 0 then { s with num := { s.num with load := true } } else s
  | .num, 0x094 => s.ttSelect v
  | .num, 0x0A4 => if bitOf v 15 then s.ttCommit else s
  | .ppt, 0x008 => if bitOf v 5 then s.retrain i else s
  | .rte, 0x040 => s.ledgerUpdate 0x900 (toLE 2 (v % 16384))
  | .rte, 0x044 => ({ s with fab := { s.fab with win := [] } }).ledgerUpdate 0x902 (toLE 3 v)
  | .rte, 0x054 => { s with fab := { s.fab with win := kvSet s.fab.win (s.field pgRTE 0x050 0 14) (BitVec.ofNat 32 v &&& 0xCFF80000#32) } }
  | .eth, 0x008 =>
    if bitOf v 2 && s.ethLink != 3 then s.ethLeave 3
    else if bitOf v 1 && s.ethLink != 3 then s.ethLeave 1 else s
  | .pmk, 0x048 => s.setPmk i (pmBytes (s.pmkAlg i) (s.pmkValue i) (toLE 4 v))
  | .pmk, 0x04C => s.setPmk i (pmBytes (s.pmkAlg i) (s.pmkValue i) (toLE (fld v 24 2) v))
  | .ldg, 0x008 => s.ldgCtrl v
  | .pwr, 0x060 =>
    let ix := s.regN pgPWR 0x05C % 256
    s.setPower (fun k => { k with prog := (if ix = 255 then List.range 128 else [ix]).foldl (fun (m : AMap Nat) j => kvSet m j (v % 8)) k.prog })
  | _, _ => s

/-- A register write that has passed `regCheck` (R15, R433, R442, R443). -/
def State.regApply (s : State) (page off v : Nat) (host : Bool) : State :=
  match pageBlk page with
  | none => s
  | some (b, i) =>
    if s.ignores b i off v host then (match cfgEvent b i with | some (p, bit) => s.latch p bit | none => s)
    else if off = 0x014 then s.setN page off (s.regN page off - (s.regN page off &&& v))
    else if off = 0x020 then s.setN page off (s.regN page off - (s.regN page off &&& v))
    else if off = 0x01C then (List.range b.events).foldl (fun (x : State) k => if bitOf v k then x.latch page k else x) s
    else if off = 0x030 then (if pwrSw b i then (s.storeRw page b i off v).followReq b i else s)
    else match b, off with
      | .prf, 0x008 => s.prfCtrl i v
      | .pmk, 0x008 => s.pmkCtrl i v
      | .pmk, 0x040 => s.pmkSet i off v
      | .pmk, 0x044 => s.pmkSet i off v
      | .ldg, 0x060 => s.cfgStage v
      | .rte, 0x054 => s.regEffect b i off v
      | .pwr, 0x060 => s.regEffect b i off v
      | _, _ => (s.storeRw page b i off v).regEffect b i off v

/-- A register write: its status and the state after it. -/
def State.regWrite (s : State) (page off v : Nat) (host : Bool) : Nat × State :=
  let st := s.regCheck page off v host
  if st = 0 then (0, s.regApply page off v host) else (st, s)

/-- A register write from outside, its status in `answer`. -/
def State.softWrite (s : State) (page off v : Nat) : State :=
  let (st, s1) := s.regWrite page off v true
  { s1 with answer := st }

/-- TILE_STOP (R103, R34): a write of PRS.CTRL.STOP with RETIRE as it stands. -/
def execTileStop (t : Fin 136) (stop : Bool) (s : State) : Host.Outcome State Fault Refusal :=
  .next (s.softWrite (pgPRS t.val) 0x008 (s.regN (pgPRS t.val) 0x008 &&& 2 ||| b2n stop))

/-- TILE_RETIRE_REQUEST (R103, R74): a write of PRS.CTRL.RETIRE with STOP as it stands. -/
def execTileRetireRequest (t : Fin 136) (retire : Bool) (s : State) : Host.Outcome State Fault Refusal :=
  .next (s.softWrite (pgPRS t.val) 0x008 (s.regN (pgPRS t.val) 0x008 &&& 1 ||| 2 * b2n retire))

/-- LS_CFG_LOAD (R146): a write of NUM.LS_CFG with LOAD = 1. -/
def execLsCfgLoad (v : Word) (s : State) : Host.Outcome State Fault Refusal := .next (s.softWrite pgNUM 0x040 (v.toNat ||| 1))

/-- TT_INDEX_WRITE (R167). -/
def execTtIndexWrite (v : Word) (s : State) : Host.Outcome State Fault Refusal := .next (s.softWrite pgNUM 0x094 v.toNat)

/-- TT_COMMIT (R167): a write of 1 to TT_DATA3.COMMIT. -/
def execTtCommit (s : State) : Host.Outcome State Fault Refusal := .next (s.softWrite pgNUM 0x0A4 0x8000)

/-- RPT_TAIL_WRITE (R290). -/
def execRptTailWrite (v : Word) (s : State) : Host.Outcome State Fault Refusal := .next (s.softWrite pgFMN 0x078 v.toNat)

/-- STEP_NEXT_WRITE (R261): a write of one half of FMN.STEP_NEXT. -/
def execStepNextWrite (hi : Bool) (v : Word) (s : State) : Host.Outcome State Fault Refusal := .next (s.softWrite pgFMN (if hi then 0x044 else 0x040) v.toNat)

/-- PORT_RETRAIN_REQUEST (R309, R329, R34): a write of 1 to PPT.CTRL.RETRAIN, the other fields as they stand. -/
def execPortRetrainRequest (port : Fin 12) (s : State) : Host.Outcome State Fault Refusal :=
  .next (s.softWrite (pgPPT port.val) 0x008 (s.regN (pgPPT port.val) 0x008 ||| 0x20))

/-- WIN_DATA_WRITE (R324). -/
def execWinDataWrite (v : Word) (s : State) : Host.Outcome State Fault Refusal := .next (s.softWrite pgRTE 0x054 v.toNat)

/-- RTE_SELF_WRITE (R301). -/
def execRteSelfWrite (v : Word) (s : State) : Host.Outcome State Fault Refusal := .next (s.softWrite pgRTE 0x040 v.toNat)

/-- RTE_SHAPE_WRITE (R301). -/
def execRteShapeWrite (v : Word) (s : State) : Host.Outcome State Fault Refusal := .next (s.softWrite pgRTE 0x044 v.toNat)

/-- PRBS_INJECT (R328): one bit inverted on each enabled lane; the bit leaves on the lanes, no state of the module holds it. -/
def execPrbsInject (i : Fin 13) (s : State) : Host.Outcome State Fault Refusal := .next (s.softWrite (pgPRF i.val) 0x008 (s.regN (pgPRF i.val) 0x008 ||| 8))

/-- PRBS_CLEAR (R328). -/
def execPrbsClear (i : Fin 13) (s : State) : Host.Outcome State Fault Refusal := .next (s.softWrite (pgPRF i.val) 0x008 (s.regN (pgPRF i.val) 0x008 ||| 4))

/-- CHECKER_LOCK (R328): the checker of an enabled lane locks. -/
def execCheckerLock (i : Fin 13) (lane : Fin 8) (s : State) : Host.Outcome State Fault Refusal :=
  let c := s.regN (pgPRF i.val) 0x008
  let test := if i.val < 12 then s.link i.val == 3 else s.ethLink == 3
  if test && bitOf c 1 && bitOf c (8 + lane.val) then .next (s.setN (pgPRF i.val) 0x00C (s.regN (pgPRF i.val) 0x00C ||| 2 ^ lane.val)) else .next s

/-- ETH_TEST_ENTER (R423): a write of 1 to ETH.CTRL.TEST. -/
def execEthTestEnter (s : State) : Host.Outcome State Fault Refusal := .next (s.softWrite pgETH 0x008 (s.regN pgETH 0x008 ||| 4))

/-- ETH_RESTART (R424): a write of 1 to ETH.CTRL.RESTART. -/
def execEthRestart (s : State) : Host.Outcome State Fault Refusal := .next (s.softWrite pgETH 0x008 (s.regN pgETH 0x008 &&& 0xFF78 ||| 2))

/-- DOMAIN_POWER_REQUEST (R438, R494): a write of PWR.REQ. -/
def execDomainPowerRequest (page : Fin 512) (req : Bool) (s : State) : Host.Outcome State Fault Refusal := .next (s.softWrite page.val 0x030 (b2n req))

/-- PMK_INIT (R457): INIT with the ALG in force. -/
def execPmkInit (u : Fin 16) (s : State) : Host.Outcome State Fault Refusal := .next (s.softWrite (pgPMK u.val) 0x008 (s.pmkAlg u.val * 4 + 1))

/-- PMK_COMPARE (R456, R457): CMP with the ALG in force. -/
def execPmkCompare (u : Fin 16) (s : State) : Host.Outcome State Fault Refusal := .next (s.softWrite (pgPMK u.val) 0x008 (s.pmkAlg u.val * 4 + 2))

/-- PMK_DATA (R453). -/
def execPmkData (u : Fin 16) (v : Word) (s : State) : Host.Outcome State Fault Refusal := .next (s.softWrite (pgPMK u.val) 0x048 v.toNat)

/-- PMK_DATA_TAIL (R460). -/
def execPmkDataTail (u : Fin 16) (v : Word) (s : State) : Host.Outcome State Fault Refusal := .next (s.softWrite (pgPMK u.val) 0x04C v.toNat)

/-- PMK_VALUE_WRITE (R460): a write of VALUE_LO or VALUE_HI. -/
def execPmkValueWrite (u : Fin 16) (hi : Bool) (v : Word) (s : State) : Host.Outcome State Fault Refusal :=
  .next (s.softWrite (pgPMK u.val) (if hi then 0x044 else 0x040) v.toNat)

/-- LDG_SYNC (R487). -/
def execLdgSync (s : State) : Host.Outcome State Fault Refusal := .next (s.softWrite pgLDG 0x008 1)

/-- LDG_CFG_COMMIT (R487). -/
def execLdgCfgCommit (s : State) : Host.Outcome State Fault Refusal := .next (s.softWrite pgLDG 0x008 2)

/-- A message of path u fails its check (R455, R456): PMK_ALIVE, and the module fences itself with cause MANAGEMENT (code 9). The received check value is open: a free value (log entry 32). -/
def State.aliveFail (s : State) (u : Nat) : State :=
  let (v, s1) := s.fresh
  (((s1.bump64 (pgPMK u) 0x060 1).bump (pgPMK u) 0x068 1).latchErr (pgPMK u) 1 2 (v.toNat % 65536) 0).fenceFor 9

/-- Who writes a register: the host or a fabric requester, or the Postmaster over paths 6 and 7 with its messages whole or one of them failing (R454, R455). -/
def State.byPostmaster (s : State) (path : Fin 4) (w : State → State) : State :=
  if path.val = 0 then w s
  else if path.val = 2 then s.aliveFail 6
  else
    let s1 := w (s.aliveTick 6)
    if path.val = 3 then s1.aliveFail 7 else s1.aliveTick 7

/-- REGISTER_WRITE (R433): `path` 0 from the host or the fabric; 1 from the Postmaster; 2 and 3 from the Postmaster with a failing check on path 6 or 7. -/
def execRegisterWrite (page : Fin 512) (off : Fin 1024) (v : Word) (path : Fin 4) (s : State) : Host.Outcome State Fault Refusal :=
  .next (s.byPostmaster path (fun x =>
    let (st, y) := x.regWrite page.val (4 * off.val) v.toNat (path.val == 0)
    { y with answer := st }))

/-- EVT_SET_INJECT (R443). -/
def execEvtSetInject (page : Fin 512) (v : Word) (s : State) : Host.Outcome State Fault Refusal := .next (s.softWrite page.val 0x01C v.toNat)

/-- A register read from outside: its value in `readData`, BAD_ARGUMENT in `answer` for a page outside the map (R415). -/
def State.softRead (s : State) (page off : Nat) : State :=
  if (pageBlk page).isNone then { s with answer := stBAD }
  else
    let (v, s1) := s.regRead page off
    { s1 with answer := 0, readData := BitVec.ofNat 32 v }

/-- ERR_CODE_READ (R439). -/
def execErrCodeRead (page : Fin 512) (s : State) : Host.Outcome State Fault Refusal := .next (s.softRead page.val 0x024)

/-- LO_HALF_READ (R17): a read of a low half, or of the upper half that may follow it. -/
def execLoHalfRead (page : Fin 512) (off : Fin 1024) (s : State) : Host.Outcome State Fault Refusal := .next (s.softRead page.val (4 * off.val))

end Sys2Proof.Machine
end

