-- ==== Sys2Proof/Machine/NetRows.lean ====
section
/-! DEFINITION. Fabric requests served at this module and the replies to its own requests (R312, R316, R193, R382, R401, R432), the end of a quiet period with its held RDMA WRITEs (R385, R403). -/

namespace Sys2Proof.Machine

/-- A length that a READ, WRITE or GATHER can name (R312). -/
def fabricLen (space n : Nat) : Bool := if space = 2 then n == 4 else n % 64 == 0 && decide (64 ≤ n) && decide (n ≤ 4096)

/-- Byte `i` of the free values from the counter on (log entry 7). -/
def State.freeByte (s : State) (i : Nat) : Byte := BitVec.ofNat 8 ((Config.freeValue (s.freeCtr + i / 64)).toNat / 256 ^ (i % 64))

/-- Bytes of a tag of the diagnostic view (R193). -/
def wayTag (w : Way) : Bytes :=
  toLE 2 (w.table % 4096 + 4096 + b2n w.static * 8192 + b2n w.filling * 16384) ++ toLE 5 w.row ++ toLE 1 w.use ++ toLE 4 w.sectors ++ toLE 4 0

/-- A byte of the diagnostic view: offset bits [29:0] of a cache (R193). What an empty way holds besides VALID = 0, and offsets past the last way, is open: a free value. -/
def State.diagByte (s : State) (f a i : Nat) : Byte :=
  let slot := 128 * 2 ^ fld (s.inForce (pgPGH f) 0x008) 1 3
  let o := a % 2 ^ 29
  let free := s.freeByte i
  if bitOf a 29 then
    if 4194304 / slot * 16 ≤ o / 16 then free
    else match kvFind (s.cache f).ways (o / 16) with
      | some w => (wayTag w).getD (o % 16) 0
      | none => if o % 16 = 1 then free &&& 0xEF else if 12 ≤ o % 16 then 0 else free
  else match kvFind (s.cache f).ways (o / slot) with
    | some w => w.image.getD (o % slot) free
    | none => free

/-- A refused access to the diagnostic view (R193). -/
def State.diagRefused (s : State) (off st : Nat) : Nat × Bytes × State := (st, [], s.latch (pgPGH (fld off 30 1)) 5)

/-- A read of the diagnostic view (R193): status, data, state. -/
def State.diagRead (s : State) (off n : Nat) : Nat × Bytes × State :=
  let f := fld off 30 1
  if !bitOf (s.inForce (pgPGH f) 0x008) 4 || !s.domOn (160 + f) then s.diagRefused off stILLEGAL
  else (0, (List.range n).map (fun i => s.diagByte f (off % 2 ^ 30 + i) i), { s with freeCtr := s.freeCtr + n / 64 + 1 })

/-- A register page that a fabric access names: offset bits [46:21] are 0 and the page is listed (R239, R432). -/
def regPage (off : Nat) : Option Nat := if off / 2 ^ 21 = 0 ∧ (pageBlk (off / 4096)).isSome then some (off / 4096) else none

/-- What a READ returns (R312, R239, R240): status, data, state. -/
def State.serveRead (s : State) (p : Packet) (errs : List CaseErr) : Nat × Bytes × State :=
  let sp := gaSpace p.addr
  let off := gaOff p.addr
  let n := p.arg % 8192
  if !s.gaHere p.addr || !p.payload.isEmpty then (stBAD, [], s)
  else if 3 < sp then (stBAD, [], s.unmapped sp off p.src)
  else if !fabricLen sp n then (stBAD, [], s)
  else if sp = 2 then
    if off % 4 ≠ 0 then (stBAD, [], s)
    else match regPage off with
      | none => (stBAD, [], s.unmapped 2 off p.src)
      | some g =>
        let (v, s1) := s.regRead g (off % 4096)
        (0, pad16 (toLE 4 v), s1)
  else if sp = 3 then
    if off / 2 ^ 31 ≠ 0 then (stBAD, [], s.unmapped 3 off p.src) else s.diagRead off n
  else
    let (bs, st, s1) := (s.spaceErrs sp off n p.src errs).spaceRead sp off n p.src
    (st, if st = 0 then bs else [], s1)

/-- READ (R312); `errs` are the Case errors that it meets (R77). -/
def execRead (errs : List CaseErr) (s : State) : Host.Outcome State Fault Refusal :=
  match s.takeArrived (fun p => p.type == 1) with
  | none => .next s
  | some (o, s1) =>
    let (st, bs, s2) := s1.serveRead o.pkt errs
    .next (s2.reply o st bs)

/-- A WRITE into DRAM, line by line: a line of a region with T_RO = 1 is refused (R401). -/
def State.dramLines (s : State) (off : Nat) (bs : Bytes) (src : Nat) : Nat × State :=
  if !dramMapped off bs.length then (stBAD, s.unmapped 0 off src)
  else
    (lineParts off bs.length).foldl (fun (a : Nat × State) p =>
      if a.2.roLine p.1 then (if a.1 = 0 then stBAD else a.1, a.2)
      else
        let (r, y) := a.2.spaceWrite 0 p.1 ((bs.drop (p.1 - off)).take p.2) src
        (if a.1 = 0 then r else a.1, y)) (0, s)

/-- What a WRITE does (R312, R239, R240): status, state. -/
def State.serveWrite (s : State) (p : Packet) : Nat × State :=
  let sp := gaSpace p.addr
  let off := gaOff p.addr
  let n := p.arg % 8192
  let bs := p.payload.take n
  if !s.gaHere p.addr then (stBAD, s)
  else if 3 < sp then (stBAD, s.unmapped sp off p.src)
  else if sp = 3 then
    if off / 2 ^ 31 ≠ 0 then (stBAD, s.unmapped 3 off p.src) else (stBAD, s.latch (pgPGH (fld off 30 1)) 5)
  else if !fabricLen sp n || p.payload.length != (pad16 (List.replicate n (0 : Byte))).length then (stBAD, s)
  else if sp = 2 then
    if off % 4 ≠ 0 then (stBAD, s)
    else match regPage off with
      | none => (stBAD, s.unmapped 2 off p.src)
      | some g => s.regWrite g (off % 4096) (leNat bs) true
  else if sp = 0 then s.dramLines off bs p.src
  else s.spaceWrite 1 off bs p.src

/-- WRITE (R312). -/
def execWrite (s : State) : Host.Outcome State Fault Refusal :=
  match s.takeArrived (fun p => p.type == 2) with
  | none => .next s
  | some (o, s1) =>
    let (st, s2) := s1.serveWrite o.pkt
    .next (s2.reply o st [])

/-- ADD32 (R130, R240, R312); `errs` are the Case errors that its read meets (R77). -/
def execAdd32 (errs : List CaseErr) (s : State) : Host.Outcome State Fault Refusal :=
  match s.takeArrived (fun p => p.type == 3) with
  | none => .next s
  | some (o, s1) =>
    let p := o.pkt
    if !s1.gaHere p.addr then .next (s1.reply o stBAD [])
    else if 3 < gaSpace p.addr then .next ((s1.unmapped (gaSpace p.addr) (gaOff p.addr) p.src).reply o stBAD [])
    else if gaSpace p.addr != 1 || p.addr % 4 != 0 || !p.payload.isEmpty then .next (s1.reply o stBAD [])
    else
      let (st, s2) := (s1.spaceErrs 1 (gaOff p.addr) 4 p.src errs).spaceAdd (gaOff p.addr) p.arg p.src
      .next (s2.reply o st [])

/-- GATHER (R224, R312): it joins the queue of its Inker; it belongs to no step and ranks with the oldest open one (R243). -/
def execGather (s : State) : Host.Outcome State Fault Refusal :=
  match s.takeArrived (fun p => p.type == 6) with
  | none => .next s
  | some (o, s1) =>
    let p := o.pkt
    let off := gaOff p.addr
    let n := leAt p.payload 0 4
    if !s1.gaHere p.addr then .next (s1.reply o stBAD [])
    else if 3 < gaSpace p.addr then .next ((s1.unmapped (gaSpace p.addr) off p.src).reply o stBAD [])
    else if gaSpace p.addr != 0 || p.payload.length != 16 || !allZero (p.payload.drop 4) || !fabricLen 0 n then .next (s1.reply o stBAD [])
    else if !dramMapped off n then .next ((s1.unmapped 0 off p.src).reply o stBAD [])
    else
      let st := (lowest (s1.fmn.steps.map (·.n))).getD s1.curStep
      .next (s1.pushOp (dramLocate off).1 { kind := 2, table := 0, row := p.arg % 2 ^ 32, step := st, slot := p.slot, vals := [], addr := off, len := n, req := .packet o })

/-- The reply to a part of a tile's movement request (R131): data go into the tile, the first error status is kept. -/
def State.moveAnswer (s : State) (p serial off status : Nat) (good : Bool) (data : Bytes) : State :=
  match (s.tile p).moves.find? (fun m => m.serial == serial) with
  | none => s
  | some m =>
    let put := fun (gl lines : Nat) => if good then s.modTile p (fun t => t.writeAt (gl + off) (data.take (64 * lines - off))) else s
    let s1 := match m.kind with
      | .mov false gl _ lines => put gl lines
      | .gath gl _ _ lines => put gl lines
      | _ => s
    let st := if m.status = 0 ∧ !good then status else m.status
    s1.modTile p (fun t => { t with moves := t.moves.map (fun x => if x.serial == serial then { x with parts := x.parts - 1, status := st, ready := decide (x.parts ≤ 1) } else x) })

/-- One parity answer that an acknowledgement waits for has come; the last one lets it leave (R402). -/
def State.ackOne (s : State) (serial : Nat) : State :=
  match kvFind s.eth.acks serial with
  | none => s
  | some (qp, k) =>
    if k ≤ 1 then (s.setEth (fun e => { e with acks := kvDel e.acks serial })).ethSend (.ack qp)
    else s.setEth (fun e => { e with acks := kvSet e.acks serial (qp, k - 1) })

/-- The answer to a PARITY_DELTA (R382): a HELD one belongs to a commit item, a failed IMMEDIATE one is kept. -/
def State.parityAnswer (s : State) (serial : Nat) (req : Packet) (good : Bool) : State :=
  if req.arg % 4 = 0 then
    match s.par.items.find? (fun it => it.serial == serial) with
    | none => s
    | some it => (if good then s.modItem serial (fun i => { i with deltas := i.deltas - 1, done := decide (i.deltas ≤ 1) }) else s.failItem it).tryCommitDone
  else if good then s.ackOne serial
  else { s with res := { s.res with kept := s.res.kept ++ [Kept.mk (fld req.addr 40 1) (fld req.addr 33 7) (req.addr % 2 ^ 33) (req.payload.drop 16) serial] } }

/-- The answer to a SLICE packet (R276, R277, R284, R313, R371). -/
def State.sliceAnswer (s : State) (kind n a src : Nat) (good : Bool) : State :=
  if (kind = 3 ∨ kind = 5) ∧ good ∧ src = s.deputy then s.deputyAck kind n a
  else if kind = 7 ∧ !good then { s with imp := { s.imp with drainSent := false } }
  else if kind = 0x12 ∧ good then s.probeAnswered src
  else s

/-- The path of a look-up that a reply served (R174): 2 this module, 3 another one, with 4 for a row of a remote tier. A reply from another module does not say where its row came from, so for a TIER table that is a free value (log entry 90). -/
def State.replyPath (s : State) (q id chip : Nat) : Nat × State :=
  if chip = s.self then (2, s)
  else
    let tier := match (s.srt q).lookups.find? (fun u => u.id == id) with
      | none => false
      | some u => match s.desc? q u.desc with
        | none => false
        | some d => match s.table? d.table with | none => false | some t => t.hasTier
    if tier then ((3 + 4 * (s.fresh.1.toNat % 2)), s.fresh.2) else (3, s)

/-- A reply reaches the one that waits for it: OK and DUPLICATE_REPLAYED are success (R316, R317). -/
def State.answered (s : State) (org : Origin) (req : Packet) (status : Nat) (data : Bytes) : State :=
  let good := status == stOK || status == stDUP
  let st := if good then stOK else status
  match org with
  | .none => s
  | .duplicate => s
  | .move t ser off => s.moveAnswer t ser off st good data
  | .lookup q id =>
    let (path, s1) := s.replyPath q id req.dst
    s1.lookupDone q id st path data
  | .parity _ _ ser => s.parityAnswer ser req good
  | .slice k n a => s.sliceAnswer k n a req.dst good
  | .migrate t r ph => if ph = 0 then s.reserved t r st else s.shipped t r st
  | .repair k => s.unitReply k req st data
  | .forward src lane tag lay => s.reply { pkt := { s.mkPkt 0 lane s.self 0 0 [] with src := src, tag := tag, layout := lay }, org := .none } st data

/-- RESPONSE (R316): the first reply for a tag is accepted, every later one is discarded. -/
def execResponse (s : State) : Host.Outcome State Fault Refusal :=
  match s.takeArrived (fun p => p.type == 0x20) with
  | none => .next s
  | some (o, s1) =>
    let p := o.pkt
    match o.req with
    | some q => .next (s1.answered o.org q (p.arg % 256) p.payload)
    | none =>
      match s1.fab.unreplied.find? (fun u => u.pkt.dst == p.src && u.pkt.lane == fld p.arg 8 3 && u.pkt.tag == p.tag) with
      | none => .next (s1.bump pgRTE 0x06C 1)
      | some u =>
        .next (({ s1 with fab := { s1.fab with unreplied := s1.fab.unreplied.filter (fun x => x != u) } }).answered u.org u.pkt (p.arg % 256) p.payload)

/-- A queue pair. -/
def State.qp? (s : State) (qp : Nat) : Option Qp := kvFind s.eth.qps qp

/-- A queue pair enters the error state (R426): 1 RETRY_EXCEEDED, 2 REMOTE_ACCESS, 3 REMOTE_INVALID. -/
def State.qpError (s : State) (qp code : Nat) : State :=
  match s.qp? qp with
  | none => s
  | some k => (s.setEth (fun e => { e with qps := kvSet e.qps qp { k with live := false, err := true } })).latchErr pgETH 6 code (qp % 2 ^ 32) (k.role * 2 ^ 24 + k.slot % 65536)

/-- A request on a queue pair is answered with a NAK, and the queue pair is in error (R398, R401, R426). -/
def State.nak (s : State) (qp code : Nat) : State := (s.ethSend (.nak qp)).qpError qp code

/-- An RDMA WRITE is performed line by line (R244); its acknowledgement waits for its parity deltas (R382, R402), and does not leave when a line refused its part (R248). -/
def State.hostWrite (s : State) (qp off : Nat) (bs : Bytes) : State :=
  let ser := s.serial + 1
  let old := s.dram.read off bs.length
  let (s1, bad) := ({ s with serial := ser }).dramStore off bs
  let (s2, c, _) := (dramParts off bs.length).foldl (fun (a : State × Nat × Nat) p =>
    let (y, k) := a.1.sendDeltas p.1 p.1 p.2.1 ((old.drop a.2.2).take p.2.2) ((bs.drop a.2.2).take p.2.2) false 0 0 ser
    (y, a.2.1 + k, a.2.2 + p.2.2)) (s1, 0, 0)
  if bad then s2.nak qp 3
  else if c = 0 then s2.ethSend (.ack qp)
  else s2.setEth (fun e => { e with acks := kvSet e.acks ser (qp, c) })

/-- The end of a quiet period (R385, R403): the hold and the waits end, and the held WRITEs are performed in order. -/
def State.quietEnds (s : State) : State :=
  let y : State := { s with res := { s.res with busy := none, quietSent := false, job := none } }
  let z := if y.field pgPMS 0x044 28 4 = 3 then y else y.setField pgPMS 0x044 28 4 2
  z.eth.held.foldl (fun (w : State) h => w.hostWrite h.qp h.off h.data) ((z.setEth (fun e => { e with held := [] })).latch pgPMS 7)

/-- PAR_READY (R385, R403): the hold and the waits end, and the held WRITEs are performed in order. -/
def execParReady (s : State) : Host.Outcome State Fault Refusal :=
  .next (s.slice 0x18 (fun _ x => x.quietEnds))

end Sys2Proof.Machine
end

