-- ==== Sys2Proof/Machine/SealOps.lean ====
section
/-! DEFINITION. Operations of the Seal: firmware checks (R464, R465), key derivation and identity (R469 to R471), Ledger records (R478 to R483), the wipe of every memory (R476, R477), the reset of the module (R501). -/

namespace Sys2Proof.Machine

/-- The bytes of a label (R469). -/
def ascii (t : String) : Bytes := t.toList.map (fun c => BitVec.ofNat 8 c.toNat)

/-- The `n` big-endian bytes of a value. -/
def toBE (n v : Nat) : Bytes := (toLE n v).reverse

/-- KDF(K, label, context) with `n` bytes of output (R469). -/
def kdf (k label ctx : Bytes) (n : Nat) : Bytes :=
  ((List.range (ceilDiv n 48)).flatMap (fun i => Config.hmacSha384 k (toBE 4 (i + 1) ++ label ++ [0] ++ ctx ++ toBE 4 (8 * n)))).take n

/-- The order of the P-384 group (FIPS 186-5). -/
def orderP384 : Nat := 0xFFFFFFFFFFFFFFFFFFFFFFFFFFFFFFFFFFFFFFFFFFFFFFFFC7634D81F4372DDF581A0DB248B0A77AECEC196ACCC52973

/-- An ECDSA private key from 64 bytes of KDF output (R469). -/
def ecdsaKey (x : Bytes) : Bytes := toBE 48 (leNat x.reverse % (orderP384 - 1) + 1)

/-- Public keys: 97 bytes for ECDSA, 56 bytes for LMS (R464). -/
def pubE (priv : Bytes) : Bytes := sliceB (Config.derivePublic (ascii "ECDSA-P384") priv) 0 97
def pubL (priv : Bytes) : Bytes := sliceB (Config.derivePublic (ascii "LMS-H10") priv) 0 56

/-- The DeviceID private keys, ECDSA and LMS (R469). -/
def Fuses.devE (f : Fuses) : Bytes := ecdsaKey (kdf f.uds (ascii "DEVID-E") (toLE 8 f.serial) 64)
def Fuses.devL (f : Fuses) : Bytes := kdf f.uds (ascii "DEVID-L") (toLE 8 f.serial) 48

/-- CDI of a layer-1 identity (R469). -/
def Fuses.cdi (f : Fuses) (e : Endorse) : Bytes := kdf f.uds (ascii "CDI") (e.meas ++ toLE 1 e.lc ++ toLE 1 e.svn ++ toLE 4 e.gen) 48

/-- The alias private keys (R469). -/
def Fuses.aliasE (f : Fuses) (e : Endorse) : Bytes := ecdsaKey (kdf (f.cdi e) (ascii "ALIAS-E") [] 64)
def Fuses.aliasL (f : Fuses) (e : Endorse) : Bytes := kdf (f.cdi e) (ascii "ALIAS-L") [] 48

/-- The endorsement digest Dend (R470). -/
def Fuses.dend (f : Fuses) (e : Endorse) : Bytes :=
  Config.sha384 (pubE (f.aliasE e) ++ pubL (f.aliasL e) ++ e.meas ++ toLE 1 e.lc ++ toLE 1 e.svn ++ toLE 4 e.gen)

/-- The nonce of an ECDSA signature of the Seal over a digest: the entropy that it draws is open, and the same for the same key and digest. -/
def signE (priv digest : Bytes) : Bytes := sliceB (Config.ecdsaSign priv digest []) 0 96
/-- An LMS signature with index q. -/
def signL (priv : Bytes) (q : Nat) (digest : Bytes) : Bytes := sliceB (Config.lmsSign priv q digest) 0 1452

/-- The ENDORSEMENT section up to the lifetime counters (R478). -/
def Fuses.endorsement (f : Fuses) (e : Endorse) : Bytes :=
  pubE (f.aliasE e) ++ toLE 3 0 ++ pubL (f.aliasL e) ++ sliceB e.meas 0 48 ++ toLE 1 e.lc ++ toLE 1 e.svn ++ toLE 2 0 ++ toLE 4 e.gen
  ++ signE f.devE (f.dend e) ++ signL f.devL e.devQ (f.dend e)

/-- A record's bytes 0x0000 to 0x3FF7 (R478). -/
def Fuses.recBytes (f : Fuses) (r : LRec) : Bytes :=
  let b := r.data.read 0 0x3FC8
  let c := match r.endorse with | none => b | some e => patchB b 0x100 (f.endorsement e)
  c ++ sliceB (Config.hmacSha384 (kdf f.uds (ascii "LEDGER") [] 48) c) 0 48

/-- Bank * 1024 + slot of a record SEQ (R481). -/
def recSlot (seq : Nat) : Nat := seq % 2 * 1024 + seq / 2 % 1024

/-- A record goes into its slot; the last slot of a sector erases the next sector of the bank (R481). -/
def putRec (m : AMap LRec) (r : LRec) : AMap LRec :=
  let k := recSlot r.seq
  let bank := k / 1024
  let slot := k % 1024
  let m1 := kvSet m k r
  if slot % 4 = 3 then (List.range 4).foldl (fun (x : AMap LRec) i => kvDel x (bank * 1024 + (slot + 1 + i) % 1024)) m1 else m1

/-- The current record's content with the waiting updates merged in arrival order (R480). -/
def State.mergedData (s : State) : Ram := s.sel.updates.foldl (fun (m : Ram) u => m.write u.1 u.2) s.sel.cur.data

/-- The content of the next record: waiting updates merged in arrival order, then the Seal's own edit, then the counters and the header (R478, R480, R489). -/
def State.nextData (s : State) (writer : Nat) (edit : Ram → Ram) : Ram :=
  let d := edit s.mergedData
  let c := (List.range 16).foldl (fun (m : Ram) i => m.writeLE (0x880 + 8 * i) 8 (s.lifeCounter i)) d
  ((c.writeLE 0 4 0x4C4D4C47).writeLE 4 2 1).writeLE 6 2 writer

/-- A record is written and read back (R481); `fails` read-backs fail first. False in READONLY, and after three failures in a row, which end in READONLY. -/
def State.ledgerPut (s : State) (writer fails : Nat) (edit : Ram → Ram) (en : Option Endorse → Option Endorse) : State × Bool :=
  if s.sel.ldgPhase ≠ 1 then (s, false)
  else
    let d := s.nextData writer edit
    let n := min fails 3
    let mk := fun (seq : Nat) (ok : Bool) => LRec.mk seq (d.writeLE 8 8 seq) (en s.sel.cur.endorse) ok
    let bad := (List.range n).foldl (fun (m : AMap LRec) i => putRec m (mk (s.sel.cur.seq + 1 + i) false)) s.sel.recs
    let (t, s0) := s.fresh
    let s1 := (s0.bump pgLDG 0x048 n).setN pgLDG 0x04C (t.toNat % 2 ^ 32)
    if n = 3 then
      ((s1.setSel (fun k => { k with recs := bad, ldgPhase := 3 })).latchErr pgLDG 1 1 ((s.sel.cur.seq + 3) % 2 ^ 32) 0, false)
    else
      let r := mk (s.sel.cur.seq + 1 + n) true
      let s2 := s1.setSel (fun k => { k with recs := putRec bad r, cur := r, updates := [], counters := [] })
      ((s2.pmkCheck 5 (checkValue 2 (s2.sel.fuses.recBytes r)) true 0).latch pgLDG 0, true)

/-- Edits of the SECURITY and LIFECYCLE sections (R478). -/
def setActive (v : Nat) (m : Ram) : Ram := m.writeLE 0x50 1 v
def setStaged (v : Nat) (m : Ram) : Ram := m.writeLE 0x51 1 v
def setPendingLc (v : Nat) (m : Ram) : Ram := m.writeLE 0x41 1 v

/-- Fields of the current record. -/
def State.fwActive (s : State) : Nat := s.sel.cur.data.readLE 0x50 1
def State.fwStaged (s : State) : Nat := s.sel.cur.data.readLE 0x51 1
def State.aliasGen (s : State) : Nat := s.sel.cur.data.readLE 0x54 4
def State.aliasQ (s : State) : Nat := s.sel.cur.data.readLE 0x58 4
def State.devQ (s : State) : Nat := s.sel.cur.data.readLE 0x5C 4
def State.lcCount (s : State) : Nat := s.sel.cur.data.readLE 0x44 4

/-- A valid alias exists (R470). -/
def State.aliasValid (s : State) : Bool :=
  match s.sel.cur.endorse with
  | none => false
  | some e => e.meas == s.sel.meas && e.lc == s.lifeCycle && e.gen == s.aliasGen && decide (s.aliasQ < 1024)

/-- The module has an identity: not in BLANK or TEST (R472), nor in SCRAPPED. -/
def State.hasIdentity (s : State) : Bool := s.lifeCycle == 2 || s.lifeCycle == 3 || s.lifeCycle == 4

/-- R470: a new alias where none is valid; `f0` and `f1` are the read-back failures of its two records. -/
def State.makeAlias (s : State) (f0 f1 : Nat) : State :=
  if !s.hasIdentity || s.aliasValid then s
  else if 1024 ≤ s.devQ then s.latchErr pgSEL 5 9 0 0
  else
    let q := s.devQ
    let gen := s.aliasGen + 1
    let (s1, ok) := s.ledgerPut 1 f0 (fun m => ((m.writeLE 0x54 4 gen).writeLE 0x58 4 0).writeLE 0x5C 4 (q + 1)) id
    if !ok then s1
    else
      let (s2, ok2) := s1.ledgerPut 1 f1 id (fun _ => some (Endorse.mk s1.sel.meas s1.lifeCycle s1.sel.svn gen q))
      if ok2 then s2.latch pgSEL 4 else s2

/-- Order 1 of R465: header, segments and reserved bytes of an image. -/
def fwFormat (img : Bytes) : Bool :=
  let plen := leAt img 0xC 4
  let n := leAt img 0x18 1
  let seg := fun (i : Nat) => sliceB img (0x20 + 16 * i) 16
  leAt img 0 4 == 0x4C4D4657 && leAt img 4 2 == 1 && decide (leAt img 6 1 < 2) && leAt img 0xB 1 == 0
  && plen % 4096 == 0 && decide (4096 ≤ plen) && decide (plen ≤ 67104768) && decide (256 + plen + 2048 ≤ img.length)
  && decide (1 ≤ n) && decide (n ≤ 8) && allZero (sliceB img 0x19 7) && allZero (sliceB img 0xA0 96)
  && (List.range 8).all (fun i =>
      if i < n then decide (1 ≤ leAt (seg i) 0 1) && decide (leAt (seg i) 0 1 ≤ 4) && allZero (sliceB (seg i) 1 3) && decide (leAt (seg i) 4 4 + leAt (seg i) 8 4 ≤ plen)
      else allZero (seg i))
  && (List.range n).all (fun i => (List.range i).all (fun j => leAt (seg i) 0 1 != leAt (seg j) 0 1))
  && allZero (sliceB img (256 + plen + 0x61) 3) && allZero (sliceB img (256 + plen + 0x7E8) 24)

/-- The measurement of an image (R465). -/
def fwMeas (img : Bytes) : Bytes := Config.sha384 (sliceB img 0 (256 + leAt img 0xC 4))

/-- A key hash slot that matches a key: not empty (R462, R465). -/
def keyMatches (m : AMap Bytes) (slot : Nat) (key : Bytes) : Bool :=
  let h := kvGet m slot []
  !allZero h && Config.sha384 key == h

/-- The checks of R465 in their order: the code of the first that fails, 0 when the image is accepted. -/
def Fuses.fwCheck (f : Fuses) (img : Bytes) : Nat :=
  let b := 256 + leAt img 0xC 4
  let eKey := sliceB img b 97
  let lKey := sliceB img (b + 0xC4) 56
  let es := leAt img 8 1
  let ls := leAt img 9 1
  let rev := leAt img 0xA 1
  if !fwFormat img then 1
  else if !keyMatches f.eHash es eKey || !keyMatches f.lHash ls lKey then 2
  else if bitOf f.eRevoke es || bitOf f.lRevoke ls || bitOf rev es || bitOf rev (4 + ls) then 3
  else if !Config.ecdsaVerify eKey (fwMeas img) (sliceB img (b + 0x64) 96) then 4
  else if !Config.lmsVerify lKey (fwMeas img) (sliceB img (b + 0xFC) 1772) then 5
  else if leAt img 7 1 < f.svnMin then 6
  else 0

/-- What a firmware slot of the flash holds (R463). -/
def State.image (s : State) (slot : Nat) : Bytes := kvGet s.sel.images slot []

/-- An image is refused (R465, R485). -/
def State.fwReject (s : State) (code slot : Nat) : State := s.latchErr pgSEL 1 code (slot % 2) 0

/-- A tile whose memories are wiped (R476). -/
def Tile.wiped (t : Tile) : Tile :=
  { Tile.reset with role := t.role, logical := t.logical, run := if t.run = .off then .off else .idle, stopWas := .idle, retire := t.retire, ready := t.ready, wiping := t.wiping,
                    freq := t.freq, opp := t.opp, ran := t.ran }

/-- The DRAM wipe (R255): every data line is written with zero, no line stays poisoned, check caches and row-error tables are cleared; the controllers are WIPING and take no other access. -/
def State.wipeDram (s : State) : State :=
  let chans := (List.range 128).foldl (fun m c => kvMod m c Chan.reset (fun x => { x with wr := satAdd64 x.wr linesPerChan, cache := [], rows := [] })) s.mem.chans
  let s1 : State := { s with dram := Ram.wiped, mem := { s.mem with chans := chans, shut := List.range 16 } }
  ((List.range 16).foldl (fun (x : State) m => x.setField (pgMEM m) 0x00C 0 4 3) s1).lifeAdd 8 1

/-- Step 4 of R476: every memory is wiped; staged impositions, loaded sheets, tables and memory regions are discarded with them. -/
def State.wipeAll (s : State) : State :=
  let s1 := s.wipeDram
  let s2 : State := { s1 with
    tiles := s1.tiles.map (fun p => (p.1, p.2.wiped)), pgh := [], sorters := [], par := Params.reset, col := Col.reset, pouches := [],
    imp := { s1.imp with staged := none, accepted := false, drainSent := false, drained := [], activateRx := false, confirms := [], poste := [] } }
  let s3 := s2.setFmn (fun f => { f with staged := [], sheets := [], installed := [], install := none, forming := none })
  (s3.setEth (fun e => { e with regions := [], held := [], acks := [] })).setN pgIMP 0x044 0

/-- The newest valid record (R483). -/
def newestRec (m : AMap LRec) : Option LRec :=
  m.foldl (fun (a : Option LRec) p => if p.2.ok then (match a with | some r => if r.seq < p.2.seq then some p.2 else a | none => some p.2) else a) none

/-- The state that a reset leaves (R501): every register at its reset value, every domain off but 181 and 182, the Dateline 0, nothing connected. The flash, the fuses, what the board drives and the DRAM's content stay; the wipe of start-up clears the DRAM. Counter `k` counts it; the counts of starts and resets are not lost with one (log entry 110). -/
def State.resetTo (s : State) (m : ModState) (k : Option Nat) : State :=
  let cur := (newestRec s.sel.recs).getD s.sel.cur
  let r := State.reset
  let s1 : State := { r with
    tiles := s.tiles.map (fun p => (p.1, { Tile.reset with role := p.2.role, logical := p.2.logical })),
    dram := s.dram, fmn := { r.fmn with state := m },
    sel := { r.sel with fuses := s.sel.fuses, recs := s.sel.recs, images := s.sel.images, cur := cur, counters := s.sel.counters.filter (fun p => decide (p.1 < 2)) },
    power := { r.power with good := s.power.good, thermN := s.power.thermN, sensors := s.power.sensors, watts := s.power.watts, strap := s.power.strap },
    tap := s.tap, answer := s.answer, readData := s.readData, serial := s.serial, freeCtr := s.freeCtr, pending := s.pending }
  match k with
  | some i => s1.lifeAdd i 1
  | none => s1

end Sys2Proof.Machine
end

