-- ==== Sys2Proof/Machine/MemRows.lean ====
section
/-! DEFINITION. Commands of the memory controllers (R238, R243 to R255): line operations, MR4, refresh, scrubbing, training, repair, the wipe. -/

namespace Sys2Proof.Machine

/-- What the check line of a group meets whose burst fails link ECC twice (R249): every data line of the group decodes, those of `grp` (slot, symbol errors) with errors. A check line in the check cache is not read. -/
def State.groupDecode (s : State) (off : Nat) (grp : List (Fin 15 × List (Nat × Byte))) : State :=
  let (c, coff) := dramLocate off
  let g := coff / 64 / 15
  if (s.chan c).cache.contains g then s
  else grp.foldl (fun x e =>
    let a := (g * 15 + e.1.val) * 64
    if a = coff / 64 * 64 ∨ chanSize ≤ a then x else x.lineDecode (dramOffset c a) e.2 1) s

/-- A line is read with the errors that its burst and its check line meet (R246 to R249). -/
def State.lineFetch (s : State) (off : Nat) (errs : List (Nat × Byte)) (grp : List (Fin 15 × List (Nat × Byte))) : State :=
  ((s.groupDecode off grp).lineRead off).lineDecode off errs 1

/-- LINE_OPERATION (R243 to R249, R255): one line part is read or written; a read meets `errs` in the line's stored symbols. It waits where its Inker's queue is full, which counts a stalled sender, and while its record holds a row lock; a write inside the parity window sends its IMMEDIATE deltas (R381). The status goes into `answer`, the first word read into `readData`. -/
def execLineOperation (wr : Bool) (off : Nat) (n : Nat) (data : Bytes) (errs : List (Nat × Byte)) (grp : List (Fin 15 × List (Nat × Byte))) (s : State) : Host.Outcome State Fault Refusal :=
  let len := min n (64 - off % 64)
  let ink := (dramLocate off).1
  if !dramMapped off len then .next { (s.unmapped 0 off s.self) with answer := stBAD }
  else if !s.memOpen off len then .next { s with answer := stILLEGAL }
  else if 512 ≤ (s.inker ink).queue.length then .next (s.bump (pgINK ink) 0x048 1)
  else if s.lineLocked off then .next s
  else if wr then
    let bs := sliceB data 0 len
    let s1 := if wholeLine off bs then s else s.lineFetch off errs grp
    let old := s1.dram.read off len
    let (s2, bad) := s1.linePut off bs
    let s3 := if bad then s2 else (s2.sendDeltas ink ink (dramLocate off).2 old bs false 0 0 0).1
    .next { s3 with answer := if bad then stPOISON else stOK }
  else
    let s1 := if (lineParts off len).isEmpty then s else s.lineFetch off errs grp
    .next { s1 with answer := if s1.dramBad off len then stPOISON else stOK, readData := BitVec.ofNat 32 (leAt (s1.dram.read off len) 0 4) }

/-- MR4_POLL (R250): the temperature code, the refresh rate that it asks for, and whether the device is above its operating range. -/
def execMr4Poll (ch : Fin 128) (temp : Byte) (mult : Fin 3) (above : Bool) (s : State) : Host.Outcome State Fault Refusal :=
  let m := ch.val / 8
  let s1 := s.modChan ch.val (fun x => { x with temp := temp.toNat, mult := mult.val, hot := above })
  .next (s1.stateEvent (pgMEM m) 3 ((List.range 8).any (fun k => (s1.chan (8 * m + k)).hot)))

/-- REFRESH (R250): a bank refresh delays queued accesses and changes nothing else. -/
def execRefresh (s : State) : Host.Outcome State Fault Refusal := .next s

/-- RFM (R238, R250): counted in CH_RFM. -/
def execRfm (ch : Fin 128) (s : State) : Host.Outcome State Fault Refusal := .next (s.modChan ch.val (fun x => { x with rfm := satAdd32 x.rfm 1 }))

/-- SCRUB_READ (R251): the next data line of a controller is read and decoded, when no access is queued at its Inkers. -/
def execScrubRead (m : Fin 16) (errs : List (Nat × Byte)) (s : State) : Host.Outcome State Fault Refusal :=
  if (List.range 8).any (fun k => !(s.inker (8 * m.val + k)).queue.isEmpty) then .next s else .next (s.scrubNext m.val errs)

/-- SCRUB_PERIOD_END (R251, R252). -/
def execScrubPeriodEnd (m : Fin 16) (late : Bool) (s : State) : Host.Outcome State Fault Refusal := .next (s.scrubEnd m.val late)

/-- WCK2DQ_ADJUST (R254): the timing of a channel moves; no access is lost and no register shows it. -/
def execWck2dqAdjust (s : State) : Host.Outcome State Fault Refusal := .next s

/-- PHASE of a controller. -/
def State.phaseOf (s : State) (m : Nat) : Nat := s.field (pgMEM m) 0x00C 0 4
/-- Sets it. -/
def State.setPhase (s : State) (m v : Nat) : State := s.setField (pgMEM m) 0x00C 0 4 v

/-- MEMORY_TRAINING (R253 steps 1 to 3): `us` microseconds, the channels of the controller that fail, the repair resources left on each. -/
def execMemoryTraining (m : Fin 16) (us : Nat) (failed : Byte) (avail : List Nat) (s : State) : Host.Outcome State Fault Refusal :=
  if s.fmn.state ≠ .boot ∨ !s.domOn (144 + m.val) ∨ s.phaseOf m.val ≠ 0 then .next s
  else
    let s1 := ((s.setPhase m.val 1).setN (pgMEM m.val) 0x08C (min us 0xFFFFFFFF)).setField (pgMEM m.val) 0x00C 8 8 (0xFF - failed.toNat)
    let s2 := (List.range 8).foldl (fun (x : State) k => x.modChan (8 * m.val + k) (fun c => { c with avail := avail.getD k 0 })) s1
    if failed = 0 then .next s2
    else .next (((s2.setPhase m.val 5).latchErr (pgMEM m.val) 5 4 0 0).fenceFor 4)

/-- One pending row is repaired, or stays for want of a resource: its bank has none, or CH_PPR_AVAIL says that the channel has none (R253). -/
def State.repairRow (s : State) (m k row : Nat) (lacking : Bool) : State :=
  let c := 8 * m + k
  if lacking ∨ (s.chan c).avail = 0 then
    -- the channel offset of the row's first line
    let phys := row * 2048
    let coff := phys / 1024 * 960 + min (phys % 1024) 960
    (((s.setPhase m 5).latchErr (pgMEM m) 6 5 (memLo coff) (memHi c coff)).fenceFor 4)
  else
    let s1 := s.modChan c (fun x => { x with repair := x.repair.filter (· != row), used := satAdd32 x.used 1, avail := x.avail - 1 })
    ((s1.ledgerUpdate (0x1400 + 64 * c) (s1.chan c).pending).ledgerUpdate (0x1300 + 2 * c) (toLE 2 (s1.chan c).used)).lifeAdd 11 1

/-- Every controller is trained and repaired, and the tiles are tested: the wipe follows, the powered Post ports train, and the module is in WIPE (R279, R303, R502). -/
def State.bootDone (s : State) : State :=
  if s.fmn.state = .boot ∧ s.mgmt.selfTested ∧ (List.range 16).all (fun m => s.phaseOf m == 2) then
    (List.range 12).foldl (fun (x : State) p => if x.domOn (166 + p) then x.retrain p else x) (s.setMod .wipe)
  else s

/-- HARD_REPAIR (R253 steps 4 and 5): the rows on the pending-repair lists of a controller's channels; `lacking` names those (channel of the controller, row) whose bank has no resource left. -/
def execHardRepair (m : Fin 16) (lacking : List (Nat × Nat)) (s : State) : Host.Outcome State Fault Refusal :=
  if s.fmn.state ≠ .boot ∨ s.phaseOf m.val ≠ 1 then .next s
  else
    let rows := (List.range 8).flatMap (fun k => (s.chan (8 * m.val + k)).repair.map (fun r => (k, r)))
    .next ((rows.foldl (fun (x : State) p => x.repairRow m.val p.1 p.2 (lacking.contains p)) (s.setPhase m.val 2)).bootDone)

/-- DRAM_WIPE (R255, R502): the wipe of start-up. -/
def execDramWipe (s : State) : Host.Outcome State Fault Refusal :=
  if s.fmn.state = .wipe ∧ (List.range 16).all (fun m => s.phaseOf m == 2) then .next s.wipeDram else .next s

/-- What waits for the wipe: the replies of wipe, and the rest of a life-cycle transition: its alias, its module state, its reply; a transition into SCRAPPED ends with a reset (R476, R477). -/
def State.wipeEnds (s : State) (f0 f1 : Nat) : State :=
  if (List.range 16).all (fun m => s.phaseOf m == 4) then
    let s0 := s.setSel (fun k => { k with target := none })
    let s1 := match s.sel.target with
      | none => s
      | some t =>
        if t = 5 then s0
        else
          let x := (s0.makeAlias f0 f1).latch pgSEL 3
          if x.fmn.state = ModState.fenced then x else x.setMod (if t = 4 then .service else .idle)
    let s2 := s1.mgmt.wipes.foldl (fun (x : State) (w : Nat × Nat) => x.mgmtReply { queue := w.1, seq := w.2 } stOK []) (s1.setMgmt (fun g => { g with wipes := [] }))
    if s.sel.target = some 5 then s2.resetTo .boot (some 1) else s2
  else s

/-- A controller's wipe is reported complete: it accepts accesses (R255). -/
def State.openMem (s : State) (m : Nat) : State := { s with mem := { s.mem with shut := s.mem.shut.filter (· != m) } }

/-- WIPE_COMPLETE (R255): a controller reports the end of its wipe, or a write that failed; `f0` and `f1` are read-back failures of the records of a new alias. -/
def execWipeComplete (m : Fin 16) (failed : Bool) (f0 f1 : Nat) (s : State) : Host.Outcome State Fault Refusal :=
  if !s.mem.shut.contains m.val ∨ s.phaseOf m.val ≠ 3 then .next s
  else if failed then .next (((s.setPhase m.val 5).latchErr (pgMEM m.val) 7 6 0 0).fenceFor 4)
  else .next (((s.openMem m.val).setPhase m.val 4).wipeEnds f0 f1)

end Sys2Proof.Machine
end

