-- ==== Sys2Proof/Machine/HostRows.lean ====
section
/-! DEFINITION. Commands of the Ethernet port (R395 to R405, R423): frames, queue pairs, RDMA, SENDs with the Sprinov sequence rules (R406, R409 to R411), letters (R419 to R422). -/

namespace Sys2Proof.Machine

/-- A frame arrives (R397, R398, R400): none when the link is down or the frame is discarded for want of MACsec. -/
def State.frameIn (s : State) (f : FrameInfo) (prio : Nat) : State × Bool :=
  if s.ethLink ≠ 2 then (s, false)
  else
    let ctrl := s.regN pgETH 0x008
    if bitOf ctrl 3 && !f.prot then ((s.bump pgETH 0x060 1).latch pgETH 5, false)
    else
      let s1 := if f.cnp then s.bump pgETH 0x078 1 else s
      (if bitOf ctrl (8 + prio % 8) then s1.bump pgETH 0x05C f.pfc else s1, true)

/-- A frame of an established queue pair; the rest follows when it is taken. -/
def State.onQp (s : State) (qp : Nat) (f : FrameInfo) (own : Qp → State → State) : State :=
  match s.qp? qp with
  | none => s
  | some k =>
    if !k.live then s
    else
      let (s1, ok) := s.frameIn f k.prio
      if ok then own k s1 else s1

/-- The region of an rkey covers the range with the access (R401): bit 0 H_READ, bit 1 H_WRITE. The address of an RDMA request is a DRAM offset. -/
def State.regionOk (s : State) (rkey off len bit : Nat) : Bool :=
  s.eth.regions.any (fun r => r.2.rkey == rkey && bitOf r.2.access bit && decide (r.2.off ≤ off) && decide (off + len ≤ r.2.off + r.2.len))

/-- Some line of the range lies inside the parity window (R375, R403). -/
def State.touchesWindow (s : State) (off len : Nat) : Bool := (dramParts off len).any (fun p => decide (p.2.1 < s.window))

/-- RDMA_WRITE (R398, R401 to R403): held while a quiet period runs, and then the later packets of its queue pair are discarded. -/
def execRdmaWrite (qp rkey off : Nat) (data : Bytes) (f : FrameInfo) (s : State) : Host.Outcome State Fault Refusal :=
  .next (s.onQp qp f (fun k x =>
    if k.role ≠ 1 ∨ 2 ^ 31 < data.length then x.nak qp 3
    else if x.eth.held.any (fun h => h.qp == qp) then x
    else if !x.regionOk rkey off data.length 1 then x.nak qp 2
    else if x.res.busy.isSome && x.touchesWindow off data.length then
      ((x.setEth (fun e => { e with held := e.held ++ [HeldWrite.mk qp off data] })).bump pgETH 0x080 1).latch pgETH 4
    else x.hostWrite qp off data))

/-- RDMA_READ (R398, R401, R402); a read that meets poison is answered with a NAK (log entry 41). -/
def execRdmaRead (qp rkey off len : Nat) (f : FrameInfo) (s : State) : Host.Outcome State Fault Refusal :=
  .next (s.onQp qp f (fun k x =>
    if k.role ≠ 1 ∨ 2 ^ 31 < len then x.nak qp 3
    else if x.eth.held.any (fun h => h.qp == qp) then x
    else if !x.regionOk rkey off len 0 then x.nak qp 2
    else
      let (bs, bad, y) := x.dramLoad off len
      if bad then y.nak qp 3 else y.ethSend (.read qp bs)))

/-- A command discarded under R406. -/
def State.sprinovDrop (s : State) (q op seq : Nat) : State := (s.bump pgSPV 0x060 1).latchErr pgSPV 6 4 (seq % 2 ^ 32) (spvHi op q)

/-- A sequenced command against NEXT (R409, R410). A number inside the window that the cache does not hold was never accepted in this numbering, and is refused as stale (log entry 42). -/
def State.sequenced (s : State) (q : Nat) (c : Cmd) : State :=
  let k := s.queue q
  let d := sext 32 ((c.seq + 2 ^ 32 - k.next) % 2 ^ 32)
  let refuseNow := fun (x : State) (st : Nat) => x.sendReply { queue := q, seq := c.seq, op := c.op, status := st, data := [] }
  let stale := refuseNow ((s.bump pgSPV 0x054 1).latchErr pgSPV 3 3 c.seq (spvHi c.op q)) stSTALE
  if d = 0 then
    (s.modQueue q (fun x => { x with
      next := (x.next + 1) % 2 ^ 32, entries := x.entries ++ [c],
      cache := kvSet (x.cache.filter (fun p => decide ((c.seq + 2 ^ 32 - p.1) % 2 ^ 32 < 4096))) c.seq { op := c.op, status := 0, data := [], done := false } })).bump64 pgSPV 0x040 1
  else if 0 < d then refuseNow (s.bump pgSPV 0x05C 1) stBAD
  else if d < -4096 then stale
  else match kvFind k.cache c.seq with
    | none => stale
    | some e =>
      let s1 := s.bump pgSPV 0x058 1
      if !e.done || k.entries.any (fun x => x.seq == c.seq) then s1
      else if repeatable e.op ∧ c.op = e.op then s1.modQueue q (fun x => { x with entries := x.entries ++ [{ c with dup := true }] })
      else s1.sendReply { queue := q, seq := c.seq, op := e.op, status := if e.status = stOK then stDUP else e.status, data := e.data }

/-- The number that an unsequenced command takes in its queue: SEQ plus the lowest multiple of 2^32 that no entry has (R409, R411). -/
def CmdQueue.freeKey (k : CmdQueue) (seq : Nat) : Nat :=
  seq + 2 ^ 32 * (((List.range 256).find? (fun i => !k.entries.any (fun e => e.seq == seq + 2 ^ 32 * (i + 1)))).getD 0 + 1)

/-- COMMAND_SEND (R398, R406, R409 to R411). -/
def execCommandSend (qp : Nat) (msg : Bytes) (f : FrameInfo) (s : State) : Host.Outcome State Fault Refusal :=
  .next (s.onQp qp f (fun k x =>
    if k.role ≠ 0 ∨ 4096 < msg.length then x.nak qp 3
    else
      let q := k.slot
      if 256 ≤ (x.queue q).entries.length then ((x.bump pgSPV 0x064 1).bump pgETH 0x074 1).latch pgSPV 4
      else
        let op := leAt msg 2 2
        let seq := leAt msg 8 4
        let crc := crc32c (patchB msg 0xC (toLE 4 0))
        let good := decide (16 ≤ msg.length) && crc == leAt msg 0xC 4
        let y := x.pmkCheck 2 crc good q
        if !good || leAt msg 1 1 != 1 || leAt msg 4 1 != q then y.sprinovDrop q op seq
        else
          let c : Cmd := { ver := leAt msg 0 1, op := op, seq := seq, body := sliceB (msg.drop 16) 0 (leAt msg 6 2), started := false, dup := false }
          if unsequenced op then
            y.modQueue q (fun m => { m with entries := m.entries ++ [{ c with seq := m.freeKey seq }] })
          else y.sequenced q c))

/-- The 802.1Q priority of a role (R400, R427). -/
def State.rolePrio (s : State) (role : Nat) : Nat := s.field pgETH 0x084 (4 * role) 3

/-- A queue pair that is connected or being connected, and not in error. -/
def Qp.busy (k : Qp) : Bool := !k.err

/-- A queue pair of the role and slot that is connected or being connected. -/
def State.slotTaken (s : State) (role slot : Nat) : Bool := s.eth.qps.any (fun p => p.2.role == role && p.2.slot == slot && p.2.busy)

/-- What R399 answers to the private data of a CM_REQ: none where the queue pair is taken. -/
def State.cmRefusal (s : State) (role pad slot : Nat) : Option Nat :=
  if role = 0 ∧ (s.slotTaken role slot ∨ 63 < slot) then some stBAD
  else if role = 2 ∧ (s.slotTaken role slot ∨ 1023 < slot) then some stBAD
  else if 2 < role ∨ pad ≠ 0 then some stBAD
  else if 1024 ≤ s.eth.qps.length then some stNORES
  else none

/-- A queue pair is being connected; one in error with the same role and slot makes way for it (R399). -/
def State.cmAccept (s : State) (qp role slot mtu : Nat) : State :=
  let old := (s.eth.qps.filter (fun p => role != 1 && p.2.role == role && p.2.slot == slot)).map (·.1)
  let s1 := old.foldl (fun (x : State) o => x.dropQp o) s
  (s1.setEth (fun e => { e with qps := kvSet e.qps qp (Qp.mk role slot (s1.rolePrio role) mtu false false (2 ^ 64)) })).ethSend (.cm qp none)

/-- CM_REQ (R399): the private data name role and slot; `qp` is the number that the module gives the queue pair, `mtu` the path MTU. -/
def execCmReq (qp role pad slot mtu : Nat) (f : FrameInfo) (s : State) : Host.Outcome State Fault Refusal :=
  .next (
    let (s1, ok) := s.frameIn f (s.field pgETH 0x084 12 3)
    if !ok || kvHas s1.eth.qps qp then s1
    else match s1.cmRefusal role pad slot with
      | some st => (s1.bump pgETH 0x064 1).ethSend (.cm qp (some st))
      | none => s1.cmAccept qp role slot mtu)

/-- CM_RTU (R399): the queue pair is established. -/
def execCmRtu (qp : Nat) (f : FrameInfo) (s : State) : Host.Outcome State Fault Refusal :=
  match s.qp? qp with
  | none => .next s
  | some k =>
    let (s1, ok) := s.frameIn f (s.field pgETH 0x084 12 3)
    if !ok || k.live || k.err then .next s1
    else
      let s2 := s1.setEth (fun e => { e with qps := kvSet e.qps qp { k with live := true } })
      .next (if k.role = 0 then s2.modQueue k.slot (fun c => { c with qp := some qp, auth := false }) else s2)

/-- CM_DREQ (R399, R408). -/
def execCmDreq (qp : Nat) (f : FrameInfo) (s : State) : Host.Outcome State Fault Refusal :=
  match s.qp? qp with
  | none => .next s
  | some _ =>
    let (s1, ok) := s.frameIn f (s.field pgETH 0x084 12 3)
    .next (if ok then (s1.dropQp qp).ethSend (.cm qp none) else s1)

/-- Bytes of the CONFIG section of the current record (R479). -/
def State.config (s : State) (off n : Nat) : Bytes := s.sel.cur.data.read (0x900 + off) n

/-- ARP_REQUEST (R396, R479): a request for the module's IPv4 address is answered with its MAC address. -/
def execArpRequest (ip : Bytes) (f : FrameInfo) (s : State) : Host.Outcome State Fault Refusal :=
  .next (
    let (s1, ok) := s.frameIn f 0
    if ok && ip == s1.config 0x10 4 && !allZero ip then s1.ethSend (.frame (s1.config 0x08 6 ++ ip)) else s1)

/-- The address is one of the module's IPv6 addresses (R479). -/
def State.ownIp6 (s : State) (ip : Bytes) : Bool := !allZero ip && (ip == s.config 0x20 16 || ip == s.config 0x30 16)

/-- NEIGHBOUR_SOLICITATION (R396, R479). -/
def execNeighbourSolicitation (ip : Bytes) (f : FrameInfo) (s : State) : Host.Outcome State Fault Refusal :=
  .next (
    let (s1, ok) := s.frameIn f 0
    if ok && s1.ownIp6 ip then s1.ethSend (.frame (s1.config 0x08 6 ++ ip)) else s1)

/-- ICMP_ECHO (R396): an echo request to an address of the module is answered with its data. -/
def execIcmpEcho (ip data : Bytes) (f : FrameInfo) (s : State) : Host.Outcome State Fault Refusal :=
  .next (
    let (s1, ok) := s.frameIn f 0
    if ok && (s1.ownIp6 ip || (ip == s1.config 0x10 4 && !allZero ip)) then s1.ethSend (.frame (ip ++ data)) else s1)

/-- The pause time of a priority (R396). -/
def Eth.pause (e : Eth) (p : Nat) (time : Nat) : Eth := { e with paused := if time = 0 then kvDel e.paused p else kvSet e.paused p time }

/-- PFC_PAUSE_RECEIVE (R396): the pause time of each priority that the frame names; 0 resumes it. -/
def execPfcPauseReceive (times : List (Fin 8 × Nat)) (s : State) : Host.Outcome State Fault Refusal :=
  if s.ethLink ≠ 2 then .next s
  else .next ((times.foldl (fun (x : State) p => x.setEth (fun e => e.pause p.1.val p.2)) s).bump pgETH 0x058 1)

/-- MAC_PAUSE_RECEIVE (R395): discarded; as a received frame it is part of RX_FRAMES, whose content is open (log entry 13). -/
def execMacPauseReceive (s : State) : Host.Outcome State Fault Refusal := .next s

/-- CNP_RECEIVE (R398): the rate halves, unless a CNP has halved it in the last 50 µs (`early`). -/
def execCnpReceive (qp : Nat) (early : Bool) (s : State) : Host.Outcome State Fault Refusal :=
  match s.qp? qp with
  | none => .next s
  | some k =>
    let s1 := s.bump pgETH 0x07C 1
    .next (if early then s1 else s1.setEth (fun e => { e with qps := kvSet e.qps qp { k with rate := k.rate / 2 } }))

/-- CNP_RATE_RECOVERY (R398). -/
def execCnpRateRecovery (qp : Nat) (s : State) : Host.Outcome State Fault Refusal :=
  match s.qp? qp with
  | none => .next s
  | some k => .next (s.setEth (fun e => { e with qps := kvSet e.qps qp { k with rate := min (2 ^ 64) (k.rate + 2 ^ 61) } }))

/-- ACK_TIMEOUT (R398): `n` packets are sent again; after the seventh retry the queue pair is in error. -/
def execAckTimeout (qp n : Nat) (exceeded : Bool) (s : State) : Host.Outcome State Fault Refusal :=
  match s.qp? qp with
  | none => .next s
  | some k =>
    if !k.live ∨ k.role = 1 then .next s
    else .next (if exceeded then s.qpError qp 1 else s.bump pgETH 0x070 n)

/-- PTP_EVENT_MESSAGE (R396, R505): the frame's timestamp is the Dateline. -/
def execPtpEventMessage (f : FrameInfo) (s : State) : Host.Outcome State Fault Refusal :=
  .next (
    let (s1, ok) := s.frameIn f 0
    if ok then s1.setEth (fun e => { e with stamp := s1.reg64 pgDTL 0x040 }) else s1)

/-- Speeds in the order of R395: RATE and LANE_RATE codes of R425. -/
def ethModes : List (Nat × Nat) := [(3, 2), (2, 2), (1, 2), (2, 1), (1, 1)]

/-- The mode of the highest rate up to `top` that both sides offer (R395). -/
def bestMode (partner top : Nat) : Option (Nat × Nat) :=
  let cands := ((List.range 5).filter (fun i => bitOf partner i)).filterMap (fun i => (ethModes[i]?).filter (fun m => decide (m.1 ≤ top)))
  cands.foldl (fun (a : Option (Nat × Nat)) m => match a with | none => some m | some b => if b.1 < m.1 then some m else a) none

/-- ETH_AUTONEG (R395, R424, R425): `partner` bit n says that the other side offers the n-th mode of R395. The highest common rate up to RATE_MAX comes up; with none, the port goes on trying. -/
def execEthAutoneg (partner : Fin 32) (s : State) : Host.Outcome State Fault Refusal :=
  let st := s.fmn.state
  if !s.domOn 178 ∨ st = .cold ∨ st = .boot ∨ 1 < s.ethLink then .next s
  else
    let s0 := s.setEth (fun e => { e with used := true })
    match bestMode partner.val (3 - s.field pgETH 0x008 4 2) with
    | none => .next (s0.setField pgETH 0x00C 28 4 1)
    | some m => .next ((((s0.setField pgETH 0x00C 28 4 2).setField pgETH 0x00C 26 2 m.1).setField pgETH 0x00C 24 2 m.2).latch pgETH 0)

/-- ETH_LINK_DOWN (R395, R425, R426). -/
def execEthLinkDown (s : State) : Host.Outcome State Fault Refusal :=
  if s.ethLink ≠ 2 then .next s
  else .next ((s.setN pgETH 0x00C 0).latch pgETH 1)

/-- ETH_TEST_END (R423): TEST clears, and auto-negotiation starts again. -/
def execEthTestEnd (s : State) : Host.Outcome State Fault Refusal :=
  if s.ethLink ≠ 3 then .next s
  else .next (((s.prfFreeze 12).setField pgETH 0x008 2 1 0).setField pgETH 0x00C 28 4 1)

/-- FRAME_DISCARD (R396 to R398). -/
def execFrameDiscard (why : Discard) (s : State) : Host.Outcome State Fault Refusal :=
  if s.ethLink ≠ 2 then .next s
  else match why with
    | .fcs => .next ((s.bump pgETH 0x050 1).latch pgETH 2)
    | .icrc => .next (s.bump pgETH 0x054 1)
    | .form => .next (s.bump pgETH 0x054 1)
    | .macsec => .next ((s.bump pgETH 0x060 1).latch pgETH 5)

/-- MKA_FRAME (R396, R425): key agreement with the pre-shared CAK ends with a live session, or ends it. Without a CAK there is no session. -/
def execMkaFrame (live : Bool) (s : State) : Host.Outcome State Fault Refusal :=
  if s.ethLink ≠ 2 then .next s
  else .next (s.setField pgETH 0x00C 23 1 (b2n (live && !allZero (s.config 0x100 32))))

/-- The step number of a HEARTBEAT letter (R419): the newest unreleased step, STEP_NEXT without one. -/
def State.beatStep (s : State) : Nat :=
  s.fmn.steps.foldl (fun (a : Option Nat) r => match a with | none => some r.n | some b => some (max b r.n)) none |>.getD (s.reg64 pgFMN 0x040)

/-- The HEARTBEAT letter of a subscriber (R419, R421). -/
def State.beatLetter (s : State) (q n : Nat) : Letter :=
  { queue := q, seq := n, kind := 1, bit := s.fmn.state.code, page := 0, count := s.epoch, time := s.reg64 pgDTL 0x040, step := s.beatStep, err := s.regN pgPMS 0x044, info := 0 }

/-- HEARTBEAT_LETTER (R421). -/
def execHeartbeatLetter (s : State) : Host.Outcome State Fault Refusal :=
  if s.ethLink ≠ 2 then .next s
  else
    let qs := (s.subs.filter (fun p => p.2.beat && s.connected p.1)).map (·.1)
    .next (qs.foldl (fun (x : State) q => x.pushLetter q (s.beatLetter q)) s)

/-- A letter as a Sprinov message (R406, R419). -/
def Letter.message (l : Letter) : Bytes :=
  sprinovMsg 3 0 l.queue 0 l.seq (toLE 1 l.kind ++ toLE 1 l.bit ++ toLE 2 l.page ++ toLE 4 l.count ++ toLE 8 l.time ++ toLE 8 l.step ++ toLE 4 l.err ++ toLE 8 l.info ++ toLE 12 0)

/-- Frames on the queue pair of a command queue wait: its priority is paused (R396, R400). -/
def State.txPaused (s : State) (q : Nat) : Bool :=
  match (s.queue q).qp with
  | none => false
  | some n => match s.qp? n with | none => false | some k => kvHas s.eth.paused k.prio

/-- The first letter leaves, unless its priority is paused (R396, R406, R430, R454). -/
def State.sendLetter (s : State) : State :=
  match s.letters with
  | [] => s
  | l :: r => if s.txPaused l.queue then s else (({ s with letters := r }).bump64 pgSPV 0x068 1).pmkMessage 3 (crc32c (patchB l.message 0xC (toLE 4 0)) ^^^ algXor 0)

/-- SUMMARY letters of the pages that withheld letters, in increasing page order, while there is space (R422). -/
def State.summaries (s : State) : State :=
  s.withheld.foldl (fun (x : State) p =>
    if 1024 ≤ x.lettersWaiting then x
    else
      let y : State := { x with withheld := kvDel x.withheld p.1 }
      (y.subscribers p.1).foldl (fun (z : State) q => z.pushLetter q (fun n =>
        { queue := q, seq := n, kind := 2, bit := 0, page := p.1, count := p.2, time := z.reg64 pgDTL 0x040, step := z.curStep, err := 0, info := 0 })) y) s

/-- SUMMARY_LETTER (R422): `n` letters have left, and each page that withheld letters sends its SUMMARY. -/
def execSummaryLetter (n : Nat) (s : State) : Host.Outcome State Fault Refusal :=
  if s.ethLink ≠ 2 then .next s
  else .next ((List.range (min n s.letters.length)).foldl (fun (x : State) _ => x.sendLetter) s).summaries

end Sys2Proof.Machine
end

