-- ==== Sys2Proof/Machine/SprinovRows.lean ====
section
/-! DEFINITION. Commands of the Sprinov engine whose effect stays in it or in the register pages (R407, R408, R413, R415, R416, R420, R500), the memory regions (R401), and the arming of the Dateline (R506). -/

namespace Sys2Proof.Machine

/-- A session opens on a queue (R407); without RESUME its cache empties and its numbering starts where the host says. -/
def CmdQueue.opened (k : CmdQueue) (nonce : Bytes) (resume : Bool) (first : Nat) : CmdQueue :=
  let n := { k with session := true, auth := false, nonce := nonce }
  if resume then n else { n with cache := [], next := first }

/-- SESSION_HELLO (R407). Only version 1 can be shared. Bits of FLAGS without a name are ignored. -/
def execSessionHello (q : Fin 64) (s : State) : Host.Outcome State Fault Refusal :=
  .next (s.command q.val 1 (fun b r x =>
    if leAt b 0 2 &&& x.regN pgSPV 0x07C &&& 2 = 0 then x.refuse r 1 stVERSION
    else
      let (f, y) := x.fresh
      let nonce := toLE 16 (f.toNat % 2 ^ 128)
      let z := y.modQueue q.val (fun k => k.opened nonce (bitOf (leAt b 2 1) 0) (leAt b 4 4))
      z.ok r (toLE 1 1 ++ toLE 1 0 ++ toLE 2 z.self ++ toLE 4 (z.queue q.val).next ++ nonce)))

/-- The operator-key slot whose hash a key has (R408, R479). -/
def State.keySlotOf (s : State) (key : Bytes) : Option Nat :=
  (List.range 4).find? (fun i => let h := s.config (0x40 + 48 * i) 48; !allZero h && h == Config.sha384 key)

/-- What session.auth signs (R408). -/
def State.authDigest (s : State) (q : Nat) : Bytes := Config.sha384 ((s.queue q).nonce ++ toLE 2 s.self ++ toLE 1 q)

/-- SESSION_AUTH (R408). Without a session there is no nonce, and no signature holds. -/
def execSessionAuth (q : Fin 64) (s : State) : Host.Outcome State Fault Refusal :=
  .next (s.command q.val 2 (fun b r x =>
    let key := sliceB b 0 97
    match x.keySlotOf key with
    | some i =>
      if (x.queue q.val).session && Config.ecdsaVerify key (x.authDigest q.val) (sliceB b 100 96) then
        (x.modQueue q.val (fun k => { k with auth := true, keySlot := i })).ok r (toLE 1 i)
      else (x.latchErr pgSPV 2 2 (r.seq % 2 ^ 32) (spvHi 2 q.val)).refuse r 2 stAUTH
    | none => (x.latchErr pgSPV 2 2 (r.seq % 2 ^ 32) (spvHi 2 q.val)).refuse r 2 stAUTH))

/-- SESSION_CLOSE (R413): NEXT and the cache are kept. -/
def execSessionClose (q : Fin 64) (s : State) : Host.Outcome State Fault Refusal :=
  .next (s.command q.val 3 (fun _ r x => (x.modQueue q.val (fun k => { k with session := false, auth := false, nonce := [] })).ok r []))

/-- The result of state.query (R413). -/
def State.summary (s : State) : Bytes :=
  toLE 4 s.fmnState ++ toLE 4 s.impState ++ toLE 4 s.epoch ++ toLE 4 (s.regN pgPMS 0x044) ++ toLE 8 s.curStep ++ toLE 8 (s.reg64 pgFMN 0x040)
  ++ toLE 8 (s.reg64 pgDTL 0x040) ++ toLE 4 (s.regView pgGLB 0) ++ toLE 20 0

/-- STATE_QUERY (R413). -/
def execStateQuery (q : Fin 64) (s : State) : Host.Outcome State Fault Refusal :=
  .next (s.command q.val 0x10 (fun _ r x => x.ok r x.summary))

/-- The offsets that reg.read and reg.write name; none outside the page map (R415). -/
def regOffsets (b : Bytes) : Option (Nat × List Nat) :=
  let page := leAt b 0 2
  let off := leAt b 2 2
  let n := leAt b 4 2
  if (pageBlk page).isSome && off % 4 == 0 && decide (off + 4 * n ≤ 0x1000) then some (page, (List.range n).map (fun i => off + 4 * i)) else none

/-- Registers of a page are read in order: their words, and the state that the reads leave (R17). -/
def State.readRegs (s : State) (page : Nat) (offs : List Nat) : Bytes × State :=
  offs.foldl (fun (a : Bytes × State) o => let (v, z) := a.2.regRead page o; (a.1 ++ toLE 4 v, z)) ([], s)

/-- REG_READ (R415, R17): the words are read in increasing offset. -/
def execRegRead (q : Fin 64) (s : State) : Host.Outcome State Fault Refusal :=
  .next (s.command q.val 0x11 (fun b r x =>
    match regOffsets b with
    | none => x.replyTo r stBAD []
    | some (page, offs) =>
      let (bs, y) := x.readRegs page offs
      y.ok r bs))

/-- The offsets and values of a reg.write (R415). -/
def regWrites (b : Bytes) (offs : List Nat) : List (Nat × Nat) := offs.zipIdx.map (fun p => (p.1, leAt b (8 + 4 * p.2) 4))

/-- REG_WRITE (R415): every register is checked first; the refusal of the lowest one is the reply. -/
def execRegWrite (q : Fin 64) (s : State) : Host.Outcome State Fault Refusal :=
  .next (s.command q.val 0x12 (fun b r x =>
    match regOffsets b with
    | none => x.replyTo r stBAD []
    | some (page, offs) =>
      let writes := regWrites b offs
      match (writes.map (fun p => x.regCheck page p.1 p.2 true)).find? (· != 0) with
      | some st => x.refuse r 0x12 st
      | none => (writes.foldl (fun (y : State) p => y.regApply page p.1 p.2 true) x).ok r []))

/-- EVENT_SUBSCRIBE (R413, R420). -/
def execEventSubscribe (q : Fin 64) (s : State) : Host.Outcome State Fault Refusal :=
  .next (s.command q.val 0x13 (fun b r x =>
    ({ x with subs := kvSet x.subs q.val { pages := leAt b 0 64, beat := bitOf (leAt b 64 1) 0, next := 0 } } : State).ok r []))

/-- MEM_MAP (R401): the lowest free region number; its rkey is open. -/
def execMemMap (q : Fin 64) (s : State) : Host.Outcome State Fault Refusal :=
  .next (s.command q.val 0x20 (fun b r x =>
    let off := leAt b 0 8
    let len := leAt b 8 8
    if off % 4096 ≠ 0 ∨ len % 4096 ≠ 0 ∨ !dramMapped off len then x.replyTo r stBAD []
    else match (List.range 4096).find? (fun i => !kvHas x.eth.regions i) with
      | none => x.replyTo r stNORES []
      | some i =>
        let (f, y) := x.fresh
        let rkey := f.toNat % 2 ^ 32
        (y.setEth (fun e => { e with regions := kvSet e.regions i { off := off, len := len, access := leAt b 16 1 % 8, rkey := rkey } })).ok r (toLE 2 i ++ toLE 2 0 ++ toLE 4 rkey)))

/-- MEM_UNMAP (R401). -/
def execMemUnmap (q : Fin 64) (s : State) : Host.Outcome State Fault Refusal :=
  .next (s.command q.val 0x21 (fun b r x =>
    let i := leAt b 0 2
    if kvHas x.eth.regions i then (x.setEth (fun e => { e with regions := kvDel e.regions i })).ok r [] else x.replyTo r stBAD []))

/-- FENCE_SELF (R416): the reply leaves before the module is fenced; the leader can fence another member. -/
def execFenceSelf (q : Fin 64) (s : State) : Host.Outcome State Fault Refusal :=
  .next (s.command q.val 0x60 (fun b r x =>
    let c := leAt b 0 2
    if c = x.self then (x.ok r []).fenceFor 1
    else if x.isLeader && x.members.contains c then (x.ok r []).fenceMember c
    else x.replyTo r stBAD []))

/-- UNKNOWN_OPCODE (R413): the command that starts next has an opcode that no command has. -/
def execUnknownOpcode (s : State) : Host.Outcome State Fault Refusal :=
  match s.nextStart with
  | none => .next s
  | some (q, c) => .next (if knownOp c.op then s else s.command q c.op (fun _ r x => x.replyTo r stBAD []))

/-- MODULE_RESET (R413, R500): the reply leaves before the reset begins. -/
def execModuleReset (q : Fin 64) (s : State) : Host.Outcome State Fault Refusal :=
  .next (s.command q.val 0x76 (fun _ r x => (x.ok r []).resetTo .boot (some 1)))

/-- MODE, PPS and PTP of DTL.STATE (R513). -/
def State.setMode (s : State) (m : Nat) : State := s.setField pgDTL 0x00C 28 4 m
def State.mode (s : State) : Nat := s.field pgDTL 0x00C 28 4

/-- An alignment steps the Dateline to `t` (R506); the master's offset moves with it. -/
def State.align (s : State) (t : Int) (m : Nat) : State :=
  let now := s.reg64 pgDTL 0x040
  let new := wrapN 64 t
  let step : Int := (new : Int) - now
  let s1 : State := { s with dateline := { s.dateline with arm := none, master := s.dateline.master.map (· - step) } }
  ((((s1.set64 pgDTL 0x040 new).set64 pgDTL 0x05C (wrapN 64 step)).setMode m).latch pgDTL 1).latch pgDTL 0

/-- TIME_ARM (R506). -/
def execTimeArm (q : Fin 64) (s : State) : Host.Outcome State Fault Refusal :=
  .next (s.mgmtCommand q.val 0x75 (fun b r x =>
    let f := leAt b 0 1
    if 4 ≤ f then x.mgmtReply r stBAD []
    else
      let sec := leAt b 8 8
      let y := (x.setField pgDTL 0x00C 27 1 (f % 2)).setField pgDTL 0x00C 26 1 (f / 2)
      let z := if f = 0 then y.align (sec * 10 ^ 9 : Nat) 5
        else ({ y with dateline := { y.dateline with arm := some { pps := bitOf f 0, ptp := bitOf f 1, seconds := sec } } } : State).setMode 1
      z.mgmtReply r stOK []))

/-- PTP_OFFSET_MEASUREMENT (R506, R507): `off` is the master's time minus the Dateline, in ns. It completes an arm by PTP alone, and ends a HOLDOVER under PTP. -/
def execPtpOffsetMeasurement (off : Int) (s : State) : Host.Outcome State Fault Refusal :=
  let s1 : State := { s with dateline := { s.dateline with master := some off } }
  match s1.dateline.arm with
  | some a =>
    if a.ptp && !a.pps then .next (s1.align ((s1.reg64 pgDTL 0x040 : Int) + off) 3) else .next s1
  | none =>
    if s1.mode = 4 ∧ s1.field pgDTL 0x00C 26 1 = 1 ∧ s1.field pgDTL 0x00C 27 1 = 0 then .next (s1.setMode 3) else .next s1

end Sys2Proof.Machine
end

