-- ==== Sys2Proof/Machine/SealRows.lean ====
section
/-! DEFINITION. Commands of the Seal and the Ledger: firmware staging and activation (R467, R468), quotes (R472), life-cycle transitions (R474 to R476), wipe (R477), Ledger updates and records (R480, R481, R489). Operands tell how many read-backs of each record fail. -/

namespace Sys2Proof.Machine

/-- A request to the Seal and its answer, over the mailbox of path 9 (R454, R455). -/
def State.sealCall (s : State) : State := (s.aliveHalf 9 true).aliveHalf 9 false

/-- FW_STAGED reads 0xFF after a refused staging (R467). -/
def State.unstage (s : State) (fails : Nat) : State := if s.fwStaged = 0xFF then s else (s.ledgerPut 1 fails (setStaged 0xFF) id).1

/-- FIRMWARE_STAGE (R413, R465, R467): `bad` says that the read-back of the flash slot differs. -/
def execFirmwareStage (q : Fin 64) (bad : Bool) (fails : Nat) (s : State) : Host.Outcome State Fault Refusal :=
  .next (s.mgmtCommand q.val 0x70 (fun b r x0 =>
    let off := leAt b 0 8
    let len := leAt b 8 4
    let img := x0.dram.read off len
    if !x0.extentOk off len then x0.mgmtReply r stBAD []
    else if len != 256 + leAt img 0xC 4 + 2048 then (x0.dramSeen off len).mgmtReply r stBAD []
    else
      let x := (x0.dramSeen off len).sealCall
      let slot := 1 - x.fwActive % 2
      let code := x.sel.fuses.fwCheck img
      if code ≠ 0 then
        ((x.fwReject code slot).unstage fails).mgmtRefuse r 0x70
          (if code ≠ 1 then stAUTH else if leAt img 0 4 = 0x4C4D4657 ∧ 1 < leAt img 4 2 then stVERSION else stBAD)
      else if bad then
        let y := ({ x with freeCtr := x.freeCtr + 1 } : State).setSel (fun k => { k with images := kvSet k.images slot (Config.flashContent x.freeCtr) })
        ((y.fwReject 7 slot).unstage fails).mgmtReply r stNORES []
      else
        let (y, ok) := (x.setSel (fun k => { k with images := kvSet k.images slot img })).ledgerPut 1 fails (setStaged slot) id
        y.mgmtReply r (if ok then stOK else stNORES) []))

/-- FIRMWARE_ACTIVATE (R468, R508 order 1): the staged slot is checked again and recorded active; the mailbox is free while the handover waits. A staged slot that fails the check is answered as at staging. -/
def execFirmwareActivate (q : Fin 64) (fails : Nat) (s : State) : Host.Outcome State Fault Refusal :=
  .next (s.mgmtCommand q.val 0x71 (fun _ r x0 =>
    let slot := x0.fwStaged
    if slot = 0xFF then x0.mgmtReply r stBAD []
    else
      let x := x0.sealCall
      let code := x.sel.fuses.fwCheck (x.image slot)
      if code ≠ 0 then (x.fwReject code slot).mgmtReply r (if code = 1 then stBAD else stAUTH) []
      else
        let old := x.fwActive
        let (y, ok) := x.ledgerPut 1 fails (fun m => setStaged 0xFF (setActive slot m)) id
        if !ok then y.mgmtReply r stNORES []
        else (y.mboxDone r).setMgmt (fun g => { g with handover := .waiting, activate := some (r.queue, r.seq), oldSlot := old })))

/-- Bytes 0x000 to 0x803 of a quote (R472). -/
def State.quoteHead (s : State) (e : Endorse) (q : Nat) (nonce : Bytes) : Bytes :=
  let f := s.sel.fuses
  let cfg := patchB (s.config 0 2048) 0x100 (List.replicate 32 (0 : Byte))
  toLE 4 0x4C4D5154 ++ toLE 2 1 ++ toLE 1 s.lifeCycle ++ toLE 1 s.sel.svn ++ toLE 8 f.serial ++ toLE 2 s.self ++ toLE 1 f.svnMin ++ toLE 1 s.fmn.state.code
  ++ toLE 4 s.epoch ++ toLE 8 (s.reg64 pgDTL 0x040) ++ sliceB nonce 0 32 ++ sliceB s.sel.meas 0 48 ++ sliceB (Config.sha384 cfg) 0 48
  ++ toLE 4 s.aliasGen ++ toLE 4 q ++ toLE 4 e.devQ ++ toLE 20 0
  ++ pubE f.devE ++ toLE 3 0 ++ pubL f.devL ++ pubE (f.aliasE e) ++ toLE 3 0 ++ pubL (f.aliasL e) ++ signE f.devE (f.dend e) ++ signL f.devL e.devQ (f.dend e)

/-- The quote (R472). -/
def State.quote (s : State) (e : Endorse) (q : Nat) (nonce : Bytes) : Bytes :=
  let h := s.quoteHead e q nonce
  let d := Config.sha384 h
  h ++ signE (s.sel.fuses.aliasE e) d ++ signL (s.sel.fuses.aliasL e) q d

/-- ATTEST_QUOTE (R470 to R472): a new alias where none is valid, the next index reserved in a record, then the quote. -/
def execAttestQuote (q : Fin 64) (f0 f1 f2 : Nat) (s : State) : Host.Outcome State Fault Refusal :=
  .next (s.mgmtCommand q.val 0x72 (fun b r x0 =>
    let x := x0.sealCall
    if !x.hasIdentity then x.mgmtRefuse r 0x72 stILLEGAL
    else
      let y := x.makeAlias f0 f1
      match y.sel.cur.endorse with
      | none => y.mgmtReply r stNORES []
      | some e =>
        let i := y.aliasQ
        if !y.aliasValid then y.mgmtReply r stNORES []
        else
          let (z, ok) := y.ledgerPut 1 f2 (fun m => m.writeLE 0x58 4 (i + 1)) id
          if !ok then z.mgmtReply r stNORES []
          else ((z.bump pgSEL 0x084 1).lifeAdd 9 1).mgmtReply r stOK (z.quote e i b)))

/-- The transitions of lifecycle.set (R474). -/
def lcAllowed (a b : Nat) : Bool := (a == 1 && b == 2) || (a == 2 && b == 3) || (a == 3 && b == 4) || (a == 4 && b == 3) || (b == 5 && decide (1 ≤ a) && decide (a ≤ 4))

/-- A key whose hash stands in a slot that is not revoked (R475). -/
def keyListed (m : AMap Bytes) (revoked : Nat) (key : Bytes) : Bool := (List.range 4).any (fun i => keyMatches m i key && !bitOf revoked i)

/-- The token digest (R475). -/
def State.tokenDigest (s : State) (dest : Nat) (opkey : Bytes) : Bytes :=
  Config.sha384 (toLE 8 s.sel.fuses.serial ++ toLE 1 s.lifeCycle ++ toLE 1 dest ++ toLE 4 s.lcCount ++ opkey)

/-- The token of lifecycle.set is valid (R475). -/
def State.tokenOk (s : State) (b : Bytes) : Bool :=
  let f := s.sel.fuses
  let t := s.tokenDigest (leAt b 0 1) (sliceB b 4 48)
  let eKey := sliceB b 0x34 97
  let lKey := sliceB b 0xF8 56
  keyListed f.eHash f.eRevoke eKey && keyListed f.lHash f.lRevoke lKey && Config.ecdsaVerify eKey t (sliceB b 0x98 96) && Config.lmsVerify lKey t (sliceB b 0x130 1772)

/-- The LC fuse of a transition (R473). -/
def lcBlow (lc dest : Nat) : Nat :=
  let ones := fun (lo : Nat) => b2n (bitOf lc lo) + b2n (bitOf lc (lo + 1)) + b2n (bitOf lc (lo + 2))
  if dest = 5 then lc ||| 512
  else if dest = 4 then lc ||| 2 ^ (3 + ones 3)
  else if dest = 3 then (if ones 6 < ones 3 then lc ||| 2 ^ (6 + ones 6) else lc ||| 4)
  else if dest = 2 then lc ||| 2
  else lc ||| 1

/-- Access through the TAP is open (R535). -/
def tapOpen (lc : Nat) : Bool := lc != 2 && lc != 3

/-- Step 2 of R476: the LC fuse; for PROVISIONED a new UDS, for SCRAPPED every UDS bit. Access through the TAP closes with Test-Logic-Reset. -/
def State.blowLc (s : State) (dest : Nat) : State :=
  let f := s.sel.fuses
  let uds := if dest = 2 then sliceB (Config.entropy s.freeCtr) 0 48 else if dest = 5 then List.replicate 48 (255 : Byte) else f.uds
  let g : Fuses := { f with lc := lcBlow f.lc dest, uds := uds }
  let s1 := ({ s with freeCtr := s.freeCtr + 1 } : State).setSel (fun k => { k with fuses := g })
  { s1 with tap := if tapOpen s.lifeCycle && !tapOpen s1.lifeCycle then .idcode else s1.tap }

/-- The Ledger changes of R474; a zero NEW_OPKEY keeps the slot (R475). -/
def lcEdit (a b : Nat) (opkey : Bytes) (m : Ram) : Ram :=
  let zeros := fun (n : Nat) => List.replicate n (0 : Byte)
  if b = 5 then (m.write 0x940 (zeros 192)).write 0xA00 (zeros 48)
  else
    let m1 := if allZero opkey then m else m.write 0x940 opkey
    if a = 4 ∨ b = 4 then (m1.write 0x970 (zeros 144)).write 0xA00 (zeros 48) else m1

/-- Step 3 of R476. -/
def lcRecord (a b count time : Nat) (opkey : Bytes) (m : Ram) : Ram :=
  let m1 := ((((lcEdit a b opkey m).writeLE 0x40 1 b).writeLE 0x41 1 0xFF).writeLE 0x44 4 (count + 1)).writeLE 0x48 8 time
  m1.write 0x60 (List.replicate 48 (0 : Byte))

/-- LIFECYCLE_SET (R473 to R476): steps 1 to 4; the rest follows at the end of the wipe. When the second record fails, the fuses govern, and the reply is NO_RESOURCE. -/
def execLifecycleSet (q : Fin 64) (f0 f1 : Nat) (s : State) : Host.Outcome State Fault Refusal :=
  .next (s.mgmtCommand q.val 0x73 (fun b r x0 =>
    let x := x0.sealCall
    let a := x.lifeCycle
    let dest := leAt b 0 1
    let opkey := sliceB b 4 48
    if !lcAllowed a dest then x.mgmtReply r stBAD []
    else if dest ≠ 5 ∧ !x.tokenOk b then (x.latchErr pgSEL 2 8 0 0).mgmtReply r stAUTH []
    else if dest = 4 ∧ rmaLeft x.sel.fuses.lc = 0 then x.mgmtReply r stNORES []
    else
      let (y, ok) := x.ledgerPut 1 f0 (fun m => (setPendingLc dest m).write 0x60 opkey) id
      if !ok then y.mgmtReply r stNORES []
      else
        let (z, ok2) := (y.blowLc dest).ledgerPut 1 f1 (lcRecord a dest y.lcCount (y.reg64 pgDTL 0x040) opkey) id
        let w := ((z.lifeAdd 5 1).wipeAll).setSel (fun k => { k with target := some dest })
        if ok2 then w.setMgmt (fun g => { g with wipes := g.wipes ++ [(r.queue, r.seq)] }) else w.mgmtReply r stNORES []))

/-- WIPE (R477): step 4 of R476; the reply follows at the end of the wipe. -/
def execWipe (q : Fin 64) (s : State) : Host.Outcome State Fault Refusal :=
  .next (s.mgmtCommand q.val 0x74 (fun _ r x => (x.sealCall.wipeAll).setMgmt (fun g => { g with wipes := g.wipes ++ [(r.queue, r.seq)] })))

/-- LEDGER_UPDATE_REQUEST (R471, R480): an update that would change LIFECYCLE, SECURITY or OPKEY is refused; the fields of R471 lie in SECURITY. -/
def execLedgerUpdateRequest (off : Fin 16384) (data : Bytes) (s : State) : Host.Outcome State Fault Refusal :=
  let x := s.sealCall
  let d := x.mergedData
  let e := d.write off.val data
  if e.read 0x40 80 ≠ d.read 0x40 80 ∨ e.read 0x940 192 ≠ d.read 0x940 192 then .next (x.latch pgSEL 6)
  else .next (x.ledgerUpdate off.val data)

/-- LEDGER_WRITE (R480, R481): the record with the updates that wait; during the pause of a handover they wait (R508). -/
def execLedgerWrite (fails : Nat) (s : State) : Host.Outcome State Fault Refusal :=
  if s.sel.updates.isEmpty ∨ s.mgmt.handover = .paused then .next s else .next (s.ledgerPut 0 fails id id).1

/-- LEDGER_HOURLY_RECORD (R489): counter 7 counts the hour, and a record carries the counters. -/
def execLedgerHourlyRecord (fails : Nat) (s : State) : Host.Outcome State Fault Refusal :=
  if s.sel.ldgPhase ≠ 1 then .next s else .next ((s.lifeAdd 7 1).ledgerPut 0 fails id id).1

end Sys2Proof.Machine
end

