-- ==== Sys2Proof/Machine/PouchRows.lean ====
section
/-! DEFINITION. Commands of the Pouches (R445 to R451). A word and a freed slot are visible at once: the synchroniser cycles are timing. -/

namespace Sys2Proof.Machine

/-- A Pouch, by the page of its consuming block and its index there (R461). -/
def State.pouch (s : State) (page index : Nat) : Pouch := kvGet s.pouches (page * 256 + index) { words := [], begun := false }
/-- Replaces it. -/
def State.setPouch (s : State) (page index : Nat) (w : Pouch) : State := { s with pouches := kvSet s.pouches (page * 256 + index) w }

/-- The Pouches of command and management paths are small (R450): those of a consumer outside the data plane (log entry 98). -/
def smallPouch (page : Nat) : Bool := match pageBlk page with | some (b, i) => !dataPlane b i | none => false

/-- The Pouches of fabric ingress and Ethernet ingress are large (R450, log entry 98). -/
def largePouch (page : Nat) : Bool := match pageBlk page with | some (.ppt, _) => true | some (.rte, _) => true | some (.eth, _) => true | _ => false

/-- Slots of a Pouch: 2^m words, at most 64 for a small one (R445, R450). -/
def pouchSlots (page index : Nat) : Nat := 2 ^ (if smallPouch page then min 6 (Config.pouchLog2 page index) else Config.pouchLog2 page index)

/-- The packet counter (R447): readable words with END set. -/
def Pouch.packets (w : Pouch) : Nat := (w.words.filter (·.last)).length

/-- The count register of a small Pouch (R450): PACKETS over WORDS. -/
def Pouch.count (w : Pouch) : Nat := w.packets * 2 ^ 16 + w.words.length

/-- The consumer of a Pouch may read (R448, R451): that of a large one begins at a whole packet or 16 words, and goes on to the packet's end. -/
def Pouch.mayRead (w : Pouch) (large : Bool) : Bool := !large || w.begun || decide (1 ≤ w.packets) || decide (16 ≤ w.words.length)

/-- POUCH_WRITE (R445, R446, R448): a full Pouch stalls the producer. -/
def execPouchWrite (page : Fin 512) (index : Fin 256) (data : Bytes) (last poison : Bool) (s : State) : Host.Outcome State Fault Refusal :=
  let w := s.pouch page.val index.val
  if pouchSlots page.val index.val ≤ w.words.length then .next s
  else .next (s.setPouch page.val index.val { w with words := w.words ++ [{ data := data, last := last, poison := poison }] })

/-- A word as its consumer takes it: one that fails its parity is poisoned and ends its packet (R449). -/
def PouchWord.taken (w : PouchWord) (bad : Bool) : PouchWord := if bad then { w with last := true, poison := true } else w

/-- POUCH_READ (R448, R449): an empty Pouch stalls the consumer. `bad` says that the parity fails. The word's first bytes go into `readData`; its tag, its END bit and the count register that a small Pouch showed before the read go into `answer`. -/
def execPouchRead (page : Fin 512) (index : Fin 256) (bad : Bool) (s : State) : Host.Outcome State Fault Refusal :=
  let c := s.pouch page.val index.val
  let large := largePouch page.val
  match c.words with
  | [] => .next s
  | w :: rest =>
    if !c.mayRead large then .next s
    else
      let v := w.taken bad
      let s1 := s.setPouch page.val index.val { words := rest, begun := large && !v.last }
      let s2 := if bad && !w.poison then (s1.bump pgGLB 0x050 1).latchErr pgGLB 0 1 (page.val * 65536 + index.val) 0 else s1
      .next { s2 with
        answer := (if v.poison then stPOISON else stOK) + 256 * b2n v.last + (if smallPouch page.val then 2 ^ 16 * c.count else 0),
        readData := BitVec.ofNat 32 (leAt v.data 0 4) }

/-- POUCH_IDLE_TIMEOUT (R451): the consumer of a large Pouch begins to read the words present. -/
def execPouchIdleTimeout (page : Fin 512) (index : Fin 256) (s : State) : Host.Outcome State Fault Refusal :=
  let c := s.pouch page.val index.val
  if !largePouch page.val || c.words.isEmpty || c.begun then .next s
  else .next ((s.setPouch page.val index.val { c with begun := true }).bump pgGLB 0x058 1)

end Sys2Proof.Machine
end

