-- ==== Sys2Proof/Machine/StartRows.lean ====
section
/-! DEFINITION. Start-up, reset and power-down (R466, R483, R490 to R495, R500 to R504), and the live firmware replacement (R468, R508, R509). -/

namespace Sys2Proof.Machine

/-- POWER_GOOD_RISE (R491, R501, R531): COLD to BOOT, counted by lifetime counter 0; the straps are sampled. `auxLost` says that VDD_AUX has been out of tolerance since PWR_GOOD fell: THERM_TRIP_N is released and the TAP starts in Test-Logic-Reset (R529). -/
def execPowerGoodRise (straps : Fin 4) (auxLost : Bool) (s : State) : Host.Outcome State Fault Refusal :=
  if s.fmn.state ≠ .cold then .next s
  else
    let s1 := s.setPower (fun k => { k with good := true, strap := straps.val, thermN := k.thermN && !auxLost })
    .next ((if auxLost then { s1 with tap := TapIns.idcode } else s1).resetTo .boot (some 0))

/-- POWER_GOOD_FALL (R491, R493): the module is COLD, every domain is off. -/
def execPowerGoodFall (s : State) : Host.Outcome State Fault Refusal :=
  .next ((s.resetTo .cold none).setPower (fun k => { k with good := false, dom := [] }))

/-- RESET_PIN (R500, R501). -/
def execResetPin (s : State) : Host.Outcome State Fault Refusal :=
  if s.power.good then .next (s.resetTo .boot (some 1)) else .next s

/-- The Seal halts (R466). -/
def State.sealHalt (s : State) : State := s.setSel (fun k => { k with phase := 4, booted := true })

/-- Steps 6 and 7 of R466: the image of a slot runs. -/
def State.runSlot (s : State) (slot f0 f1 : Nat) : State :=
  let img := s.image slot
  let s1 := (s.setSel (fun k => { k with slot := slot, svn := leAt img 7 1, meas := fwMeas img })).makeAlias f0 f1
  (s1.setSel (fun k => { k with phase := 3, booted := true })).lifeAdd (2 + slot) 1

/-- Step 5 of R466: the other slot, with a record that names it. -/
def State.fallBack (s : State) (bad fails f0 f1 : Nat) : State :=
  let o := 1 - bad % 2
  let code := s.sel.fuses.fwCheck (s.image o)
  if code ≠ 0 then (s.fwReject code o).sealHalt
  else
    let s1 := (((s.ledgerPut 1 fails (setActive o) id).1.latch pgSEL 0).setSel (fun k => { k with fallback := true })).lifeAdd 13 1
    s1.runSlot o f0 f1

/-- The torn records above the newest valid one, in decreasing SEQ (R483). -/
def tornRecs (m : AMap LRec) : List Nat :=
  let top := match newestRec m with | some r => r.seq | none => 0
  let bad := (m.filter (fun p => !p.2.ok && decide (top < p.2.seq))).map (·.2.seq)
  (bad.foldl (fun (a : List Nat) x => setIns a x) []).reverse

/-- The empty record of R483: tile roles as at manufacture, CONFIG zero, the mirror as the fuses. -/
def emptyRecord (lc : Nat) : LRec :=
  { factoryRecord with data := ((factoryRecord.data.writeLE 0x905 1 0).writeLE 0x40 1 lc) }

/-- A pending transition is settled by the fuses (R476). -/
def State.settleLc (s : State) (fails : Nat) : State :=
  let d := s.sel.cur.data
  let dest := d.readLE 0x41 1
  if dest = 0xFF then s
  else if s.lifeCycle = dest then (s.ledgerPut 1 fails (lcRecord (d.readLE 0x40 1) dest s.lcCount (s.reg64 pgDTL 0x040) (d.read 0x60 48)) id).1.lifeAdd 5 1
  else (s.ledgerPut 1 fails (fun m => (setPendingLc 0xFF m).write 0x60 (List.replicate 48 (0 : Byte))) id).1

/-- The Ledger as start-up finds it: the duration in SEL.BOOT_US, one LDG_TORN for every torn record above the newest valid one (R483). -/
def State.bootScan (s : State) (us : Nat) : State :=
  (tornRecs s.sel.recs).foldl (fun (x : State) q => x.latchErr pgLDG 2 2 (q % 2 ^ 32) 0) (s.setN pgSEL 0x08C (min us 0xFFFFFFFF))

/-- Steps 4 to 7 of R466: the image of a slot runs where its checks pass, else the other slot's. -/
def State.bootSlot (s : State) (slot af f0 f1 : Nat) : State :=
  let code := s.sel.fuses.fwCheck (s.image slot)
  if code = 0 then s.runSlot slot f0 f1 else (s.fwReject code slot).fallBack slot af f0 f1

/-- SEAL_BOOT (R462, R466, R483): `us` microseconds; `pf`, `af`, `f0` and `f1` are the read-back failures of the records of a pending transition, of a fallback, and of a new alias. -/
def execSealBoot (fuseErr : Bool) (us pf af f0 f1 : Nat) (s : State) : Host.Outcome State Fault Refusal :=
  if s.fmn.state ≠ .boot ∨ s.sel.booted then .next s
  else if fuseErr then .next ((s.setSel (fun k => { k with booted := true })).latch pgSEL 7)
  else
    let lc := s.lifeCycle
    let s1 := s.bootScan us
    match newestRec s.sel.recs with
    | none =>
      if 2 ≤ lc then .next ((s1.setSel (fun k => { k with ldgPhase := 4 })).sealHalt)
      else
        let r := emptyRecord lc
        let s2 := s1.setSel (fun k => { k with ldgPhase := 1, recs := putRec k.recs r, cur := r })
        .next (if lc = 0 then s2.sealHalt else s2.bootSlot 0 af f0 f1)
    | some r =>
      let s2 := (s1.setSel (fun k => { k with ldgPhase := 1, cur := r })).settleLc pf
      .next (if lc = 0 ∨ lc = 5 then s2.sealHalt else s2.bootSlot (s2.fwActive % 2) af f0 f1)

/-- The Postmaster runs: the always-on domains are powered only after it starts (R493, R502). -/
def State.postmasterUp (s : State) : Bool := s.domOn 183

/-- The domains that are on in every module state after the Postmaster starts, in the order of R502 stage 3. -/
def alwaysOn : List Nat := [178, 179, 180, 183] ++ (List.range 16).map (144 + ·) ++ [162, 163, 164, 165, 184, 185]

/-- A tile's domain powers on: its memories are wiped, it runs at point 0 (R495 to R497). -/
def State.tileOn (s : State) (p : Nat) : State :=
  (s.modTile p (fun t => { Tile.reset with role := t.role, logical := t.logical, run := .idle, stopWas := .idle, freq := 3600 })).setDom p 1

/-- The repair map (R73, R478). -/
def State.loadTiles (s : State) : State :=
  (List.range 136).foldl (fun (x : State) p => x.modTile p (fun t => t.mapped (s.sel.cur.data.readLE (0x1100 + 2 * p) 2))) s

/-- The rows of a channel's pending-repair list and its repairs made (R252, R478). -/
def State.loadRepairs (s : State) : State :=
  let d := s.sel.cur.data
  (List.range 128).foldl (fun (x : State) c =>
    let es := (List.range 16).map (fun i => d.readLE (0x1400 + 64 * c + 4 * i) 4)
    let rows := (es.filter (fun e => bitOf e 31)).map (fun e => fld e 22 1 * 2 ^ 21 + fld e 18 4 * 2 ^ 17 + e % 2 ^ 17)
    x.modChan c (fun k => { k with repair := rows, used := d.readLE (0x1300 + 2 * c) 2 })) s

/-- The registers that Otaraqua loads from the Ledger's CONFIG (R478, R502). -/
def State.loadRegs (s : State) : State :=
  let s1 := ((s.setN pgRTE 0x040 (leNat (s.config 0 2) % 2 ^ 14)).setN pgRTE 0x044 (leNat (s.config 2 3))).setField pgETH 0x008 3 1 (leNat (s.config 6 1) % 2)
  (List.range 16).foldl (fun (x : State) m => x.setN (pgMEM m) 0x040 (0x20 + leNat (s.config 5 1) % 16)) s1

/-- The domains of Sorters, Pagehouses and Post ports whose pages request power (R494). -/
def State.requested (s : State) : List Nat :=
  (List.range 8).filter (fun i => s.domReq .srt i) |>.map (136 + ·)
    |>.append ((List.range 2).filter (fun i => s.domReq .pgh i) |>.map (160 + ·))
    |>.append ((List.range 12).filter (fun i => s.domReq .ppt i) |>.map (166 + ·))

/-- Domains power on, one after another. -/
def State.domainsOn (s : State) (ds : List Nat) : State := ds.foldl (fun (x : State) d => x.setDom d 1) s

/-- OTARAQUA_START (R502 stage 3): Otaraqua reports running, loads the repair map and CONFIG, and powers the domains. -/
def execOtaraquaStart (s : State) : Host.Outcome State Fault Refusal :=
  if s.fmn.state ≠ .boot ∨ s.sel.phase ≠ 3 ∨ s.postmasterUp then .next s
  else
    let x := (s.loadTiles.loadRepairs.loadRegs.domainsOn alwaysOn).domainsOn s.requested
    .next (x.enabledTiles.foldl (fun (y : State) p => y.tileOn p) x)

/-- OTARAQUA_RUN_TIMEOUT (R502): the Seal restarts the Postmaster from the other slot. -/
def execOtaraquaRunTimeout (af f0 f1 : Nat) (s : State) : Host.Outcome State Fault Refusal :=
  if s.fmn.state ≠ .boot ∨ s.sel.phase ≠ 3 ∨ s.postmasterUp then .next s else .next (s.fallBack s.sel.slot af f0 f1)

/-- A spare that fails leaves the map (R503). -/
def State.retireSpare (s : State) (p : Nat) : State :=
  let s1 := (s.modTile p (fun t => { t with role := .retired, ready := false, wiping := false })).setDom p 0
  (s1.ledgerUpdate (0x1100 + 2 * p) (s1.tile p).mapEntry).lifeAdd 10 1

/-- A failing enabled tile is replaced at once by the lowest good spare of its Folio; without one R76 applies (R74, R503). -/
def State.replaceTile (s : State) (p : Nat) : State :=
  match (List.range 136).find? (fun q => tileFolio q == tileFolio p && (s.tile q).role == .spare) with
  | none => (s.modTile p (fun t => { t with retire := true })).fenceFor 2
  | some q => (((s.tileOn q).modTile q (fun t => { t with ready := true })).modTile p (fun t => { t with retire := true })).remapTile p

/-- TILE_SELF_TEST (R503): `failing` tiles fail. -/
def execTileSelfTest (failing : List (Fin 136)) (s : State) : Host.Outcome State Fault Refusal :=
  if s.fmn.state ≠ .boot ∨ !s.postmasterUp ∨ s.mgmt.selfTested then .next s
  else
    let spares := (failing.map (·.val)).filter (fun p => (s.tile p).role == .spare)
    let tiles := (failing.map (·.val)).filter (fun p => (s.tile p).role == .enabled)
    let s1 := tiles.foldl (fun (x : State) p => if (x.tile p).role == .enabled then x.replaceTile p else x) (spares.foldl (fun (x : State) p => x.retireSpare p) s)
    .next (s1.setMgmt (fun g => { g with selfTested := true })).bootDone

/-- WIPE_TO_IDLE (R279, R473, R504): the wipe is done, every powered Post port has finished its first training, the Ethernet link is up. -/
def execWipeToIdle (s : State) : Host.Outcome State Fault Refusal :=
  if s.fmn.state = .wipe ∧ (List.range 16).all (fun m => s.phaseOf m == 4) ∧ (List.range 12).all (fun p => !s.domOn (166 + p) || s.link p != 1) ∧ s.ethLink = 2 then
    .next (s.setMod (if s.lifeCycle = 1 ∨ s.lifeCycle = 4 then .service else .idle))
  else .next s

/-- HANDOVER_PAUSE_START (R412, R508 orders 2 and 3): the mailbox is free, at a step boundary or with no step unreleased. -/
def execHandoverPauseStart (s : State) : Host.Outcome State Fault Refusal :=
  if s.mgmt.handover ≠ .waiting ∨ s.spv.mbox.isSome then .next s
  else
    let s1 := s.setMgmt (fun g => { g with handover := .paused })
    .next { s1 with spv := { s1.spv with paused := true } }

/-- The pause ends after `us` microseconds with a reply to firmware.activate (R508, R509, R516, R430); the alive counters start again at 0. -/
def State.pauseEnds (s : State) (us st bit : Nat) : State :=
  let s1 : State := { s with spv := { s.spv with paused := false } }
  let s2 := [6, 7, 8, 9].foldl (fun (x : State) u => x.setN (pgPMK u) 0x06C 0) s1
  let s3 := match s2.mgmt.activate with
    | some w => s2.replyTo { queue := w.1, seq := w.2 } st []
    | none => s2
  let s4 := s3.setMgmt (fun g => { g with handover := .none, activate := none })
  (((s4.latch pgPMS bit).setN pgPMS 0x080 (min us 0xFFFFFFFF)).bump pgPMS 0x084 1).setN pgSPV 0x084 (min us 0xFFFFFFFF)

/-- Step 3 of R468: the new image's revocations, and SVN_MIN up to its SVN. -/
def Fuses.commit (f : Fuses) (img : Bytes) : Fuses :=
  let rev := leAt img 0xA 1
  { f with eRevoke := f.eRevoke ||| rev % 16, lRevoke := f.lRevoke ||| rev / 16, svnMin := if bitOf (leAt img 6 1) 0 then max f.svnMin (leAt img 7 1) else f.svnMin }

/-- HANDOVER_COMPLETE (R468 steps 3 and 4, R508 order 5). -/
def execHandoverComplete (us f0 f1 : Nat) (s : State) : Host.Outcome State Fault Refusal :=
  if s.mgmt.handover ≠ .paused then .next s
  else
    let slot := s.fwActive % 2
    let img := s.image slot
    let s1 := (s.pauseEnds us stOK 8).lifeAdd 4 1
    .next ((s1.setSel (fun k => { k with fuses := k.fuses.commit img, slot := slot, svn := leAt img 7 1, meas := fwMeas img })).makeAlias f0 f1)

/-- HANDOVER_TIMEOUT (R509): the cores run in the old bank again, and a record names the old slot active and the new one staged. -/
def execHandoverTimeout (us fails : Nat) (s : State) : Host.Outcome State Fault Refusal :=
  if s.mgmt.handover ≠ .paused then .next s
  else
    let old := s.mgmt.oldSlot
    .next ((s.pauseEnds us stNORES 9).ledgerPut 1 fails (fun m => setStaged (1 - old % 2) (setActive old m)) id).1

/-- WATCHDOG_MISS (R509): outside a pause, Otaraqua has not serviced its watchdog. -/
def execWatchdogMiss (s : State) : Host.Outcome State Fault Refusal :=
  if s.mgmt.handover = .paused ∨ !s.postmasterUp then .next s else .next (s.fenceFor 9)

end Sys2Proof.Machine
end

