-- ==== Sys2Proof/Machine/PowRows.lean ====
section
/-! DEFINITION. Power domains, operating points, throttling and trips (R492, R495 to R499), the Dateline's ticks, edges and servo (R505 to R507), the TAP (R534, R535). -/

namespace Sys2Proof.Machine

/-- FAULT_N is low (R529): FENCED, a halted Seal, or a trip, which THERM_TRIP_N remembers through resets. -/
def State.faultN (s : State) : Bool := s.fmn.state == .fenced || s.sel.phase == 4 || s.power.thermN

/-- ERR_INFO_HI of the PWR page (R511). -/
def State.pwrHi (s : State) : Nat := wrapN 16 s.tempMax

/-- New readings of sensors, as int16 codes in 1/8 degree; PWR_HOT follows them (R498, R512). -/
def State.sense (s : State) (temps : List (Fin 56 × Nat)) : State :=
  let s1 := s.setPower (fun k => { k with sensors := temps.foldl (fun (m : AMap Nat) p => kvSet m p.1.val (p.2 % 65536)) k.sensors })
  s1.stateEvent pgPWR 2 s1.hot

/-- A sensor's reading. -/
def State.temp (s : State) (i : Nat) : Int := sext 16 (kvGet s.power.sensors i 0)

/-- MEM_TEMP holds for a package of the Folio (R250, R498). -/
def State.memTemp (s : State) (f : Nat) : Bool := (List.range 8).any (fun i => bitOf (s.regN (pgMEM (8 * f + i)) 0x010) 3)

/-- The sensors of a Folio (R512). -/
def folioSensors (f : Nat) : List Nat := (List.range 24).map (24 * f + ·)

/-- T_THROTTLE. -/
def State.tThrottle (s : State) : Int := sext 16 (s.regN pgPWR 0x040 % 65536)

/-- THROTTLE_RISE (R498, R512): 100 microseconds end with these readings and this power. -/
def execThrottleRise (f : Fin 2) (temps : List (Fin 56 × Nat)) (watts : Nat) (s : State) : Host.Outcome State Fault Refusal :=
  let x := (s.sense temps).setPower (fun k => { k with watts := watts })
  let ctrl := x.regN pgPWR 0x008
  let hot := bitOf ctrl 0 && (folioSensors f.val).any (fun i => decide (x.tThrottle ≤ x.temp i))
  let cap := bitOf ctrl 1 && decide (x.regN pgPWR 0x044 ≤ watts)
  let l := x.throttle f.val
  if !(hot || cap || x.memTemp f.val) ∨ 7 ≤ l then .next x
  else
    let x1 := x.setPower (fun k => { k with level := kvSet k.level f.val (l + 1) })
    let x2 := if cap then (x1.bump pgPWR 0x06C 1).latch pgPWR 1 else x1
    .next (if l = 0 then (x2.bump pgPWR 0x068 1).latch pgPWR 0 else x2)

/-- THROTTLE_FALL (R498): a millisecond ends with every limit clear by its margin. -/
def execThrottleFall (f : Fin 2) (temps : List (Fin 56 × Nat)) (watts : Nat) (s : State) : Host.Outcome State Fault Refusal :=
  let x := (s.sense temps).setPower (fun k => { k with watts := watts })
  let l := x.throttle f.val
  let cool := (folioSensors f.val).all (fun i => decide (x.temp i + 40 ≤ x.tThrottle))
  if cool ∧ watts + 50 ≤ x.regN pgPWR 0x044 ∧ !x.memTemp f.val ∧ 0 < l then .next (x.setPower (fun k => { k with level := kvSet k.level f.val (l - 1) }))
  else .next x

/-- PWR_HOT (R498). -/
def execPwrHot (temps : List (Fin 56 × Nat)) (s : State) : Host.Outcome State Fault Refusal := .next (s.sense temps)

/-- The domains that a trip powers off (R499). -/
def tripDomains : List Nat := List.range 136 ++ (List.range 8).map (136 + ·) ++ [160, 161, 162, 163] ++ (List.range 12).map (166 + ·)

/-- What a trip does beyond latching its event (R499, steps 2 to 5): a fence with cause THERMAL, domains off, THERM_TRIP_N, and a record with counter 12. -/
def State.tripActs (s : State) (fails : Nat) : State :=
  let s1 := s.fenceFor 8
  let s2 := (List.range 12).foldl (fun (x : State) p => if x.link p = 0 then x else x.portDown p 0) s1
  let s3 := tripDomains.foldl (fun (x : State) d => x.setDom d 0) s2
  let s4 : State := { s3 with tiles := s3.tiles.map (fun p => (p.1, { Tile.reset with role := p.2.role, logical := p.2.logical, ran := p.2.ran })), sorters := [], pgh := [] }
  (((s4.setPower (fun k => { k with tripped := true, thermN := true })).lifeAdd 12 1).ledgerPut 0 fails id id).1

/-- A trip (R499): PWR_TRIP with its code, and what follows. -/
def State.trip (s : State) (code info fails : Nat) : State := (s.latchErr pgPWR 3 code info s.pwrHi).tripActs fails

/-- TEMPERATURE_TRIP (R499): a sensor at or above 115 degrees. -/
def execTemperatureTrip (sensor : Fin 56) (temp fails : Nat) (s : State) : Host.Outcome State Fault Refusal :=
  let x := s.sense [(sensor, temp)]
  if x.temp sensor.val < 920 ∨ x.power.tripped then .next x else .next (x.trip 2 sensor.val fails)

/-- PERSIST_TRIP (R499): the level of a Folio has stood at 7 for 1 s while it was hot; ERR_INFO_LO names its first hot sensor. -/
def execPersistTrip (f : Fin 2) (fails : Nat) (s : State) : Host.Outcome State Fault Refusal :=
  let hot := (folioSensors f.val).find? (fun i => decide (840 ≤ s.temp i))
  if s.throttle f.val ≠ 7 ∨ (hot.isNone && !s.memTemp f.val) ∨ s.power.tripped then .next s else .next (s.trip 3 (hot.getD 0) fails)

/-- RAIL_TRIP (R499, R527). -/
def execRailTrip (fails : Nat) (s : State) : Host.Outcome State Fault Refusal :=
  if s.fmn.state = .cold ∨ s.power.tripped then .next s else .next (s.trip 5 0 fails)

/-- CLOCK_LOSS (R492): PWR_CLOCK with CLOCK_LOSS; the module trips as R499 says, PWR_CLOCK standing in place of PWR_TRIP (log entry 33), once. -/
def execClockLoss (fails : Nat) (s : State) : Host.Outcome State Fault Refusal :=
  let x := s.latchErr pgPWR 5 4 0 s.pwrHi
  if s.fmn.state = .cold then .next s else .next (if s.power.tripped then x else x.tripActs fails)

/-- DOMAIN_POWER_ON_DONE (R495): the memories of the domain are wiped, and STATUS is ON. -/
def execDomainPowerOnDone (d : Fin 186) (s : State) : Host.Outcome State Fault Refusal :=
  let n := d.val
  if s.domStatus n ≠ 2 then .next s
  else
    let x := s.setDom n 1
    if n < 136 then .next (x.modTile n (fun t => { t with mem := Ram.wiped, bankA := Bank.reset, bankB := Bank.reset, platen := [], freq := 3600 }))
    else if n < 144 then .next { x with sorters := kvDel x.sorters (n - 136) }
    else if n = 160 ∨ n = 161 then .next { x with pgh := kvDel x.pgh (n - 160) }
    else .next x

/-- DOMAIN_FAULT (R495): the regulator of a domain reports a fault; a tile is marked, a spare leaves the map and another is chosen for the tile it stood for, any other domain fences the module. -/
def execDomainFault (d : Fin 186) (s : State) : Host.Outcome State Fault Refusal :=
  let n := d.val
  let x := (s.setDom n 3).latchErr pgPWR 4 1 n s.pwrHi
  if 136 ≤ n then .next (x.fenceFor 8)
  else
    let t := x.tile n
    if t.role = .enabled then .next (x.markTile n)
    else if t.role = .spare then
      let y := (x.retireSpare n).setDom n 3
      match (List.range 136).find? (fun p => tileFolio p == tileFolio n && (y.tile p).role == .enabled && (y.tile p).retire) with
      | some p => if t.ready || t.wiping then .next ((y.modTile p (fun u => { u with retire := false })).markTile p) else .next y
      | none => .next y
    else .next x

/-- OPP_CHANGE (R496, R497): a tile takes the point in force, the programmed one plus the throttle level of its Folio. -/
def execOppChange (t : Fin 136) (s : State) : Host.Outcome State Fault Refusal :=
  let u := s.tile t.val
  if u.role ≠ .enabled ∨ !s.domOn t.val then .next s
  else
    let k := min 7 (kvGet s.power.force u.logical 0 + s.throttle (tileFolio t.val))
    .next (s.setTile t.val { u with opp := k, freq := 3600 - 400 * k })

/-- DATELINE_TICK (R505). -/
def execDatelineTick (s : State) : Host.Outcome State Fault Refusal :=
  if s.fmn.state = .cold then .next s
  else
    let f : Int := s.dateline.frac + 1000000000 + sext 32 (s.regN pgDTL 0x050)
    let s1 : State := { s with dateline := { s.dateline with frac := f % 1000000000 } }
    .next (s1.set64 pgDTL 0x040 (wrapN 64 ((s.reg64 pgDTL 0x040 : Int) + f / 1000000000)))

/-- The multiple of 10^9 nearest to a time. -/
def nearestSecond (t : Int) : Int := (t + 500000000) / 1000000000 * 1000000000

/-- PPS_EDGE (R506, R507): the capture, the alignment of an arm that waits for it, the end of a HOLDOVER. -/
def execPpsEdge (s : State) : Host.Outcome State Fault Refusal :=
  if s.fmn.state = .cold then .next s
  else
    let delay : Int := s.regN pgDTL 0x058 % 65536
    let cap : Int := (s.reg64 pgDTL 0x040 : Int) - delay
    let s1 := (s.set64 pgDTL 0x048 (wrapN 64 cap)).bump pgDTL 0x064 1
    let go := fun (t : Int) => (s1.align (t + delay) 2).set64 pgDTL 0x048 (wrapN 64 t)
    match s1.dateline.arm with
    | some a =>
      if !a.pps then .next s1
      else if !a.ptp then .next (go (a.seconds * 10 ^ 9 : Nat))
      else match s1.dateline.master with
        | some m => .next (go (nearestSecond (cap + m)))
        | none => .next s1
    | none => if s1.mode = 4 ∧ s1.field pgDTL 0x00C 27 1 = 1 then .next (s1.setMode 2) else .next s1

/-- A number between two bounds. -/
def clampI (x lo hi : Int) : Int := max lo (min hi x)

/-- The servo of R507: integ and ADJ after a second with offset e. -/
def ppsServo (integ e : Int) : Int × Int :=
  let i := clampI (integ - e.tdiv 8) (-100000) 100000
  (i, clampI (i - e.tdiv 2) (-500000) 500000)

/-- The offset of the latest second: from the latest edge under PPS, `mean` from the master under PTP alone (R507). -/
def State.servoOffset (s : State) (mean : Int) : Int :=
  if s.mode = 3 then mean
  else
    let cap : Int := s.reg64 pgDTL 0x048
    match s.dateline.master with
    | some m => if s.field pgDTL 0x00C 26 1 = 1 then cap - nearestSecond (cap + m) else cap - nearestSecond cap
    | none => cap - nearestSecond cap

/-- PPS_SERVO_SECOND (R507). -/
def execPpsServoSecond (mean : Int) (s : State) : Host.Outcome State Fault Refusal :=
  if s.mode ≠ 2 ∧ s.mode ≠ 3 then .next s
  else
    let e := s.servoOffset mean
    let big := decide (1000000 < e) || decide (e < -1000000)
    let n := if big then s.dateline.late + 1 else 0
    let s1 : State := { s with dateline := { s.dateline with late := n } }
    let s2 := s1.setN pgDTL 0x054 (wrapN 32 (clampI e (-2 ^ 31) (2 ^ 31 - 1)))
    let s3 := if n = 4 then s2.latch pgDTL 4 else s2
    if bitOf (s.regN pgDTL 0x008) 0 then
      let (i, adj) := ppsServo s.dateline.integ e
      .next (({ s3 with dateline := { s3.dateline with integ := i } } : State).setN pgDTL 0x050 (wrapN 32 adj))
    else .next s3

/-- PPS_LOSS (R507): no edge for 1.1 s. -/
def execPpsLoss (s : State) : Host.Outcome State Fault Refusal :=
  if s.mode = 2 then .next ((s.setMode 4).latch pgDTL 2) else .next s

/-- PTP_LOSS (R507): the master is lost for 3 s. -/
def execPtpLoss (s : State) : Host.Outcome State Fault Refusal :=
  if (s.mode = 2 ∨ s.mode = 3) ∧ s.field pgDTL 0x00C 26 1 = 1 then
    .next ((({ s with dateline := { s.dateline with master := none } } : State).setMode 4).latch pgDTL 3)
  else .next s

/-- TAP_RESET (R534). -/
def execTapReset (s : State) : Host.Outcome State Fault Refusal := .next { s with tap := .idcode }

/-- Instruction codes of TAP_INSTRUCTION. -/
def tapCode (c : Nat) : TapIns :=
  match c with
  | 0 => .bypass | 1 => .idcode | 2 => .boundary | 3 => .acBoundary | 4 => .factory | _ => .blankToTest

/-- The selected instruction of the TAP; IDCODE puts its word into the data register (R534), which `readData` shows. -/
def State.tapSelect (s : State) (t : TapIns) : State := { s with tap := t, readData := if t = .idcode then 0x286209AB else s.readData }

/-- TAP_INSTRUCTION (R474, R535): 0 BYPASS, 1 IDCODE, 2 boundary scan, 3 AC boundary scan, 4 another factory instruction, 5 BLANK to TEST. With closed access every other code than BYPASS and IDCODE selects BYPASS. -/
def execTapInstruction (code : Fin 6) (s : State) : Host.Outcome State Fault Refusal :=
  let lc := s.lifeCycle
  if 2 ≤ code.val ∧ !tapOpen lc then .next (s.tapSelect .bypass)
  else
    let s1 := s.tapSelect (tapCode code.val)
    if code.val = 5 ∧ lc = 0 then .next (s1.setSel (fun k => { k with fuses := { k.fuses with lc := lcBlow k.fuses.lc 1 } })) else .next s1

end Sys2Proof.Machine
end

