-- ==== Sys2Proof/Machine/Dispatch.lean ====
section
/-! DEFINITION. One arm per command: the meaning of each, or its rejection by name. -/

namespace Sys2Proof.Machine

def exec (i : Instr) (s : State) : Host.Outcome State Fault Refusal :=
  match i with
  | .nop t b => Sys2Proof.Machine.execNop t b s
  | .loop t b => Sys2Proof.Machine.execLoop t b s
  | .br t b => Sys2Proof.Machine.execBr t b s
  | .yield t b => Sys2Proof.Machine.execYield t b s
  | .contextSwitch t errs => Sys2Proof.Machine.execContextSwitch t errs s
  | .endSheet t b => Sys2Proof.Machine.execEndSheet t b s
  | .trap t b => Sys2Proof.Machine.execTrap t b s
  | .alu t b => Sys2Proof.Machine.execAlu t b s
  | .alui t b => Sys2Proof.Machine.execAlui t b s
  | .movi t b => Sys2Proof.Machine.execMovi t b s
  | .ldg t b errs => Sys2Proof.Machine.execLdg t b errs s
  | .stg t b => Sys2Proof.Machine.execStg t b s
  | .sysr t b => Sys2Proof.Machine.execSysr t b s
  | .dld t b errs => Sys2Proof.Machine.execDld t b errs s
  | .dset t b => Sys2Proof.Machine.execDset t b s
  | .sld t b errs => Sys2Proof.Machine.execSld t b errs s
  | .sset t b => Sys2Proof.Machine.execSset t b s
  | .mma t b errs => Sys2Proof.Machine.execMma t b errs s
  | .productEntry t residue => Sys2Proof.Machine.execProductEntry t residue s
  | .zero t b => Sys2Proof.Machine.execZero t b s
  | .drain t b => Sys2Proof.Machine.execDrain t b s
  | .drainComplete t bank => Sys2Proof.Machine.execDrainComplete t bank s
  | .merge t b errs => Sys2Proof.Machine.execMerge t b errs s
  | .hold t b => Sys2Proof.Machine.execHold t b s
  | .vop t b errs => Sys2Proof.Machine.execVop t b errs s
  | .vred t b errs => Sys2Proof.Machine.execVred t b errs s
  | .topk t b errs => Sys2Proof.Machine.execTopk t b errs s
  | .draw t b => Sys2Proof.Machine.execDraw t b s
  | .sample t b errs => Sys2Proof.Machine.execSample t b errs s
  | .cvt t b errs => Sys2Proof.Machine.execCvt t b errs s
  | .tlyAssign t b => Sys2Proof.Machine.execTlyAssign t b s
  | .tlyCount t b errs => Sys2Proof.Machine.execTlyCount t b errs s
  | .mov t b errs => Sys2Proof.Machine.execMov t b errs s
  | .gath t b => Sys2Proof.Machine.execGath t b s
  | .signal t b => Sys2Proof.Machine.execSignal t b s
  | .bkt t b errs => Sys2Proof.Machine.execBkt t b errs s
  | .spost t b errs => Sys2Proof.Machine.execSpost t b errs s
  | .moveComplete t serial errs => Sys2Proof.Machine.execMoveComplete t serial errs s
  | .waitGroups t b => Sys2Proof.Machine.execWaitGroups t b s
  | .waitFlag t b errs => Sys2Proof.Machine.execWaitFlag t b errs s
  | .fence t b => Sys2Proof.Machine.execFence t b s
  | .waitSatisfied t errs => Sys2Proof.Machine.execWaitSatisfied t errs s
  | .bar t b => Sys2Proof.Machine.execBar t b s
  | .barrierRelease t => Sys2Proof.Machine.execBarrierRelease t s
  | .phaseBegin t b => Sys2Proof.Machine.execPhaseBegin t b s
  | .phaseEnd t b => Sys2Proof.Machine.execPhaseEnd t b s
  | .layoutSwitchDone t => Sys2Proof.Machine.execLayoutSwitchDone t s
  | .tileStop t stop => Sys2Proof.Machine.execTileStop t stop s
  | .tileRetireRequest t retire => Sys2Proof.Machine.execTileRetireRequest t retire s
  | .spareReady t => Sys2Proof.Machine.execSpareReady t s
  | .sheetLoad q => Sys2Proof.Machine.execSheetLoad q s
  | .sheetInstall q => Sys2Proof.Machine.execSheetInstall q s
  | .sheetInstallApply => Sys2Proof.Machine.execSheetInstallApply s
  | .scaleRecordWrite => Sys2Proof.Machine.execScaleRecordWrite s
  | .lsCfgLoad v => Sys2Proof.Machine.execLsCfgLoad v s
  | .ttIndexWrite v => Sys2Proof.Machine.execTtIndexWrite v s
  | .ttCommit => Sys2Proof.Machine.execTtCommit s
  | .tableCreate q place => Sys2Proof.Machine.execTableCreate q place s
  | .tableCreateApply => Sys2Proof.Machine.execTableCreateApply s
  | .tableDelete q => Sys2Proof.Machine.execTableDelete q s
  | .tableDeleteApply => Sys2Proof.Machine.execTableDeleteApply s
  | .sorterPostAccept sorter => Sys2Proof.Machine.execSorterPostAccept sorter s
  | .passStart sorter errs => Sys2Proof.Machine.execPassStart sorter errs s
  | .lookupIssue sorter ecc errs => Sys2Proof.Machine.execLookupIssue sorter ecc errs s
  | .lookupReply sorter ix => Sys2Proof.Machine.execLookupReply sorter ix s
  | .descriptorComplete sorter => Sys2Proof.Machine.execDescriptorComplete sorter s
  | .pghHalving sorter ecc errs => Sys2Proof.Machine.execPghHalving sorter ecc errs s
  | .pghFillComplete folio => Sys2Proof.Machine.execPghFillComplete folio s
  | .tierFetchIssue ix => Sys2Proof.Machine.execTierFetchIssue ix s
  | .tierFetchComplete ix data err => Sys2Proof.Machine.execTierFetchComplete ix data err s
  | .putEntryGrant folio => Sys2Proof.Machine.execPutEntryGrant folio s
  | .inkerRead ink => Sys2Proof.Machine.execInkerRead ink s
  | .inkerContrib ink => Sys2Proof.Machine.execInkerContrib ink s
  | .inkerGather ink => Sys2Proof.Machine.execInkerGather ink s
  | .denseSum ink => Sys2Proof.Machine.execDenseSum ink s
  | .inkerCommit ink => Sys2Proof.Machine.execInkerCommit ink s
  | .commitBufferResume ink => Sys2Proof.Machine.execCommitBufferResume ink s
  | .rowLockResume ink => Sys2Proof.Machine.execRowLockResume ink s
  | .inkerRestore ink => Sys2Proof.Machine.execInkerRestore ink s
  | .stepReopen => Sys2Proof.Machine.execStepReopen s
  | .tierWritebackComplete ix err => Sys2Proof.Machine.execTierWritebackComplete ix err s
  | .tierWritebackRetry ix => Sys2Proof.Machine.execTierWritebackRetry ix s
  | .rowReplace q => Sys2Proof.Machine.execRowReplace q s
  | .tableMigrate q => Sys2Proof.Machine.execTableMigrate q s
  | .migReserve => Sys2Proof.Machine.execMigReserve s
  | .ship => Sys2Proof.Machine.execShip s
  | .forward => Sys2Proof.Machine.execForward s
  | .stepOpen q => Sys2Proof.Machine.execStepOpen q s
  | .mbSubmit q => Sys2Proof.Machine.execMbSubmit q s
  | .stepAbort q => Sys2Proof.Machine.execStepAbort q s
  | .stepOpening => Sys2Proof.Machine.execStepOpening s
  | .stepMicroBatchesEnded => Sys2Proof.Machine.execStepMicroBatchesEnded s
  | .ready => Sys2Proof.Machine.execReady s
  | .collationDeadline n => Sys2Proof.Machine.execCollationDeadline n s
  | .allIn => Sys2Proof.Machine.execAllIn s
  | .normPartialSend => Sys2Proof.Machine.execNormPartialSend s
  | .cNorm => Sys2Proof.Machine.execCNorm s
  | .normDeadline n => Sys2Proof.Machine.execNormDeadline n s
  | .decision => Sys2Proof.Machine.execDecision s
  | .commitDone => Sys2Proof.Machine.execCommitDone s
  | .release => Sys2Proof.Machine.execRelease s
  | .resume => Sys2Proof.Machine.execResume s
  | .abortReq => Sys2Proof.Machine.execAbortReq s
  | .rptTailWrite v => Sys2Proof.Machine.execRptTailWrite v s
  | .stepNextWrite hi v => Sys2Proof.Machine.execStepNextWrite hi v s
  | .impositionStage q => Sys2Proof.Machine.execImpositionStage q s
  | .impositionActivate q => Sys2Proof.Machine.execImpositionActivate q s
  | .epochDrainComplete => Sys2Proof.Machine.execEpochDrainComplete s
  | .drained => Sys2Proof.Machine.execDrained s
  | .activate => Sys2Proof.Machine.execActivate s
  | .epochActivation => Sys2Proof.Machine.execEpochActivation s
  | .confirm => Sys2Proof.Machine.execConfirm s
  | .confirmed => Sys2Proof.Machine.execConfirmed s
  | .flitTransmit port => Sys2Proof.Machine.execFlitTransmit port s
  | .flitReceive port f uncorr fec => Sys2Proof.Machine.execFlitReceive port f uncorr fec s
  | .replayTimeout port => Sys2Proof.Machine.execReplayTimeout port s
  | .laneFault port => Sys2Proof.Machine.execLaneFault port s
  | .portRetrainRequest port => Sys2Proof.Machine.execPortRetrainRequest port s
  | .trainingDone port r => Sys2Proof.Machine.execTrainingDone port r s
  | .packetInject ix => Sys2Proof.Machine.execPacketInject ix s
  | .packetForward => Sys2Proof.Machine.execPacketForward s
  | .packetEject => Sys2Proof.Machine.execPacketEject s
  | .read errs => Sys2Proof.Machine.execRead errs s
  | .write => Sys2Proof.Machine.execWrite s
  | .add32 errs => Sys2Proof.Machine.execAdd32 errs s
  | .rowRead => Sys2Proof.Machine.execRowRead s
  | .contrib => Sys2Proof.Machine.execContrib s
  | .gather => Sys2Proof.Machine.execGather s
  | .response => Sys2Proof.Machine.execResponse s
  | .e2eResend chip lane => Sys2Proof.Machine.execE2eResend chip lane s
  | .e2eFail chip lane => Sys2Proof.Machine.execE2eFail chip lane s
  | .winDataWrite v => Sys2Proof.Machine.execWinDataWrite v s
  | .rteSelfWrite v => Sys2Proof.Machine.execRteSelfWrite v s
  | .rteShapeWrite v => Sys2Proof.Machine.execRteShapeWrite v s
  | .prbsInject ix => Sys2Proof.Machine.execPrbsInject ix s
  | .prbsClear ix => Sys2Proof.Machine.execPrbsClear ix s
  | .bktCollatorRead t serial errs => Sys2Proof.Machine.execBktCollatorRead t serial errs s
  | .cUp => Sys2Proof.Machine.execCUp s
  | .cTopkTg => Sys2Proof.Machine.execCTopkTg s
  | .cSignTg => Sys2Proof.Machine.execCSignTg s
  | .collationOutputSend => Sys2Proof.Machine.execCollationOutputSend s
  | .cDeliver => Sys2Proof.Machine.execCDeliver s
  | .cDone => Sys2Proof.Machine.execCDone s
  | .cRepl => Sys2Proof.Machine.execCRepl s
  | .cReplDown => Sys2Proof.Machine.execCReplDown s
  | .cResult => Sys2Proof.Machine.execCResult s
  | .a2aCount => Sys2Proof.Machine.execA2aCount s
  | .a2aData => Sys2Proof.Machine.execA2aData s
  | .a2aRet => Sys2Proof.Machine.execA2aRet s
  | .parityDelta => Sys2Proof.Machine.execParityDelta s
  | .heartbeatPeriod => Sys2Proof.Machine.execHeartbeatPeriod s
  | .heartbeat => Sys2Proof.Machine.execHeartbeat s
  | .heartbeatTimeout chip => Sys2Proof.Machine.execHeartbeatTimeout chip s
  | .isolationTimeout => Sys2Proof.Machine.execIsolationTimeout s
  | .suspect => Sys2Proof.Machine.execSuspect s
  | .probe => Sys2Proof.Machine.execProbe s
  | .probeRetry chip => Sys2Proof.Machine.execProbeRetry chip s
  | .probeTimeout chip => Sys2Proof.Machine.execProbeTimeout chip s
  | .fenceOrder => Sys2Proof.Machine.execFenceOrder s
  | .fencedNotice => Sys2Proof.Machine.execFencedNotice s
  | .moduleFence => Sys2Proof.Machine.execModuleFence s
  | .spineLineReplay seg => Sys2Proof.Machine.execSpineLineReplay seg s
  | .spineSublinkFailure seg us => Sys2Proof.Machine.execSpineSublinkFailure seg us s
  | .parBusy => Sys2Proof.Machine.execParBusy s
  | .sliceQuietReached => Sys2Proof.Machine.execSliceQuietReached s
  | .quiet => Sys2Proof.Machine.execQuiet s
  | .parityWorkDone ms => Sys2Proof.Machine.execParityWorkDone ms s
  | .parDone => Sys2Proof.Machine.execParDone s
  | .parReady => Sys2Proof.Machine.execParReady s
  | .stateSync => Sys2Proof.Machine.execStateSync s
  | .unitRead => Sys2Proof.Machine.execUnitRead s
  | .repairReq => Sys2Proof.Machine.execRepairReq s
  | .lineOperation wr off n data errs grp => Sys2Proof.Machine.execLineOperation wr off n data errs grp s
  | .mr4Poll ch temp mult above => Sys2Proof.Machine.execMr4Poll ch temp mult above s
  | .refresh => Sys2Proof.Machine.execRefresh s
  | .rfm ch => Sys2Proof.Machine.execRfm ch s
  | .scrubRead m errs => Sys2Proof.Machine.execScrubRead m errs s
  | .scrubPeriodEnd m late => Sys2Proof.Machine.execScrubPeriodEnd m late s
  | .wck2dqAdjust => Sys2Proof.Machine.execWck2dqAdjust s
  | .memoryTraining m us failed avail => Sys2Proof.Machine.execMemoryTraining m us failed avail s
  | .hardRepair m lacking => Sys2Proof.Machine.execHardRepair m lacking s
  | .dramWipe => Sys2Proof.Machine.execDramWipe s
  | .wipeComplete m failed f0 f1 => Sys2Proof.Machine.execWipeComplete m failed f0 f1 s
  | .rdmaWrite qp rkey off data f => Sys2Proof.Machine.execRdmaWrite qp rkey off data f s
  | .rdmaRead qp rkey off len f => Sys2Proof.Machine.execRdmaRead qp rkey off len f s
  | .commandSend qp msg f => Sys2Proof.Machine.execCommandSend qp msg f s
  | .cmReq qp role pad slot mtu f => Sys2Proof.Machine.execCmReq qp role pad slot mtu f s
  | .cmRtu qp f => Sys2Proof.Machine.execCmRtu qp f s
  | .cmDreq qp f => Sys2Proof.Machine.execCmDreq qp f s
  | .arpRequest ip f => Sys2Proof.Machine.execArpRequest ip f s
  | .neighbourSolicitation ip f => Sys2Proof.Machine.execNeighbourSolicitation ip f s
  | .icmpEcho ip data f => Sys2Proof.Machine.execIcmpEcho ip data f s
  | .pfcPauseReceive times => Sys2Proof.Machine.execPfcPauseReceive times s
  | .macPauseReceive => Sys2Proof.Machine.execMacPauseReceive s
  | .cnpReceive qp early => Sys2Proof.Machine.execCnpReceive qp early s
  | .cnpRateRecovery qp => Sys2Proof.Machine.execCnpRateRecovery qp s
  | .ackTimeout qp n exceeded => Sys2Proof.Machine.execAckTimeout qp n exceeded s
  | .ptpEventMessage f => Sys2Proof.Machine.execPtpEventMessage f s
  | .ptpOffsetMeasurement off => Sys2Proof.Machine.execPtpOffsetMeasurement off s
  | .ethAutoneg partner => Sys2Proof.Machine.execEthAutoneg partner s
  | .ethLinkDown => Sys2Proof.Machine.execEthLinkDown s
  | .ethTestEnter => Sys2Proof.Machine.execEthTestEnter s
  | .ethTestEnd => Sys2Proof.Machine.execEthTestEnd s
  | .ethRestart => Sys2Proof.Machine.execEthRestart s
  | .heartbeatLetter => Sys2Proof.Machine.execHeartbeatLetter s
  | .summaryLetter n => Sys2Proof.Machine.execSummaryLetter n s
  | .sessionHello q => Sys2Proof.Machine.execSessionHello q s
  | .sessionAuth q => Sys2Proof.Machine.execSessionAuth q s
  | .sessionClose q => Sys2Proof.Machine.execSessionClose q s
  | .stateQuery q => Sys2Proof.Machine.execStateQuery q s
  | .regRead q => Sys2Proof.Machine.execRegRead q s
  | .regWrite q => Sys2Proof.Machine.execRegWrite q s
  | .eventSubscribe q => Sys2Proof.Machine.execEventSubscribe q s
  | .memMap q => Sys2Proof.Machine.execMemMap q s
  | .memUnmap q => Sys2Proof.Machine.execMemUnmap q s
  | .fenceSelf q => Sys2Proof.Machine.execFenceSelf q s
  | .firmwareStage q bad fails => Sys2Proof.Machine.execFirmwareStage q bad fails s
  | .firmwareActivate q fails => Sys2Proof.Machine.execFirmwareActivate q fails s
  | .attestQuote q f0 f1 f2 => Sys2Proof.Machine.execAttestQuote q f0 f1 f2 s
  | .lifecycleSet q f0 f1 => Sys2Proof.Machine.execLifecycleSet q f0 f1 s
  | .wipe q => Sys2Proof.Machine.execWipe q s
  | .timeArm q => Sys2Proof.Machine.execTimeArm q s
  | .moduleReset q => Sys2Proof.Machine.execModuleReset q s
  | .registerWrite page off v path => Sys2Proof.Machine.execRegisterWrite page off v path s
  | .evtSetInject page v => Sys2Proof.Machine.execEvtSetInject page v s
  | .errCodeRead page => Sys2Proof.Machine.execErrCodeRead page s
  | .loHalfRead page off => Sys2Proof.Machine.execLoHalfRead page off s
  | .domainPowerRequest page req => Sys2Proof.Machine.execDomainPowerRequest page req s
  | .pmkInit u => Sys2Proof.Machine.execPmkInit u s
  | .pmkCompare u => Sys2Proof.Machine.execPmkCompare u s
  | .pmkData u v => Sys2Proof.Machine.execPmkData u v s
  | .pmkDataTail u v => Sys2Proof.Machine.execPmkDataTail u v s
  | .pmkValueWrite u hi v => Sys2Proof.Machine.execPmkValueWrite u hi v s
  | .ldgSync => Sys2Proof.Machine.execLdgSync s
  | .ldgCfgCommit => Sys2Proof.Machine.execLdgCfgCommit s
  | .ledgerUpdateRequest off data => Sys2Proof.Machine.execLedgerUpdateRequest off data s
  | .ledgerWrite fails => Sys2Proof.Machine.execLedgerWrite fails s
  | .ledgerHourlyRecord fails => Sys2Proof.Machine.execLedgerHourlyRecord fails s
  | .pouchWrite page index data last poison => Sys2Proof.Machine.execPouchWrite page index data last poison s
  | .pouchRead page index bad => Sys2Proof.Machine.execPouchRead page index bad s
  | .pouchIdleTimeout page index => Sys2Proof.Machine.execPouchIdleTimeout page index s
  | .powerGoodRise straps auxLost => Sys2Proof.Machine.execPowerGoodRise straps auxLost s
  | .powerGoodFall => Sys2Proof.Machine.execPowerGoodFall s
  | .resetPin => Sys2Proof.Machine.execResetPin s
  | .sealBoot fuseErr us pf af f0 f1 => Sys2Proof.Machine.execSealBoot fuseErr us pf af f0 f1 s
  | .otaraquaStart => Sys2Proof.Machine.execOtaraquaStart s
  | .otaraquaRunTimeout af f0 f1 => Sys2Proof.Machine.execOtaraquaRunTimeout af f0 f1 s
  | .tileSelfTest failing => Sys2Proof.Machine.execTileSelfTest failing s
  | .wipeToIdle => Sys2Proof.Machine.execWipeToIdle s
  | .clockLoss fails => Sys2Proof.Machine.execClockLoss fails s
  | .domainPowerOnDone d => Sys2Proof.Machine.execDomainPowerOnDone d s
  | .domainFault d => Sys2Proof.Machine.execDomainFault d s
  | .oppChange t => Sys2Proof.Machine.execOppChange t s
  | .throttleRise f temps watts => Sys2Proof.Machine.execThrottleRise f temps watts s
  | .throttleFall f temps watts => Sys2Proof.Machine.execThrottleFall f temps watts s
  | .temperatureTrip sensor temp fails => Sys2Proof.Machine.execTemperatureTrip sensor temp fails s
  | .persistTrip f fails => Sys2Proof.Machine.execPersistTrip f fails s
  | .railTrip fails => Sys2Proof.Machine.execRailTrip fails s
  | .datelineTick => Sys2Proof.Machine.execDatelineTick s
  | .ppsEdge => Sys2Proof.Machine.execPpsEdge s
  | .ppsServoSecond mean => Sys2Proof.Machine.execPpsServoSecond mean s
  | .ppsLoss => Sys2Proof.Machine.execPpsLoss s
  | .ptpLoss => Sys2Proof.Machine.execPtpLoss s
  | .handoverPauseStart => Sys2Proof.Machine.execHandoverPauseStart s
  | .handoverComplete us f0 f1 => Sys2Proof.Machine.execHandoverComplete us f0 f1 s
  | .handoverTimeout us fails => Sys2Proof.Machine.execHandoverTimeout us fails s
  | .watchdogMiss => Sys2Proof.Machine.execWatchdogMiss s
  | .tapReset => Sys2Proof.Machine.execTapReset s
  | .tapInstruction code => Sys2Proof.Machine.execTapInstruction code s
  | .opcodeFault t => Sys2Proof.Machine.execOpcodeFault t s
  | .unknownOpcode => Sys2Proof.Machine.execUnknownOpcode s
  | .checkerLock ix lane => Sys2Proof.Machine.execCheckerLock ix lane s
  | .pwrHot temps => Sys2Proof.Machine.execPwrHot temps s
  | .frameDiscard why => Sys2Proof.Machine.execFrameDiscard why s
  | .mkaFrame live => Sys2Proof.Machine.execMkaFrame live s

end Sys2Proof.Machine
end

