-- ==== Sys2Proof/Safety.lean ====
section
/-! DEFINITION. The terms that claims are stated in. -/

namespace Sys2Proof.Machine

/-- The outcome is a next state. -/
def completes (o : Host.Outcome State Fault Refusal) : Bool :=
  match o with
  | .next _ => true
  | _ => false

/-- Every register but those listed (page, offset) holds in `u` what it holds in `s`. -/
def regsBut (s u : State) (ks : List (Nat × Nat)) : Prop :=
  ∀ p o, regKey p o ∉ ks.map (fun k => regKey k.1 k.2) → u.reg p o = s.reg p o

/-- The registers that the latching of an event of a page can change: its EVT_PEND and EVT_COUNT, and those of the letters' own page (R422, R441). -/
def evtRegs (page : Nat) : List (Nat × Nat) := [(page, 0x014), (page, 0x020), (pgSPV, 0x014), (pgSPV, 0x020), (pgSPV, 0x074)]

/-- The event's bit of EVT_PEND is set (R441). -/
def pends (s : State) (page bit : Nat) : Prop := (s.reg page 0x014).getLsbD bit = true

/-- Every tile but one is as before. -/
def tilesBut (s u : State) (p : Nat) : Prop := ∀ q, q ≠ p → u.tile q = s.tile q

/-- The word at the PC of a running, enabled tile is the instruction with this opcode and body (R107). -/
def atPC (s : State) (p op : Nat) (b : Body) : Prop := ∃ w, s.wordAt p = some w ∧ w.toNat = op * 2 ^ 56 + b.toNat

/-- The engine starts command `c` of queue `q` now, it has this opcode, and no check before its own rules refuses it (R408, R411 to R413, R417). -/
def starts (s : State) (q op : Nat) (c : Cmd) : Prop := s.startable q op = some c ∧ (s.started q c).precheck q c = none

/-- Such a command of the management group finds the Postmaster's mailbox free, and waits for it in front of all others, or starts while none waits, outside a handover's pause (R36, R412). -/
def mails (s : State) (q op : Nat) (c : Cmd) : Prop :=
  s.spv.mbox = none ∧ (if s.spv.mwait.isEmpty then starts s q op c else s.spv.mwait.head? = some (q, c) ∧ c.op = op ∧ s.spv.paused = false)

/-- The command has started, and stands in the mailbox (R36, R412, R455). -/
def State.mailed (s : State) (q : Nat) (c : Cmd) : State :=
  match s.spv.mwait with
  | [] =>
    let x := s.started q c
    ({ x with spv := { x.spv with mbox := some (q, { c with started := true }) } }).aliveHalf 8 true
  | _ :: r => ({ s with spv := { s.spv with mwait := r, mbox := some (q, c) } }).aliveHalf 8 true

/-- Where the reply to a command goes. -/
def Cmd.ret (c : Cmd) (q : Nat) : ReplyTo := { queue := q, seq := c.seq }

/-- The first delivered SLICE packet of a kind, and the state without it (R313); none that waits for the end of a handover's pause (R508). -/
def State.sliceIn (s : State) (kind : Nat) : Option (OutPkt × State) :=
  if s.postWaits kind then none else s.takeArrived (fun p => p.type == 0x50 && p.arg % 256 == kind)

/-- A word with the bits of a mask replaced by those of a written value (R15). -/
def writtenBits (old v mask : Nat) : Word := BitVec.ofNat 32 (old - (old &&& mask) + (v &&& mask))

/-- Fuses of `f` blown in `g` too, with the hashes and the serial number unchanged (R462). -/
def Fuses.within (f g : Fuses) : Prop :=
  f.lc &&& g.lc = f.lc ∧ f.eRevoke &&& g.eRevoke = f.eRevoke ∧ f.lRevoke &&& g.lRevoke = f.lRevoke ∧ f.svnMin ≤ g.svnMin ∧ f.eHash = g.eHash ∧ f.lHash = g.lHash ∧ f.serial = g.serial

/-- Where access is closed the TAP has BYPASS or IDCODE (R535). -/
def tapSafe (s : State) : Prop := tapOpen s.lifeCycle = false → s.tap = .bypass ∨ s.tap = .idcode

/-- The same state with another unique device secret. -/
def State.withUds (s : State) (u : Bytes) : State := { s with sel := { s.sel with fuses := { s.sel.fuses with uds := u } } }

/-- The products of a list enter an accumulator one after another: the accumulator, the products that lose bits (R60) and those that overflow. -/
def enterAll (a : Int) (c : Acc) (l : List FVal) : Acc × Nat × Nat :=
  l.foldl (fun r v => let e := r.1.enter a v; (e.acc, r.2.1 + b2n e.loss, r.2.2 + b2n e.ovf)) (c, 0, 0)

end Sys2Proof.Machine
end

