-- ==== Sys2Proof/Certificates/Slice0/Obligations.lean ====
section
/-! DEFINITION. The statements for the provers. -/

open Sys2Proof Sys2Proof.Machine

/-- A step takes the command at the front of the queue and runs it on the machine with the rest of the queue; with no command the block idles (log entry 1: the idling is
the model's choice). -/
def Obligations.StepTakesFrontCommand : Prop :=
  (∀ (s : State) (c : Instr) (r : List Instr), s.pending = c :: r → step s = exec c { s with pending := r }) ∧
  (∀ (s : State), s.pending = [] → step s = .next s)

/-- Every command, with every operand and in every state, ends in a next state: the block never faults and refuses nothing. -/
def Obligations.EveryCommandCompletes : Prop := ∀ (c : Instr) (s : State), ∃ u, exec c s = .next u

/-- A step takes one command off the queue, and no command puts one in or takes another out. -/
def Obligations.QueueShortens : Prop := ∀ (s t : State), step s = .next t → t.pending = s.pending.tail

/-- The machine right after reset (R253, R452, R491, R493, R500, R502, and the register tables of R329, R333 and R512): the Foreman is in BOOT with no step, DRAM holds
nothing and its memory is in canonical form, no packet, letter, command or event waits, every register has its table's reset value, and the TAP has IDCODE. What the
flash and the fuses hold is the model's choice (log entry 3). -/
def Obligations.ResetState : Prop :=
  State.reset.fmn.state = .boot ∧ State.reset.fmn.steps = [] ∧ State.reset.dram = Ram.wiped ∧ State.reset.dram.wf = true ∧ State.reset.fab.router = [] ∧ State.reset.letters = [] ∧
  State.reset.pending = [] ∧ tapSafe State.reset ∧ State.reset.tap = .idcode ∧
  (∀ p o, State.reset.reg p o = resetVal p o) ∧
  (∀ i : Fin 12, State.reset.regN (pgPPT i.val) 0x00C = 0x3FFF) ∧ State.reset.regN pgRTE 0x048 = 20 ∧ State.reset.regN pgRTE 0x04C = 4 ∧
  State.reset.regN pgPWR 0x040 = 800 ∧ State.reset.regN pgPWR 0x044 = 1450 ∧ (∀ p, State.reset.reg p 0x014 = 0) ∧ (∀ m : Fin 16, State.reset.phaseOf m.val = 0)

/-- NOP (R107, R120) goes on to the next instruction: at the last instruction of a loop with rounds left that is the loop's first, and the count falls; with none left
the loop closes; past the last instruction of the sheet the tile faults. Nothing but the tile changes where it goes on, and a STOP stops it there (R103). ALU, ALUI,
MOVI, SYSR, DSET, SSET, DRAW and TLY with OP = 0 (R91, R122, R123, R127, R129), with no reserved field set: the one register, descriptor word, stream word or Tally
slot that the instruction names takes the value that the rule gives, and the tile goes on. -/
def Obligations.NopAndScalarInstructions : Prop :=
  (∀ (t : Fin 136) (s : State), atPC s t.val 0 0 → exec (.nop t 0) s = .next (s.advance t.val)) ∧
  (∀ (p : Nat) (s : State), ((s.tile p).loopEnd (s.tile p).depth).pc < (s.code p).length →
    s.advance p = s.setTile p (if s.regN (pgPRS p) 0x008 % 2 = 1 then { (s.tile p).loopEnd (s.tile p).depth with stalled := 0, run := .stopped, stopWas := .running }
      else { (s.tile p).loopEnd (s.tile p).depth with stalled := 0 })) ∧
  (∀ (u : Tile), u.loopEnd 0 = { u with pc := u.pc + 1, depth := 0 }) ∧
  (∀ (u : Tile) (d : Nat), kvGet u.lend d 0 ≠ u.pc → u.loopEnd (d + 1) = { u with pc := u.pc + 1, depth := d + 1 }) ∧
  (∀ (u : Tile) (d : Nat), kvGet u.lend d 0 = u.pc → kvGet u.lcount d 0 ≤ 1 → u.loopEnd (d + 1) = u.loopEnd d) ∧
  (∀ (t : Fin 136) (s : State), atPC s t.val 0 0 → (s.tile t.val).depth = 0 → (s.tile t.val).pc + 1 < (s.code t.val).length → s.regN (pgPRS t.val) 0x008 % 2 = 0 →
    exec (.nop t 0) s = .next (s.setTile t.val { s.tile t.val with pc := (s.tile t.val).pc + 1, stalled := 0 })) ∧
  (∀ (t : Fin 136) (s : State) (d : Nat), atPC s t.val 0 0 → (s.tile t.val).depth = d + 1 → kvGet (s.tile t.val).lend d 0 = (s.tile t.val).pc →
    1 < kvGet (s.tile t.val).lcount d 0 → kvGet (s.tile t.val).lstart d 0 < (s.code t.val).length → s.regN (pgPRS t.val) 0x008 % 2 = 0 →
    exec (.nop t 0) s = .next (s.setTile t.val { s.tile t.val with pc := kvGet (s.tile t.val).lstart d 0, lcount := kvSet (s.tile t.val).lcount d (kvGet (s.tile t.val).lcount d 0 - 1), stalled := 0 })) ∧
  (∀ (t : Fin 136) (b : Body) (s : State), atPC s t.val 0x08 b → reservedChk b (ones 55 35) [(decide (0x0C < bfld b 50 6), 50)] = [] →
    exec (.alu t b) s = .next ((s.setTile t.val ((s.tile t.val).setReg (bfld b 45 5)
      (aluFn (bfld b 50 6) ((s.tile t.val).reg (bfld b 40 5)) ((s.tile t.val).reg (bfld b 35 5))))).advance t.val)) ∧
  (∀ (t : Fin 136) (b : Body) (s : State), atPC s t.val 0x09 b → reservedChk b (ones 55 40 + ones 31 0) [(decide (0x0C < bfld b 50 6), 50)] = [] →
    exec (.alui t b) s = .next ((s.setTile t.val ((s.tile t.val).setReg (bfld b 45 5)
      (aluFn (bfld b 50 6) ((s.tile t.val).reg (bfld b 40 5)) (wrapN 64 (sext 32 (bfld b 0 32)))))).advance t.val)) ∧
  (∀ (t : Fin 136) (b : Body) (s : State), atPC s t.val 0x0A b → reservedChk b (ones 55 50 + ones 31 0) [] = [] →
    exec (.movi t b) s = .next ((s.setTile t.val ((s.tile t.val).setReg (bfld b 51 5)
      (if bbit b 50 then bfld b 0 32 * 2 ^ 32 + (s.tile t.val).reg (bfld b 51 5) % 2 ^ 32 else wrapN 64 (sext 32 (bfld b 0 32))))).advance t.val)) ∧
  (∀ (t : Fin 136) (b : Body) (s : State), atPC s t.val 0x0D b → reservedChk b (ones 55 47) [(decide (10 < bfld b 47 4), 47)] = [] →
    exec (.sysr t b) s = .next ((s.setTile t.val ((s.tile t.val).setReg (bfld b 51 5) (s.sysr (s.tile t.val) (bfld b 47 4)))).advance t.val)) ∧
  (∀ (t : Fin 136) (b : Body) (s : State), atPC s t.val 0x11 b → reservedChk b (ones 55 43) [] = [] →
    exec (.dset t b) s = .next ((s.setTile t.val ((s.tile t.val).setDesc (bfld b 52 4)
      (BitVec.ofNat 512 (setFld ((s.tile t.val).desc (bfld b 52 4)).toNat (32 * bfld b 48 4) 32 ((s.tile t.val).reg (bfld b 43 5)))))).advance t.val)) ∧
  (∀ (t : Fin 136) (b : Body) (s : State), atPC s t.val 0x13 b → reservedChk b (ones 55 45) [] = [] →
    exec (.sset t b) s = .next ((s.setTile t.val ((s.tile t.val).setStream (bfld b 53 3)
      (setFld ((s.tile t.val).stream (bfld b 53 3)) (32 * bfld b 50 3) 32 ((s.tile t.val).reg (bfld b 45 5))))).advance t.val)) ∧
  (∀ (t : Fin 136) (b : Body) (s : State), atPC s t.val 0x33 b → reservedChk b (ones 55 36) [] = [] →
    exec (.draw t b) s = .next ((s.setTile t.val ((s.tile t.val).setReg (bfld b 51 5)
      (keyedDraw s.seed ((s.tile t.val).reg (bfld b 46 5)) ((s.tile t.val).reg (bfld b 41 5)) ((s.tile t.val).reg (bfld b 36 5))))).advance t.val)) ∧
  (∀ (t : Fin 136) (b : Body) (s : State), atPC s t.val 0x48 b → bbit b 55 = false → reservedChk b (ones 55 47) [] = [] →
    exec (.tlyAssign t b) s = .next ((s.setTile t.val { s.tile t.val with
      tlyTag := if (s.tile t.val).reg (bfld b 47 5) % 2 ^ 32 = 0xFFFFFFFF then kvDel (s.tile t.val).tlyTag (bfld b 52 3) else kvSet (s.tile t.val).tlyTag (bfld b 52 3) ((s.tile t.val).reg (bfld b 47 5) % 2 ^ 32),
      tlyBin := if (s.tile t.val).tag (bfld b 52 3) = (s.tile t.val).reg (bfld b 47 5) % 2 ^ 32 then (s.tile t.val).tlyBin else (s.tile t.val).tlyBin.filter (fun p => p.1 / 64 != bfld b 52 3) }).advance t.val))

/-- LDG, STG, DLD and SLD (R122, R123) at an aligned address inside the extent, where the read meets no poison: the word, descriptor or stream is loaded, or the register
stored to the eight bytes at the sum of the address register and the offset. LDG (R77, R102, R119): an address that is not a multiple of 8 faults the tile with
ALIGNMENT, and a poisoned word with CASE_UE. -/
def Obligations.CaseMemoryAccesses : Prop :=
  (∀ (t : Fin 136) (b : Body) (errs : List CaseErr) (s x : State), atPC s t.val 0x0B b →
    reservedChk b (ones 55 30) [] ++ scalarChk (s.tile t.val) (addrOff ((s.tile t.val).reg (bfld b 46 5)) (bfld b 30 16)) 8 (bfld b 46 5) = [] →
    s.caseRead t.val [(addrOff ((s.tile t.val).reg (bfld b 46 5)) (bfld b 30 16), 8)] errs = (x, none) →
    exec (.ldg t b errs) s = .next ((x.modTile t.val (fun v => v.setReg (bfld b 51 5)
      (v.mem.readLE (addrOff ((s.tile t.val).reg (bfld b 46 5)) (bfld b 30 16)) 8))).advance t.val)) ∧
  (∀ (t : Fin 136) (b : Body) (s : State), atPC s t.val 0x0C b →
    reservedChk b (ones 55 30) [] ++ scalarChk (s.tile t.val) (addrOff ((s.tile t.val).reg (bfld b 46 5)) (bfld b 30 16)) 8 (bfld b 46 5) = [] →
    exec (.stg t b) s = .next ((s.setTile t.val ((s.tile t.val).writeAt (addrOff ((s.tile t.val).reg (bfld b 46 5)) (bfld b 30 16))
      (toLE 8 ((s.tile t.val).reg (bfld b 51 5))))).advance t.val)) ∧
  (∀ (t : Fin 136) (b : Body) (errs : List CaseErr) (s x : State), atPC s t.val 0x10 b →
    reservedChk b (ones 55 47) [] ++ scalarChk (s.tile t.val) ((s.tile t.val).reg (bfld b 47 5)) 64 (bfld b 47 5) = [] →
    s.caseRead t.val [((s.tile t.val).reg (bfld b 47 5), 64)] errs = (x, none) →
    exec (.dld t b errs) s = .next ((x.modTile t.val (fun v => v.setDesc (bfld b 52 4)
      (BitVec.ofNat 512 (v.mem.readLE ((s.tile t.val).reg (bfld b 47 5)) 64)))).advance t.val)) ∧
  (∀ (t : Fin 136) (b : Body) (errs : List CaseErr) (s x : State), atPC s t.val 0x12 b →
    reservedChk b (ones 55 48) [] ++ scalarChk (s.tile t.val) ((s.tile t.val).reg (bfld b 48 5)) 32 (bfld b 48 5) = [] →
    s.caseRead t.val [((s.tile t.val).reg (bfld b 48 5), 32)] errs = (x, none) →
    exec (.sld t b errs) s = .next ((x.modTile t.val (fun v => v.setStream (bfld b 53 3)
      (v.mem.readLE ((s.tile t.val).reg (bfld b 48 5)) 32))).advance t.val)) ∧
  (∀ (t : Fin 136) (b : Body) (errs : List CaseErr) (s : State), atPC s t.val 0x0B b → reservedChk b (ones 55 30) [] = [] →
    addrOff ((s.tile t.val).reg (bfld b 46 5)) (bfld b 30 16) % 8 ≠ 0 → addrOff ((s.tile t.val).reg (bfld b 46 5)) (bfld b 30 16) + 8 ≤ (s.tile t.val).extent →
    exec (.ldg t b errs) s = .next (s.tileFault t.val 0x0C (s.tile t.val).pc (bfld b 46 5))) ∧
  (∀ (t : Fin 136) (b : Body) (errs : List CaseErr) (a : Nat) (s x : State), atPC s t.val 0x0B b →
    reservedChk b (ones 55 30) [] ++ scalarChk (s.tile t.val) (addrOff ((s.tile t.val).reg (bfld b 46 5)) (bfld b 30 16)) 8 (bfld b 46 5) = [] →
    s.caseRead t.val [(addrOff ((s.tile t.val).reg (bfld b 46 5)) (bfld b 30 16), 8)] errs = (x, some a) →
    exec (.ldg t b errs) s = .next ((x.caseUE t.val).tileFault t.val 0x80 a 0) ∧
    (s.step? (s.tile t.val).step = none → ((x.caseFault t.val a).tile t.val).run = .faulted ∧ (x.caseFault t.val a).regN (pgPRS t.val) 0x024 = 0x80))

/-- A tile fault (R102, R439): the tile stops, and the error registers hold the code, the first detail, and the context with the second detail, together with PRS_FAULT;
then the READY of the tile's step goes out with FAULT where that step is open (R269). -/
def Obligations.TileFaultRegisters : Prop :=
  (∀ (t : Fin 136) (b : Body) (s : State), atPC s t.val 0x05 b → reservedChk b (ones 15 0) [] = [] →
    ∃ u, exec (.trap t b) s = .next (u.sendReady (s.tile t.val).step true) ∧ (u.tile t.val).run = .faulted ∧ (u.tile t.val).pc = (s.tile t.val).pc ∧ tilesBut s u t.val ∧
      u.regN (pgPRS t.val) 0x024 = 0x7F ∧ u.regN (pgPRS t.val) 0x028 = (s.tile t.val).pc % 2 ^ 32 ∧
      u.regN (pgPRS t.val) 0x02C = (s.tile t.val).ctx % 256 * 2 ^ 24 + bfld b 0 16 ∧ pends u (pgPRS t.val) 2 ∧ u.dram = s.dram) ∧
  (∀ (n : Nat) (f : Bool) (s : State), (∀ r, s.step? n = some r → r.state ≠ .opened) → s.sendReady n f = s)

/-- LOOP, BR, YIELD, END, TRAP and a reserved opcode (R99, R118, R120, R121): a loop, its count in the instruction or in a register, opens a level at its first
instruction, or with a count of 0 goes past the body; a branch goes to PC plus OFF when its condition holds and on when not; YIELD leaves the tile yielding at the
next instruction; END goes to the next sheet, and without one ends the context; TRAP and a reserved opcode fault the tile. A transfer sets PC alone, and a STOP stops
the tile there. CONTEXT_SWITCH (R99, R100) of a tile that yields with its units idle, to its next context that has not ended: the outgoing context's record is stored
in its save area; an incoming context that has not started begins its sheet with cleared banks, one that has is restored from its own record; the tile runs, or stops
where STOP is set. -/
def Obligations.ControlAndContexts : Prop :=
  (∀ (t : Fin 136) (b : Body) (s : State) (c : Nat), atPC s t.val 0x01 b → reservedChk b (ones 55 55 + (if bbit b 55 then ones 38 34 else ones 54 39) + ones 33 21) [] = [] →
    (s.tile t.val).depth < 4 → rangeChk (s.tile t.val) (s.code t.val).length (((s.tile t.val).pc + bfld b 21 13 + 1 : Nat) : Int) = [] →
    c = (if bbit b 55 then (s.tile t.val).reg (bfld b 34 5) % 2 ^ 32 else bfld b 39 16) → c ≠ 0 →
    exec (.loop t b) s = .next ((s.setTile t.val { s.tile t.val with depth := (s.tile t.val).depth + 1, lcount := kvSet (s.tile t.val).lcount (s.tile t.val).depth c, lstart := kvSet (s.tile t.val).lstart (s.tile t.val).depth ((s.tile t.val).pc + 1), lend := kvSet (s.tile t.val).lend (s.tile t.val).depth ((s.tile t.val).pc + bfld b 21 13 + 1) }).jump
      t.val ((s.tile t.val).pc + 1))) ∧
  (∀ (t : Fin 136) (b : Body) (s : State), atPC s t.val 0x01 b → reservedChk b (ones 55 55 + (if bbit b 55 then ones 38 34 else ones 54 39) + ones 33 21) [] = [] →
    (s.tile t.val).depth < 4 → rangeChk (s.tile t.val) (s.code t.val).length (((s.tile t.val).pc + bfld b 21 13 + 1 : Nat) : Int) = [] →
    (if bbit b 55 then (s.tile t.val).reg (bfld b 34 5) % 2 ^ 32 else bfld b 39 16) = 0 →
    exec (.loop t b) s = .next (s.jump t.val ((s.tile t.val).pc + bfld b 21 13 + 2))) ∧
  (∀ (t : Fin 136) (b : Body) (s : State) (n : Nat), atPC s t.val 0x02 b → reservedChk b (ones 55 28) [(decide (6 < bfld b 52 4), 52)] = [] →
    ((s.tile t.val).pc : Int) + sext 14 (bfld b 28 14) = (n : Int) → rangeChk (s.tile t.val) (s.code t.val).length (n : Int) = [] →
    exec (.br t b) s = .next (if brTaken (bfld b 52 4) ((s.tile t.val).reg (bfld b 47 5)) ((s.tile t.val).reg (bfld b 42 5)) = true then s.jump t.val n else s.advance t.val)) ∧
  (∀ (p n : Nat) (s : State), n < (s.code p).length →
    s.jump p n = s.setTile p (if s.regN (pgPRS p) 0x008 % 2 = 1 then { s.tile p with pc := n, stalled := 0, run := .stopped, stopWas := .running } else { s.tile p with pc := n, stalled := 0 })) ∧
  (∀ (t : Fin 136) (s : State), atPC s t.val 0x03 0 → 2 ≤ (s.tile t.val).slices.length → ((s.tile t.val).loopEnd (s.tile t.val).depth).pc < (s.code t.val).length →
    exec (.yield t 0) s = .next ((s.advance t.val).setTile t.val { (s.advance t.val).tile t.val with run := .yielding, atPc := (s.tile t.val).pc })) ∧
  (∀ (t : Fin 136) (s : State) (nx : Sheet), atPC s t.val 0x04 0 → bitOf (s.tile t.val).phase 4 = false → s.nextSheet (s.tile t.val) = some nx →
    exec (.endSheet t 0) s = .next ((s.setTile t.val (({ s.tile t.val with depth := 0, lcount := [], lstart := [], lend := [] } : Tile).applyInits nx)).jump t.val nx.entry)) ∧
  (∀ (t : Fin 136) (s : State) (v : Tile), atPC s t.val 0x04 0 → bitOf (s.tile t.val).phase 4 = false → s.nextSheet (s.tile t.val) = none →
    v = { (s.tile t.val).modCtx (s.tile t.val).ctx (fun c => { c with ended := true }) with depth := 0, stalled := 0 } →
    exec (.endSheet t 0) s = .next (s.setTile t.val { v with run := if v.nextCtx.isSome then .yielding else .idle, atPc := (s.tile t.val).pc })) ∧
  (∀ (t : Fin 136) (s : State) (c : Ctx), atPC s t.val 0x04 0 → bitOf (s.tile t.val).phase 4 = false → s.nextSheet (s.tile t.val) = none → (s.tile t.val).slices = [c] → (s.tile t.val).ctx = 0 →
    exec (.endSheet t 0) s = .next (s.setTile t.val { s.tile t.val with slices := [{ c with ended := true }], depth := 0, stalled := 0, run := .idle, atPc := (s.tile t.val).pc })) ∧
  (∀ (t : Fin 136) (b : Body) (s : State), atPC s t.val 0x05 b → reservedChk b (ones 15 0) [] = [] →
    exec (.trap t b) s = .next (s.tileFault t.val 0x7F (s.tile t.val).pc (bfld b 0 16))) ∧
  (∀ (t : Fin 136) (w : BitVec 64) (s : State), s.wordAt t.val = some w → knownOpcode (w.toNat / 2 ^ 56) = false →
    exec (.opcodeFault t) s = .next (s.tileFault t.val 1 (s.tile t.val).pc (w.toNat / 2 ^ 56))) ∧
  (∀ (t : Fin 136) (errs : List CaseErr) (s x : State) (out inc : Ctx) (c : Nat) (sh : Sheet), (s.tile t.val).run = .yielding → (s.tile t.val).platen = [] → (s.tile t.val).bankA.drain = none →
    (s.tile t.val).bankB.drain = none → (s.tile t.val).moves = [] → (s.tile t.val).nextCtx = some c → (s.tile t.val).slices[(s.tile t.val).ctx]? = some out → (s.tile t.val).slices[c]? = some inc →
    s.caseRead t.val [(0, min out.extent 0x800000)] errs = (x, none) → dramMapped out.save (saveHead + min out.extent 0x800000) = true →
    s.memOpen out.save (saveHead + min out.extent 0x800000) = true → inc.started = false → (x.dramKeep out.save ((s.tile t.val).saveRecord (min out.extent 0x800000))).1.sheet? inc.sheet = some sh →
    exec (.contextSwitch t errs) s = .next ((x.dramKeep out.save ((s.tile t.val).saveRecord (min out.extent 0x800000))).1.setTile t.val
      (s.resumed t.val c (({ (s.tile t.val).clearBanks with ctx := c } : Tile).beginAt sh)))) ∧
  (∀ (t : Fin 136) (errs : List CaseErr) (s x y z : State) (out inc : Ctx) (c : Nat) (bs : Bytes), (s.tile t.val).run = .yielding → (s.tile t.val).platen = [] → (s.tile t.val).bankA.drain = none →
    (s.tile t.val).bankB.drain = none → (s.tile t.val).moves = [] → (s.tile t.val).nextCtx = some c → (s.tile t.val).slices[(s.tile t.val).ctx]? = some out → (s.tile t.val).slices[c]? = some inc →
    s.caseRead t.val [(0, min out.extent 0x800000)] errs = (x, none) → dramMapped out.save (saveHead + min out.extent 0x800000) = true →
    s.memOpen out.save (saveHead + min out.extent 0x800000) = true → inc.started = true → y = (x.dramKeep out.save ((s.tile t.val).saveRecord (min out.extent 0x800000))).1 →
    dramMapped inc.save (saveHead + min inc.extent 0x800000) = true → y.memOpen inc.save (saveHead + min inc.extent 0x800000) = true →
    y.dramLoad inc.save (saveHead + min inc.extent 0x800000) = (bs, false, z) →
    exec (.contextSwitch t errs) s = .next (z.setTile t.val (s.resumed t.val c ((s.tile t.val).restore bs c (min inc.extent 0x800000))))) ∧
  (∀ (p c : Nat) (v : Tile) (s : State), s.regN (pgPRS p) 0x008 % 2 = 0 → (s.resumed p c v).run = .running ∧ (s.resumed p c v).ctx = v.ctx ∧ (s.resumed p c v).pc = v.pc) ∧
  (∀ (u : Tile) (sh : Sheet), (u.beginAt sh).pc = sh.entry ∧ (u.beginAt sh).sheet = sh.id ∧ (u.beginAt sh).ctx = u.ctx) ∧
  (∀ (bs : Bytes) (c n : Nat) (u : Tile), (u.restore bs c n).ctx = c)

/-- MMA, PRODUCT_ENTRY, ZERO, HOLD and MERGE (R60, R80, R81, R86, R87, R124, R125): an MMA whose operands meet no poison hands one K slice per column of A to the Platen;
the oldest slice enters its bank, or faults the tile where its residue check fails; a bank is zeroed at the anchor of the instruction or of two descriptors, held, or
takes the other bank's sum or a Case image. DRAIN and DRAIN_COMPLETE (R65, R83, R125): with no failing check every accumulator is converted and the drain is recorded
in its bank, with a hold released where it says so; its end adds the bank's LOSS to both counters, counts and latches an OVF of the drain and leaves it in the bank,
and zeroes the bank where the DRAIN asked for it. -/
def Obligations.GalleyAndDrains : Prop :=
  (∀ (t : Fin 136) (b : Body) (errs : List CaseErr) (s x : State) (da db : DescWord) (v : Tile) (fs : List PFault), atPC s t.val 0x20 b → mmaChk (s.tile t.val) b = [] →
    (s.tile t.val).platenFull = false → (s.tile t.val).galleyMove = false → mmaOperands (s.tile t.val) b = (da, db, v, fs) →
    ({ (s.setTile t.val v) with serial := s.serial + 1 } : State).caseRead t.val (descRanges da (dFmt da) (dT da) false ++ descRanges db (dFmt db) (dT db) true) errs = (x, none) →
    exec (.mma t b errs) s = .next ((x.modTile t.val (fun w => { w with platen := w.platen ++ mmaSlices (bbit b 55) s.serial (s.tile t.val).pc da db w.mem })).advance t.val)) ∧
  (∀ (t : Fin 136) (k : KSlice) (r : List KSlice) (s : State), (s.tile t.val).platen = k :: r → ((s.tile t.val).bank k.bankB).drain = none → (s.tile t.val).galleyMove = false →
    exec (.productEntry t false) s = .next ((s.setTile t.val (({ s.tile t.val with platen := r } : Tile).setBank k.bankB (((s.tile t.val).bank k.bankB).enterSlice k))).bump64
      (pgPRS t.val) 0x088 k.m1)) ∧
  (∀ (t : Fin 136) (k : KSlice) (r : List KSlice) (s : State), (s.tile t.val).platen = k :: r → ((s.tile t.val).bank k.bankB).drain = none → (s.tile t.val).galleyMove = false →
    exec (.productEntry t true) s = .next (((s.setTile t.val { s.tile t.val with platen := r.filter (fun x => x.mma != k.mma) }).bump64 (pgPRS t.val) 0x088 k.m1).tileFault
      t.val 0x85 k.pc (b2n k.bankB * 2 ^ 16))) ∧
  (∀ (t : Fin 136) (b : Body) (s : State), atPC s t.val 0x21 b → bfld b 53 2 = 0 → reservedChk b (ones 55 53 + ones 44 29) [] = [] →
    (s.tile t.val).galleyWait (bbit b 55) = false → ((s.tile t.val).bank (bbit b 55)).held = false →
    exec (.zero t b) s = .next ((s.setTile t.val ((s.tile t.val).setBank (bbit b 55) (((s.tile t.val).bank (bbit b 55)).zero (sext 16 (bfld b 29 16))))).advance t.val)) ∧
  (∀ (t : Fin 136) (b : Body) (s : State), atPC s t.val 0x21 b → bfld b 53 2 = 1 → reservedChk b (ones 55 53 + ones 52 45) [] = [] → anchorChk (s.tile t.val) (bfld b 49 4) (bfld b 45 4) = [] →
    (s.tile t.val).galleyWait (bbit b 55) = false → ((s.tile t.val).bank (bbit b 55)).held = false →
    exec (.zero t b) s = .next ((s.setTile t.val ((s.tile t.val).setBank (bbit b 55) (((s.tile t.val).bank (bbit b 55)).zero
      (scaleAnchor ((s.tile t.val).desc (bfld b 49 4)) ((s.tile t.val).desc (bfld b 45 4)))))).advance t.val)) ∧
  (∀ (t : Fin 136) (b : Body) (s : State), atPC s t.val 0x24 b → reservedChk b (ones 55 55) [] = [] → ((s.tile t.val).bank (bbit b 55)).drain = none →
    (s.tile t.val).galleyMove = false →
    exec (.hold t b) s = .next ((s.setTile t.val ((s.tile t.val).setBank (bbit b 55) { (s.tile t.val).bank (bbit b 55) with held := true })).advance t.val)) ∧
  (∀ (t : Fin 136) (b : Body) (errs : List CaseErr) (s : State), atPC s t.val 0x23 b → bbit b 54 = false → mergeChk (s.tile t.val) b = [] → (s.tile t.val).galleyWait (bbit b 55) = false →
    (s.tile t.val).bankBusy (!bbit b 55) = false →
    exec (.merge t b errs) s = .next ((s.setTile t.val ((s.tile t.val).setBank (bbit b 55)
      (((s.tile t.val).bank (bbit b 55)).merge ((s.tile t.val).bank (!bbit b 55))))).advance t.val)) ∧
  (∀ (t : Fin 136) (b : Body) (errs : List CaseErr) (s x : State) (a : Nat), atPC s t.val 0x23 b → bbit b 54 = true → mergeChk (s.tile t.val) b = [] → (s.tile t.val).galleyWait (bbit b 55) = false →
    a = (s.tile t.val).reg (bfld b 49 5) → s.caseRead t.val [(a, 65536)] errs = (x, none) →
    exec (.merge t b errs) s = .next ((x.modTile t.val (fun v => v.setBank (bbit b 55) ((v.bank (bbit b 55)).mergeImage (fun i => BitVec.ofNat 112 (v.mem.readLE (a + 16 * i) 14))))).advance t.val)) ∧
  (∀ (t : Fin 136) (b : Body) (s : State) (k : Bank), atPC s t.val 0x22 b → drainChk (s.tile t.val) b = [] → (s.tile t.val).galleyWait (bbit b 55) = false → k = (s.tile t.val).bank (bbit b 55) →
    exec (.drain t b) s = .next ((s.setTile t.val ((s.drainAll b (s.tile t.val)).1.setBank (bbit b 55) { k with held := k.held && !bbit b 44, drain := some { ovf := s.drainOvf b (s.tile t.val), nonFin := (s.drainAll b (s.tile t.val)).2, phase := (s.tile t.val).inGradPhase, zero := drainZero (s.tile t.val) b } })).advance t.val)) ∧
  (∀ (b : Body) (u : Tile) (s : State), ∃ m tb fs fc, (s.drainAll b u).1 = { u with mem := m, tlyBin := tb, fntSum := fs, fntCnt := fc }) ∧
  (∀ (t : Fin 136) (bank : Bool) (e : DrainEnd) (s : State), ((s.tile t.val).bank bank).drain = some e → e.ovf = false → e.nonFin = false →
    ((s.tile t.val).bank bank).loss = 0 → e.zero = none →
    ∃ u, exec (.drainComplete t bank) s = .next u ∧ u.tile t.val = (s.tile t.val).setBank bank { (s.tile t.val).bank bank with drain := none } ∧
      u = { s with regs := u.regs, tiles := u.tiles } ∧ regsBut s u [(pgPRS t.val, 0x050), (pgPRS t.val, 0x054), (pgPRS t.val, 0x058)]) ∧
  (∀ (t : Fin 136) (bank : Bool) (e : DrainEnd) (s : State) (k : Bank), ((s.tile t.val).bank bank).drain = some e → k = { (s.tile t.val).bank bank with ovf := ((s.tile t.val).bank bank).ovf || e.ovf, drain := none } →
    ∃ u, exec (.drainComplete t bank) s = .next u ∧ u.tile t.val = (s.tile t.val).setBank bank (match e.zero with | none => k | some a => k.zero a) ∧ tilesBut s u t.val ∧
      u.regN (pgPRS t.val) 0x058 = satAdd32 (s.regN (pgPRS t.val) 0x058) k.loss ∧ u.regN (pgPRS t.val) 0x05C = satAdd32 (s.regN (pgPRS t.val) 0x05C) (b2n e.ovf) ∧
      u.reg64 (pgPRS t.val) 0x050 = satAdd64 (s.reg64 (pgPRS t.val) 0x050) k.loss ∧ (e.ovf = true → pends u (pgPRS t.val) 0) ∧ (k.loss ≠ 0 → pends u (pgPRS t.val) 1))

/-- R62: what a product loses depends on it and the anchor alone, never on the accumulator, and the flags are ORs; so the products of one multiset leave the same
accumulator, and with it the same result of R61, and the same counts, in whatever order they enter. -/
def Obligations.EntryOrderFree : Prop :=
  (∀ (a : Int) (c d : Acc) (v : FVal), (c.enter a v).loss = (d.enter a v).loss ∧ (c.enter a v).ovf = (d.enter a v).ovf) ∧
  (∀ (a : Int) (c : Acc) (l m : List FVal), l.Perm m → enterAll a c l = enterAll a c m)

/-- VOP, VRED, TOPK, SAMPLE, CVT and TLY with OP = 1 (R89 to R93, R126 to R129, R152, R153) with no failing check, where the reads meet no poison, whatever errors they
correct: the destination takes what the rule computes, vector after vector, and the tile goes on. Where R91 names no index SAMPLE writes a free value (log entry 31). -/
def Obligations.VectorInstructions : Prop :=
  (∀ (t : Fin 136) (b : Body) (errs : List CaseErr) (s x : State) (rounds : List (List Int)) (v w : Tile) (o : Option Nat), atPC s t.val 0x30 b → vopChk (s.tile t.val) b = [] →
    takeRounds (vopStreams b) (bfld b 14 12 + 1) (s.tile t.val) = (rounds, v) → (s.setTile t.val v).caseRead t.val (vopRanges rounds) errs = (x, o) →
    vopRun b rounds (x.tile t.val) = (w, none) → exec (.vop t b errs) s = .next ((x.setTile t.val w).advance t.val)) ∧
  (∀ (t : Fin 136) (b : Body) (errs : List CaseErr) (s x : State) (as : List Int) (v : Tile), atPC s t.val 0x31 b →
    reservedChk b (ones 55 32) [(decide (4 < bfld b 52 4), 52)] ++
      useChk (s.tile t.val) [bfld b 49 3] (takeRounds [bfld b 49 3] (bfld b 32 12 + 1) (s.tile t.val)).1 256 = [] →
    takeUses (bfld b 32 12 + 1) (bfld b 49 3) (s.tile t.val) = (as, v) → (s.setTile t.val v).caseRead t.val (as.map (fun a => (a.toNat, 256))) errs = (x, none) →
    exec (.vred t b errs) s = .next ((x.modTile t.val (fun w => w.setReg (bfld b 44 5) (vredFn (bfld b 52 4) (as.map w.vec) % 2 ^ 32))).advance t.val)) ∧
  (∀ (t : Fin 136) (b : Body) (errs : List CaseErr) (s x : State) (as ds : List Int) (v v1 : Tile), atPC s t.val 0x32 b → reservedChk b (ones 55 29) [] = [] →
    useChk (s.tile t.val) [bfld b 49 3] (takeRounds [bfld b 49 3] (bfld b 29 12 + 1) (s.tile t.val)).1 256 = [] →
    takeUses (bfld b 29 12 + 1) (bfld b 49 3) (s.tile t.val) = (as, v) → useChk (s.tile t.val) [bfld b 46 3] (takeRounds [bfld b 46 3] 1 v).1 128 = [] →
    takeUses 1 (bfld b 46 3) v = (ds, v1) → (s.setTile t.val v1).caseRead t.val (as.map (fun a => (a.toNat, 256))) errs = (x, none) →
    exec (.topk t b errs) s = .next ((x.modTile t.val (fun w =>
      w.writeAt (ds.headD 0).toNat (topkImage (bfld b 52 4 + 1) ((s.tile t.val).reg (bfld b 41 5) % 2 ^ 32) (as.map w.vec).flatten))).advance t.val)) ∧
  (∀ (t : Fin 136) (b : Body) (errs : List CaseErr) (s x : State) (as : List Int) (v : Tile) (n : Nat), n = bfld b 27 16 + 1 → atPC s t.val 0x34 b → reservedChk b (ones 55 27) [] = [] →
    useChk (s.tile t.val) [bfld b 53 3] (takeRounds [bfld b 53 3] (ceilDiv n 64) (s.tile t.val)).1 256 = [] → takeUses (ceilDiv n 64) (bfld b 53 3) (s.tile t.val) = (as, v) →
    (s.setTile t.val v).caseRead t.val (sampleRanges as n) errs = (x, none) →
    ∃ (z : State) (i : Nat), exec (.sample t b errs) s = .next ((z.modTile t.val (fun w => w.setReg (bfld b 43 5) i)).advance t.val) ∧
      (∀ k, sampleFn (((as.map (x.tile t.val).vec).flatten).take n) ((s.tile t.val).reg (bfld b 48 5) % 2 ^ 24) = some k → z = x ∧ i = k) ∧
      (sampleFn (((as.map (x.tile t.val).vec).flatten).take n) ((s.tile t.val).reg (bfld b 48 5) % 2 ^ 24) = none → z = { x with freeCtr := x.freeCtr + 1 })) ∧
  (∀ (t : Fin 136) (b : Body) (errs : List CaseErr) (s x : State) (w : Tile) (nf : Bool), atPC s t.val 0x40 b → cvtChk (s.tile t.val) b = [] →
    s.caseRead t.val (cvtRanges (s.tile t.val) b) errs = (x, none) → x.cvtAll b (x.tile t.val) = (w, nf) →
    exec (.cvt t b errs) s = .next ((if nf = true ∧ (s.tile t.val).inGradPhase = true then (x.setTile t.val w).ovfSource (s.tile t.val).step 1 else x.setTile t.val w).goOn t.val)) ∧
  (∀ (t : Fin 136) (b : Body) (errs : List CaseErr) (s x : State) (as : List Int) (v : Tile), atPC s t.val 0x48 b → bbit b 55 = true →
    reservedChk b (ones 55 52 + ones 46 32) [] ++
      useChk (s.tile t.val) [bfld b 44 3] (takeRounds [bfld b 44 3] (bfld b 32 12 + 1) (s.tile t.val)).1 256 = [] →
    (s.tile t.val).tag (bfld b 52 3) ≠ 0xFFFFFFFF → takeUses (bfld b 32 12 + 1) (bfld b 44 3) (s.tile t.val) = (as, v) →
    (s.setTile t.val v).caseRead t.val (as.map (fun a => (a.toNat, 256))) errs = (x, none) →
    exec (.tlyCount t b errs) s = .next ((x.modTile t.val (fun w => ((as.map w.vec).flatten).foldl (fun (u : Tile) y => u.tally (bfld b 52 3) (f32dec y)) w)).advance t.val))

/-- MOV, GATH, SIGNAL, BKT and SPOST (R37, R95, R130, R133, R173, R312, R345) with no failing check and room for the request: a move or signal inside the module becomes
a request of its completion group that is performed when it completes; a remote MOV sends one READ or WRITE per piece of at most 4,096 bytes, a remote GATH one
GATHER, a remote SIGNAL one ADD32; a GATH of this module's DRAM joins the queue of its line's Inker; a bucket goes to the Collator with its error terms, a descriptor
to its Sorter, or completes with NO_RESOURCE where the Sorter's domain is off (R494). MOVE_COMPLETE (R131): a completed request leaves the tile, performed now if it
moves data inside the module; one that ends in an error also faults the tile with MOVE_ERROR, its completion group and status; a GATH of a retired edition asks for
the abort of the step. -/
def Obligations.MovementAndCompletion : Prop :=
  (∀ (t : Fin 136) (b : Body) (errs : List CaseErr) (s : State) (u : Tile) (gl ga n : Nat), u = s.tile t.val → gl = u.reg (bfld b 50 5) → ga = u.reg (bfld b 45 5) → n = 64 * (bfld b 29 16 + 1) →
    atPC s t.val 0x50 b → reservedChk b (ones 55 26) [] = [] → localChk u gl n (bfld b 50 5) = [] → ga % 64 = 0 → gaSpace ga ≤ 1 → u.viewWait gl n = false → s.ownViewWait u ga n = false →
    u.requests < 64 → s.gaHere ga = true →
    exec (.mov t b errs) s = .next ((s.pushMove t.val (bfld b 26 3) (.mov (bbit b 55) gl ga (bfld b 29 16 + 1)) 0 true).advance t.val)) ∧
  (∀ (t : Fin 136) (b : Body) (errs : List CaseErr) (s x : State) (u : Tile) (gl ga n : Nat), u = s.tile t.val → gl = u.reg (bfld b 50 5) → ga = u.reg (bfld b 45 5) → n = 64 * (bfld b 29 16 + 1) →
    atPC s t.val 0x50 b → reservedChk b (ones 55 26) [] = [] → localChk u gl n (bfld b 50 5) = [] → ga % 64 = 0 → gaSpace ga ≤ 1 → u.viewWait gl n = false → s.ownViewWait u ga n = false →
    u.requests < 64 → s.gaHere ga = false → u.layoutSw = none → (if bbit b 55 = true ∧ gl < 0x800000 then s.caseRead t.val [(gl, n)] errs else (s, none)) = (x, none) →
    exec (.mov t b errs) s = .next (((pieces n).foldl (fun (z : State) q =>
        z.send (if bbit b 55 then z.tilePkt u 2 (ga + q.1) q.2 (u.readAt (gl + q.1) q.2) else z.tilePkt u 1 (ga + q.1) q.2 []) (.move t.val s.serial q.1))
      (x.pushMove t.val (bfld b 26 3) (.mov (bbit b 55) gl ga (bfld b 29 16 + 1)) (pieces n).length false)).goOn t.val)) ∧
  (∀ (t : Fin 136) (b : Body) (s : State) (u : Tile) (gl ga n : Nat), u = s.tile t.val → gl = u.reg (bfld b 50 5) → ga = u.reg (bfld b 45 5) → n = 64 * (bfld b 24 16 + 1) →
    atPC s t.val 0x51 b → reservedChk b (ones 54 21) [] = [] → localChk u gl n (bfld b 50 5) = [] → ga % 64 = 0 → gaSpace ga = 0 → u.viewWait gl n = false →
    u.requests < 64 → s.gaHere ga = false → u.layoutSw = none →
    exec (.gath t b) s = .next (((pieces n).foldl (fun (z : State) q =>
        z.send (z.tilePkt u 6 (ga + q.1) (u.reg (bfld b 40 5) % 2 ^ 32) (toLE 4 q.2 ++ toLE 12 0)) (.move t.val s.serial q.1))
      (s.pushMove t.val (bfld b 21 3) (.gath gl ga (u.reg (bfld b 40 5) % 2 ^ 32) (bfld b 24 16 + 1)) (pieces n).length false)).goOn t.val)) ∧
  (∀ (t : Fin 136) (b : Body) (s : State) (u : Tile) (gl ga n : Nat), u = s.tile t.val → gl = u.reg (bfld b 50 5) → ga = u.reg (bfld b 45 5) → n = 64 * (bfld b 24 16 + 1) →
    atPC s t.val 0x51 b → reservedChk b (ones 54 21) [] = [] → localChk u gl n (bfld b 50 5) = [] → ga % 64 = 0 → gaSpace ga = 0 → u.viewWait gl n = false →
    u.requests < 64 → s.gaHere ga = true → dramMapped (gaOff ga) n = true →
    exec (.gath t b) s = .next (((s.pushMove t.val (bfld b 21 3) (.gath gl ga (u.reg (bfld b 40 5) % 2 ^ 32) (bfld b 24 16 + 1)) 1 false).pushOp (dramLocate (gaOff ga)).1
      { kind := 2, table := 0, row := u.reg (bfld b 40 5) % 2 ^ 32, step := u.step, slot := u.mbSlot, vals := [], addr := gaOff ga, len := n, req := .gath t.val s.serial 0 }).goOn t.val)) ∧
  (∀ (t : Fin 136) (b : Body) (s : State) (u : Tile) (ga : Nat), u = s.tile t.val → ga = u.reg (bfld b 50 5) → atPC s t.val 0x52 b → reservedChk b (ones 54 31) [] = [] → ga % 4 = 0 →
    gaSpace ga = 1 → s.ownViewWait u ga 4 = false → u.requests < 64 → s.gaHere ga = true →
    exec (.signal t b) s = .next ((s.pushMove t.val (bfld b 31 3) (.signal ga (bfld b 34 16)) 0 true).advance t.val)) ∧
  (∀ (t : Fin 136) (b : Body) (s : State) (u : Tile) (ga : Nat), u = s.tile t.val → ga = u.reg (bfld b 50 5) → atPC s t.val 0x52 b → reservedChk b (ones 54 31) [] = [] → ga % 4 = 0 →
    gaSpace ga = 1 → s.ownViewWait u ga 4 = false → u.requests < 64 → s.gaHere ga = false → u.layoutSw = none →
    exec (.signal t b) s = .next (((s.pushMove t.val (bfld b 31 3) (.signal ga (bfld b 34 16)) 1 false).send (s.tilePkt u 3 ga (bfld b 34 16) []) (.move t.val s.serial 0)).goOn t.val)) ∧
  (∀ (t : Fin 136) (b : Body) (errs : List CaseErr) (s : State), atPC s t.val 0x53 b → bktChk (s.tile t.val) b = [] → s.bktCredit < 1024 → (s.tile t.val).requests < 64 →
    exec (.bkt t b errs) s = .next (((s.caseErrors t.val (bktMeets (s.tile t.val) b errs)).pushMove t.val (bfld b 42 3) (.bkt (s.bktReq (s.tile t.val) b)) 0 false).advance t.val)) ∧
  (∀ (t : Fin 136) (b : Body) (errs : List CaseErr) (s x : State) (u : Tile) (ra : Nat), u = s.tile t.val → ra = u.reg (bfld b 48 5) → atPC s t.val 0x58 b → reservedChk b (ones 55 45) [] = [] →
    ra % 64 = 0 → ra + 128 ≤ u.extent → bfld b 53 3 / 4 = tileFolio t.val → s.domOn (136 + bfld b 53 3) = true →
    (s.srt (bfld b 53 3)).queue.length + (s.srt (bfld b 53 3)).posts.length < 256 → s.caseRead t.val [(ra, 128)] errs = (x, none) →
    exec (.spost t b errs) s = .next (((x.pushMove t.val (bfld b 45 3) (.spost (bfld b 53 3) s.serial) 0 false).modSrt (bfld b 53 3) (fun k =>
      { k with posts := k.posts ++ [postDesc s.serial (u.mem.read ra 128) t.val u] })).goOn t.val)) ∧
  (∀ (t : Fin 136) (b : Body) (errs : List CaseErr) (s : State) (u : Tile) (ra : Nat), u = s.tile t.val → ra = u.reg (bfld b 48 5) → atPC s t.val 0x58 b → reservedChk b (ones 55 45) [] = [] →
    ra % 64 = 0 → ra + 128 ≤ u.extent → bfld b 53 3 / 4 = tileFolio t.val → s.domOn (136 + bfld b 53 3) = false →
    exec (.spost t b errs) s = .next (((s.pushMove t.val (bfld b 45 3) (.spost (bfld b 53 3) s.serial) 0 true).modTile t.val (fun v =>
      { v with moves := v.moves.map (fun m => if m.serial == s.serial then { m with status := stNORES } else m) })).goOn t.val)) ∧
  (∀ (t : Fin 136) (n : Nat) (errs : List CaseErr) (m : Move) (s x : State), (s.tile t.val).moves.find? (fun y => y.serial == n && y.ready) = some m → s.performMove t.val errs m = (x, some 0) →
    exec (.moveComplete t n errs) s = .next (x.modTile t.val (fun u => { u with moves := u.moves.filter (fun y => y.serial != n) }))) ∧
  (∀ (t : Fin 136) (n : Nat) (errs : List CaseErr) (m : Move) (s x y : State) (c : Nat), (s.tile t.val).moves.find? (fun y => y.serial == n && y.ready) = some m →
    s.performMove t.val errs m = (x, some c) → c ≠ 0 → (c ≠ stRETIRED ∨ ∀ gl ga ed k, m.kind ≠ .gath gl ga ed k) →
    y = x.modTile t.val (fun u => { u with moves := u.moves.filter (fun y => y.serial != n) }) →
    exec (.moveComplete t n errs) s = .next (y.tileFault t.val 0x14 m.pc (m.grp * 256 + c % 256))) ∧
  (∀ (t : Fin 136) (n gl ga ed k : Nat) (errs : List CaseErr) (m : Move) (s x y : State), (s.tile t.val).moves.find? (fun y => y.serial == n && y.ready) = some m → m.kind = .gath gl ga ed k →
    s.performMove t.val errs m = (x, some stRETIRED) → y = x.modTile t.val (fun u => { u with moves := u.moves.filter (fun y => y.serial != n) }) →
    exec (.moveComplete t n errs) s = .next ((y.askAbort (y.tile t.val).step 4).tileFault t.val 0x14 m.pc (m.grp * 256 + stRETIRED % 256))) ∧
  (∀ (p : Nat) (errs : List CaseErr) (m : Move) (q : BktReq) (s : State), m.kind = .bkt q → s.performMove p errs m = (s, some m.status))

/-- WAIT, FENCE and their end (R132): a wait whose condition holds lets the tile go on; one whose condition does not hold leaves the tile waiting for it; the event that
ends the wait resumes it. BAR and its release (R132, R134), after a full fence: a context whose other contexts of the same tile have all reached the barrier waits
there, one that lacks such a context yields, and one that was released already goes on; when every member has reached the barrier each is released, the resident
waiting ones go on. -/
def Obligations.WaitsAndBarriers : Prop :=
  (∀ (t : Fin 136) (b : Body) (s : State), atPC s t.val 0x60 b → bfld b 54 2 = 0 → reservedChk b (ones 55 46) [] = [] →
    exec (.waitGroups t b) s = .next (if (s.tile t.val).moves.any (fun x => bitOf (bfld b 46 8) x.grp) then
      s.setTile t.val { s.tile t.val with run := .waiting, wait := some (.groups (bfld b 46 8)) } else s.advance t.val)) ∧
  (∀ (t : Fin 136) (b : Body) (errs : List CaseErr) (s x : State), atPC s t.val 0x60 b → bfld b 54 2 = 1 ∨ bfld b 54 2 = 2 → reservedChk b (ones 55 54 + ones 45 36) [] = [] →
    (s.tile t.val).reg (bfld b 41 5) % 4 = 0 → (s.tile t.val).reg (bfld b 41 5) + 4 ≤ (s.tile t.val).extent →
    s.caseRead t.val [((s.tile t.val).reg (bfld b 41 5), 4)] errs = (x, none) →
    exec (.waitFlag t b errs) s = .next (x.holdOn t.val (.flag (bfld b 54 2 == 2) ((s.tile t.val).reg (bfld b 41 5)) ((s.tile t.val).reg (bfld b 36 5) % 2 ^ 32)))) ∧
  (∀ (t : Fin 136) (b : Body) (s : State), atPC s t.val 0x61 b → reservedChk b (ones 55 51) [] = [] →
    exec (.fence t b) s = .next (if (s.tile t.val).fenced (bfld b 51 5) then s.advance t.val else
      s.setTile t.val { s.tile t.val with run := .waiting, wait := some (.fence (bfld b 51 5)) })) ∧
  (∀ (p : Nat) (w : Wait) (s : State), s.holdOn p w = if (s.tile p).waitDone w then s.advance p else s.setTile p { s.tile p with run := .waiting, wait := some w }) ∧
  (∀ (t : Fin 136) (errs : List CaseErr) (w : Wait) (s : State), (s.tile t.val).run = .waiting → (s.tile t.val).wait = some w → (∀ e a v, w ≠ .flag e a v) →
    exec (.waitSatisfied t errs) s = .next (if (s.tile t.val).waitDone w then (s.setTile t.val { s.tile t.val with run := .running, wait := none }).advance t.val else s)) ∧
  (∀ (t : Fin 136) (errs : List CaseErr) (e : Bool) (a v : Nat) (s x : State), (s.tile t.val).run = .waiting → (s.tile t.val).wait = some (.flag e a v) →
    s.caseRead t.val [(a, 4)] errs = (x, none) →
    exec (.waitSatisfied t errs) s = .next (if (s.tile t.val).waitDone (.flag e a v) then (x.setTile t.val { s.tile t.val with run := .running, wait := none }).advance t.val else x)) ∧
  (∀ (t : Fin 136) (b : Body) (s : State) (m : Nat) (v : Tile), atPC s t.val 0x62 b → (s.tile t.val).fenced 0x1F = true → s.barChk (s.tile t.val) b = [] →
    (s.tile t.val).barPassed (bfld b 52 4) = false → s.barMembers (s.tile t.val) (bfld b 52 4) = some m →
    v = (s.tile t.val).modCtx (s.tile t.val).ctx (fun c => { c with bar := some (bfld b 52 4), passed := false }) →
    exec (.bar t b) s = .next (s.setTile t.val (if v.barMissing m (bfld b 52 4) then { v with run := .yielding, atPc := v.pc } else { v with run := .waiting, wait := some (.barrier (bfld b 52 4)) }))) ∧
  (∀ (t : Fin 136) (b : Body) (s : State), atPC s t.val 0x62 b → (s.tile t.val).fenced 0x1F = true → s.barChk (s.tile t.val) b = [] → (s.tile t.val).barPassed (bfld b 52 4) = true →
    exec (.bar t b) s = .next ((s.setTile t.val ((s.tile t.val).modCtx (s.tile t.val).ctx (fun c => { c with bar := none, passed := false }))).advance t.val)) ∧
  (∀ (t : Fin 136) (s : State) (id m : Nat), (s.tile t.val).run = .waiting → (s.tile t.val).wait = some (.barrier id) → s.barMembers (s.tile t.val) id = some m → s.barReached m id = true →
    exec (.barrierRelease t) s = .next ((barContexts m).foldl (fun (x : State) i => x.barRelease id i) s)) ∧
  (∀ (t : Fin 136) (s : State) (id l : Nat) (c : Ctx), (s.tile t.val).run = .waiting → (s.tile t.val).wait = some (.barrier id) → l < 128 →
    s.barMembers (s.tile t.val) id = some (2 ^ (8 * l)) → s.physical l = some t.val → (s.tile t.val).ctx = 0 → (s.tile t.val).slices = [c] → c.bar = some id → c.passed = false →
    exec (.barrierRelease t) s = .next ((s.setTile t.val { s.tile t.val with slices := [{ c with bar := none, passed := false }], run := .running, wait := none }).advance t.val))

/-- PHASE and LAYOUT_SWITCH_DONE (R133, R288): PHASE opens a phase with its slot and starts the switch to the phase's layout, counting where the imposition lacks it;
PHASE with END closes it; the switch ends with the new layout. PHASE with END (R88, R133): HELD_OPEN faults the tile where a bank is held at the end of BWD, with the
bank in its detail. -/
def Obligations.PhaseInstructionsAndHeldBanks : Prop :=
  (∀ (t : Fin 136) (b : Body) (s : State), atPC s t.val 0x68 b → bbit b 51 = false → reservedChk b (phaseNamed b) [] = [] → bitOf (s.tile t.val).phase 4 = false →
    exec (.phaseBegin t b) s = .next (((match s.imp.active with | some i => if bitOf i.layouts (bfld b 54 2) then s else s.bump pgIMP 0x068 1 | none => s).setTile t.val
      { s.tile t.val with phase := bfld b 54 2 + bfld b 52 2 * 4 + 16, layoutSw := some (s.layoutFor (bfld b 54 2)) }).advance t.val)) ∧
  (∀ (t : Fin 136) (b : Body) (s : State), atPC s t.val 0x68 b → bbit b 51 = true → reservedChk b (phaseNamed b) [] = [] →
    (s.tile t.val).phase = bfld b 54 2 + bfld b 52 2 * 4 + 16 → (bfld b 54 2 = 2 → (s.tile t.val).bankA.held = false ∧ (s.tile t.val).bankB.held = false) →
    exec (.phaseEnd t b) s = .next ((s.setTile t.val { s.tile t.val with phase := (s.tile t.val).phase % 16 }).advance t.val)) ∧
  (∀ (t : Fin 136) (l : Nat) (s : State), (s.tile t.val).layoutSw = some l →
    exec (.layoutSwitchDone t) s = .next (s.setTile t.val { s.tile t.val with layout := l, layoutSw := none })) ∧
  (∀ (t : Fin 136) (b : Body) (s : State), atPC s t.val 0x68 b → bbit b 51 = true → reservedChk b (phaseNamed b) [] = [] →
    (s.tile t.val).phase = bfld b 54 2 + bfld b 52 2 * 4 + 16 → bfld b 54 2 = 2 → ((s.tile t.val).bankA.held = true ∨ (s.tile t.val).bankB.held = true) →
    exec (.phaseEnd t b) s = .next (s.tileFault t.val 0x81 (s.tile t.val).pc (if (s.tile t.val).bankA.held then 0 else 2 ^ 16))) ∧
  (∀ (t : Fin 136) (b : Body) (s : State), atPC s t.val 0x68 b → bbit b 51 = true → reservedChk b (phaseNamed b) [] = [] →
    (s.tile t.val).phase = bfld b 54 2 + bfld b 52 2 * 4 + 16 → bfld b 54 2 = 2 → (s.tile t.val).bankA.held = true → s.step? (s.tile t.val).step = none →
    ∃ u, exec (.phaseEnd t b) s = .next u ∧ (u.tile t.val).run = .faulted ∧ u.regN (pgPRS t.val) 0x024 = 0x81 ∧ pends u (pgPRS t.val) 2)

/-- TILE_STOP and TILE_RETIRE_REQUEST (R34, R103): each writes PRS.CTRL with its other field as it stands, whatever the tile's domain (R434); a change of STOP in
STEPPING is refused, RETIRE applies at the boundary. A write of STOP stops a running or an idle tile, which keeps what it was; a write of 0 resumes a stopped one; a
write of RETIRE stores the bit. Only the tile's run state, its CTRL register, the held boundary fields and the answer change. -/
def Obligations.TileControlWrites : Prop :=
  (∀ (t : Fin 136) (s : State), s.fmn.state ≠ .stepping → (s.tile t.val).run = .running →
    ∃ u, exec (.tileStop t true) s = .next u ∧ u = { s with regs := u.regs, heldOld := u.heldOld, tiles := u.tiles, answer := 0 } ∧
      u.tile t.val = { s.tile t.val with run := .stopped, stopWas := .running } ∧ tilesBut s u t.val ∧ regsBut s u [(pgPRS t.val, 0x008)]) ∧
  (∀ (t : Fin 136) (s : State), s.fmn.state ≠ .stepping → (s.tile t.val).run = .stopped →
    ∃ u, exec (.tileStop t false) s = .next u ∧ u = { s with regs := u.regs, heldOld := u.heldOld, tiles := u.tiles, answer := 0 } ∧
      u.tile t.val = { s.tile t.val with run := (s.tile t.val).stopWas, ran := (s.tile t.val).ran || (s.tile t.val).stopWas == .running } ∧ tilesBut s u t.val ∧ regsBut s u [(pgPRS t.val, 0x008)]) ∧
  (∀ (t : Fin 136) (r : Bool) (s : State), s.fmn.state ≠ .stepping → s.regN (pgPRS t.val) 0x008 = 0 → (s.tile t.val).run ≠ .stopped →
    ∃ u, exec (.tileRetireRequest t r) s = .next u ∧ u = { s with regs := u.regs, heldOld := u.heldOld, answer := 0 } ∧
      u.regN (pgPRS t.val) 0x008 = (if r then 2 else 0) ∧ regsBut s u [(pgPRS t.val, 0x008)]) ∧
  (∀ (t : Fin 136) (b : Bool) (v : Nat) (s : State), v = (s.regN (pgPRS t.val) 0x008 &&& 2 ||| b2n b) → (s.fmn.state = .stepping → s.changesNow (pgPRS t.val) .prs t.val 0x008 v = false) →
    ∃ u, exec (.tileStop t b) s = .next u ∧ u = { s with regs := u.regs, heldOld := u.heldOld, tiles := (s.tileStop t.val b).tiles, answer := 0 } ∧
      u.reg (pgPRS t.val) 0x008 = writtenBits (s.regN (pgPRS t.val) 0x008) v 3 ∧ regsBut s u [(pgPRS t.val, 0x008)]) ∧
  (∀ (t : Fin 136) (b : Bool) (v : Nat) (s : State), v = (s.regN (pgPRS t.val) 0x008 &&& 1 ||| 2 * b2n b) →
    ∃ u, exec (.tileRetireRequest t b) s = .next u ∧ u = { s with regs := u.regs, heldOld := u.heldOld, tiles := (s.tileStop t.val (bitOf v 0)).tiles, answer := 0 } ∧
      u.reg (pgPRS t.val) 0x008 = writtenBits (s.regN (pgPRS t.val) 0x008) v 3 ∧ regsBut s u [(pgPRS t.val, 0x008)]) ∧
  (∀ (t : Fin 136) (s : State), (s.tile t.val).run = .idle → s.tileStop t.val true = s.setTile t.val { s.tile t.val with run := .stopped, stopWas := .idle }) ∧
  (∀ (t : Fin 136) (b : Bool) (v : Nat) (s : State), v = (s.regN (pgPRS t.val) 0x008 &&& 2 ||| b2n b) → s.fmn.state = .stepping → s.changesNow (pgPRS t.val) .prs t.val 0x008 v = true →
    exec (.tileStop t b) s = .next { s with answer := stILLEGAL })

/-- SHEET_LOAD, SHEET_INSTALL, SHEET_INSTALL_APPLY and SPARE_READY (R75, R134 to R136, R495): a sound image in DRAM is held under its SHEET_ID and the reply carries it;
a sound install record waits for the boundary without a reply; the boundary with every tile idle installs its sheets and gives each tile its contexts; a spare that
has wiped itself is ready, with its domain on. -/
def Obligations.SheetCommands : Prop :=
  (∀ (q : Fin 64) (c : Cmd) (s x y z : State) (img : Bytes) (bad : Bool), starts s q.val 0x30 c → x = s.started q.val c → x.extentOk (leAt c.body 0 8) (leAt c.body 8 4) = true →
    x.dramLoad (leAt c.body 0 8) (leAt c.body 8 4) = (img, bad, y) → sheetOk img = true → leAt img 0x22 2 ≤ 1 → z = y.imageChecked (crcField0 img 0x3C) true →
    (z.fmn.sheets.length < 256 ∨ kvHas z.fmn.sheets (leAt img 8 2) = true) →
    exec (.sheetLoad q) s = .next ((z.setFmn (fun m => { m with sheets := kvSet m.sheets (leAt img 8 2) (sheetOf img (leAt c.body 0 8)) })).ok (c.ret q.val) (toLE 2 (leAt img 8 2)))) ∧
  (∀ (q : Fin 64) (c : Cmd) (s x y z : State) (img : Bytes) (bad : Bool), starts s q.val 0x33 c → x = s.started q.val c → x.extentOk (leAt c.body 0 8) (leAt c.body 8 4) = true →
    x.dramLoad (leAt c.body 0 8) (leAt c.body 8 4) = (img, bad, y) → instOk img = true → z = (y.sheetsSeen (instEntries img)).imageChecked (crcField0 img 0xC) true →
    z.instFits (instEntries img) = true → (instEntries img).any (fun e => decide (8192 < tileCode z.fmn.sheets e)) = false → z.fmn.install = none →
    exec (.sheetInstall q) s = .next (z.setFmn (fun m => { m with install := some (Install.mk (c.ret q.val) (instTiles (instEntries img)) (z.sheetsTaken (instEntries img))) }))) ∧
  (∀ (s : State), s.fmn.install.isSome = true → s.allIdle = true → exec .sheetInstallApply s = .next s.boundary.applyInstall) ∧
  (∀ (s : State) (i : Install), s.fmn.install = some i → s.allIdle = true →
    s.applyInstall.fmn.install = none ∧ s.applyInstall.fmn.installed = i.sheets ∧
      (∀ p, (s.applyInstall.tile p).slices = if p ∈ s.enabledTiles then (kvGet i.tiles (s.tile p).logical []).map (fun c => Ctx.mk c.1 c.2.1 c.2.2 false false none false)
        else (s.tile p).slices)) ∧
  (∀ (t : Fin 136) (s : State), (s.tile t.val).wiping = true →
    exec (.spareReady t) s = .next (((s.setTile t.val { s.tile t.val with wiping := false, ready := true, freq := 3600, mem := Ram.wiped, bankA := Bank.reset, bankB := Bank.reset, platen := [] }).setDom t.val 1).latch (pgPRS t.val) 6))

/-- STEP_OPEN, MB_SUBMIT and STEP_ABORT (R264 to R266, R278, R280): the next step with a staged micro-batch begins to form, or, on a replacement, the next held step is
placed in ROLLING_BACK; a micro-batch descriptor is staged in a free slot and answered OK; an abort of the step that would open next drops what is staged, one of the
forming step answers its step.open with STEP_ABORTED, one of an unreleased step asks the leader and waits for its decision. SCALE_RECORD_WRITE, STEP_OPENING,
STEP_MICRO_BATCHES_ENDED and STEP_REOPEN (R137, R138, R157, R262, R266, R269): the forming step's record goes to its slot, one that an aborted step left serves its
number again under the present epoch; a step that can open is forming no longer, its micro-batches have left the staging slots and the module is STEPPING; with every
tile idle the open step sends READY; the lowest restored step that can open again does. -/
def Obligations.StepCommandsAndOpening : Prop :=
  (∀ (q : Fin 64) (c : Cmd) (s x : State), starts s q.val 0x50 c → x = s.started q.val c → x.fmn.takeover = false → x.fmn.forming = none →
    leAt c.body 0 8 = x.stepNext → x.fmn.staged ≠ [] →
    exec (.stepOpen q) s = .next { x with fmn := { x.fmn with forming := some { n := leAt c.body 0 8, reply := c.ret q.val, waited := false, scale := none, recWaited := false } } }) ∧
  (∀ (q : Fin 64) (c : Cmd) (s x : State) (n a : Nat) (r : List (Nat × Nat)), starts s q.val 0x50 c → x = s.started q.val c → x.fmn.takeover = true → x.fmn.held = (n, a) :: r →
    leAt c.body 0 8 = n → n = x.stepNext → x.fmn.staged ≠ [] →
    ∃ u, exec (.stepOpen q) s = .next u ∧ u = x.openHeld n (c.ret q.val) ∧ u.fmn.held = r ∧ u.fmn.staged = [] ∧
      u.fmn.steps.any (fun w => w.n == n && w.attempt == a && w.state == .rollingBack && w.rolled) = true) ∧
  (∀ (q : Fin 64) (c : Cmd) (s x : State), starts s q.val 0x51 c → x = s.started q.val c → leAt c.body 0 1 ≤ 3 → leAt (c.body.drop 8) 0 4 ≠ 0 → leAt (c.body.drop 8) 4 1 ≤ 1 →
    allZero (sliceB (c.body.drop 8) 5 3) = true → leAt (c.body.drop 8) 8 8 + leAt (c.body.drop 8) 0x10 8 ≤ dramSize → kvHas x.fmn.staged (leAt c.body 0 1) = false →
    (x.fmn.takeover = true ∨ bitOf x.busySlots (leAt c.body 0 1) = false) →
    exec (.mbSubmit q) s = .next ({ x with fmn := { x.fmn with staged := kvSet x.fmn.staged (leAt c.body 0 1) (sliceB (c.body.drop 8) 0 48) } }.ok (c.ret q.val) [])) ∧
  (∀ (q : Fin 64) (c : Cmd) (s x : State), starts s q.val 0x52 c → x = s.started q.val c → x.fmn.forming = none → x.step? (leAt c.body 0 8) = none → leAt c.body 0 8 = x.stepNext →
    exec (.stepAbort q) s = .next ({ x with fmn := { x.fmn with staged := [] } }.ok (c.ret q.val) [])) ∧
  (∀ (q : Fin 64) (c : Cmd) (s x : State) (f : Forming), starts s q.val 0x52 c → x = s.started q.val c → x.fmn.forming = some f → leAt c.body 0 8 = f.n →
    exec (.stepAbort q) s = .next ((({ x with fmn := { x.fmn with forming := none } }.replyTo f.reply stABORTED []).ok (c.ret q.val) []).settle)) ∧
  (∀ (q : Fin 64) (c : Cmd) (s x : State), starts s q.val 0x52 c → x = s.started q.val c → (∀ f, x.fmn.forming = some f → leAt c.body 0 8 ≠ f.n) → (x.step? (leAt c.body 0 8)).isSome = true →
    exec (.stepAbort q) s = .next ((x.modStep (leAt c.body 0 8) (fun w => { w with aborters := w.aborters ++ [c.ret q.val] })).askAbort (leAt c.body 0 8) 6)) ∧
  (∀ (s : State) (f : Forming) (ef : Nat), s.fmn.forming = some f → f.scale = none → s.recordOf f.n = none → s.slotFree f.n = true → s.freeEf = some ef →
    exec .scaleRecordWrite s = .next ((s.putRecord (s.formRecord f.n ef)).setFmn (fun m => { m with forming := some { f with scale := some (s.formRecord f.n ef) } }))) ∧
  (∀ (s : State) (f : Forming) (r : ScaleRec), s.fmn.forming = some f → f.scale = none → s.recordOf f.n = some r →
    exec .scaleRecordWrite s = .next ((if r.epoch = s.epoch then s else s.putRecord { r with epoch := s.epoch }).setFmn (fun m => { m with forming := some { f with scale := some { r with epoch := s.epoch } } }))) ∧
  (∀ (s : State) (f : Forming) (r : ScaleRec), s.fmn.forming = some f → (s.fmn.state = .joined ∨ s.fmn.state = .stepping) → s.canOpen f = true → f.scale = some r → s.boundary.spareWait = false →
    ∃ u, exec .stepOpening s = .next u ∧ u = s.openForming f r ∧ u.fmn.forming = none ∧ u.fmn.staged = [] ∧ u.fmn.state = .stepping ∧ u.fmn.steps.any (fun w => w.n == f.n && w.state == .opened) = true) ∧
  (∀ (s : State) (r : StepRec), s.fmn.steps.find? (fun r => r.state == .opened) = some r → s.allIdle = true → s.stepMoves = false →
    exec .stepMicroBatchesEnded s = .next (s.sendReady r.n false)) ∧
  (∀ (s : State) (n : Nat), lowest ((s.fmn.steps.filter (fun r => s.canReopen r)).map (·.n)) = some n → s.boundary.spareWait = false →
    exec .stepReopen s = .next (s.reopenStep n))

/-- READY, ALL_IN, DECISION, COMMIT_DONE, RELEASE, RESUME and ABORT_REQ (R269 to R278, R313): the delivered SLICE packet is taken and answered OK, and the step it names
goes on as its row of the state table says: the leader notes the READY; a collating step begins its exchange and is DECIDING; a decision is carried out, and the
deputy notes it; the leader notes a COMMIT_DONE or a failed commit; a committed step is released; the steps held for repeat may open; the leader decides an abort. -/
def Obligations.SliceMessages : Prop :=
  (∀ (s x : State) (o : OutPkt), s.sliceIn 1 = some (o, x) →
    exec .ready s = .next ((x.takeReady o.pkt.src (sliceStep o.pkt) (sliceAttempt o.pkt) (sliceRest o.pkt)).reply o stOK [])) ∧
  (∀ (s x : State) (o : OutPkt) (r : StepRec), s.sliceIn 2 = some (o, x) → x.step? (sliceStep o.pkt) = some r → r.attempt = sliceAttempt o.pkt → r.state = .collating →
    x.firstAct 2 (sliceStep o.pkt) (sliceAttempt o.pkt) = true →
    exec .allIn s = .next ((((x.boundary.acted 2 (sliceStep o.pkt) (sliceAttempt o.pkt)).modStep (sliceStep o.pkt) (fun r => { r with state := .deciding, tAllIn := some (x.reg64 pgDTL 0x040) })).exchSend
      (sliceStep o.pkt) (sliceAttempt o.pkt)).reply o stOK [])) ∧
  (∀ (s x y : State) (o : OutPkt) (d : DecMsg), s.sliceIn 3 = some (o, x) → decOf (sliceRest o.pkt) = some d →
    y = (if x.self = x.deputy then (x.leadFor (sliceStep o.pkt) (sliceAttempt o.pkt)).modLead (sliceStep o.pkt) (fun l => if l.attempt = sliceAttempt o.pkt then { l with decided := some d } else l) else x) →
    exec .decision s = .next ((y.takeDecision (sliceStep o.pkt) (sliceAttempt o.pkt) d).reply o stOK [])) ∧
  (∀ (s : State) (n a : Nat) (d : DecMsg) (r : StepRec), s.step? n = some r → r.attempt = a → s.firstAct (32 + d.verdict.code) n a = true → r.state = .deciding →
    (d.verdict = .commit → s.takeDecision n a d = s.takeCommit n a d) ∧ (d.verdict = .skip → s.takeDecision n a d = ((s.decided n a d).startRollback n .skip).beginRestores)) ∧
  (∀ (s : State) (n a : Nat) (d : DecMsg) (r : StepRec), s.step? n = some r → r.attempt = a → s.firstAct (32 + d.verdict.code) n a = true → r.state ≠ .rollingBack →
    (d.verdict = .repeat ∨ d.verdict = .suspend ∨ d.verdict = .abort) → s.takeDecision n a d = (s.decided n a d).rollFrom n d.verdict) ∧
  (∀ (s x : State) (o : OutPkt) (l : LeadRec), s.sliceIn 4 = some (o, x) → x.lead? (sliceStep o.pkt) = some l → l.attempt = sliceAttempt o.pkt →
    bitOf (leAt (sliceRest o.pkt) 0 1) 0 = false →
    exec .commitDone s = .next (((x.modLead (sliceStep o.pkt) (fun l => { l with commits := setIns l.commits o.pkt.src })).checkRelease (sliceStep o.pkt)).reply o stOK [])) ∧
  (∀ (s x : State) (o : OutPkt) (l : LeadRec), s.sliceIn 4 = some (o, x) → x.lead? (sliceStep o.pkt) = some l → l.attempt = sliceAttempt o.pkt →
    bitOf (leAt (sliceRest o.pkt) 0 1) 0 = true →
    exec .commitDone s = .next (((x.modLead (sliceStep o.pkt) (fun l => l.stopped 3 o.pkt.src)).leaderDecide (sliceStep o.pkt)).reply o stOK [])) ∧
  (∀ (s x y : State) (o : OutPkt), s.sliceIn 5 = some (o, x) →
    y = (if x.self = x.deputy then (x.leadFor (sliceStep o.pkt) (sliceAttempt o.pkt)).modLead (sliceStep o.pkt) (fun l => if l.attempt = sliceAttempt o.pkt then { l with released := true } else l) else x) →
    exec .release s = .next ((y.takeRelease (sliceStep o.pkt) (sliceAttempt o.pkt)).reply o stOK [])) ∧
  (∀ (s x y : State) (o : OutPkt), s.sliceIn 6 = some (o, x) →
    y = { x with fmn := { x.fmn with takeover := !x.fmn.held.isEmpty, resumed := !x.fmn.held.isEmpty, steps := x.fmn.steps.map (fun (r : StepRec) => if r.await then { r with await := false, after := some Verdict.repeat } else r) } } →
    exec .resume s = .next ((if x.fmn.state = .quiesced ∨ (x.fmn.state = .joined ∧ x.fmn.steps.any (·.await) = true) then (y.setMod .stepping).settle else y).reply o stOK [])) ∧
  (∀ (s x : State) (o : OutPkt) (k : Nat), s.sliceIn 0x0B = some (o, x) → x.isLeader = true →
    k = (if o.pkt.src = x.self then ((x.step? (sliceStep o.pkt)).map (fun r => if r.cause = 0 then 6 else r.cause)).getD 6 else 6) →
    exec .abortReq s = .next ((x.takeAbort (sliceStep o.pkt) (sliceAttempt o.pkt) k o.pkt.src).reply o stOK []))

/-- RELEASE (R269): a committed step of the attempt is unreleased no longer, whichever member it is. -/
def Obligations.ReleaseEndsStep : Prop :=
  ∀ (s : State) (n a : Nat) (r : StepRec), s.step? n = some r → r.attempt = a → r.state = .committed → (s.takeRelease n a).step? n = none

/-- COLLATION_DEADLINE, NORM_PARTIAL_SEND, C_NORM and NORM_DEADLINE (R272, R354): a late attempt is marked for repeat, with the members that are late, and decided; a
member whose exchange is done sends its norm partial to the leader; the leader notes each partial by rank and decides; a missing partial makes the attempt late. -/
def Obligations.LeaderEvents : Prop :=
  (∀ (s : State) (n : Nat) (l : LeadRec) (late : List Nat), s.lead? n = some l → s.isLeader = true → l.armed = true → l.allIn = false → l.decided = none →
    late = s.members.filter (fun c => !l.readyChips.contains c) →
    exec (.collationDeadline n) s = .next ((s.modLead n (fun m => { m.stopped 1 (late.head?.getD s.self) with late := late.foldl setIns [] })).leaderDecide n)) ∧
  (∀ (s x : State) (e : Exch), s.normReady = some e → x = (s.putExch { e with normSent := true }).modStep e.step (fun r => { r with normSent := true }) →
    exec .normPartialSend s = .next (x.send (x.colPkt 0x35 2 x.leader 0 (s.normPartial e.step) (x.layoutFor 1) (colHead e.step e.attempt 0 0 0 0)) .none)) ∧
  (∀ (s x : State) (o : OutPkt) (l : LeadRec) (k : Nat), s.takeOldest 0x35 = some (o, x) → x.lead? (colStep o.pkt.payload) = some l →
    x.rankOf o.pkt.src = some k → l.attempt = colAtt o.pkt.payload →
    exec .cNorm s = .next ((x.modLead (colStep o.pkt.payload) (fun l => { l with norms := kvSet l.norms k o.pkt.arg })).leaderDecide (colStep o.pkt.payload))) ∧
  (∀ (s : State) (n : Nat) (l : LeadRec) (missing : List Nat), s.lead? n = some l → s.isLeader = true → l.allIn = true → l.decided = none →
    missing = s.members.filter (fun c => match s.rankOf c with | some r => !kvHas l.norms r | none => false) →
    exec (.normDeadline n) s = .next ((s.modLead n (fun m => m.stopped 1 (missing.head?.getD s.self))).leaderDecide n))

/-- LS_CFG_LOAD, TT_INDEX_WRITE and TT_COMMIT (R146, R167): the LOAD waits for the boundary; the selected entry stands in the staging registers; a commit captures the
staged entry and waits for the boundary; a field outside its range, MODE 3 and HISTORY with another format latch the block's event and change nothing. RPT_TAIL_WRITE
and STEP_NEXT_WRITE (R261, R290) store the word. With the domain off each is refused. STEP_NEXT_WRITE (R261): ILLEGAL_IN_STATE, and nothing else changes, where the
Foreman is not JOINED or a step is open. WIN_DATA_WRITE, RTE_SELF_WRITE and RTE_SHAPE_WRITE (R301, R319, R324): in IDLE with no imposition active, the route of
WIN_INDEX's chip in the fields of its entry, the own chip number with its Ledger update, and the shape with its Ledger update, which clears the window's routes; a
chip outside the shape and a shape outside its ranges are ignored with the block's event; elsewhere each is refused. -/
def Obligations.TrainingRegisterWrites : Prop :=
  (∀ (v : Word) (s : State), s.domOn 183 = true → lsCfgOk (v.toNat ||| 1) = true →
    ∃ u, exec (.lsCfgLoad v) s = .next u ∧ u = { s with regs := u.regs, heldOld := u.heldOld, num := { s.num with load := true }, answer := 0 } ∧
      u.reg pgNUM 0x040 = writtenBits (s.regN pgNUM 0x040) (v.toNat ||| 1) 0xFFFFFF00 ∧ regsBut s u [(pgNUM, 0x040)]) ∧
  (∀ (v : Word) (s : State), s.domOn 183 = true → lsCfgOk (v.toNat ||| 1) = false → exec (.lsCfgLoad v) s = .next { s.latch pgNUM 5 with answer := 0 }) ∧
  (∀ (hi : Bool) (v : Word) (s : State), s.domOn 183 = false → exec (.lsCfgLoad v) s = .next { s with answer := stILLEGAL } ∧ exec (.ttIndexWrite v) s = .next { s with answer := stILLEGAL } ∧
    exec .ttCommit s = .next { s with answer := stILLEGAL } ∧ exec (.rptTailWrite v) s = .next { s with answer := stILLEGAL } ∧ exec (.stepNextWrite hi v) s = .next { s with answer := stILLEGAL }) ∧
  (∀ (v : Word) (s : State), s.domOn 183 = true →
    ∃ u, exec (.ttIndexWrite v) s = .next u ∧ u = { s with regs := u.regs, answer := 0 } ∧ u.regN pgNUM 0x094 = v.toNat % 1024 ∧
      u.reg pgNUM 0x098 = BitVec.ofNat 32 (kvGet s.num.table (v.toNat % 1024) TensorEnt.clear).tid ∧
      u.reg pgNUM 0x09C = BitVec.ofNat 32 ((kvGet s.num.table (v.toNat % 1024) TensorEnt.clear).word &&& 0xEFFCFFFF) ∧
      regsBut s u [(pgNUM, 0x094), (pgNUM, 0x098), (pgNUM, 0x09C)]) ∧
  (∀ (s : State) (e : TensorEnt), s.domOn 183 = true → e = { TensorEnt.clear with word := s.regN pgNUM 0x09C } → e.mode ≠ 3 → (e.mode = 1 → (histTf e.fmt).isSome = true) →
    ∃ u, exec .ttCommit s = .next u ∧ u = { s with regs := u.regs, answer := 0, num := { s.num with commits := s.num.commits ++ [(s.regN pgNUM 0x094, s.regN pgNUM 0x098, s.regN pgNUM 0x09C)] } } ∧
      regsBut s u [(pgNUM, 0x0A4)]) ∧
  (∀ (s : State) (e : TensorEnt), s.domOn 183 = true → e = { TensorEnt.clear with word := s.regN pgNUM 0x09C } → (e.mode = 3 ∨ (e.mode = 1 ∧ histTf e.fmt = none)) →
    exec .ttCommit s = .next { (s.storeRw pgNUM .num 0 0x0A4 0x8000).numCfgErr with answer := 0 }) ∧
  (∀ (v : Word) (s : State), s.domOn 183 = true →
    ∃ u, exec (.rptTailWrite v) s = .next u ∧ u = { s with regs := u.regs, answer := 0 } ∧
      u.reg pgFMN 0x078 = writtenBits (s.regN pgFMN 0x078) v.toNat 0xFFFFFFFF ∧ regsBut s u [(pgFMN, 0x078)]) ∧
  (∀ (hi : Bool) (v : Word) (s : State), s.domOn 183 = true → s.fmn.state = .joined → s.fmn.forming = none → s.fmn.steps = [] →
    ∃ u, exec (.stepNextWrite hi v) s = .next u ∧ u = { s with regs := u.regs, answer := 0 } ∧
      u.reg pgFMN (if hi then 0x044 else 0x040) = writtenBits (s.regN pgFMN (if hi then 0x044 else 0x040)) v.toNat 0xFFFFFFFF ∧
      regsBut s u [(pgFMN, if hi then 0x044 else 0x040)]) ∧
  (∀ (hi : Bool) (v : Word) (s : State), s.domOn 183 = true → (s.fmn.state ≠ .joined ∨ s.fmn.forming ≠ none ∨ s.fmn.steps ≠ []) →
    exec (.stepNextWrite hi v) s = .next { s with answer := stILLEGAL }) ∧
  (∀ (v : Word) (s : State), s.domOn 179 = true → s.fmn.state = .idle → s.imp.active = none →
    exec (.winDataWrite v) s = .next { s with fab := { s.fab with win := kvSet s.fab.win (s.field pgRTE 0x050 0 14) (v &&& 0xCFF80000#32) }, answer := 0 }) ∧
  (∀ (v : Word) (s : State), s.domOn 179 = true → s.fmn.state = .idle → s.imp.active = none → (s.regN pgRTE 0x044 = 0 ∨ s.chipExists (v.toNat % 16384) = true) →
    ∃ u, exec (.rteSelfWrite v) s = .next u ∧
      u = { s with regs := u.regs, sel := { s.sel with updates := s.sel.updates ++ [(0x900, toLE 2 (v.toNat % 16384))] }, answer := 0 } ∧
      u.reg pgRTE 0x040 = writtenBits (s.regN pgRTE 0x040) v.toNat 0x3FFF ∧ regsBut s u [(pgRTE, 0x040)]) ∧
  (∀ (v : Word) (s : State), s.domOn 179 = true → s.fmn.state = .idle → s.imp.active = none → shapeOk (v.toNat % 2 ^ 24) = true →
    ∃ u, exec (.rteShapeWrite v) s = .next u ∧
      u = { s with regs := u.regs, fab := { s.fab with win := [] }, sel := { s.sel with updates := s.sel.updates ++ [(0x902, toLE 3 v.toNat)] }, answer := 0 } ∧
      u.reg pgRTE 0x044 = writtenBits (s.regN pgRTE 0x044) v.toNat 0xFFFFFF ∧ regsBut s u [(pgRTE, 0x044)]) ∧
  (∀ (v : Word) (s : State), s.domOn 179 = true → s.fmn.state = .idle → s.imp.active = none → s.regN pgRTE 0x044 ≠ 0 → s.chipExists (v.toNat % 16384) = false →
    exec (.rteSelfWrite v) s = .next { s.latch pgRTE 7 with answer := 0 }) ∧
  (∀ (v : Word) (s : State), s.domOn 179 = true → s.fmn.state = .idle → s.imp.active = none → shapeOk (v.toNat % 2 ^ 24) = false → exec (.rteShapeWrite v) s = .next { s.latch pgRTE 7 with answer := 0 }) ∧
  (∀ (v : Word) (s : State), (s.domOn 179 = false ∨ s.fmn.state ≠ .idle ∨ s.imp.active ≠ none) →
    exec (.winDataWrite v) s = .next { s with answer := stILLEGAL } ∧ exec (.rteSelfWrite v) s = .next { s with answer := stILLEGAL } ∧ exec (.rteShapeWrite v) s = .next { s with answer := stILLEGAL })

/-- BKT_COLLATOR_READ, C_UP, C_TOPK_TG, C_SIGN_TG, COLLATION_OUTPUT_SEND and C_DELIVER (R345 to R351): a fitting contribution to a sum bucket enters the leaf, keeps its
error terms in the tile and completes; a chunk from a child reaches its node; a Telegram's pairs gather until the last packet and then add as a telegram; an output
leaves for the fabric; a delivered chunk reaches the owner. -/
def Obligations.CollationContributions : Prop :=
  (∀ (t : Fin 136) (serial : Nat) (errs : List CaseErr) (s x : State) (m : Move) (r : BktReq) (b : Bucket) (h : BHalf), (s.tile t.val).moves.find? (fun m => m.serial == serial && !m.ready) = some m →
    m.kind = .bkt r → x = s.caseErrors t.val errs → firstBad (x.tile t.val).mem (bktEnds r) = none → x.bucket? r.bucket = some b → x.bhalf r.bucket r.step r.attempt = some h → x.bktFits r b h = true →
    (b.kind = 0 → exec (.bktCollatorRead t serial errs) s = .next (x.bktAccept t.val serial r b h
      { slot := r.slot, form := r.form, vals := (bktSent (x.tile t.val).mem r).vals, idx := (bktSent (x.tile t.val).mem r).idx, j := (bktSent (x.tile t.val).mem r).j }
      (bktSent (x.tile t.val).mem r).errs (bktSent (x.tile t.val).mem r).bad)) ∧
    (b.kind = 1 → exec (.bktCollatorRead t serial errs) s = .next (x.bktAccept t.val serial r b h
      { slot := r.slot, form := 0, vals := topkWords (x.tile t.val).mem r, idx := [], j := 0 } (zeroErrs r) false)) ∧
    (b.kind = 2 → x.segOver (x.tile t.val).mem r b = false → exec (.bktCollatorRead t serial errs) s = .next (x.bktSegs t.val serial (x.tile t.val).mem r b)) ∧
    (2 < b.kind → exec (.bktCollatorRead t serial errs) s = .next (x.bktReturn t.val serial (x.tile t.val).mem r b))) ∧
  (∀ (s : State) (r : BktReq) (b : Bucket) (h : BHalf), s.bktFits r b h = true → (b.kind = 0 → r.rows * r.cols = b.elems) ∧ (b.kind < 2 → h.closed = false ∧ h.leaf.length < b.cpm) ∧
    (b.kind ≠ 0 → r.form = 0) ∧ (b.kind = 3 → (mapAt s.colSec b.offset).home = s.self)) ∧
  (∀ (t : Fin 136) (serial : Nat) (errs : List CaseErr) (s x : State) (m : Move) (r : BktReq) (b : Bucket), (s.tile t.val).moves.find? (fun m => m.serial == serial && !m.ready) = some m →
    m.kind = .bkt r → x = s.caseErrors t.val errs → firstBad (x.tile t.val).mem (bktEnds r) = none → x.bucket? r.bucket = some b →
    x.bhalf r.bucket r.step r.attempt = none → exec (.bktCollatorRead t serial errs) s = .next (x.staleDrop.moveDone t.val serial stABORTED)) ∧
  (∀ (s x : State) (o : OutPkt) (b : Bucket), s.takeOldest 0x30 = some (o, x) → x.bucket? (colBucket o.pkt.addr) = some b →
    exec .cUp s = .next ((x.chunkIn o.pkt).nodeInput (colBucket o.pkt.addr) (colStep o.pkt.payload) (colAtt o.pkt.payload) (colChunk o.pkt.addr) (colSide o.pkt.addr) (colSplit o.pkt.addr)
      { vals := colWords o.pkt.payload (colN o.pkt.payload * (if b.kind = 0 then 1 else 32)), count := colCount o.pkt.payload, nf := colNF o.pkt.payload, np := o.pkt.arg })) ∧
  (∀ (s x : State) (o : OutPkt) (b : Bucket) (h : BHalf), s.takeOldest 0x31 = some (o, x) → x.bucket? (colBucket o.pkt.addr) = some b →
    x.bhalf (colBucket o.pkt.addr) (colStep o.pkt.payload) (colAtt o.pkt.payload) = some h →
    exec .cTopkTg s = .next (if colLast o.pkt.payload = true
      then ((x.chunkIn o.pkt).putHalf (colBucket o.pkt.addr) { h with tg := [] }).telegramIn o.pkt (pairValues b (h.tg ++ topkPairs o.pkt))
      else x.putHalf (colBucket o.pkt.addr) { h with tg := h.tg ++ topkPairs o.pkt })) ∧
  (∀ (s x : State) (o : OutPkt) (b : Bucket), s.takeOldest 0x32 = some (o, x) → x.bucket? (colBucket o.pkt.addr) = some b →
    (x.bhalf (colBucket o.pkt.addr) (colStep o.pkt.payload) (colAtt o.pkt.payload)).isSome = true →
    exec .cSignTg s = .next ((x.chunkIn o.pkt).telegramIn o.pkt (signDecode b o.pkt.payload))) ∧
  (∀ (s : State), s.nextOut = none → exec .collationOutputSend s = .next s) ∧
  (∀ (s x y : State) (i : Nat) (o : COut), s.nextOut = some i → s.col.outs[i]? = some o → x = s.setCol (fun c => { c with outs := dropNth c.outs i }) →
    y = (if (o.pkt.type = 0x30 ∨ o.pkt.type = 0x38 ∨ o.pkt.type = 0x39) ∧ o.pkt.dst ≠ s.self then x.bump pgCOL 0x068 1 else x) →
    exec .collationOutputSend s = .next ((y.bump pgCOL 0x080 (outRows o.pkt)).send { o.pkt with src := y.self, epoch := y.epoch } .none)) ∧
  (∀ (s x : State) (o : OutPkt), s.takeOldest 0x38 = some (o, x) →
    exec .cDeliver s = .next ((x.chunkIn o.pkt).ownerChunk (colBucket o.pkt.addr) (colStep o.pkt.payload) (colAtt o.pkt.payload) (colChunk o.pkt.addr)
      { vals := colWords o.pkt.payload (colN o.pkt.payload), count := colCount o.pkt.payload, nf := colNF o.pkt.payload, np := o.pkt.arg }))

/-- C_DONE, C_REPL, C_REPL_DOWN, C_RESULT, A2A_COUNT, A2A_DATA and A2A_RET (R352 to R359): the leader counts a bucket complete and looks whether the attempt is all in; a
slot of the replicated exchange is added and counted by rank; an end packet notes its count; a member's replaced slots are counted; a result is taken; a segment's
count, slots and rows stand in the receive region, returned rows in the bucket's delivery area. -/
def Obligations.CollationResults : Prop :=
  (∀ (s x : State) (o : OutPkt) (l : LeadRec), s.takeOldest 0x33 = some (o, x) → x.isLeader = true →
    (x.leadFor (colStep o.pkt.payload) (colAtt o.pkt.payload)).lead? (colStep o.pkt.payload) = some l → l.attempt ≤ colAtt o.pkt.payload →
    exec .cDone s = .next (((x.leadFor (colStep o.pkt.payload) (colAtt o.pkt.payload)).modLead (colStep o.pkt.payload) (fun l => { l with done := kvSet l.done (colBucket o.pkt.addr) { count := colCount o.pkt.payload, norm := colWord o.pkt.payload 0, parts := o.pkt.arg, nonFin := colNF o.pkt.payload, noTable := colNoTable o.pkt.payload } })).checkAllIn (colStep o.pkt.payload))) ∧
  (∀ (s x : State) (o : OutPkt), s.takeOldest 0x33 = some (o, x) → x.isLeader = false → exec .cDone s = .next x) ∧
  (∀ (s x : State) (o : OutPkt) (e : Exch), s.takeOldest 0x34 = some (o, x) → x.exch? (colStep o.pkt.payload) (colAtt o.pkt.payload) = some e → colN o.pkt.payload = 0 →
    exec .cRepl s = .next ((x.putExch { e with ends := kvSet e.ends ((x.rankOf o.pkt.src).getD 0xFFFF) o.pkt.arg }).exchCheck (colStep o.pkt.payload) (colAtt o.pkt.payload))) ∧
  (∀ (s x : State) (o : OutPkt) (e : Exch) (tb : Table), s.takeOldest 0x34 = some (o, x) → x.exch? (colStep o.pkt.payload) (colAtt o.pkt.payload) = some e → colN o.pkt.payload ≠ 0 →
    x.table? (fld o.pkt.addr 40 12) = some tb →
    exec .cRepl s = .next (((x.putExch { e with added := kvMod e.added ((x.rankOf o.pkt.src).getD 0xFFFF) 0 (· + 1) }).placeSlot (fld o.pkt.addr 40 12) (o.pkt.addr % 2 ^ 40) (colStep o.pkt.payload)
      (dslotOf tb.width (o.pkt.payload.drop 16)) true).exchCheck (colStep o.pkt.payload) (colAtt o.pkt.payload))) ∧
  (∀ (s x : State) (o : OutPkt), s.takeOldest 0x34 = some (o, x) → x.exch? (colStep o.pkt.payload) (colAtt o.pkt.payload) = none → exec .cRepl s = .next x.staleDrop) ∧
  (∀ (s x y : State) (o : OutPkt) (e : Exch), s.takeOldest 0x3A = some (o, x) → x.exch? (colStep o.pkt.payload) (colAtt o.pkt.payload) = some e → y = x.replDown e o.pkt →
    (colN o.pkt.payload = 0 → exec .cReplDown s = .next (y.putExch { e with downNeed := some o.pkt.arg, down := true, done := e.downGot == o.pkt.arg })) ∧
    (∀ tb, colN o.pkt.payload ≠ 0 → y.table? (fld o.pkt.addr 40 12) = some tb →
      exec .cReplDown s = .next ((y.putExch { e with downGot := e.downGot + 1, down := true, done := e.downNeed == some (e.downGot + 1) }).placeSlot (fld o.pkt.addr 40 12) (o.pkt.addr % 2 ^ 40)
        (colStep o.pkt.payload) (dslotOf tb.width (o.pkt.payload.drop 16)) false))) ∧
  (∀ (s x : State) (o : OutPkt), s.takeOldest 0x39 = some (o, x) → exec .cResult s = .next ((x.chunkIn o.pkt).takeResult o.pkt)) ∧
  (∀ (s x y : State) (o : OutPkt) (i r : Nat) (me : MapEnt) (h : AHalf) (g : Seg), s.takeOldest 0x3B = some (o, x) → x.segOf o.pkt = some (i, me, r, some (h, g)) →
    y = x.ownWrite (me.region + 4 * r) (toLE 4 (colCount o.pkt.payload)) →
    exec .a2aCount s = .next ((if colN o.pkt.payload = 0 then y else y.ownWrite (me.region + a2aSlotsAt x.members.length + 4 * (r * me.cap + o.pkt.addr % 2 ^ 32)) ((o.pkt.payload.drop 16).take (4 * colN o.pkt.payload))).segDeliver
      i (colStep o.pkt.payload) (colAtt o.pkt.payload) r me h { g with count := some (colCount o.pkt.payload), slots := g.slots + colN o.pkt.payload })) ∧
  (∀ (s x : State) (o : OutPkt) (i r : Nat) (me : MapEnt) (h : AHalf) (g : Seg), s.takeOldest 0x3C = some (o, x) → x.segOf o.pkt = some (i, me, r, some (h, g)) →
    exec .a2aData s = .next (((x.placeRows (me.region + a2aRowsAt x.members.length me.cap + (r * me.cap + o.pkt.addr % 2 ^ 32) * me.rs) me o.pkt.payload).bump pgCOL 0x07C (colN o.pkt.payload)).segDeliver
      i (colStep o.pkt.payload) (colAtt o.pkt.payload) r me h { g with got := g.got + colN o.pkt.payload })) ∧
  (∀ (s x y : State) (o : OutPkt) (b : Bucket) (h : BHalf), s.takeOldest 0x3D = some (o, x) → x.bucket? (colBucket o.pkt.addr) = some b →
    x.bhalf (colBucket o.pkt.addr) (colStep o.pkt.payload) (colAtt o.pkt.payload) = some h →
    y = ((x.placeRows (b.deliv + o.pkt.arg * (mapAt x.colSec b.offset).rs) (mapAt x.colSec b.offset) o.pkt.payload).bump pgCOL 0x07C (colN o.pkt.payload)).putHalf (colBucket o.pkt.addr)
      { h with closed := h.closed || colLast o.pkt.payload } →
    exec .a2aRet s = .next (if colLast o.pkt.payload = true ∧ h.closed = false then y.flagWrite b.flag (colStep o.pkt.payload) (colAtt o.pkt.payload) else y)) ∧
  (∀ (s : State) (me : MapEnt) (b : Bytes) (base : Nat), colN b = 1 →
    s.placeRows base me b = s.ownWrite base (rfmtBytes me.rfmt ((List.range me.width).map (colWord b))))

/-- HEARTBEAT_PERIOD, HEARTBEAT, HEARTBEAT_TIMEOUT, SUSPECT, PROBE, PROBE_RETRY, PROBE_TIMEOUT, FENCE_ORDER, FENCED_NOTICE, ISOLATION_TIMEOUT and MODULE_FENCE (R370 to
R373): a beat to each neighbour with the counter; heartbeats and probes are answered; a silent neighbour is counted, noted and reported; the judge probes twice and
then fences; the chip ordered to fence itself does, another's fence is noted; isolation fences; a fenced module is FENCED. SPINE_LINE_REPLAY and
SPINE_SUBLINK_FAILURE (R25, R368, R393): the segment's replay counter counts, with its event; a lost sub-link leaves one fewer, the time traffic was held is noted,
and the segment stays up while eight remain. -/
def Obligations.HeartbeatsFencesAndSpine : Prop :=
  (∀ (s : State), s.beating = true → exec .heartbeatPeriod s = .next (({ s with res := { s.res with beat := (s.res.beat + 1) % 2 ^ 64 } }).sendResAll (s.neighboursOf s.self) 0x10 (toLE 8 s.res.beat ++ toLE 8 0))) ∧
  (∀ (s x : State) (o : OutPkt), s.sliceIn 0x10 = some (o, x) → exec .heartbeat s = .next (x.reply o stOK [])) ∧
  (∀ (chip : Nat) (s : State), s.beating = true → (s.neighboursOf s.self).contains chip = true → s.members.contains chip = true → s.fmn.fencedMembers.contains chip = false →
    exec (.heartbeatTimeout chip) s = .next ((((s.bump pgPMS 0x074 1).resChip chip).latch pgPMS 1).sendResAll s.leaderAndDeputy 0x11 (toLE 2 chip ++ toLE 14 0))) ∧
  (∀ (s x : State) (o : OutPkt) (c : Nat) (y : State), s.sliceIn 0x11 = some (o, x) → c = leAt (sliceRest o.pkt) 0 2 → y = (x.resChip c).latch pgPMS 1 →
    exec .suspect s = .next ((if y.judges c = true ∧ c ∈ y.members ∧ kvHas y.res.suspects c = false ∧ c ∉ y.fmn.fencedMembers then y.probe c 1 else y).reply o stOK [])) ∧
  (∀ (s x : State) (o : OutPkt), s.sliceIn 0x12 = some (o, x) → exec .probe s = .next (x.reply o stOK [])) ∧
  (∀ (chip : Nat) (s : State), kvFind s.res.suspects chip = some 1 → exec (.probeRetry chip) s = .next (s.probe chip 2)) ∧
  (∀ (chip : Nat) (s : State), kvFind s.res.suspects chip = some 2 → s.judges chip = true →
    exec (.probeTimeout chip) s = .next (({ s with res := { s.res with suspects := kvDel s.res.suspects chip } }).fenceMember chip)) ∧
  (∀ (s x y : State) (o : OutPkt) (c : Nat), s.sliceIn 0x13 = some (o, x) → c = leAt (sliceRest o.pkt) 0 2 → y = ((x.bump pgPMS 0x078 1).resChip c).latch pgPMS 2 →
    exec .fenceOrder s = .next ((if c = y.self then y.fenceFor 7 else y.chipFenced c).reply o stOK [])) ∧
  (∀ (s x : State) (o : OutPkt) (c : Nat), s.sliceIn 0x14 = some (o, x) → c = o.pkt.src → c ≠ x.self → c ∈ x.members → c = x.leader → x.deputy = x.self → c ∉ x.fmn.fencedMembers →
    exec .fencedNotice s = .next ((x.fenceMember c).reply o stOK [])) ∧
  (∀ (s x y : State) (o : OutPkt) (c : Nat), s.sliceIn 0x14 = some (o, x) → c = o.pkt.src → c ≠ x.self → (c ≠ x.leader ∨ x.deputy ≠ x.self ∨ c ∉ x.members ∨ c ∈ x.fmn.fencedMembers) →
    y = ((x.resChip c).cutPorts c).abandonRebuild →
    exec .fencedNotice s = .next ((if c ∈ x.members ∧ x.isLeader = true then
      ((y.setFmn (fun f => { f with fencedMembers := setIns f.fencedMembers c })).leaderLost c).checkLost else y).reply o stOK [])) ∧
  (∀ (s : State), s.beating = true → exec .isolationTimeout s = .next (s.fenceFor 6)) ∧
  (∀ (s : State) (cause : Nat), s.fencing = some cause → ∃ u, exec .moduleFence s = .next u ∧ u.fmn.state = .fenced ∧ u.spv.mbox = none ∧ u.spv.mwait = []) ∧
  (∀ (seg : Fin 4) (s : State), exec (.spineLineReplay seg) s = .next ((s.bump pgSPN (0x040 + 4 * seg.val) 1).latch pgSPN 0)) ∧
  (∀ (seg : Fin 4) (us n : Nat) (s x y : State), n = s.field pgSPN 0x00C (spnLo seg.val) 5 → 0 < n → s.field pgSPN 0x00C (28 + seg.val) 1 ≠ 0 →
    x = ((s.setField pgSPN 0x00C (spnLo seg.val) 5 (n - 1)).setN pgSPN 0x050 (min us 0xFFFFFFFF)).latch pgSPN 1 → y = (x.setField pgSPN 0x00C (28 + seg.val) 1 0).latch pgSPN 2 →
    exec (.spineSublinkFailure seg us) s = .next (if 9 ≤ n then x else if 2 ≤ seg.val ∨ y.field pgSPN 0x00C 28 2 = 0 then y.fenceFor 5 else y)) ∧
  (∀ (seg : Fin 4) (us : Nat) (s : State), s.field pgSPN 0x00C (28 + seg.val) 1 = 0 → exec (.spineSublinkFailure seg us) s = .next s)

/-- R416: fence.self with the module's own number is answered OK, and the module then fences itself with cause HOST (R370); with another number it fences that member
(R372) where this module is the step leader and the chip a member of the active imposition; anywhere else it answers BAD_ARGUMENT. -/
def Obligations.FenceSelfCommand : Prop :=
  (∀ (q : Fin 64) (c : Cmd) (s x : State), starts s q.val 0x60 c → x = s.started q.val c → leAt c.body 0 2 = x.self →
    exec (.fenceSelf q) s = .next ((x.ok (c.ret q.val) []).fenceFor 1)) ∧
  (∀ (q : Fin 64) (c : Cmd) (s x : State), starts s q.val 0x60 c → x = s.started q.val c → leAt c.body 0 2 ≠ x.self → x.isLeader = true → leAt c.body 0 2 ∈ x.members →
    exec (.fenceSelf q) s = .next ((x.ok (c.ret q.val) []).fenceMember (leAt c.body 0 2))) ∧
  (∀ (q : Fin 64) (c : Cmd) (s x : State), starts s q.val 0x60 c → x = s.started q.val c → leAt c.body 0 2 ≠ x.self → (x.isLeader = false ∨ leAt c.body 0 2 ∉ x.members) →
    exec (.fenceSelf q) s = .next (x.replyTo (c.ret q.val) stBAD [])) ∧
  (∀ (s : State), s.fmn.state ≠ .fenced → s.fencing = none → (s.fenceFor 1).fencing = some 1 ∧ (s.fenceFor 1).field pgPMS 0x044 16 8 = 1)

/-- PARITY_DELTA, PAR_BUSY, SLICE_QUIET_REACHED, QUIET, PAR_DONE, STATE_SYNC, UNIT_READ and REPAIR_REQ (R369, R377, R380, R385 to R387): a delta is taken and answered; a
quiet period opens with its reason; a member with no step left reports QUIET; the leader collects; a replacement takes the slice's state; a unit is read only in the
quiet period; the leader queues a repair. The messages for the Postmaster wait while a handover pauses it (R508). -/
def Obligations.ParityMessages : Prop :=
  (∀ (s x : State) (o : OutPkt), s.takeArrived (fun p => p.type == 0x40) = some (o, x) → exec .parityDelta s = .next ((x.takeDelta o.pkt).1.reply o (x.takeDelta o.pkt).2 [])) ∧
  (∀ (s x : State) (o : OutPkt), s.sliceIn 0x15 = some (o, x) → 1 ≤ leAt (sliceRest o.pkt) 0 1 → leAt (sliceRest o.pkt) 0 1 ≤ 3 →
    exec .parBusy s = .next ((((({ x with res := { x.res with busy := some (leAt (sliceRest o.pkt) 0 1), busyChip := leAt (sliceRest o.pkt) 2 2, quietSent := (x.res.busy == some (leAt (sliceRest o.pkt) 0 1)) && x.res.quietSent, job := none } } : State).setField pgPMS 0x044 28 4 1).setField pgPMS 0x044 26 2 (leAt (sliceRest o.pkt) 0 1)).startJob).reply o stOK [])) ∧
  (∀ (s : State), s.res.busy.isSome = true → s.res.quietSent = false → s.fmn.steps.all (fun r => r.await) = true →
    exec .sliceQuietReached s = .next ((({ s with res := { s.res with quietSent := true } }).sendRes s.leader 0x16 [] (.slice 0x16 0 0)).startJob)) ∧
  (∀ (s x : State) (o : OutPkt), s.sliceIn 0x16 = some (o, x) → exec .quiet s = .next ({ x with res := { x.res with quiets := setIns x.res.quiets o.pkt.src } }.reply o stOK [])) ∧
  (∀ (s x : State) (o : OutPkt), s.sliceIn 0x17 = some (o, x) → exec .parDone s = .next ((x.takeParDone o.pkt.src).reply o stOK [])) ∧
  (∀ (s x y : State) (o : OutPkt) (b : Bytes) (k : Nat), s.sliceIn 0x19 = some (o, x) → b = sliceRest o.pkt → k = min (leAt b 12 1) 2 →
    y = x.setFmn (fun f => { f with takeover := k != 0, resumed := false, held := (List.range k).map (fun i => (leAt b 0 8 + i, leAt b (16 + 2 * i) 2)) }) →
    exec .stateSync s = .next ((({ y with num := { y.num with lsCur := sext 8 (leAt b 8 1), slotC := leAt b 9 1 % 4, clean := leAt b 10 2 } } : State).set64 pgFMN 0x040 (leAt b 0 8)).reply o stOK [])) ∧
  (∀ (s : State), s.mgmt.handover = .paused →
    exec .suspect s = .next s ∧ exec .fenceOrder s = .next s ∧ exec .fencedNotice s = .next s ∧ exec .parBusy s = .next s ∧ exec .quiet s = .next s ∧ exec .parDone s = .next s ∧
    exec .parReady s = .next s ∧ exec .stateSync s = .next s ∧ exec .unitRead s = .next s ∧ exec .repairReq s = .next s) ∧
  (∀ (s x : State) (o : OutPkt), s.sliceIn 0x1A = some (o, x) → x.res.quietSent = false → exec .unitRead s = .next (x.reply o stILLEGAL [])) ∧
  (∀ (s x : State) (o : OutPkt), s.sliceIn 0x1A = some (o, x) → exec .unitRead s = .next ((x.unitBytes (sliceRest o.pkt)).2.2.reply o (x.unitBytes (sliceRest o.pkt)).1 (x.unitBytes (sliceRest o.pkt)).2.1)) ∧
  (∀ (s x : State) (o : OutPkt), s.sliceIn 0x1B = some (o, x) → x.isLeader = true → o.pkt.src ∉ x.res.repairs →
    exec .repairReq s = .next ((({ x with res := { x.res with repairs := x.res.repairs ++ [o.pkt.src] } }).nextRepair).reply o stOK []))

/-- IMPOSITION_STAGE, IMPOSITION_ACTIVATE, EPOCH_DRAIN_COMPLETE, DRAINED, ACTIVATE, EPOCH_ACTIVATION, CONFIRM and CONFIRMED (R283, R284, R286): a checked image is staged
with its epoch; an activation of the staged epoch waits for the drain without a reply, of another answers EPOCH_MISMATCH; the coordinator collects the drains;
ACTIVATE arms the boundary, whose activation makes the staged image the active one; the leader collects the confirmations; CONFIRMED notes the epoch. -/
def Obligations.EpochChanges : Prop :=
  (∀ (q : Fin 64) (c : Cmd) (s x v y z w : State) (img : Bytes) (bad : Bool) (m : Impo), starts s q.val 0x31 c → x = s.started q.val c → x.extentOk (leAt c.body 0 8) (leAt c.body 8 4) = true →
    x.dramLoad (leAt c.body 0 8) (leAt c.body 8 4) = (img, bad, v) → y = v.pmkCheck 4 (crc32c (patchB img 0x64 [0, 0, 0, 0])) (imageCrc img) 0 → y.stageCheck img (leAt c.body 8 4) = stOK → m = impoOf img →
    z = (y.replyAll y.imp.replies stEPOCH).setImp (fun i => { i with staged := some m, accepted := false, replies := [], drainSent := false, activateRx := false, confirms := [] }) →
    w = (((z.setN pgIMP 0x044 m.epoch).set64 pgCOL 0x050 (areaNeed m z.self)).latch pgIMP 0).ok (c.ret q.val) [] →
    exec (.impositionStage q) s = .next (if w.fmn.state = .idle then w.sendDrained else w)) ∧
  (∀ (q : Fin 64) (c : Cmd) (s x : State) (m : Impo), starts s q.val 0x32 c → x = s.started q.val c → x.imp.staged = some m → m.epoch = leAt c.body 0 4 → x.someReqOff = false →
    exec (.impositionActivate q) s = .next { x with imp := { x.imp with accepted := true, replies := x.imp.replies ++ [c.ret q.val] } }) ∧
  (∀ (q : Fin 64) (c : Cmd) (s x : State) (m : Impo), starts s q.val 0x32 c → x = s.started q.val c → x.imp.staged = some m → m.epoch ≠ leAt c.body 0 4 →
    exec (.impositionActivate q) s = .next (x.replyTo (c.ret q.val) stEPOCH [])) ∧
  (∀ (s : State), s.imp.drainSent = false → s.imp.staged.isSome = true → (s.fmn.state = .idle ∨ (s.imp.accepted = true ∧ s.drainedOut = true)) → exec .epochDrainComplete s = .next s.sendDrained) ∧
  (∀ (s x y : State) (o : OutPkt) (e : Nat), s.sliceIn 7 = some (o, x) → e = leAt (sliceRest o.pkt) 0 4 →
    y = x.setImp (fun i => { i with drained := i.drained.filter (fun d => d.1 != o.pkt.src) ++ [(o.pkt.src, e)] }) →
    (x.imp.staged = none → exec .drained s = .next (y.reply o stOK [])) ∧
    (∀ m, x.imp.staged = some m → exec .drained s = .next ((if m.epoch = e ∧ x.coordinator = some x.self ∧ o.pkt.src ∈ m.members ∧ m.members.all (fun c => (y.imp.drainedFor e).contains c) = true
      then y.sendSliceAll m.members 8 0 0 (toLE 4 e ++ toLE 12 0) else y).reply o stOK []))) ∧
  (∀ (s x : State) (o : OutPkt), s.sliceIn 8 = some (o, x) → x.namesStaged o.pkt = true →
    exec .activate s = .next ({ x with imp := { x.imp with activateRx := true, tAct := x.reg64 pgDTL 0x040 } }.reply o stOK [])) ∧
  (∀ (s : State) (m : Impo), s.imp.staged = some m → s.self ∈ m.members → s.imp.activateRx = true → exec .epochActivation s = .next (s.activateEpoch m)) ∧
  (∀ (s : State) (m : Impo), s.imp.staged = some m → s.self ∉ m.members → s.imp.accepted = true → s.imp.drainSent = true → s.drainedOut = true →
    exec .epochActivation s = .next (s.leaveSlice m.epoch)) ∧
  (∀ (s x y z : State) (o : OutPkt) (e : Nat), s.sliceIn 9 = some (o, x) → e = leAt (sliceRest o.pkt) 0 4 →
    y = (if e = x.epoch ∨ x.namesStaged o.pkt = true then x.setImp (fun i => { i with confirms := setIns i.confirms o.pkt.src }) else x) →
    z = (y.setImp (fun i => { i with confirms := [] })).sendSliceAll y.members 0x0A 0 0 (toLE 4 e ++ toLE 12 0) →
    exec .confirm s = .next ((if y.isLeader = true ∧ e = y.epoch ∧ y.members.all (fun c => y.imp.confirms.contains c) = true then (if z.res.lead.isNone = true then z.resumeHeld else z) else y).reply o stOK [])) ∧
  (∀ (s x : State) (o : OutPkt), s.sliceIn 0x0A = some (o, x) → leAt (sliceRest o.pkt) 0 4 = x.epoch → x.imp.active.isSome = true →
    exec .confirmed s = .next (((((x.setN pgIMP 0x048 (leAt (sliceRest o.pkt) 0 4)).latch pgIMP 2).dropForwards)).reply o stOK []))

/-- INKER_READ, INKER_CONTRIB, INKER_GATHER, DENSE_SUM, ROW_LOCK_RESUME, INKER_COMMIT, COMMIT_BUFFER_RESUME and INKER_RESTORE (R38, R205, R209 to R225, R231): the next
row operation of the Inker, before which no commit of an older step comes, leaves its queue and is done as its kind says; an operation of another kind leaves the
Inker as it is; the next item of the oldest committing step runs; a shard's commit that waited for a construction buffer runs when one is free; an Inker that
restores is counted off, and the last one ends the rollback. -/
def Obligations.InkerOperations : Prop :=
  (∀ (ink : Fin 128) (s x : State) (i : Nat) (o : RowOp), s.nextOp ink.val = some (i, o) → s.itemFirst ink.val o.step = false → x = s.takeOp ink.val i →
    (o.kind = 0 → exec (.inkerRead ink) s = .next (x.doRead ink.val o) ∧ exec (.rowLockResume ink) s = .next (x.doRead ink.val o)) ∧
    (o.kind = 1 → exec (.inkerContrib ink) s = .next (x.runContrib ink.val o) ∧ exec (.rowLockResume ink) s = .next (x.runContrib ink.val o)) ∧
    (o.kind = 2 → exec (.inkerGather ink) s = .next (x.doGather ink.val o) ∧ exec (.rowLockResume ink) s = .next (x.doGather ink.val o)) ∧
    (o.kind = 3 → (∀ b k, o.req = .sum b k → exec (.denseSum ink) s = .next ((x.writeSum o).sumWritten b o.step o.slot k)) ∧
      ((∀ b k, o.req ≠ .sum b k) → exec (.denseSum ink) s = .next (x.writeSum o)))) ∧
  (∀ (ink : Fin 128) (s : State) (i : Nat) (o : RowOp), s.nextOp ink.val = some (i, o) → o.kind ≠ 0 → exec (.inkerRead ink) s = .next s) ∧
  (∀ (ink : Fin 128) (s : State) (i : Nat) (o : RowOp), s.nextOp ink.val = some (i, o) → s.itemFirst ink.val o.step = true → exec (.inkerRead ink) s = .next s ∧ exec (.denseSum ink) s = .next s) ∧
  (∀ (ink : Nat) (s : State) (o : RowOp), (∀ t, s.table? o.table = some t → t.direct = false) → s.runContrib ink o = s.doContrib ink o) ∧
  (∀ (ink : Fin 128) (s : State) (it : Item), s.nextItem ink.val = some it → exec (.inkerCommit ink) s = .next (s.commitStep it)) ∧
  (∀ (ink : Fin 128) (s : State) (it : Item) (x : Shard), s.nextItem ink.val = some it → it.kind = .shard → it.waited = true →
    s.par.shards.find? (fun x => x.table == it.table && x.index == it.idx) = some x → x.freeBuf.isSome = true → exec (.commitBufferResume ink) s = .next (s.commitStep it)) ∧
  (∀ (ink : Fin 128) (s x y : State) (n : Nat), s.par.restoreStep = some n → ink.val ∈ s.par.restoring → x = (s.restoreInk ink.val n).1 →
    y = x.setPar (fun p => { p with restoring := setDel x.par.restoring ink.val }) →
    exec (.inkerRestore ink) s = .next (if y.par.restoring = [] then y.restoredAll n else y))

/-- TIER_FETCH_ISSUE, PUT_ENTRY_GRANT, TIER_FETCH_COMPLETE, TIER_WRITEBACK_COMPLETE and TIER_WRITEBACK_RETRY (R37, R39, R179, R231, R232, R405): a fetch that gets its
entry or its promotion slot is sent, a contribution that got its entry leaves nothing to send; one that gets none is counted as waiting, once; its RDMA READ leaves
with its address where its queue pair is connected and below the RDMA bounds, is held and counted at them, fails without the queue pair; the fetched record is used;
a fetch that ends in an error fails; a write-back that ends leaves its half or its slot free and counts, one that fails is kept and tried again. -/
def Obligations.TierTransfers : Prop :=
  (∀ (i : Nat) (s x : State) (f : Fetch) (t : Table), s.par.fetches[i]? = some f → s.table? f.table = some t → f.issued = false → s.reserve i f t = some x →
    exec (.tierFetchIssue i) s = .next (if s.reserved? x = true then x.sendFetch i t else x)) ∧
  (∀ (i : Nat) (s : State) (f : Fetch) (t : Table), s.par.fetches[i]? = some f → s.table? f.table = some t → f.issued = false → s.reserve i f t = none →
    exec (.tierFetchIssue i) s = .next (if bitOf f.counted 1 = true then s
      else ((s.setFetch i { f with counted := f.counted + 2 }).bump (pgSRT (s.tierAgent t f)) 0x058 1).latchAt (pgSRT (s.tierAgent t f)) 7 f.step)) ∧
  (∀ (i : Nat) (s : State) (f : Fetch) (t : Table), s.par.fetches[i]? = some f → f.issued = false → (f.put.isSome = true ∨ f.promote = true) → f.table = t.id →
    (s.tierUp t.tierQp = true → s.fetchesOut (some t.tierQp) < 64 → s.fetchesOut none < 16384 →
      s.sendFetch i t = (((s.setFetch i { f with issued := true }).bump (pgSRT (s.tierAgent t f)) 0x06C 1).bump64 (pgINK f.ink) 0x040 1).ethSend (.tierRead t.tierQp t.tierKey (t.hostAddr f.row) t.recB)) ∧
    (s.tierUp t.tierQp = true → (64 ≤ s.fetchesOut (some t.tierQp) ∨ 16384 ≤ s.fetchesOut none) → bitOf f.counted 0 = true → s.sendFetch i t = s) ∧
    (s.tierUp t.tierQp = false → s.sendFetch i t = s.fetchFailed i f)) ∧
  (∀ (folio : Fin 2) (s x : State) (i : Nat) (f : Fetch) (t : Table), firstIdx (fun (f : Fetch) => !f.issued && f.put.isNone && !f.promote && inkFolio f.ink == folio.val) s.par.fetches = some i →
    s.par.fetches[i]? = some f → s.table? f.table = some t → s.putUsed folio.val < putEntries → s.reserve i f t = some x →
    exec (.putEntryGrant folio) s = .next (if s.reserved? x = true then x.sendFetch i t else x)) ∧
  (∀ (i : Nat) (data : Bytes) (s : State) (f : Fetch) (t : Table), s.par.fetches[i]? = some f → s.table? f.table = some t → f.issued = true →
    exec (.tierFetchComplete i data false) s = .next (({ s with par := { s.par with fetches := dropNth s.par.fetches i } } : State).fetched f t (sliceB data 0 t.recB))) ∧
  (∀ (i : Nat) (data : Bytes) (s : State) (f : Fetch) (t : Table), s.par.fetches[i]? = some f → s.table? f.table = some t → f.issued = true →
    exec (.tierFetchComplete i data true) s = .next (s.fetchFailed i f)) ∧
  (∀ (i : Nat) (err : Bool) (s : State) (b : Writeback), s.par.backs[i]? = some b → b.failed = false → (err = true ∨ s.backDown b = true) →
    exec (.tierWritebackComplete i err) s = .next (({ s with par := { s.par with backs := setNth s.par.backs i { b with failed := true } } } : State).latch (pgINK b.ink) 7)) ∧
  (∀ (i : Nat) (s x : State) (b : Writeback), s.par.backs[i]? = some b → b.failed = false → s.backDown b = false →
    x = (({ s with par := { s.par with backs := dropNth s.par.backs i } } : State).bump (pgINK b.ink) 0x090 1).bump64 (pgINK b.ink) 0x040 1 →
    (∀ k, b.put = some k → exec (.tierWritebackComplete i false) s = .next ((x.modEnt (inkFolio b.ink) k (fun e => e.written b.step)).freeEnts (inkFolio b.ink))) ∧
    (∀ t, b.put = none → x.table? b.table = some t →
      exec (.tierWritebackComplete i false) s = .next ((x.winPut b.ink (t.promo + b.row * t.promoStride + t.recB) (toLE 8 0)).1.bump (pgINK b.ink) 0x08C 1))) ∧
  (∀ (i : Nat) (s x : State) (b : Writeback) (t : Table), s.par.backs[i]? = some b → b.failed = true →
    x = ({ s with par := { s.par with backs := setNth s.par.backs i { b with failed := false } } } : State).bump (pgINK b.ink) 0x094 1 → x.table? b.table = some t →
    exec (.tierWritebackRetry i) s = .next (x.sendBack t b))

/-- TABLE_CREATE, TABLE_CREATE_APPLY, TABLE_DELETE, TABLE_DELETE_APPLY and PARITY_WORK_DONE (R168, R169, R202, R204, R230, R242, R369, R375, R385, R387): a sound table
with a placement that fits reserves its areas, waits for the boundary, and its reply is OK; without room it is NO_RESOURCE; outside a slice it is refused; a deletion
waits without a reply; the boundary takes the waiting tables and deletions; a member whose parity work is done tells the leader, for each reason. -/
def Obligations.TableCommands : Prop :=
  (∀ (q : Fin 64) (c : Cmd) (s x v : State) (p : Placement) (t : Table), starts s q.val 0x40 c → x = s.started q.val c → x.imp.active.isSome = true → leAt c.body 0 2 < 4096 → x.tableArgsOk c.body = true →
    kvHas x.par.tables (leAt c.body 0 2) = false → x.par.creating.any (fun t => t.id == leAt c.body 0 2) = false → v = (if leAt c.body 0x40 1 = 1 then x.takeShards (leAt c.body 0 2) else x) →
    t = tableOf c.body (x.sec 7) p → v.placeWindow t p = true → v.pastChannel t = false →
    exec (.tableCreate q (some p)) s = .next (if x.hasRoom v t p = true then (x.createPending t p).ok (c.ret q.val) [] else x.replyTo (c.ret q.val) stNORES [])) ∧
  (∀ (q : Fin 64) (p : Option Placement) (c : Cmd) (s x : State), starts s q.val 0x40 c → x = s.started q.val c → x.imp.active.isSome = true → 4096 ≤ leAt c.body 0 2 →
    exec (.tableCreate q p) s = .next (x.replyTo (c.ret q.val) stNORES [])) ∧
  (∀ (q : Fin 64) (p : Option Placement) (c : Cmd) (s x : State), starts s q.val 0x40 c → x = s.started q.val c → x.imp.active = none →
    exec (.tableCreate q p) s = .next (x.refuse (c.ret q.val) 0x40 stILLEGAL)) ∧
  (∀ (s : State) (t : Table) (p : Placement), (s.createPending t p).par.creating = s.par.creating ++ [t] ∧ (t.hasTier = false → s.createPending t p = s.setPar (fun k => { k with creating := k.creating ++ [t] }))) ∧
  (∀ (s x : State), s.par.creating ≠ [] → s.res.busy = none → x = s.boundary →
    exec .tableCreateApply s = .next (x.par.creating.foldl (fun (y : State) t => y.enterTable t) (x.setPar (fun p => { p with creating := [] })))) ∧
  (∀ (s y z : State) (t : Table), y = s.setPar (fun p => { p with tables := kvSet p.tables t.id t }) → t.dense = false → z = (y.inksOf t).foldl (fun (w : State) i => w.initSparse t i) y →
    s.enterTable t = z.cfgTable t.id (z.inksOf t) t.descr) ∧
  (∀ (q : Fin 64) (c : Cmd) (s x : State) (t : Table), starts s q.val 0x41 c → x = s.started q.val c → x.table? (leAt c.body 0 2) = some t → x.par.repls.any (fun u => u.table == leAt c.body 0 2) = false →
    x.par.migs.any (fun m => m.table == leAt c.body 0 2) = false → (t.dense = false ∨ x.gradTable (leAt c.body 0 2) = false) → x.par.deleting.any (fun d => d.id == leAt c.body 0 2) = false →
    exec (.tableDelete q) s = .next (x.setPar (fun p => { p with deleting := p.deleting ++ [{ id := leAt c.body 0 2, reply := c.ret q.val }] }))) ∧
  (∀ (s x : State), s.par.deleting ≠ [] → s.fmn.steps = [] → s.fmn.forming = none → s.res.busy = none → x = s.boundary →
    exec .tableDeleteApply s = .next (x.par.deleting.foldl (fun (y : State) d => y.deleteTable d) (x.setPar (fun p => { p with deleting := [] })))) ∧
  (∀ (ms : Nat) (s x : State) (j : Job), s.res.job = some j → j.total ≤ j.next → x = s.workEnded j ms →
    exec (.parityWorkDone ms) s = .next (x.sendRes x.leader 0x17 (toLE 1 (b2n (j.failed != 0)) ++ toLE 7 0 ++ toLE 8 (j.total - j.failed)) (.slice 0x17 0 0))) ∧
  (∀ (ms : Nat) (s x : State) (j : Job), ms < 2 ^ 32 → x = (s.setJob none).setN pgPMS 0x058 ms → (j.reason = 1 → s.workEnded j ms = x) ∧ (j.reason = 2 → s.workEnded j ms = x.loadConfig.latch pgPMS 4))

/-- ROW_REPLACE, TABLE_MIGRATE, MIG_RESERVE, SHIP, ROW_READ, CONTRIB and FORWARD (R226 to R229, R312, R385): both commands wait while a quiet period lasts; rows that can
be staged go into their replacement areas; a migratable row gets a forwarding entry and a reservation goes to its destination; the destination answers BAD_ARGUMENT
for a table it does not hold, keeps a slot for the row, and acknowledges a row it holds already; a shipped row is installed in its slot; one nobody reserved is
refused; a row request joins the queue of its row's Inker. -/
def Obligations.RowMovement : Prop :=
  (∀ (q : Fin 64) (s : State), s.res.busy.isSome = true → exec (.rowReplace q) s = .next s ∧ exec (.tableMigrate q) s = .next s) ∧
  (∀ (q : Fin 64) (c : Cmd) (s x : State) (t : Table) (rows : List Nat), s.res.busy = none → starts s q.val 0x42 c → x = s.started q.val c → x.table? (leAt c.body 0 2) = some t → t.dense = false →
    leAt c.body 4 1 ≤ 1 → x.extentOk (leAt c.body 24 8) (leAt c.body 16 4 * (64 + t.img)) = true → rows = x.stagedRows t (leAt c.body 24 8) (leAt c.body 16 4) → x.replaceStatus t rows = stOK →
    exec (.rowReplace q) s = .next ((x.stageAll t c.body rows).ok (c.ret q.val) [])) ∧
  (∀ (s : State) (t : Table) (b : Bytes) (row : Nat), leAt b 16 4 = 1 → s.fmn.anyDecided = true →
    s.stageAll t b [row] = (s.dramSeen (leAt b 24 8) (64 + t.img)).stageRow t row (leAt b 2 2) (leAt b 8 8) (bitOf (leAt b 4 1) 0) none (s.dram.read (leAt b 24 8 + 64) t.img)) ∧
  (∀ (q : Fin 64) (c : Cmd) (s x : State) (t : Table) (row d ink : Nat), s.res.busy = none → starts s q.val 0x43 c → x = s.started q.val c → x.table? (leAt c.body 0 2) = some t → row = leAt c.body 8 8 →
    d = leAt c.body 2 2 → x.canMigrate t row d = true → ink = (x.rowKey t row).1 → (x.par.migs.filter (fun m => m.ink == ink)).length < 4096 →
    exec (.tableMigrate q) s = .next ((x.setPar (fun p => { p with migs := p.migs ++
      [{ table := t.id, row := row, ink := ink, dest := d, state := .reserving, epoch := x.epoch, reply := some (c.ret q.val), key := 0 }] })).send
      (x.mkPkt 0x60 6 d (t.id * 2 ^ 40 + row) 0 []) (.migrate t.id row 0))) ∧
  (∀ (s x : State) (o : OutPkt), s.takeArrived (fun p => p.type == 0x60) = some (o, x) → x.table? (fld o.pkt.addr 40 12) = none → exec .migReserve s = .next (x.reply o stBAD [])) ∧
  (∀ (s x : State) (o : OutPkt) (t : Table) (id row ink : Nat), s.takeArrived (fun p => p.type == 0x60) = some (o, x) → id = fld o.pkt.addr 40 12 → row = fld o.pkt.addr 0 40 → x.table? id = some t →
    reserveForm t o.pkt = true → ink = rowHash id row % 128 →
    (x.par.migIns.any (fun m => m.table == id && m.row == row) = true → exec .migReserve s = .next (x.reply o stOK [])) ∧
    (∀ i, x.par.migIns.any (fun m => m.table == id && m.row == row) = false → ink ∈ x.inksOf t → x.migSlot t row ink = some i →
      exec .migReserve s = .next ((x.setPar (fun p => { p with migIns := p.migIns ++ [{ table := id, row := row, ink := ink, slot := i, valid := false }] })).reply o stOK []))) ∧
  (∀ (s x : State) (o : OutPkt), s.takeArrived (fun p => p.type == 0x61) = some (o, x) → x.table? (fld o.pkt.addr 40 12) = none → exec .ship s = .next (x.reply o stBAD [])) ∧
  (∀ (s x : State) (o : OutPkt) (t : Table) (m : MigIn), s.takeArrived (fun p => p.type == 0x61) = some (o, x) → x.table? (fld o.pkt.addr 40 12) = some t → migForm o.pkt = true →
    x.par.migIns.find? (fun m => m.table == fld o.pkt.addr 40 12 && m.row == fld o.pkt.addr 0 40 && !m.valid) = some m →
    exec .ship s = .next ((x.installShip t m o.pkt.payload).reply o stOK [])) ∧
  (∀ (s : State) (t : Table) (m : MigIn) (b : Bytes), b.length = t.recB →
    s.installShip t m b = ((((s.winPut m.ink (t.mig + m.slot * t.migStride) (toLE 8 (m.row % 2 ^ 40 + 2 ^ 40) ++ sliceB b 0 t.recB)).1).setPar
      (fun p => { p with migIns := p.migIns.map (fun u => if u == m then { u with valid := true } else u) })).bump (pgINK m.ink) 0x074 1).bump64 (pgINK m.ink) 0x040 1) ∧
  (∀ (s x : State) (o : OutPkt), s.takeArrived (fun p => p.type == 4) = some (o, x) → exec .rowRead s = .next (x.takeRowOp o o.pkt)) ∧
  (∀ (s x : State) (o : OutPkt), s.takeArrived (fun p => p.type == 5) = some (o, x) → exec .contrib s = .next (x.takeRowOp o o.pkt)) ∧
  (∀ (s x : State) (o : OutPkt), s.takeArrived (fun p => p.type == 0x62) = some (o, x) →
    exec .forward s = .next (if migForm o.pkt = true then x.takeRowOp o (parsePacket (o.pkt.payload.take (wireLen o.pkt.payload))) else x.reply o stBAD [])) ∧
  (∀ (s : State) (o : OutPkt) (p : Packet) (t : Table), s.table? (p.addr / 2 ^ 40) = some t → p.addr / 2 ^ 40 < 4096 → t.dense = false → fld p.addr 0 40 < t.rows → s.homedHere t (fld p.addr 0 40) = true →
    ((p.type = 4 ∧ p.payload = []) ∨ (p.type = 5 ∧ p.payload.length = 4 * t.width)) →
    s.takeRowOp o p = s.pushOp (s.rowKey t (fld p.addr 0 40)).1 { kind := p.type - 4, table := p.addr / 2 ^ 40, row := fld p.addr 0 40, step := s.fullStep p.arg, slot := p.slot, vals := (List.range (p.payload.length / 4)).map (fun j => leAt p.payload (4 * j) 4), addr := 0, len := 0, req := .packet o })

/-- SORTER_POST_ACCEPT, PASS_START, LOOKUP_ISSUE, LOOKUP_REPLY, DESCRIPTOR_COMPLETE, PGH_HALVING and PGH_FILL_COMPLETE (R172 to R187, R189, R190): the first posted
descriptor joins a queue that has room; a pass starts on the descriptor of the oldest step that is ready; the next index of the pass is issued once it is read, to
its table row (after every counter was halved where the access calls for it), to its row's home as a contribution, to a buffer row, or as a zero row; a look-up's
data enters its bag, a failed reply fails it; a finished descriptor writes its record, leaves the queue, is counted and completes; a filled way becomes visible. -/
def Obligations.SorterEvents : Prop :=
  (∀ (q : Fin 8) (s : State) (d : SDesc) (r : List SDesc), (s.srt q.val).posts = d :: r → (s.srt q.val).queue.length < 256 →
    exec (.sorterPostAccept q) s = .next (s.modSrt q.val (fun k => { k with posts := r, queue := k.queue ++ [if d.fail.isNone && s.descBadArg d then { d with fail := some (0, stBAD) } else d] }))) ∧
  (∀ (q : Fin 8) (errs : List (Fin 136 × CaseErr)) (s x y z : State) (d e : SDesc), s.nextPass q.val = some e → x = s.srtErrs e errs → x.nextPass q.val = some d →
    y = x.modDesc q.val d.serial (fun u => { u with running := true, passEnd := if d.op = 2 then d.nbags else planPass (fun b => (x.offAt d b).1) d.nbags d.nextBag 65536 d.nextBag, passes := u.passes + 1 }) →
    z = (if d.passes = 0 then y else (y.bump (pgSRT q.val) 0x04C 1).latchAt (pgSRT q.val) 6 d.step) →
    exec (.passStart q errs) s = .next ((if d.op = 2 then z.dispatchStart q.val d else z).srtSettle q.val d.serial)) ∧
  (∀ (q : Fin 8) (ecc : CacheEcc) (errs : List (Fin 136 × CaseErr)) (h : Bool) (s x y z : State) (d : SDesc) (b o0 len idx : Nat) (wb : Bytes), (s.srt q.val).queue.find? (·.running) = some d →
    x = s.srtErrs d errs → x.stepWaits d = false → (d.nextPos ≠ 0 ∨ d.op = 1 ∨ x.openBags q.val < 16) → (x.srt q.val).lookups.length < 8192 → b = d.nextBag → o0 = (x.offAt d b).1 →
    len = (x.offAt d (b + 1)).1 - o0 → x.idxAt d (o0 + d.nextPos) = (idx, 0, y) → (if d.wen then y.srtRead (d.at 0x28 8 + 4 * (o0 + d.nextPos)) 4 else ([], 0, y)) = (wb, 0, z) →
    exec (if h then .pghHalving q ecc errs else .lookupIssue q ecc errs) s = .next (x.issueAs z q.val d len (o0 + d.nextPos) idx (d.weightOf (leNat wb) len) 0 ecc h)) ∧
  (∀ (q len e idx w : Nat) (ecc : CacheEcc) (s z : State) (d : SDesc) (u : Lookup),
    u = { id := s.serial, desc := d.serial, bag := d.nextBag, pos := d.nextPos, row := idx, weight := w, fill := none, data := none, status := 0, path := 0 } →
    (∀ t y h, idx < s.descRows d → d.op ≠ 1 → d.src = false → s.table? d.table = some t → z.rowRead q d t u ecc h = some y → s.issueAs z q d len e idx w 0 ecc h = y.issued q d len) ∧
    (∀ t, idx < s.descRows d → d.op = 1 → s.table? d.table = some t → s.issueAs z q d len e idx w 0 ecc false = z.issueHome q d len w idx u t) ∧
    (idx < s.descRows d → d.op ≠ 1 → d.src = true → s.issueAs z q d len e idx w 0 ecc false = z.issueSrc q d len e idx u) ∧
    (s.descRows d ≤ idx → d.oobZero = true → s.issueAs z q d len e idx w 0 ecc false = z.issueOob q d len w) ∧
    (s.descRows d ≤ idx → d.oobZero = false → s.issueAs z q d len e idx w 0 ecc false = z.modDesc q d.serial (fun x => x.failAt d.nextBag stBAD))) ∧
  (∀ (q : Fin 8) (ecc : CacheEcc) (errs : List (Fin 136 × CaseErr)) (s : State), (s.srt q.val).queue = [] → exec (.lookupIssue q ecc errs) s = .next s ∧ exec (.pghHalving q ecc errs) s = .next s) ∧
  (∀ (q : Fin 8) (i : Nat) (s x : State) (u : Lookup) (data : Bytes) (d : SDesc), (s.srt q.val).lookups[i]? = some u → u.data = some data →
    x = (s.modSrt q.val (fun k => { k with lookups := dropNth k.lookups i })).fillData q.val u data → x.desc? q.val u.desc = some d → (∀ f, d.fail = some f → u.bag < f.1) →
    exec (.lookupReply q i) s = .next ((if u.status = 0 then x.takeRow q.val d u data else x.modDesc q.val d.serial (fun x => x.failAt u.bag u.status)).flush q.val d.serial)) ∧
  (∀ (q : Fin 8) (s x y : State) (d : SDesc) (st : Nat), (s.srt q.val).queue.find? (s.descDone q.val) = some d → st = (match d.fail with | some f => f.2 | none => 0) →
    x = (if s.bufOk d.statAddr 64 = true ∧ gaSpace d.statAddr = 1 then s.ownWrite d.statAddr d.stat else s) →
    y = (x.modSrt q.val (fun k => { k with queue := k.queue.filter (fun x => x.serial != d.serial) })).bump (pgSRT q.val) 0x048 1 →
    exec (.descriptorComplete q) s = .next ((if st = 0 then y else y.latchAt (pgSRT q.val) (if st = stABORTED then 5 else 4) d.step).moveDone d.tile d.move st)) ∧
  (∀ (folio : Fin 2) (s : State) (w : Nat) (y : Way), (s.cache folio.val).ways.find? (fun p => p.2.filling && p.2.sectors != 0) = some (w, y) →
    exec (.pghFillComplete folio) s = .next (((s.modCache folio.val (fun g => { g with ways := kvSet g.ways w { y with filling := false } })).bump (pgPGH folio.val) 0x050 1).fillReply y.filler 0 y.image))

/-- FLIT_TRANSMIT, FLIT_RECEIVE and REPLAY_TIMEOUT (R302, R304, R306 to R309): the next flit of a resend leaves with the current link fields and is counted; with nothing
to send a null flit leaves; else the next flit of the first lane that is ready, unless the replay buffer is full; decoded codewords are counted; the flit with the
expected sequence number is taken, the next number is expected, it is counted and its data and link fields take effect; another number only gives its link fields and
is counted; a null flit only gives its link fields; a flit with a bad CRC or in a failed codeword is counted and asked for again; an unacknowledged flit is resent
after the time-out, and after eight resends the port retrains. -/
def Obligations.FlitTransfers : Prop :=
  (∀ (p : Fin 12) (s : State) (f : Flit) (r : List Flit), s.link p.val = 2 → (s.port p.val).hold = false → (s.port p.val).resendQ = f :: r →
    exec (.flitTransmit p) s = .next (((s.setPort p.val { s.port p.val with resendQ := r }).flitGone p.val (s.stampFlit p.val f)).bump64 (pgPPT p.val) 0x078 1)) ∧
  (∀ (p : Fin 12) (s x : State), s.link p.val = 2 → (s.port p.val).hold = false → (s.port p.val).resendQ = [] → x = s.countShorts p.val → (x.port p.val).pick = none →
    exec (.flitTransmit p) s = .next (x.flitGone p.val (x.stampFlit p.val nullFlit))) ∧
  (∀ (p : Fin 12) (s x y : State) (k : Nat) (v : Port) (f : Flit), s.link p.val = 2 → (s.port p.val).hold = false → (s.port p.val).resendQ = [] → x = s.countShorts p.val →
    (x.port p.val).pick = some k → (x.port p.val).replay.length < 32768 → (x.port p.val).takeFlit k = (v, f) → y = x.setPort p.val v →
    exec (.flitTransmit p) s = .next ((y.flitGone p.val (y.stampFlit p.val f)).bump64 (pgPPT p.val) 0x078 1)) ∧
  (∀ (v : Port) (k : Nat), (v.takeFlit k).1.replay = (v.fill 8 k).replay ++ [(v.takeFlit k).2] ∧ (v.takeFlit k).1.txSeq = ((v.fill 8 k).txSeq + 1) % 65536 ∧
    (v.takeFlit k).2.data = sliceB (kvGet (v.fill 8 k).txBytes k []) 0 112 ∧ (v.takeFlit k).2.lane = k / 2 ∧ (v.takeFlit k).2.dclass = k % 2 ∧ (v.takeFlit k).2.null = false) ∧
  (∀ (p : Fin 12) (f : Flit) (fec : FecCount) (s x : State), s.link p.val = 2 → x = s.countFec p.val fec → flitGood f = true → f.null = false → f.lseq = (x.port p.val).rxNext →
    exec (.flitReceive p f false fec) s = .next ((((x.setPort p.val { x.port p.val with rxNext := ((x.port p.val).rxNext + 1) % 65536, nakEp := false }).bump64 (pgPPT p.val) 0x080 1).takeData p.val f).takeControl p.val f)) ∧
  (∀ (p : Fin 12) (f : Flit) (fec : FecCount) (s x : State), s.link p.val = 2 → x = s.countFec p.val fec → flitGood f = true → f.null = false → f.lseq ≠ (x.port p.val).rxNext →
    exec (.flitReceive p f false fec) s = .next ((x.bump (pgPPT p.val) 0x050 1).takeControl p.val f)) ∧
  (∀ (p : Fin 12) (f : Flit) (fec : FecCount) (s : State), s.link p.val = 2 → flitGood f = true → f.null = true →
    exec (.flitReceive p f false fec) s = .next ((s.countFec p.val fec).takeControl p.val f)) ∧
  (∀ (p : Fin 12) (f : Flit) (u : Bool) (fec : FecCount) (s : State), s.link p.val = 2 → (u = true ∨ flitGood f = false) →
    exec (.flitReceive p f u fec) s = .next ((s.countFec p.val fec).badFlit p.val)) ∧
  (∀ (p : Fin 12) (f : Flit) (u : Bool) (fec : FecCount) (s : State), s.link p.val ≠ 2 → exec (.flitReceive p f u fec) s = .next s) ∧
  (∀ (p : Fin 12) (s : State), s.link p.val = 2 → (s.port p.val).replay ≠ [] →
    exec (.replayTimeout p) s = .next (if 8 ≤ (s.port p.val).resends then s.laneFault p.val
      else ((s.setPort p.val { s.port p.val with resendQ := (s.port p.val).replay, resends := (s.port p.val).resends + 1 }).bump (pgPPT p.val) 0x058 1).latch (pgPPT p.val) 3))

/-- LANE_FAULT, PORT_RETRAIN_REQUEST and TRAINING_DONE (R303, R304, R309, R310, R330): a fault on a port in service holds its traffic and retrains, counted with its
event; the retraining request is a write of 1 to PPT.CTRL.RETRAIN, and outside TEST and DISABLED all lanes are tried again; training that finds a common version, the
right neighbour and enough lanes puts the port in service at its width, or lets held traffic go on; any other one fails. PRBS_INJECT, PRBS_CLEAR and CHECKER_LOCK
(R328): each writes the unit's CTRL, or locks an enabled lane's checker in TEST; ETH_TEST_ENTER and ETH_RESTART (R423, R424): the link leaves for TEST or training
and its queue pairs disconnect; outside SERVICE the test is ignored with the port's event, and in STEPPING a restart is refused. -/
def Obligations.LinkTrainingAndLaneTests : Prop :=
  (∀ (p : Fin 12) (s : State), s.link p.val = 2 →
    exec (.laneFault p) s = .next ((((s.setPort p.val { s.port p.val with hold := true, resends := 0 }).setLink p.val 1).bump (pgPPT p.val) 0x05C 1).latch (pgPPT p.val) 4)) ∧
  (∀ (p : Fin 12) (s : State), exec (.portRetrainRequest p) s = .next (s.softWrite (pgPPT p.val) 0x008 (s.regN (pgPPT p.val) 0x008 ||| 0x20))) ∧
  (∀ (p : Fin 12) (s : State), s.retrain p.val = if s.link p.val = 3 ∨ s.link p.val = 4 then s
    else (s.setPort p.val { s.port p.val with hold := s.link p.val == 2 || (s.port p.val).hold, lanesOk := 15 }).setLink p.val 1) ∧
  (∀ (p : Fin 12) (r : TrainResult) (s x y : State) (lanes w : Nat), s.link p.val = 1 → lanes = (r.lanes % 16 &&& (s.port p.val).lanesOk) →
    x = (s.setN (pgPPT p.val) 0x074 r.micros).setField (pgPPT p.val) 0x00C 20 4 lanes → y = x.setField (pgPPT p.val) 0x00C 0 14 r.chip →
    w = widthFor lanes (trainVersion r) (s.field (pgPPT p.val) 0x008 0 2) →
    (trainVersion r = 0 → exec (.trainingDone p r) s = .next ((x.latch (pgPPT p.val) 7).trainFailed p.val r)) ∧
    (trainVersion r ≠ 0 → s.wiredRight p.val r = false → exec (.trainingDone p r) s = .next ((y.latch (pgPPT p.val) 8).trainFailed p.val r)) ∧
    (trainVersion r ≠ 0 → s.wiredRight p.val r = true → exec (.trainingDone p r) s = .next (if w = 0 then y.trainFailed p.val r
      else (y.linkUp p.val w (trainVersion r) r.precode).backInService p.val lanes w (s.field (pgPPT p.val) 0x00C 26 2) r))) ∧
  (∀ (p : Fin 12) (r : TrainResult) (s : State) (lanes w old : Nat), (s.port p.val).hold = false →
    s.backInService p.val lanes w old r = (s.setPort p.val { Port.reset with lanesOk := lanes }).latch (pgPPT p.val) 0) ∧
  (∀ (p : Fin 12) (r : TrainResult) (s : State), s.link p.val ≠ 1 → exec (.trainingDone p r) s = .next s) ∧
  (∀ (i : Fin 12) (s : State), s.link i.val = 3 → s.regN (pgPRF i.val) 0x008 = 0xF02 →
    exec (.prbsInject (i.castLE (by decide))) s = .next { s.setN (pgPRF i.val) 0x008 0xF02 with answer := 0 }) ∧
  (∀ (i : Fin 12) (s : State), s.link i.val = 3 → s.regN (pgPRF i.val) 0x008 = 0xF02 →
    ∃ u, exec (.prbsClear (i.castLE (by decide))) s = .next u ∧ u = { s with regs := u.regs, answer := 0 } ∧ (∀ k : Fin 10, u.regN (pgPRF i.val) (0x040 + 4 * k.val) = 0) ∧
      regsBut s u ((pgPRF i.val, 0x008) :: (List.range 10).map (fun k => (pgPRF i.val, 0x040 + 4 * k)))) ∧
  (∀ (i : Fin 12) (lane : Fin 4) (s : State), s.link i.val = 3 → bitOf (s.regN (pgPRF i.val) 0x008) 1 = true → bitOf (s.regN (pgPRF i.val) 0x008) (8 + lane.val) = true →
    exec (.checkerLock (i.castLE (by decide)) (lane.castLE (by decide))) s =
      .next (s.setN (pgPRF i.val) 0x00C (s.regN (pgPRF i.val) 0x00C ||| 2 ^ lane.val))) ∧
  (∀ (s : State), s.fmn.state = .service → s.eth.qps = [] → s.ethLink = 0 →
    ∃ u, exec .ethTestEnter s = .next u ∧ u = { s with regs := u.regs, answer := 0 } ∧ u.ethLink = 3 ∧ regsBut s u [(pgETH, 0x008), (pgETH, 0x00C)]) ∧
  (∀ (s : State), s.fmn.state = .service → s.eth.qps = [] → s.ethLink = 0 → s.regN pgETH 0x008 = 0xFF40 →
    ∃ u, exec .ethRestart s = .next u ∧ u = { s with regs := u.regs, answer := 0 } ∧ u.ethLink = 1 ∧ regsBut s u [(pgETH, 0x008), (pgETH, 0x00C)]) ∧
  (∀ (i : Fin 13) (s : State),
    exec (.prbsInject i) s = .next { s.prfCtrl i.val (s.regN (pgPRF i.val) 0x008 ||| 8) with answer := 0 } ∧ exec (.prbsClear i) s = .next { s.prfCtrl i.val (s.regN (pgPRF i.val) 0x008 ||| 4) with answer := 0 }) ∧
  (∀ (lane : Fin 8) (s : State), s.ethLink = 3 → bitOf (s.regN (pgPRF 12) 0x008) 1 = true → bitOf (s.regN (pgPRF 12) 0x008) (8 + lane.val) = true →
    exec (.checkerLock 12 lane) s = .next (s.setN (pgPRF 12) 0x00C (s.regN (pgPRF 12) 0x00C ||| 2 ^ lane.val))) ∧
  (∀ (i : Fin 13) (lane : Fin 8) (s : State), ((i.val < 12 ∧ s.link i.val ≠ 3) ∨ (i.val = 12 ∧ s.ethLink ≠ 3) ∨ bitOf (s.regN (pgPRF i.val) 0x008) 1 = false ∨ bitOf (s.regN (pgPRF i.val) 0x008) (8 + lane.val) = false) →
    exec (.checkerLock i lane) s = .next s) ∧
  (∀ (s x : State), s.fmn.state = .service → fld (s.regN pgETH 0x008) 4 2 ≠ 3 → x = s.storeRw pgETH .eth 0 0x008 (s.regN pgETH 0x008 ||| 4) →
    exec .ethTestEnter s = .next { (if x.ethLink = 3 then x else x.ethLeave 3) with answer := 0 }) ∧
  (∀ (s : State), s.fmn.state ≠ .service → s.fmn.state ≠ .stepping → exec .ethTestEnter s = .next { s.latch pgETH 7 with answer := 0 }) ∧
  (∀ (s : State), s.fmn.state = .stepping →
    exec .ethTestEnter s = .next (if s.changesNow pgETH .eth 0 0x008 (s.regN pgETH 0x008 ||| 4) then { s with answer := stILLEGAL } else { s.latch pgETH 7 with answer := 0 })) ∧
  (∀ (s x : State), s.fmn.state ≠ .stepping → fld (s.regN pgETH 0x008) 4 2 ≠ 3 → x = s.storeRw pgETH .eth 0 0x008 (s.regN pgETH 0x008 &&& 0xFF78 ||| 2) →
    exec .ethRestart s = .next { (if x.ethLink = 3 then x else x.ethLeave 1) with answer := 0 }) ∧
  (∀ (s : State), s.fmn.state = .stepping → exec .ethRestart s = .next { s with answer := stILLEGAL })

/-- PACKET_INJECT, PACKET_FORWARD, PACKET_EJECT, E2E_RESEND and E2E_FAIL (R311, R315 to R320): an admitted request on a tagged lane takes the next tag of its pair, is
kept until its reply and enters the router, any other admitted packet enters it without a tag; a packet on the reserved lane is dropped and counted; a packet with a
route goes to the queue of its first usable port; the first packet that ends here and is not withheld leaves the router, and is accepted, held for the next epoch, or
discarded with its count; unreplied requests of a pair enter the router again; one resent too often completes with NO_ROUTE. -/
def Obligations.PacketMovement : Prop :=
  (∀ (i : Nat) (s x : State) (o : OutPkt), s.mayIssue i = true → s.fab.out[i]? = some o → s.pairBefore i o.pkt = false → s.mayLeave o.pkt = true → x = { s with fab := { s.fab with out := dropNth s.fab.out i } } →
    (taggedLane o.pkt.lane = true → s.pairOut o.pkt.dst o.pkt.lane < 64 → s.fab.unreplied.length < 32768 → exec (.packetInject i) s = .next (x.enterTagged o)) ∧
    (taggedLane o.pkt.lane = false → exec (.packetInject i) s = .next (x.enterRouter o.pkt))) ∧
  (∀ (s : State) (o : OutPkt) (q : Packet), q = { o.pkt with tag := kvGet s.fab.nextTag (pairKey o.pkt.dst o.pkt.lane) 0 } →
    (s.enterTagged o).fab.unreplied = s.fab.unreplied ++ [Unreplied.mk q o.org 0] ∧ (s.enterTagged o).fab.router = s.fab.router ++ [{ pkt := q, inPort := 12 }] ∧
      kvGet (s.enterTagged o).fab.nextTag (pairKey o.pkt.dst o.pkt.lane) 0 = (kvGet s.fab.nextTag (pairKey o.pkt.dst o.pkt.lane) 0 + 1) % 65536) ∧
  (∀ (i : Nat) (s : State), s.fab.out[i]? = none → exec (.packetInject i) s = .next s) ∧
  (∀ (s x : State) (i : Nat) (r : InRouter), firstIdx (fun r => !s.endsHere r.pkt) s.fab.router = some i → s.fab.router[i]? = some r →
    x = ({ s with fab := { s.fab with router := dropNth s.fab.router i } } : State).freeCredit r →
    (r.pkt.lane = 7 → exec .packetForward s = .next (x.bump pgRTE 0x08C 1)) ∧
    (r.pkt.lane ≠ 7 → (routeValid (s.route r.pkt.layout r.pkt.dst) = false ∨ s.pickPort r.pkt = none) → exec .packetForward s = .next (x.pathDrop r)) ∧
    (∀ o, r.pkt.lane ≠ 7 → routeValid (s.route r.pkt.layout r.pkt.dst) = true → s.pickPort r.pkt = some o →
      exec .packetForward s = .next (x.setPort o { x.port o with queue := (x.port o).queue ++ [{ r.pkt with dclass := s.classAt r o }] }))) ∧
  (∀ (s x : State) (i : Nat) (r : InRouter), x = s.countStall → firstIdx (fun r => x.endsHere r.pkt && !(x.holdStall.isSome && x.toHold r)) x.fab.router = some i → x.fab.router[i]? = some r →
    exec .packetEject s = .next (x.ejectAt i r)) ∧
  (∀ (s x y : State) (i : Nat) (r : InRouter), x = ({ s with fab := { s.fab with router := dropNth s.fab.router i } } : State).freeCredit r → y = x.pmkCheck 1 (pktChk r.pkt) r.pkt.good (r.pkt.src % 2 ^ 14) →
    (r.pkt.lane = 7 → s.ejectAt i r = x.bump pgRTE 0x08C 1) ∧
    (r.pkt.lane ≠ 7 → r.pkt.good = false → s.ejectAt i r = (y.bump pgRTE 0x078 1).rteErr 4 1 r.pkt) ∧
    (r.pkt.lane ≠ 7 → r.pkt.good = true → r.pkt.dst ≠ s.self → s.ejectAt i r = (y.bump pgRTE 0x07C 1).rteErr 3 2 r.pkt) ∧
    (r.pkt.lane ≠ 7 → r.pkt.good = true → r.pkt.dst = s.self → knownType r.pkt = true → s.epochCase r.pkt = .deliver → s.ejectAt i r = y.accept r.pkt) ∧
    (r.pkt.lane ≠ 7 → r.pkt.good = true → r.pkt.dst = s.self → knownType r.pkt = true → s.epochCase r.pkt = .hold →
      s.ejectAt i r = { y with imp := { y.imp with poste := y.imp.poste ++ [r] } })) ∧
  (∀ (chip lane : Nat) (s : State), s.inForce pgRTE 0x008 % 2 ≠ 0 → s.fab.unreplied.any (s.resendDue chip lane) = true →
    exec (.e2eResend chip lane) s = .next (((({ s with fab := { s.fab with unreplied := s.fab.unreplied.map (fun u => if s.resendDue chip lane u = true then { u with resends := u.resends + 1 } else u), router := s.fab.router ++ (s.fab.unreplied.filter (s.resendDue chip lane)).map (fun u => ({ pkt := { u.pkt with resend := true }, inPort := 12 } : InRouter)) } } : State).bump pgRTE 0x064 1).latch pgRTE 5))) ∧
  (∀ (chip lane : Nat) (s : State) (u : Unreplied), s.fab.unreplied.find? (fun u => u.pkt.dst == chip && u.pkt.lane == lane && decide (s.regN pgRTE 0x04C ≤ u.resends)) = some u →
    exec (.e2eFail chip lane) s = .next (((({ s with fab := { s.fab with unreplied := s.fab.unreplied.filter (fun x => x != u) } } : State).bump pgRTE 0x074 1).rteErr 6 6 u.pkt).selfReply u.pkt u.org stNOROUTE []))

/-- READ, WRITE, ADD32, GATHER, RESPONSE and PAR_READY (R193, R312, R316, R385, R401, R403): a request that names another chip answers BAD_ARGUMENT; DRAM and the Cases,
a register and the diagnostic view of a cache are read, all but the view are written over the fabric; an addition answers its status; a gather joins the queue of its
line's Inker; the first reply for a tag ends its request and reaches the one that waits, a second is counted and discarded; the end of a quiet period performs the
held host writes in order. -/
def Obligations.FabricRequests : Prop :=
  (∀ (errs : List CaseErr) (s x : State) (o : OutPkt), s.takeArrived (fun p => p.type == 1) = some (o, x) → x.gaHere o.pkt.addr = false → exec (.read errs) s = .next (x.reply o stBAD [])) ∧
  (∀ (errs : List CaseErr) (s x y : State) (o : OutPkt) (st : Nat) (bs : Bytes), s.takeArrived (fun p => p.type == 1) = some (o, x) → x.serveRead o.pkt errs = (st, bs, y) →
    exec (.read errs) s = .next (y.reply o st bs)) ∧
  (∀ (errs : List CaseErr) (s : State) (p : Packet), s.gaHere p.addr = true → p.payload = [] → fabricLen (gaSpace p.addr) (p.arg % 8192) = true →
    (∀ st bs x, gaSpace p.addr ≤ 1 → (s.spaceErrs (gaSpace p.addr) (gaOff p.addr) (p.arg % 8192) p.src errs).spaceRead (gaSpace p.addr) (gaOff p.addr) (p.arg % 8192) p.src = (bs, st, x) →
      s.serveRead p errs = (st, if st = 0 then bs else [], x)) ∧
    (∀ g, gaSpace p.addr = 2 → gaOff p.addr % 4 = 0 → regPage (gaOff p.addr) = some g →
      s.serveRead p errs = (0, pad16 (toLE 4 (s.regRead g (gaOff p.addr % 4096)).1), (s.regRead g (gaOff p.addr % 4096)).2)) ∧
    (gaSpace p.addr = 3 → gaOff p.addr < 2 ^ 31 → s.serveRead p errs = s.diagRead (gaOff p.addr) (p.arg % 8192))) ∧
  (∀ (s x : State) (o : OutPkt), s.takeArrived (fun p => p.type == 2) = some (o, x) → x.gaHere o.pkt.addr = false → exec .write s = .next (x.reply o stBAD [])) ∧
  (∀ (s x y : State) (o : OutPkt) (st : Nat), s.takeArrived (fun p => p.type == 2) = some (o, x) → x.serveWrite o.pkt = (st, y) → exec .write s = .next (y.reply o st [])) ∧
  (∀ (s : State) (p : Packet) (n : Nat), s.gaHere p.addr = true → n = p.arg % 8192 → fabricLen (gaSpace p.addr) n = true → p.payload.length = (pad16 (List.replicate n (0 : Byte))).length →
    (gaSpace p.addr = 0 → s.serveWrite p = s.dramLines (gaOff p.addr) (p.payload.take n) p.src) ∧
    (gaSpace p.addr = 1 → s.serveWrite p = s.spaceWrite 1 (gaOff p.addr) (p.payload.take n) p.src) ∧
    (∀ g, gaSpace p.addr = 2 → gaOff p.addr % 4 = 0 → regPage (gaOff p.addr) = some g → s.serveWrite p = s.regWrite g (gaOff p.addr % 4096) (leNat (p.payload.take n)) true)) ∧
  (∀ (errs : List CaseErr) (s x : State) (o : OutPkt), s.takeArrived (fun p => p.type == 3) = some (o, x) → x.gaHere o.pkt.addr = true → gaSpace o.pkt.addr = 1 → o.pkt.addr % 4 = 0 → o.pkt.payload = [] →
    exec (.add32 errs) s = .next (((x.spaceErrs 1 (gaOff o.pkt.addr) 4 o.pkt.src errs).spaceAdd (gaOff o.pkt.addr) o.pkt.arg o.pkt.src).2.reply o
      ((x.spaceErrs 1 (gaOff o.pkt.addr) 4 o.pkt.src errs).spaceAdd (gaOff o.pkt.addr) o.pkt.arg o.pkt.src).1 [])) ∧
  (∀ (s x : State) (o : OutPkt), s.takeArrived (fun p => p.type == 6) = some (o, x) → x.gaHere o.pkt.addr = true → gaSpace o.pkt.addr = 0 → o.pkt.payload.length = 16 → allZero (o.pkt.payload.drop 4) = true →
    fabricLen 0 (leAt o.pkt.payload 0 4) = true → dramMapped (gaOff o.pkt.addr) (leAt o.pkt.payload 0 4) = true →
    exec .gather s = .next (x.pushOp (dramLocate (gaOff o.pkt.addr)).1 { kind := 2, table := 0, row := o.pkt.arg % 2 ^ 32, step := (lowest (x.fmn.steps.map (·.n))).getD x.curStep, slot := o.pkt.slot, vals := [], addr := gaOff o.pkt.addr, len := leAt o.pkt.payload 0 4, req := .packet o })) ∧
  (∀ (s x : State) (o : OutPkt) (q : Packet), s.takeArrived (fun p => p.type == 0x20) = some (o, x) → o.req = some q → exec .response s = .next (x.answered o.org q (o.pkt.arg % 256) o.pkt.payload)) ∧
  (∀ (s x : State) (o : OutPkt) (u : Unreplied), s.takeArrived (fun p => p.type == 0x20) = some (o, x) → o.req = none →
    x.fab.unreplied.find? (fun u => u.pkt.dst == o.pkt.src && u.pkt.lane == fld o.pkt.arg 8 3 && u.pkt.tag == o.pkt.tag) = some u →
    exec .response s = .next (({ x with fab := { x.fab with unreplied := x.fab.unreplied.filter (fun y => y != u) } } : State).answered u.org u.pkt (o.pkt.arg % 256) o.pkt.payload)) ∧
  (∀ (s x : State) (o : OutPkt), s.takeArrived (fun p => p.type == 0x20) = some (o, x) → o.req = none →
    x.fab.unreplied.find? (fun u => u.pkt.dst == o.pkt.src && u.pkt.lane == fld o.pkt.arg 8 3 && u.pkt.tag == o.pkt.tag) = none → exec .response s = .next (x.bump pgRTE 0x06C 1)) ∧
  (∀ (s x : State) (o : OutPkt), s.sliceIn 0x18 = some (o, x) → exec .parReady s = .next (x.quietEnds.reply o stOK [])) ∧
  (∀ (s : State), ∃ y, y.res.busy = none ∧ y.res.quietSent = false ∧ y.res.job = none ∧ y.eth.held = [] ∧ y.dram = s.dram ∧
    s.quietEnds = s.eth.held.foldl (fun (w : State) h => w.hostWrite h.qp h.off h.data) y)

/-- Within each half, DRAM is interleaved over the half's 64 channels in granules of 256 bytes (R241): every offset of DRAM has its channel and channel offset as
dram_locate computes them, and dram_half_offset leads back, both ways. -/
def Obligations.ChannelInterleaving : Prop :=
  (∀ (f : Fin 2) (o : Nat), o < 0x7800000000 → dramLocate (f.val * 0x7800000000 + o) = (64 * f.val + (o / 2 ^ 8 ^^^ o / 2 ^ 14 ^^^ o / 2 ^ 20) % 64, o / 2 ^ 14 * 2 ^ 8 + o % 2 ^ 8)) ∧
  (∀ off, off < 2 * 0x7800000000 → dramOffset (dramLocate off).1 (dramLocate off).2 = off) ∧
  (∀ ch coff, ch < 128 → coff < 0x1E0000000 → dramLocate (dramOffset ch coff) = (ch, coff) ∧ dramOffset ch coff < 2 * 0x7800000000)

/-- LINE_OPERATION, MR4_POLL, REFRESH, RFM, SCRUB_READ, SCRUB_PERIOD_END, WCK2DQ_ADJUST, MEMORY_TRAINING, HARD_REPAIR, DRAM_WIPE and WIPE_COMPLETE (R243 to R255): an
unmapped offset answers BAD_ARGUMENT and a controller that is not ready ILLEGAL_IN_STATE; a line part is read, or written with its parity deltas, and a poisoned line
answers so; a poll gives the channel's temperature and rate; refreshes and timing adjustment change nothing; a counted RFM; the scrub reads the next line of an idle
controller and ends its period; training gives its time and the good channels and fences where one fails; every pending row is repaired or reported; the wipe leaves
DRAM empty and every controller wiping; a controller ends its wipe or fences. -/
def Obligations.MemoryCommands : Prop :=
  (∀ (wr : Bool) (off n : Nat) (data : Bytes) (errs : List (Nat × Byte)) (grp : List (Fin 15 × List (Nat × Byte))) (s : State), dramMapped off (min n (64 - off % 64)) = false →
    exec (.lineOperation wr off n data errs grp) s = .next { (s.unmapped 0 off s.self) with answer := stBAD }) ∧
  (∀ (wr : Bool) (off n : Nat) (data : Bytes) (errs : List (Nat × Byte)) (grp : List (Fin 15 × List (Nat × Byte))) (s : State), dramMapped off (min n (64 - off % 64)) = true → s.memOpen off (min n (64 - off % 64)) = false →
    exec (.lineOperation wr off n data errs grp) s = .next { s with answer := stILLEGAL }) ∧
  (∀ (off n len : Nat) (data : Bytes) (errs : List (Nat × Byte)) (grp : List (Fin 15 × List (Nat × Byte))) (s x y z : State) (bad : Bool), len = min n (64 - off % 64) → dramMapped off len = true → s.memOpen off len = true →
    (s.inker (dramLocate off).1).queue.length < 512 → s.lineLocked off = false → x = (if wholeLine off (sliceB data 0 len) = true then s else s.lineFetch off errs grp) → x.linePut off (sliceB data 0 len) = (y, bad) →
    z = (if bad = true then y else (y.sendDeltas (dramLocate off).1 (dramLocate off).1 (dramLocate off).2 (x.dram.read off len) (sliceB data 0 len) false 0 0 0).1) →
    exec (.lineOperation true off n data errs grp) s = .next { z with answer := if bad = true then stPOISON else stOK }) ∧
  (∀ (k : Nat) (data : Bytes) (s : State), data.length = 64 → (s.linePut (64 * k) data).2 = false ∧ (s.linePut (64 * k) data).1.dram.read (64 * k) 64 = data) ∧
  (∀ (off n len : Nat) (data : Bytes) (errs : List (Nat × Byte)) (grp : List (Fin 15 × List (Nat × Byte))) (s x : State), 0 < n → len = min n (64 - off % 64) → dramMapped off len = true → s.memOpen off len = true →
    (s.inker (dramLocate off).1).queue.length < 512 → s.lineLocked off = false → x = s.lineFetch off errs grp →
    exec (.lineOperation false off n data errs grp) s = .next { x with answer := if x.dramBad off len = true then stPOISON else stOK, readData := BitVec.ofNat 32 (leAt (x.dram.read off len) 0 4) }) ∧
  (∀ (c : Fin 128) (t : Byte) (m : Fin 3) (hot : Bool) (s x : State), x = s.modChan c.val (fun y => { y with temp := t.toNat, mult := m.val, hot := hot }) →
    exec (.mr4Poll c t m hot) s = .next (x.stateEvent (pgMEM (c.val / 8)) 3 ((List.range 8).any (fun k => (x.chan (8 * (c.val / 8) + k)).hot)))) ∧
  (∀ (s : State), exec .refresh s = .next s ∧ exec .wck2dqAdjust s = .next s) ∧
  (∀ (c : Fin 128) (s : State), ∃ u, exec (.rfm c) s = .next u ∧ u = { s with mem := u.mem } ∧ (u.chan c.val).rfm = satAdd32 (s.chan c.val).rfm 1 ∧ ∀ d, d ≠ c.val → u.chan d = s.chan d) ∧
  (∀ (m : Fin 16) (errs : List (Nat × Byte)) (s : State), s.regN (pgMEM m.val) 0x008 % 2 = 0 → exec (.scrubRead m errs) s = .next s) ∧
  (∀ (m : Fin 16) (errs : List (Nat × Byte)) (s x : State) (pos c off : Nat), s.regN (pgMEM m.val) 0x008 % 2 ≠ 0 → s.regN (pgMEM m.val) 0x044 ≠ 0 → s.phaseOf m.val = 4 → pos = kvGet s.mem.scrub m.val 0 →
    pos < 8 * linesPerChan → (∀ k < 8, (s.inker (8 * m.val + k)).queue = []) → c = 8 * m.val + pos / linesPerChan → off = dramOffset c (pos % linesPerChan * 64) →
    x = { s with mem := { s.mem with scrub := kvSet s.mem.scrub m.val (pos + 1) } } →
    exec (.scrubRead m errs) s = .next (if s.dram.bad (off / 64) = true then x else if errs = [] then x.lineRead off else (x.lineRead off).lineDecode off errs 2)) ∧
  (∀ (m : Fin 16) (late : Bool) (s : State), s.regN (pgMEM m.val) 0x008 % 2 ≠ 0 → s.regN (pgMEM m.val) 0x044 ≠ 0 → 8 * linesPerChan ≤ kvGet s.mem.scrub m.val 0 →
    ∃ u, exec (.scrubPeriodEnd m late) s = .next u ∧ kvGet u.mem.scrub m.val 0 = 0 ∧ pends u (pgMEM m.val) 2) ∧
  (∀ (m : Fin 16) (us : Nat) (failed : Byte) (avail : List Nat) (s x : State), s.fmn.state = .boot → s.domOn (144 + m.val) = true → s.phaseOf m.val = 0 →
    x = (List.range 8).foldl (fun (x : State) k => x.modChan (8 * m.val + k) (fun c => { c with avail := avail.getD k 0 }))
      (((s.setPhase m.val 1).setN (pgMEM m.val) 0x08C (min us 0xFFFFFFFF)).setField (pgMEM m.val) 0x00C 8 8 (0xFF - failed.toNat)) →
    exec (.memoryTraining m us failed avail) s = .next (if failed = 0 then x else ((x.setPhase m.val 5).latchErr (pgMEM m.val) 5 4 0 0).fenceFor 4)) ∧
  (∀ (m : Fin 16) (lacking : List (Nat × Nat)) (s : State), s.fmn.state = .boot → s.phaseOf m.val = 1 →
    exec (.hardRepair m lacking) s = .next ((((List.range 8).flatMap (fun k => (s.chan (8 * m.val + k)).repair.map (fun r => (k, r)))).foldl
      (fun (x : State) p => x.repairRow m.val p.1 p.2 (lacking.contains p)) (s.setPhase m.val 2)).bootDone)) ∧
  (∀ (m k row : Nat) (s : State), k < 8 → 0 < (s.chan (8 * m + k)).avail → ((s.repairRow m k row false).chan (8 * m + k)).repair = (s.chan (8 * m + k)).repair.filter (· != row) ∧
    ((s.repairRow m k row false).chan (8 * m + k)).avail = (s.chan (8 * m + k)).avail - 1) ∧
  (∀ (s : State), s.fmn.state = .wipe → (∀ m : Fin 16, s.phaseOf m.val = 2) → ∃ u, exec .dramWipe s = .next u ∧ u.dram = Ram.wiped ∧ ∀ m : Fin 16, u.phaseOf m.val = 3 ∧ m.val ∈ u.mem.shut) ∧
  (∀ (m : Fin 16) (f0 f1 : Nat) (s : State), s.phaseOf m.val = 3 → m.val ∈ s.mem.shut → exec (.wipeComplete m true f0 f1) s = .next (((s.setPhase m.val 5).latchErr (pgMEM m.val) 7 6 0 0).fenceFor 4)) ∧
  (∀ (m : Fin 16) (f0 f1 : Nat) (s : State), s.phaseOf m.val = 3 → m.val ∈ s.mem.shut → exec (.wipeComplete m false f0 f1) s = .next (((s.openMem m.val).setPhase m.val 4).wipeEnds f0 f1))

/-- R482: a row joins its channel's pending-repair list unless the list has it already; a full list of 16 takes none, and LDG_REPAIR_FULL latches instead. -/
def Obligations.RepairListBound : Prop :=
  (∀ (c row : Nat) (s : State), row ∈ (s.chan c).repair → s.addRepair c row = s) ∧
  (∀ (c row : Nat) (s : State), row ∉ (s.chan c).repair → 16 ≤ (s.chan c).repair.length → s.addRepair c row = s.latch pgLDG 3) ∧
  (∀ (c row : Nat) (s : State), row ∉ (s.chan c).repair → (s.chan c).repair.length < 16 →
    ((s.addRepair c row).chan c).repair = (s.chan c).repair ++ [row] ∧ ∀ k, k ≠ c → (s.addRepair c row).chan k = s.chan k)

/-- RDMA_WRITE, RDMA_READ, COMMAND_SEND, CM_REQ, CM_RTU, CM_DREQ, CNP_RECEIVE, CNP_RATE_RECOVERY and ACK_TIMEOUT (R398 to R403, R406, R409, R410): a memory request
inside a region of its rkey is performed, outside it gets a NAK that ends the queue pair; a write into the parity window waits for the end of a quiet period; the
next sound sequenced command of a command queue is accepted; a repeat of an executed one is answered from the cache, a number from the future is refused; queue pairs
connect with their role and disconnect; congestion halves the rate, recovery raises it; retries are counted or end the queue pair. -/
def Obligations.QueuePairs : Prop :=
  (∀ (qp rkey off : Nat) (data : Bytes) (f : FrameInfo) (s x : State) (k : Qp), s.qp? qp = some k → k.live = true → s.frameIn f k.prio = (x, true) → k.role = 1 → data.length ≤ 2 ^ 31 →
    x.eth.held.any (fun h => h.qp == qp) = false → x.regionOk rkey off data.length 1 = true →
    exec (.rdmaWrite qp rkey off data f) s = .next (if x.res.busy.isSome = true ∧ x.touchesWindow off data.length = true
      then ((x.setEth (fun e => { e with held := e.held ++ [HeldWrite.mk qp off data] })).bump pgETH 0x080 1).latch pgETH 4 else x.hostWrite qp off data)) ∧
  (∀ (qp rkey off : Nat) (data : Bytes) (f : FrameInfo) (s x : State) (k : Qp), s.qp? qp = some k → k.live = true → s.frameIn f k.prio = (x, true) → (k.role ≠ 1 ∨ 2 ^ 31 < data.length) →
    exec (.rdmaWrite qp rkey off data f) s = .next (x.nak qp 3)) ∧
  (∀ (qp rkey off len : Nat) (f : FrameInfo) (s x y : State) (k : Qp) (bs : Bytes) (bad : Bool), s.qp? qp = some k → k.live = true → s.frameIn f k.prio = (x, true) → k.role = 1 → len ≤ 2 ^ 31 →
    x.eth.held.any (fun h => h.qp == qp) = false → x.regionOk rkey off len 0 = true → x.dramLoad off len = (bs, bad, y) →
    exec (.rdmaRead qp rkey off len f) s = .next (if bad = true then y.nak qp 3 else y.ethSend (.read qp bs))) ∧
  (∀ (qp rkey off len : Nat) (f : FrameInfo) (s x : State) (k : Qp), s.qp? qp = some k → k.live = true → s.frameIn f k.prio = (x, true) → k.role = 1 → len ≤ 2 ^ 31 → x.eth.held.any (fun h => h.qp == qp) = false → x.regionOk rkey off len 0 = false →
    exec (.rdmaRead qp rkey off len f) s = .next ((x.ethSend (.nak qp)).qpError qp 2)) ∧
  (∀ (qp : Nat) (msg : Bytes) (f : FrameInfo) (s x y : State) (k : Qp) (c : Cmd) (crc : Nat), s.qp? qp = some k → k.live = true → s.frameIn f k.prio = (x, true) → k.role = 0 → 16 ≤ msg.length → msg.length ≤ 4096 →
    (x.queue k.slot).entries.length < 256 → crc = crc32c (patchB msg 0xC (toLE 4 0)) → crc = leAt msg 0xC 4 → leAt msg 1 1 = 1 → leAt msg 4 1 = k.slot →
    y = x.pmkCheck 2 crc true k.slot →
    c = { ver := leAt msg 0 1, op := leAt msg 2 2, seq := leAt msg 8 4, body := sliceB (msg.drop 16) 0 (leAt msg 6 2), started := false, dup := false } →
    (unsequenced c.op = false → exec (.commandSend qp msg f) s = .next (y.sequenced k.slot c)) ∧
    (unsequenced c.op = true →
      exec (.commandSend qp msg f) s = .next (y.modQueue k.slot (fun m => { m with entries := m.entries ++ [{ c with seq := m.freeKey c.seq }] })))) ∧
  (∀ (s : State) (q : Nat) (c : Cmd), c.seq = (s.queue q).next → (s.queue q).next < 2 ^ 32 →
    ∃ u, s.sequenced q c = u ∧ (u.queue q).next = (c.seq + 1) % 2 ^ 32 ∧ (u.queue q).entries = (s.queue q).entries ++ [c]) ∧
  (∀ (s : State) (q : Nat) (c : Cmd), c.seq = (s.queue q).next + 1 → c.seq < 2 ^ 32 →
    s.sequenced q c = (s.bump pgSPV 0x05C 1).sendReply { queue := q, seq := c.seq, op := c.op, status := stBAD, data := [] }) ∧
  (∀ (qp role pad slot mtu : Nat) (f : FrameInfo) (s x : State), s.frameIn f (s.field pgETH 0x084 12 3) = (x, true) → kvHas x.eth.qps qp = false →
    (x.cmRefusal role pad slot = none → exec (.cmReq qp role pad slot mtu f) s = .next (x.cmAccept qp role slot mtu)) ∧
    (∀ st, x.cmRefusal role pad slot = some st → exec (.cmReq qp role pad slot mtu f) s = .next ((x.bump pgETH 0x064 1).ethSend (.cm qp (some st))))) ∧
  (∀ (role slot : Nat) (s : State), role ≤ 2 → (role = 0 → slot < 64) → (role = 2 → slot < 1024) → s.slotTaken role slot = false → s.eth.qps.length < 1024 → s.cmRefusal role 0 slot = none) ∧
  (∀ (qp mtu slot : Nat) (s : State), s.cmAccept qp 1 slot mtu = (s.setEth (fun e => { e with qps := kvSet e.qps qp (Qp.mk 1 slot (s.rolePrio 1) mtu false false (2 ^ 64)) })).ethSend (.cm qp none)) ∧
  (∀ (qp : Nat) (f : FrameInfo) (s x y : State) (k : Qp), s.qp? qp = some k → s.frameIn f (s.field pgETH 0x084 12 3) = (x, true) → k.live = false → k.err = false →
    y = x.setEth (fun e => { e with qps := kvSet e.qps qp { k with live := true } }) →
    exec (.cmRtu qp f) s = .next (if k.role = 0 then y.modQueue k.slot (fun c => { c with qp := some qp, auth := false }) else y)) ∧
  (∀ (qp : Nat) (f : FrameInfo) (s x : State) (k : Qp), s.qp? qp = some k → s.frameIn f (s.field pgETH 0x084 12 3) = (x, true) → exec (.cmDreq qp f) s = .next ((x.dropQp qp).ethSend (.cm qp none))) ∧
  (∀ (qp : Nat) (s : State) (k : Qp), s.qp? qp = some k → exec (.cnpReceive qp true) s = .next (s.bump pgETH 0x07C 1) ∧
    exec (.cnpReceive qp false) s = .next ((s.bump pgETH 0x07C 1).setEth (fun e => { e with qps := kvSet e.qps qp { k with rate := k.rate / 2 } }))) ∧
  (∀ (qp : Nat) (s : State) (k : Qp), s.qp? qp = some k → exec (.cnpRateRecovery qp) s = .next { s with eth := { s.eth with qps := kvSet s.eth.qps qp { k with rate := min (2 ^ 64) (k.rate + 2 ^ 61) } } }) ∧
  (∀ (qp n : Nat) (s : State) (k : Qp), s.qp? qp = some k → k.live = true → k.role ≠ 1 → exec (.ackTimeout qp n false) s = .next (s.bump pgETH 0x070 n) ∧ exec (.ackTimeout qp n true) s = .next (s.qpError qp 1))

/-- ARP_REQUEST, NEIGHBOUR_SOLICITATION, ICMP_ECHO, PTP_EVENT_MESSAGE, PFC_PAUSE_RECEIVE, MAC_PAUSE_RECEIVE, FRAME_DISCARD, MKA_FRAME, ETH_AUTONEG, ETH_LINK_DOWN and
ETH_TEST_END (R395 to R398, R423, R425, R479, R505): the module answers for its own addresses and no other; an event message gets the Dateline's time; a pause is
kept by priority; a discarded frame is counted; a link comes up at the highest common rate, goes down with its event, and leaves TEST for negotiation.
HEARTBEAT_LETTER and SUMMARY_LETTER (R396, R406, R419, R421, R422, R454): the one connected subscriber that asked for heartbeats gets a letter with the module's
state; the first letter leaves, counted, unless its priority is paused; with the link down nothing happens. -/
def Obligations.EthernetFramesAndLetters : Prop :=
  (∀ (ip : Bytes) (f : FrameInfo) (s x : State), s.frameIn f 0 = (x, true) → ip = x.config 0x10 4 → allZero ip = false → exec (.arpRequest ip f) s = .next (x.ethSend (.frame (x.config 0x08 6 ++ ip)))) ∧
  (∀ (ip : Bytes) (f : FrameInfo) (s x : State), s.frameIn f 0 = (x, true) → ip ≠ x.config 0x10 4 → exec (.arpRequest ip f) s = .next x) ∧
  (∀ (ip : Bytes) (f : FrameInfo) (s x : State), s.frameIn f 0 = (x, true) → x.ownIp6 ip = true → exec (.neighbourSolicitation ip f) s = .next (x.ethSend (.frame (x.config 0x08 6 ++ ip)))) ∧
  (∀ (ip data : Bytes) (f : FrameInfo) (s x : State), s.frameIn f 0 = (x, true) → (x.ownIp6 ip = true ∨ (ip = x.config 0x10 4 ∧ allZero ip = false)) → exec (.icmpEcho ip data f) s = .next (x.ethSend (.frame (ip ++ data)))) ∧
  (∀ (f : FrameInfo) (s x : State), s.frameIn f 0 = (x, true) → exec (.ptpEventMessage f) s = .next { x with eth := { x.eth with stamp := x.reg64 pgDTL 0x040 } }) ∧
  (∀ (times : List (Fin 8 × Nat)) (s : State), s.ethLink = 2 →
    exec (.pfcPauseReceive times) s = .next ((times.foldl (fun (x : State) p => x.setEth (fun e => e.pause p.1.val p.2)) s).bump pgETH 0x058 1)) ∧
  (∀ (e : Eth) (p q n : Nat), n ≠ 0 → kvFind (e.pause p n).paused p = some n ∧ kvFind (e.pause p 0).paused p = none ∧ (q ≠ p → kvFind (e.pause p n).paused q = kvFind e.paused q)) ∧
  (∀ (s : State), exec .macPauseReceive s = .next s) ∧
  (∀ (s : State), s.ethLink = 2 → exec (.frameDiscard .fcs) s = .next ((s.bump pgETH 0x050 1).latch pgETH 2) ∧ exec (.frameDiscard .icrc) s = .next (s.bump pgETH 0x054 1) ∧
    exec (.frameDiscard .form) s = .next (s.bump pgETH 0x054 1) ∧ exec (.frameDiscard .macsec) s = .next ((s.bump pgETH 0x060 1).latch pgETH 5)) ∧
  (∀ (b : Bool) (s : State), s.ethLink = 2 → exec (.mkaFrame b) s = .next (s.setField pgETH 0x00C 23 1 (b2n (b && !allZero (s.config 0x100 32))))) ∧
  (∀ (o : Fin 32) (s x : State), s.domOn 178 = true → s.fmn.state ≠ .cold → s.fmn.state ≠ .boot → s.ethLink ≤ 1 → x = s.setEth (fun e => { e with used := true }) →
    (bestMode o.val (3 - s.field pgETH 0x008 4 2) = none → exec (.ethAutoneg o) s = .next (x.setField pgETH 0x00C 28 4 1)) ∧
    (∀ m, bestMode o.val (3 - s.field pgETH 0x008 4 2) = some m →
      exec (.ethAutoneg o) s = .next ((((x.setField pgETH 0x00C 28 4 2).setField pgETH 0x00C 26 2 m.1).setField pgETH 0x00C 24 2 m.2).latch pgETH 0))) ∧
  (bestMode 31 3 = some (3, 2) ∧ bestMode 31 2 = some (2, 2) ∧ bestMode 0 3 = none) ∧
  (∀ (s : State), s.ethLink = 2 → exec .ethLinkDown s = .next ((s.setN pgETH 0x00C 0).latch pgETH 1)) ∧
  (∀ (s : State), s.ethLink = 3 → exec .ethTestEnd s = .next (((s.prfFreeze 12).setField pgETH 0x008 2 1 0).setField pgETH 0x00C 28 4 1)) ∧
  (∀ (s : State), s.ethLink = 2 →
    exec .heartbeatLetter s = .next (((s.subs.filter (fun p => p.2.beat && s.connected p.1)).map (·.1)).foldl (fun (x : State) q => x.pushLetter q (s.beatLetter q)) s)) ∧
  (∀ (s : State) (q : Nat) (u : Sub), s.ethLink = 2 → s.subs = [(q, u)] → u.beat = true → s.connected q = true →
    exec .heartbeatLetter s = .next { s with letters := s.letters ++ [s.beatLetter q u.next], subs := [(q, { u with next := u.next + 1 })] }) ∧
  (∀ (n : Nat) (s : State), s.ethLink = 2 → exec (.summaryLetter n) s = .next (((List.range (min n s.letters.length)).foldl (fun (x : State) _ => x.sendLetter) s).summaries)) ∧
  (∀ (s : State), s.withheld = [] → s.summaries = s) ∧
  (∀ (s : State) (l : Letter) (r : List Letter), s.letters = l :: r → s.txPaused l.queue = true → s.sendLetter = s) ∧
  (∀ (s : State) (l : Letter) (r : List Letter), s.letters = l :: r → s.txPaused l.queue = false →
    s.sendLetter = (({ s with letters := r } : State).bump64 pgSPV 0x068 1).pmkMessage 3 (crc32c (patchB l.message 0xC (toLE 4 0)) ^^^ algXor 0) ∧ s.sendLetter.letters = r) ∧
  (∀ (n : Nat) (s : State), s.ethLink ≠ 2 → exec (.summaryLetter n) s = .next s ∧ exec .heartbeatLetter s = .next s)

/-- SESSION_HELLO, SESSION_AUTH, SESSION_CLOSE, STATE_QUERY, REG_READ, REG_WRITE, EVENT_SUBSCRIBE, MEM_MAP, MEM_UNMAP, UNKNOWN_OPCODE and MODULE_RESET (R401, R407, R408,
R413, R415, R420, R500): a session opens with a nonce and the next number; a valid signature of an operator key authenticates its queue, another is refused; a close
ends the session; registers of one page are read and written in order, the lowest refused one answers for a write, which then changes none; a subscription is kept; a
region gets the lowest free number and an rkey; an unknown opcode answers BAD_ARGUMENT; a reset goes to BOOT. -/
def Obligations.SprinovCommands : Prop :=
  (∀ (q : Fin 64) (c : Cmd) (s x : State), starts s q.val 1 c → x = s.started q.val c → leAt c.body 0 2 &&& x.regN pgSPV 0x07C &&& 2 = 0 → exec (.sessionHello q) s = .next (x.refuse (c.ret q.val) 1 stVERSION)) ∧
  (∀ (q : Fin 64) (c : Cmd) (s x y z : State), starts s q.val 1 c → x = s.started q.val c → leAt c.body 0 2 &&& x.regN pgSPV 0x07C &&& 2 ≠ 0 → y = { x with freeCtr := x.freeCtr + 1 } →
    z = y.modQueue q.val (fun k => k.opened (toLE 16 ((Config.freeValue x.freeCtr).toNat % 2 ^ 128)) (bitOf (leAt c.body 2 1) 0) (leAt c.body 4 4)) →
    exec (.sessionHello q) s = .next (z.ok (c.ret q.val) (toLE 1 1 ++ toLE 1 0 ++ toLE 2 z.self ++ toLE 4 (z.queue q.val).next ++ toLE 16 ((Config.freeValue x.freeCtr).toNat % 2 ^ 128)))) ∧
  (∀ (q : Fin 64) (c : Cmd) (s x : State) (i : Nat), starts s q.val 2 c → x = s.started q.val c → x.keySlotOf (sliceB c.body 0 97) = some i → (x.queue q.val).session = true →
    Config.ecdsaVerify (sliceB c.body 0 97) (x.authDigest q.val) (sliceB c.body 100 96) = true →
    exec (.sessionAuth q) s = .next ((x.modQueue q.val (fun k => { k with auth := true, keySlot := i })).ok (c.ret q.val) (toLE 1 i))) ∧
  (∀ (q : Fin 64) (c : Cmd) (s x : State), starts s q.val 2 c → x = s.started q.val c → x.keySlotOf (sliceB c.body 0 97) = none →
    exec (.sessionAuth q) s = .next ((x.latchErr pgSPV 2 2 (c.seq % 2 ^ 32) (spvHi 2 q.val)).refuse (c.ret q.val) 2 stAUTH)) ∧
  (∀ (q : Fin 64) (c : Cmd) (s x : State), starts s q.val 3 c → x = s.started q.val c →
    exec (.sessionClose q) s = .next ((x.modQueue q.val (fun k => { k with session := false, auth := false, nonce := [] })).ok (c.ret q.val) [])) ∧
  (∀ (q : Fin 64) (c : Cmd) (s x : State), starts s q.val 0x10 c → x = s.started q.val c → exec (.stateQuery q) s = .next (x.ok (c.ret q.val) x.summary)) ∧
  (∀ (k : CmdQueue) (n : Bytes) (first : Nat), k.opened n true first = { k with session := true, auth := false, nonce := n } ∧ (k.opened n false first).cache = [] ∧ (k.opened n false first).next = first) ∧
  (∀ (q : Fin 64) (c : Cmd) (s x : State) (p : Nat) (offs : List Nat), starts s q.val 0x11 c → x = s.started q.val c → regOffsets c.body = some (p, offs) →
    exec (.regRead q) s = .next ((x.readRegs p offs).2.ok (c.ret q.val) (x.readRegs p offs).1)) ∧
  (∀ (s : State) (p o : Nat), s.readRegs p [o] = (toLE 4 (s.regRead p o).1, (s.regRead p o).2)) ∧
  (∀ (q : Fin 64) (c : Cmd) (s x : State) (p : Nat) (offs : List Nat), starts s q.val 0x12 c → x = s.started q.val c → regOffsets c.body = some (p, offs) →
    ((∀ w ∈ regWrites c.body offs, x.regCheck p w.1 w.2 true = 0) →
      exec (.regWrite q) s = .next (((regWrites c.body offs).foldl (fun (y : State) w => y.regApply p w.1 w.2 true) x).ok (c.ret q.val) [])) ∧
    (∀ st, ((regWrites c.body offs).map (fun w => x.regCheck p w.1 w.2 true)).find? (· != 0) = some st → exec (.regWrite q) s = .next (x.refuse (c.ret q.val) 0x12 st))) ∧
  (∀ (q : Fin 64) (c : Cmd) (s x : State), starts s q.val 0x13 c → x = s.started q.val c →
    exec (.eventSubscribe q) s = .next (({ x with subs := kvSet x.subs q.val { pages := leAt c.body 0 64, beat := bitOf (leAt c.body 64 1) 0, next := 0 } } : State).ok (c.ret q.val) [])) ∧
  (∀ (q : Fin 64) (c : Cmd) (s x : State) (i : Nat), starts s q.val 0x20 c → x = s.started q.val c → leAt c.body 0 8 % 4096 = 0 → leAt c.body 8 8 % 4096 = 0 → dramMapped (leAt c.body 0 8) (leAt c.body 8 8) = true →
    (List.range 4096).find? (fun i => !kvHas x.eth.regions i) = some i →
    exec (.memMap q) s = .next (({ x with freeCtr := x.freeCtr + 1, eth := { x.eth with regions := kvSet x.eth.regions i { off := leAt c.body 0 8, len := leAt c.body 8 8, access := leAt c.body 16 1 % 8, rkey := (Config.freeValue x.freeCtr).toNat % 2 ^ 32 } } } : State).ok (c.ret q.val)
      (toLE 2 i ++ toLE 2 0 ++ toLE 4 ((Config.freeValue x.freeCtr).toNat % 2 ^ 32)))) ∧
  (∀ (q : Fin 64) (c : Cmd) (s x : State), starts s q.val 0x21 c → x = s.started q.val c → kvHas x.eth.regions (leAt c.body 0 2) = true →
    exec (.memUnmap q) s = .next (({ x with eth := { x.eth with regions := kvDel x.eth.regions (leAt c.body 0 2) } } : State).ok (c.ret q.val) [])) ∧
  (∀ (q : Nat) (c : Cmd) (s x : State), s.nextStart = some (q, c) → knownOp c.op = false → c.ver = 1 → x = s.started q c → (x.queue q).auth = true → exec .unknownOpcode s = .next (x.refuse (c.ret q) c.op stBAD)) ∧
  (∀ (q : Fin 64) (c : Cmd) (s x : State), starts s q.val 0x76 c → x = s.started q.val c →
    ∃ u, exec (.moduleReset q) s = .next u ∧ u = (x.ok (c.ret q.val) []).resetTo .boot (some 1) ∧ u.fmn.state = .boot ∧ u.dram = (x.ok (c.ret q.val) []).dram)

/-- REGISTER_WRITE, EVT_SET_INJECT, ERR_CODE_READ and LO_HALF_READ (R15, R17, R433, R439, R442, R443, R455): a write that a rule refuses changes nothing but the answer,
any other is made; a write of the Postmaster passes two checked messages, and a failing one fences the module; a read answers the register's view with its captures,
a page outside the map BAD_ARGUMENT. A host's write of EVT_MASK replaces the implemented bits; a write of 1 to EVT_PEND clears the bit; a write to EVT_SET latches
the event; a read of ERR_CODE captures both ERR_INFO registers; a read of a low half captures its upper half. -/
def Obligations.RegisterAccesses : Prop :=
  (∀ (t : Fin 128) (v : Word) (s : State), s.fmn.state ≠ .stepping →
    exec (.registerWrite ⟨0x0C0 + t.val, by omega⟩ 6 v 0) s =
      .next { s.setReg (pgINK t.val) 0x018 (writtenBits (s.regN (pgINK t.val) 0x018) v.toNat 0x7FF) with answer := 0 }) ∧
  (∀ (v : Word) (s : State),
    exec (.registerWrite ⟨pgIMP, by decide⟩ 5 v 0) s = .next { s.setReg pgIMP 0x014 (s.reg pgIMP 0x014 &&& ~~~v) with answer := 0 }) ∧
  (∀ (k : Fin 5) (s : State),
    ∃ u, exec (.evtSetInject ⟨pgIMP, by decide⟩ (BitVec.ofNat 32 (2 ^ k.val))) s = .next u ∧
      u = { s with regs := u.regs, letters := u.letters, withheld := u.withheld, subs := u.subs, answer := 0 } ∧ pends u pgIMP k.val ∧ regsBut s u (evtRegs pgIMP)) ∧
  (∀ (s : State), kvFind s.captured (regKey pgFMN 0x024) = none →
    ∃ u, exec (.errCodeRead ⟨pgFMN, by decide⟩) s = .next u ∧ u = { s with captured := u.captured, answer := 0, readData := s.reg pgFMN 0x024 } ∧
      kvFind u.captured (regKey pgFMN 0x028) = some (s.reg pgFMN 0x028) ∧ kvFind u.captured (regKey pgFMN 0x02C) = some (s.reg pgFMN 0x02C)) ∧
  (∀ (s : State), s.domOn 181 = true → kvFind s.captured (regKey pgDTL 0x040) = none →
    ∃ u, exec (.loHalfRead ⟨pgDTL, by decide⟩ ⟨0x10, by decide⟩) s = .next u ∧ u = { s with captured := u.captured, answer := 0, readData := s.reg pgDTL 0x040 } ∧
      kvFind u.captured (regKey pgDTL 0x044) = some (s.reg pgDTL 0x044)) ∧
  (∀ (s : State) (v : Word), kvFind s.captured (regKey pgDTL 0x044) = some v →
    exec (.loHalfRead ⟨pgDTL, by decide⟩ ⟨0x11, by decide⟩) s = .next { s with captured := kvDel s.captured (regKey pgDTL 0x044), answer := 0, readData := v }) ∧
  (∀ (page : Fin 512) (off : Fin 1024) (v : Word) (st : Nat) (s : State), st = s.regCheck page.val (4 * off.val) v.toNat true →
    exec (.registerWrite page off v 0) s = .next (if st = 0 then { s.regApply page.val (4 * off.val) v.toNat true with answer := 0 } else { s with answer := st })) ∧
  (∀ (page : Fin 512) (off : Fin 1024) (v : Word) (st : Nat) (s x y : State), x = s.aliveTick 6 → st = x.regCheck page.val (4 * off.val) v.toNat false →
    y = (if st = 0 then { x.regApply page.val (4 * off.val) v.toNat false with answer := 0 } else { x with answer := st }) →
    exec (.registerWrite page off v 1) s = .next (y.aliveTick 7) ∧ exec (.registerWrite page off v 2) s = .next (s.aliveFail 6) ∧ exec (.registerWrite page off v 3) s = .next (y.aliveFail 7)) ∧
  (∀ (page : Fin 512) (v : Word) (st : Nat) (s : State), st = s.regCheck page.val 0x01C v.toNat true →
    exec (.evtSetInject page v) s = .next (if st = 0 then { s.regApply page.val 0x01C v.toNat true with answer := 0 } else { s with answer := st })) ∧
  (∀ (page : Fin 512) (off : Fin 1024) (s x : State) (v : Nat), pageBlk page.val ≠ none → s.regRead page.val (4 * off.val) = (v, x) →
    exec (.loHalfRead page off) s = .next { x with answer := 0, readData := BitVec.ofNat 32 v } ∧ (off.val = 9 → exec (.errCodeRead page) s = .next { x with answer := 0, readData := BitVec.ofNat 32 v })) ∧
  (∀ (page : Fin 512) (off : Fin 1024) (s : State), pageBlk page.val = none → exec (.loHalfRead page off) s = .next { s with answer := stBAD } ∧ exec (.errCodeRead page) s = .next { s with answer := stBAD })

/-- R443: a write of 1 to an EVT_SET bit latches the event as any latch does, with its letters (R441, R420), whatever page it is on; each implemented bit of the word is
set in EVT_PEND and no other (a full letter bound adds SPV_LETTER_OVF on the Sprinov page), EVT_COUNT counts each, saturating; EVT_RAW, ERR_CODE, ERR_INFO and every
other register stay, and no response of the block follows: only registers of events and letters change. -/
def Obligations.EventSetInjects : Prop :=
  (∀ (page : Fin 512) (k i : Nat) (b : Blk) (s : State), pageBlk page.val = some (b, i) → (s.fmn.state ≠ .stepping ∨ dataPlane b i = false) → k < b.events →
    exec (.evtSetInject page (BitVec.ofNat 32 (2 ^ k))) s = .next { s.latch page.val k with answer := 0 }) ∧
  (∀ (page : Fin 512) (v : Word) (i : Nat) (b : Blk) (s : State), pageBlk page.val = some (b, i) → (s.fmn.state ≠ .stepping ∨ dataPlane b i = false) →
    ∃ u, exec (.evtSetInject page v) s = .next u ∧ u = { s with regs := u.regs, letters := u.letters, withheld := u.withheld, subs := u.subs, answer := 0 } ∧
      regsBut s u (evtRegs page.val) ∧
      (page.val ≠ pgSPV → u.regN page.val 0x020 = min 0xFFFFFFFF (s.regN page.val 0x020 + ((List.range b.events).filter (fun k => v.getLsbD k)).length) ∧
        ∀ k : Fin 32, (u.reg page.val 0x014).getLsbD k.val = ((s.reg page.val 0x014).getLsbD k.val || (decide (k.val < b.events) && v.getLsbD k.val))))

/-- R434: with the block's domain off, every block-specific register reads as 0 (but an upper half captured before, which R17 still answers) and a write is refused with
ILLEGAL_IN_STATE and changes nothing; offsets below 0x040 are reached whatever the domain's state: it decides neither a read nor a write of them, but for the
domain's own status. -/
def Obligations.DomainOffAccesses : Prop :=
  (∀ (page : Fin 512) (off : Fin 1024) (v : Word) (i : Nat) (b : Blk) (s : State), pageBlk page.val = some (b, i) → 0x10 ≤ off.val → s.domOn (domainOf b i) = false →
    (kvFind s.captured (regKey page.val (4 * off.val)) = none → (s.regRead page.val (4 * off.val)).1 = 0) ∧
    exec (.registerWrite page off v 0) s = .next { s with answer := stILLEGAL }) ∧
  (∀ (p off d x v : Nat) (h : Bool) (s : State), off < 0x040 →
    (s.setDom d x).regCheck p off v h = s.regCheck p off v h ∧ (off ≠ 0x030 → off ≠ 0x00C → (s.setDom d x).regView p off = s.regView p off))

/-- R436: after reset the ID register of every page holds the block's code, its instance, and version 2.1; and no write of a host changes it, or any other register with
it. -/
def Obligations.IdRegisters : Prop :=
  (∀ (p i : Nat) (b : Blk), pageBlk p = some (b, i) → State.reset.regView p 0 = b.code * 2 ^ 24 + i * 2 ^ 16 + 0x0201) ∧
  (∀ (page : Fin 512) (v : Word) (i : Nat) (b : Blk) (s : State), pageBlk page.val = some (b, i) →
    ∃ u, exec (.registerWrite page 0 v 0) s = .next u ∧ u = { s with regs := u.regs, answer := 0 } ∧ regsBut s u [])

/-- R17: the _LO register holds bits [31:0] and the _HI register, four bytes on, bits [63:32]; a read of _LO answers its view and captures the upper half, which the next
read of _HI answers once, whatever the live value has become; without a capture a read of _HI answers the live upper half. A count that the spec leaves open (log
entry 13) is one free 64-bit value, split in the same way. -/
def Obligations.SplitRegisterReads : Prop :=
  (∀ (s : State) (p o : Nat), s.reg64 p o = s.regN p o + s.regN p (o + 4) * 2 ^ 32) ∧
  (∀ (s u : State) (p o i : Nat) (b : Blk), pageBlk p = some (b, i) → loHalf b o = true → o % 4 = 0 → o < 0x1000 → s.openPair b i o = false → s.openPair b i (o - 4) = false → s.openWord b i o = false →
    kvFind s.captured (regKey p o) = none → u.captured = (s.regRead p o).2.captured →
    (s.regRead p o).1 = s.regView p o ∧ (u.regRead p (o + 4)).1 = s.regView p (o + 4) % 2 ^ 32 ∧ kvFind (u.regRead p (o + 4)).2.captured (regKey p (o + 4)) = none) ∧
  (∀ (s : State) (p o i : Nat) (b : Blk), pageBlk p = some (b, i) → s.openPair b i o = true → s.domOn (domainOf b i) = true → kvFind s.captured (regKey p o) = none →
    ∃ v, v < 2 ^ 64 ∧ (s.regRead p o).1 = v % 2 ^ 32 ∧ ∀ u : State, u.captured = (s.regRead p o).2.captured → (u.regRead p (o + 4)).1 = v / 2 ^ 32) ∧
  (∀ (s : State) (p o i : Nat) (b : Blk), pageBlk p = some (b, i) → s.openPair b i o = false → s.openPair b i (o - 4) = false → s.openWord b i o = false → kvFind s.captured (regKey p o) = none →
    (s.regRead p o).1 = s.regView p o)

/-- PMK_INIT, PMK_COMPARE, PMK_DATA, PMK_DATA_TAIL and PMK_VALUE_WRITE (R453, R456 to R460) on a general unit: the value an algorithm starts with, the compare with
EXPECT and its counts, the check value over four bytes or the low bytes of a word, and a value written, a 64-bit one with its high half. A tail of no bytes and every
write to a unit of a path are ignored with the unit's event, in STEPPING refused where the path is the fabric's. With the domain off a write of a data or value
register is refused. LDG_SYNC and LDG_CFG_COMMIT (R487): SYNC asks for a record; CFG_COMMIT, in IDLE or SERVICE, puts every staged byte of the section into the next
record and empties the window; in another state it is refused. -/
def Obligations.PostmarkAndLedgerControl : Prop :=
  (∀ (n : Fin 6) (s : State),
    exec (.pmkInit ⟨10 + n.val, by omega⟩) s = .next { (s.setField (pgPMK (10 + n.val)) 0x008 2 2 (s.pmkAlg (10 + n.val))).setPmk (10 + n.val) (algStart (s.pmkAlg (10 + n.val))) with answer := 0 }) ∧
  (∀ (n : Fin 6) (s : State), s.pmkResult (10 + n.val) = s.reg64 (pgPMK (10 + n.val)) 0x050 % 2 ^ algWidth (s.pmkAlg (10 + n.val)) →
    ∃ u, exec (.pmkCompare ⟨10 + n.val, by omega⟩) s = .next u ∧ u = { s with regs := u.regs, answer := 0 } ∧
      u.field (pgPMK (10 + n.val)) 0x00C 0 2 = 3 ∧ u.reg64 (pgPMK (10 + n.val)) 0x060 = satAdd64 (s.reg64 (pgPMK (10 + n.val)) 0x060) 1 ∧
      regsBut s u [(pgPMK (10 + n.val), 0x008), (pgPMK (10 + n.val), 0x00C), (pgPMK (10 + n.val), 0x060), (pgPMK (10 + n.val), 0x064)]) ∧
  (∀ (n : Fin 6) (s : State), s.pmkResult (10 + n.val) ≠ s.reg64 (pgPMK (10 + n.val)) 0x050 % 2 ^ algWidth (s.pmkAlg (10 + n.val)) →
    ∃ u, exec (.pmkCompare ⟨10 + n.val, by omega⟩) s = .next u ∧ u = { s with regs := u.regs, letters := u.letters, withheld := u.withheld, subs := u.subs, answer := 0 } ∧
      u.field (pgPMK (10 + n.val)) 0x00C 0 2 = 1 ∧ pends u (pgPMK (10 + n.val)) 0 ∧ u.regN (pgPMK (10 + n.val)) 0x024 = 1 ∧
      u.regN (pgPMK (10 + n.val)) 0x068 = satAdd32 (s.regN (pgPMK (10 + n.val)) 0x068) 1) ∧
  (∀ (n : Fin 6) (v : Word) (s : State), s.domOn 183 = true →
    ∃ u, exec (.pmkData ⟨10 + n.val, by omega⟩ v) s = .next u ∧ u = { s with regs := u.regs, answer := 0 } ∧
      u.pmkValue (10 + n.val) = pmBytes (s.pmkAlg (10 + n.val)) (s.pmkValue (10 + n.val)) (toLE 4 v.toNat) % 2 ^ algWidth (s.pmkAlg (10 + n.val)) ∧
      regsBut s u [(pgPMK (10 + n.val), 0x040), (pgPMK (10 + n.val), 0x044), (pgPMK (10 + n.val), 0x048)]) ∧
  (∀ (n : Fin 6) (v : Word) (s : State), s.domOn 183 = true → fld v.toNat 24 2 ≠ 0 →
    ∃ u, exec (.pmkDataTail ⟨10 + n.val, by omega⟩ v) s = .next u ∧ u = { s with regs := u.regs, answer := 0 } ∧
      u.pmkValue (10 + n.val) = pmBytes (s.pmkAlg (10 + n.val)) (s.pmkValue (10 + n.val)) (toLE (fld v.toNat 24 2) v.toNat) % 2 ^ algWidth (s.pmkAlg (10 + n.val)) ∧
      regsBut s u [(pgPMK (10 + n.val), 0x040), (pgPMK (10 + n.val), 0x044), (pgPMK (10 + n.val), 0x04C)]) ∧
  (∀ (n : Fin 6) (v : Word) (s : State), s.domOn 183 = true → s.pmkAlg (10 + n.val) ≠ 2 →
    ∃ u, exec (.pmkValueWrite ⟨10 + n.val, by omega⟩ false v) s = .next u ∧ u = { s with regs := u.regs, answer := 0 } ∧
      u.pmkValue (10 + n.val) = v.toNat % 2 ^ algWidth (s.pmkAlg (10 + n.val)) ∧
      regsBut s u [(pgPMK (10 + n.val), 0x040), (pgPMK (10 + n.val), 0x044)]) ∧
  (∀ (n : Fin 6) (v : Word) (s : State), s.domOn 183 = true → s.pmkAlg (10 + n.val) ≠ 2 → exec (.pmkValueWrite ⟨10 + n.val, by omega⟩ true v) s = .next { s with answer := 0 }) ∧
  (∀ (n : Fin 6) (v : Word) (s : State), s.domOn 183 = true → s.pmkAlg (10 + n.val) = 2 →
    exec (.pmkValueWrite ⟨10 + n.val, by omega⟩ false v) s = .next { s with mgmt := { s.mgmt with stage := kvSet s.mgmt.stage (10 + n.val) v.toNat }, answer := 0 } ∧
    exec (.pmkValueWrite ⟨10 + n.val, by omega⟩ true v) s =
      .next { ({ s with mgmt := { s.mgmt with stage := kvDel s.mgmt.stage (10 + n.val) } } : State).setPmk (10 + n.val) (kvGet s.mgmt.stage (10 + n.val) (s.regN (pgPMK (10 + n.val)) 0x040) + v.toNat * 2 ^ 32) with answer := 0 }) ∧
  (∀ (n : Fin 6) (v : Word) (s : State), s.domOn 183 = true → fld v.toNat 24 2 = 0 → exec (.pmkDataTail ⟨10 + n.val, by omega⟩ v) s = .next { s.latch (pgPMK (10 + n.val)) 2 with answer := 0 }) ∧
  (∀ (u : Fin 16) (s : State), u.val < 10 → (2 ≤ u.val ∨ s.fmn.state ≠ .stepping) →
    exec (.pmkInit u) s = .next { s.latch (pgPMK u.val) 2 with answer := 0 } ∧ exec (.pmkCompare u) s = .next { s.latch (pgPMK u.val) 2 with answer := 0 }) ∧
  (∀ (u : Fin 16) (hi : Bool) (v : Word) (s : State), u.val < 10 → s.domOn 183 = true → (2 ≤ u.val ∨ s.fmn.state ≠ .stepping) →
    exec (.pmkData u v) s = .next { s.latch (pgPMK u.val) 2 with answer := 0 } ∧ exec (.pmkDataTail u v) s = .next { s.latch (pgPMK u.val) 2 with answer := 0 } ∧
    exec (.pmkValueWrite u hi v) s = .next { s.latch (pgPMK u.val) 2 with answer := 0 }) ∧
  (∀ (u : Fin 2) (v : Word) (s : State), s.fmn.state = .stepping → exec (.pmkInit (u.castLE (by decide))) s = .next { s with answer := stILLEGAL } ∧
    exec (.pmkCompare (u.castLE (by decide))) s = .next { s with answer := stILLEGAL } ∧ (v ≠ 0 → exec (.pmkData (u.castLE (by decide)) v) s = .next { s with answer := stILLEGAL } ∧ exec (.pmkDataTail (u.castLE (by decide)) v) s = .next { s with answer := stILLEGAL })) ∧
  (∀ (u : Fin 16) (hi : Bool) (v : Word) (s : State), s.domOn 183 = false →
    exec (.pmkData u v) s = .next { s with answer := stILLEGAL } ∧ exec (.pmkDataTail u v) s = .next { s with answer := stILLEGAL } ∧ exec (.pmkValueWrite u hi v) s = .next { s with answer := stILLEGAL }) ∧
  (∀ (s : State),
    ∃ u, exec .ldgSync s = .next u ∧ u = { s with regs := u.regs, sel := { s.sel with updates := s.sel.updates ++ [(0, [])] }, answer := 0 } ∧ regsBut s u [(pgLDG, 0x008)]) ∧
  (∀ (s : State), (s.fmn.state = .idle ∨ s.fmn.state = .service) →
    ∃ u, exec .ldgCfgCommit s = .next u ∧
      u = { s with regs := u.regs, sel := { s.sel with updates := s.sel.updates ++ s.sel.cfg.map (fun p => (0x900 + p.1, [p.2])), cfg := [] }, answer := 0 } ∧
      regsBut s u [(pgLDG, 0x008)]) ∧
  (∀ (s : State), s.fmn.state ≠ .idle → s.fmn.state ≠ .service → exec .ldgCfgCommit s = .next { s with answer := stILLEGAL })

/-- POUCH_WRITE, POUCH_READ and POUCH_IDLE_TIMEOUT (R445, R448 to R451): a full Pouch, of 64 words at most where it is small, stalls its producer and an empty one its
consumer, with nothing changed; a written word stands behind the others; the first word is taken, and an answer of a small Pouch shows its count register before the
read (log entry 98); one that fails its parity is delivered poisoned with END set, counted, with its event, unless it arrived poisoned; the consumer of a large Pouch
begins at a whole packet or 16 words, or at its idle start, which is counted, and reads to the packet's end. The synchroniser cycles of R446 are timing. -/
def Obligations.PouchTransfers : Prop :=
  (∀ (p : Fin 512) (i : Fin 256) (data : Bytes) (last poison : Bool) (s : State), pouchSlots p.val i.val ≤ (s.pouch p.val i.val).words.length → exec (.pouchWrite p i data last poison) s = .next s) ∧
  (∀ (p i : Nat), smallPouch p = true → pouchSlots p i ≤ 64) ∧
  (∀ (p : Fin 512) (i : Fin 256) (data : Bytes) (last poison : Bool) (s : State) (w : Pouch), w = s.pouch p.val i.val → w.words.length < pouchSlots p.val i.val →
    exec (.pouchWrite p i data last poison) s = .next (s.setPouch p.val i.val { w with words := w.words ++ [{ data := data, last := last, poison := poison }] })) ∧
  (∀ (p : Fin 512) (i : Fin 256) (w : Pouch) (s : State), (s.setPouch p.val i.val w).pouch p.val i.val = w ∧
    ∀ (q : Fin 512) (j : Fin 256), (q, j) ≠ (p, i) → (s.setPouch p.val i.val w).pouch q.val j.val = s.pouch q.val j.val) ∧
  (∀ (p : Fin 512) (i : Fin 256) (bad : Bool) (s : State), (s.pouch p.val i.val).words = [] → exec (.pouchRead p i bad) s = .next s ∧ exec (.pouchIdleTimeout p i) s = .next s) ∧
  (∀ (p : Fin 512) (i : Fin 256) (bad : Bool) (s : State) (w : Pouch), w = s.pouch p.val i.val → largePouch p.val = true → w.begun = false → w.packets = 0 → w.words.length < 16 → exec (.pouchRead p i bad) s = .next s) ∧
  (∀ (p : Fin 512) (i : Fin 256) (s : State) (c : Pouch) (w : PouchWord) (r : List PouchWord), c = s.pouch p.val i.val → c.words = w :: r → (largePouch p.val = true → c.begun = true ∨ 1 ≤ c.packets ∨ 16 ≤ c.words.length) →
    exec (.pouchRead p i false) s = .next { s.setPouch p.val i.val { words := r, begun := largePouch p.val && !w.last } with answer := (if w.poison then stPOISON else stOK) + 256 * b2n w.last + (if smallPouch p.val then 2 ^ 16 * (c.packets * 2 ^ 16 + c.words.length) else 0), readData := BitVec.ofNat 32 (leAt w.data 0 4) }) ∧
  (∀ (p : Fin 512) (i : Fin 256) (s x y : State) (c : Pouch) (w : PouchWord) (r : List PouchWord), c = s.pouch p.val i.val → c.words = w :: r → (largePouch p.val = true → c.begun = true ∨ 1 ≤ c.packets ∨ 16 ≤ c.words.length) →
    x = s.setPouch p.val i.val { words := r, begun := false } → y = (if w.poison then x else (x.bump pgGLB 0x050 1).latchErr pgGLB 0 1 (p.val * 65536 + i.val) 0) →
    exec (.pouchRead p i true) s = .next { y with answer := stPOISON + 256 + (if smallPouch p.val then 2 ^ 16 * (c.packets * 2 ^ 16 + c.words.length) else 0), readData := BitVec.ofNat 32 (leAt w.data 0 4) }) ∧
  (∀ (p : Fin 512) (i : Fin 256) (s : State) (c : Pouch), c = s.pouch p.val i.val → largePouch p.val = true → c.words ≠ [] → c.begun = false →
    exec (.pouchIdleTimeout p i) s = .next ((s.setPouch p.val i.val { c with begun := true }).bump pgGLB 0x058 1)) ∧
  (∀ (p : Fin 512) (i : Fin 256) (s : State), (largePouch p.val = false ∨ (s.pouch p.val i.val).begun = true) → exec (.pouchIdleTimeout p i) s = .next s)

/-- FIRMWARE_STAGE, FIRMWARE_ACTIVATE, ATTEST_QUOTE, LIFECYCLE_SET, WIPE, LEDGER_UPDATE_REQUEST, LEDGER_WRITE and LEDGER_HOURLY_RECORD (R467, R468, R472 to R477, R480,
R481, R489): a checked image stands in the inactive slot, recorded as staged; an extent outside DRAM, another length, an image that fails a check and a slot that
reads back wrong are each refused, and nothing stays staged; without a staged slot an activation is refused, one that fails its check too, with a sound one it waits
for the boundary; a quote needs an identity, a free index and a record that reserves it; a transition off the list, without its token, or to RMA with none left,
changes no fuse; the wipe follows a transition whatever its second record does; a wipe waits for its end; an update of a protected section is refused, any other
waits; waiting updates make a record, an hour counts and makes one. -/
def Obligations.SealCommands : Prop :=
  (∀ (q : Fin 64) (bad : Bool) (fails : Nat) (c : Cmd) (s x : State), mails s q.val 0x70 c → x = s.mailed q.val c → x.extentOk (leAt c.body 0 8) (leAt c.body 8 4) = false →
    exec (.firmwareStage q bad fails) s = .next (x.mgmtReply (c.ret q.val) stBAD [])) ∧
  (∀ (q : Fin 64) (bad : Bool) (fails : Nat) (c : Cmd) (s x : State), mails s q.val 0x70 c → x = s.mailed q.val c → x.extentOk (leAt c.body 0 8) (leAt c.body 8 4) = true →
    leAt c.body 8 4 ≠ 256 + leAt (x.dram.read (leAt c.body 0 8) (leAt c.body 8 4)) 0xC 4 + 2048 →
    exec (.firmwareStage q bad fails) s = .next ((x.dramSeen (leAt c.body 0 8) (leAt c.body 8 4)).mgmtReply (c.ret q.val) stBAD [])) ∧
  (∀ (q : Fin 64) (bad : Bool) (fails code slot : Nat) (c : Cmd) (s x y : State) (img : Bytes), mails s q.val 0x70 c → x = s.mailed q.val c → img = x.dram.read (leAt c.body 0 8) (leAt c.body 8 4) →
    x.extentOk (leAt c.body 0 8) (leAt c.body 8 4) = true → leAt c.body 8 4 = 256 + leAt img 0xC 4 + 2048 → y = (x.dramSeen (leAt c.body 0 8) (leAt c.body 8 4)).sealCall →
    slot = 1 - y.fwActive % 2 → code = y.sel.fuses.fwCheck img → code ≠ 0 →
    exec (.firmwareStage q bad fails) s = .next (((y.fwReject code slot).unstage fails).mgmtRefuse (c.ret q.val) 0x70
      (if code ≠ 1 then stAUTH else if leAt img 0 4 = 0x4C4D4657 ∧ 1 < leAt img 4 2 then stVERSION else stBAD))) ∧
  (∀ (q : Fin 64) (fails slot : Nat) (c : Cmd) (s x y z : State) (img : Bytes), mails s q.val 0x70 c → x = s.mailed q.val c → img = x.dram.read (leAt c.body 0 8) (leAt c.body 8 4) →
    x.extentOk (leAt c.body 0 8) (leAt c.body 8 4) = true → leAt c.body 8 4 = 256 + leAt img 0xC 4 + 2048 → y = (x.dramSeen (leAt c.body 0 8) (leAt c.body 8 4)).sealCall →
    slot = 1 - y.fwActive % 2 → y.sel.fuses.fwCheck img = 0 → z = ({ y with freeCtr := y.freeCtr + 1 } : State).setSel (fun k => { k with images := kvSet k.images slot (Config.flashContent y.freeCtr) }) →
    exec (.firmwareStage q true fails) s = .next (((z.fwReject 7 slot).unstage fails).mgmtReply (c.ret q.val) stNORES [])) ∧
  (∀ (q : Fin 64) (fails slot : Nat) (ok : Bool) (c : Cmd) (s x y z : State) (img : Bytes), mails s q.val 0x70 c → x = s.mailed q.val c → img = x.dram.read (leAt c.body 0 8) (leAt c.body 8 4) →
    x.extentOk (leAt c.body 0 8) (leAt c.body 8 4) = true → leAt c.body 8 4 = 256 + leAt img 0xC 4 + 2048 → y = (x.dramSeen (leAt c.body 0 8) (leAt c.body 8 4)).sealCall →
    slot = 1 - y.fwActive % 2 → y.sel.fuses.fwCheck img = 0 → (y.setSel (fun k => { k with images := kvSet k.images slot img })).ledgerPut 1 fails (setStaged slot) id = (z, ok) →
    exec (.firmwareStage q false fails) s = .next (z.mgmtReply (c.ret q.val) (if ok then stOK else stNORES) [])) ∧
  (∀ (q : Fin 64) (fails : Nat) (c : Cmd) (s x : State), mails s q.val 0x71 c → x = s.mailed q.val c → x.fwStaged = 0xFF → exec (.firmwareActivate q fails) s = .next (x.mgmtReply (c.ret q.val) stBAD [])) ∧
  (∀ (q : Fin 64) (fails code : Nat) (c : Cmd) (s x : State), mails s q.val 0x71 c → x = s.mailed q.val c → x.fwStaged ≠ 0xFF → code = x.sealCall.sel.fuses.fwCheck (x.sealCall.image x.fwStaged) → code ≠ 0 →
    exec (.firmwareActivate q fails) s = .next ((x.sealCall.fwReject code x.fwStaged).mgmtReply (c.ret q.val) (if code = 1 then stBAD else stAUTH) [])) ∧
  (∀ (q : Fin 64) (fails : Nat) (ok : Bool) (c : Cmd) (s x y : State), mails s q.val 0x71 c → x = s.mailed q.val c → x.fwStaged ≠ 0xFF → x.sealCall.sel.fuses.fwCheck (x.sealCall.image x.fwStaged) = 0 →
    x.sealCall.ledgerPut 1 fails (fun m => setStaged 0xFF (setActive x.fwStaged m)) id = (y, ok) →
    exec (.firmwareActivate q fails) s = .next (if ok then (y.mboxDone (c.ret q.val)).setMgmt (fun g => { g with handover := .waiting, activate := some (q.val, c.seq), oldSlot := x.sealCall.fwActive })
      else y.mgmtReply (c.ret q.val) stNORES [])) ∧
  (∀ (q : Fin 64) (f0 f1 f2 : Nat) (c : Cmd) (s x : State), mails s q.val 0x72 c → x = s.mailed q.val c → x.sealCall.hasIdentity = false →
    exec (.attestQuote q f0 f1 f2) s = .next (x.sealCall.mgmtRefuse (c.ret q.val) 0x72 stILLEGAL)) ∧
  (∀ (q : Fin 64) (f0 f1 f2 : Nat) (c : Cmd) (s x y : State), mails s q.val 0x72 c → x = s.mailed q.val c → x.sealCall.hasIdentity = true → y = x.sealCall.makeAlias f0 f1 →
    (y.sel.cur.endorse = none ∨ y.aliasValid = false) → exec (.attestQuote q f0 f1 f2) s = .next (y.mgmtReply (c.ret q.val) stNORES [])) ∧
  (∀ (q : Fin 64) (f0 f1 f2 : Nat) (ok : Bool) (c : Cmd) (s x y z : State) (e : Endorse), mails s q.val 0x72 c → x = s.mailed q.val c → x.sealCall.hasIdentity = true → y = x.sealCall.makeAlias f0 f1 →
    y.aliasValid = true → y.sel.cur.endorse = some e → y.ledgerPut 1 f2 (fun m => m.writeLE 0x58 4 (y.aliasQ + 1)) id = (z, ok) →
    exec (.attestQuote q f0 f1 f2) s = .next (if ok then ((z.bump pgSEL 0x084 1).lifeAdd 9 1).mgmtReply (c.ret q.val) stOK (z.quote e y.aliasQ c.body) else z.mgmtReply (c.ret q.val) stNORES [])) ∧
  (∀ (q : Fin 64) (f0 f1 : Nat) (c : Cmd) (s x : State), mails s q.val 0x73 c → x = s.mailed q.val c → lcAllowed x.sealCall.lifeCycle (leAt c.body 0 1) = false →
    exec (.lifecycleSet q f0 f1) s = .next (x.sealCall.mgmtReply (c.ret q.val) stBAD [])) ∧
  (∀ (q : Fin 64) (f0 f1 : Nat) (c : Cmd) (s x : State), mails s q.val 0x73 c → x = s.mailed q.val c → lcAllowed x.sealCall.lifeCycle (leAt c.body 0 1) = true → leAt c.body 0 1 ≠ 5 → x.sealCall.tokenOk c.body = false →
    exec (.lifecycleSet q f0 f1) s = .next ((x.sealCall.latchErr pgSEL 2 8 0 0).mgmtReply (c.ret q.val) stAUTH [])) ∧
  (∀ (q : Fin 64) (f0 f1 : Nat) (c : Cmd) (s x : State), mails s q.val 0x73 c → x = s.mailed q.val c → lcAllowed x.sealCall.lifeCycle 4 = true → leAt c.body 0 1 = 4 → x.sealCall.tokenOk c.body = true →
    rmaLeft x.sealCall.sel.fuses.lc = 0 → exec (.lifecycleSet q f0 f1) s = .next (x.sealCall.mgmtReply (c.ret q.val) stNORES [])) ∧
  (∀ (q : Fin 64) (f0 f1 dest : Nat) (c : Cmd) (s x y : State), mails s q.val 0x73 c → x = s.mailed q.val c → dest = leAt c.body 0 1 → lcAllowed x.sealCall.lifeCycle dest = true → (dest = 5 ∨ x.sealCall.tokenOk c.body = true) →
    (dest = 4 → rmaLeft x.sealCall.sel.fuses.lc ≠ 0) → x.sealCall.ledgerPut 1 f0 (fun m => (setPendingLc dest m).write 0x60 (sliceB c.body 4 48)) id = (y, false) →
    exec (.lifecycleSet q f0 f1) s = .next (y.mgmtReply (c.ret q.val) stNORES [])) ∧
  (∀ (q : Fin 64) (f0 f1 dest : Nat) (ok : Bool) (c : Cmd) (s x y z w : State), mails s q.val 0x73 c → x = s.mailed q.val c → dest = leAt c.body 0 1 → lcAllowed x.sealCall.lifeCycle dest = true → (dest = 5 ∨ x.sealCall.tokenOk c.body = true) →
    (dest = 4 → rmaLeft x.sealCall.sel.fuses.lc ≠ 0) → x.sealCall.ledgerPut 1 f0 (fun m => (setPendingLc dest m).write 0x60 (sliceB c.body 4 48)) id = (y, true) →
    (y.blowLc dest).ledgerPut 1 f1 (lcRecord x.sealCall.lifeCycle dest y.lcCount (y.reg64 pgDTL 0x040) (sliceB c.body 4 48)) id = (z, ok) → w = (z.lifeAdd 5 1).wipeAll.setSel (fun k => { k with target := some dest }) →
    exec (.lifecycleSet q f0 f1) s = .next (if ok then w.setMgmt (fun g => { g with wipes := g.wipes ++ [(q.val, c.seq)] }) else w.mgmtReply (c.ret q.val) stNORES [])) ∧
  (∀ (q : Fin 64) (c : Cmd) (s x : State), mails s q.val 0x74 c → x = s.mailed q.val c →
    exec (.wipe q) s = .next (x.sealCall.wipeAll.setMgmt (fun g => { g with wipes := g.wipes ++ [(q.val, c.seq)] }))) ∧
  (∀ (off : Fin 16384) (data : Bytes) (s x : State) (e : Ram), x = s.sealCall → e = x.mergedData.write off.val data →
    exec (.ledgerUpdateRequest off data) s = .next (if e.read 0x40 80 ≠ x.mergedData.read 0x40 80 ∨ e.read 0x940 192 ≠ x.mergedData.read 0x940 192 then x.latch pgSEL 6 else x.ledgerUpdate off.val data)) ∧
  (∀ (fails : Nat) (s : State), s.sel.updates ≠ [] → s.mgmt.handover ≠ .paused → exec (.ledgerWrite fails) s = .next (s.ledgerPut 0 fails id id).1) ∧
  (∀ (fails : Nat) (s : State), (s.sel.updates = [] ∨ s.mgmt.handover = .paused) → exec (.ledgerWrite fails) s = .next s) ∧
  (∀ (fails : Nat) (s : State), s.sel.ldgPhase = 1 → exec (.ledgerHourlyRecord fails) s = .next ((s.lifeAdd 7 1).ledgerPut 0 fails id id).1) ∧
  (∀ (fails : Nat) (s : State), s.sel.ldgPhase ≠ 1 → exec (.ledgerHourlyRecord fails) s = .next s)

/-- Fuses are never unblown (R462): whatever command runs, every LC and revocation bit that was set stays set, SVN_MIN does not fall, and the key hashes and the serial
number stay. -/
def Obligations.FusesOnlyBlow : Prop := ∀ (s t : State), step s = .next t → s.sel.fuses.within t.sel.fuses

/-- The image in the active firmware slot is not written (R467), and only FIRMWARE_STAGE writes an image at all. -/
def Obligations.ActiveImageKept : Prop :=
  ∀ (c : Instr) (s t : State), exec c s = .next t →
    kvFind t.sel.images (s.fwActive % 2) = kvFind s.sel.images (s.fwActive % 2) ∧ ((∀ q b f, c ≠ .firmwareStage q b f) → t.sel.images = s.sel.images)

/-- No register shows the unique device secret (R462): a read of any register answers the same whatever the UDS is, and leaves states that differ in it alone. -/
def Obligations.SecretUnreadable : Prop :=
  ∀ (s : State) (u : Bytes) (p o : Nat), ((s.withUds u).regRead p o).1 = (s.regRead p o).1 ∧ ((s.withUds u).regRead p o).2 = (s.regRead p o).2.withUds u

/-- POWER_GOOD_RISE, POWER_GOOD_FALL, RESET_PIN, SEAL_BOOT, OTARAQUA_START, OTARAQUA_RUN_TIMEOUT, TILE_SELF_TEST, WIPE_TO_IDLE, HANDOVER_PAUSE_START, HANDOVER_COMPLETE,
HANDOVER_TIMEOUT and WATCHDOG_MISS (R466, R468, R483, R491, R500 to R504, R508, R509): power makes a COLD module BOOT with its straps, its loss makes it COLD; the
reset pin resets a powered module; the Seal boots once, from the newest record or without one, and an image that its checks accept runs, else the other slot's; the
Postmaster's start loads CONFIG and powers the always-on domains and the enabled tiles; a missed start tries the other slot; tiles that fail their self-test leave; a
wiped module with its links trained is IDLE, or in SERVICE; a handover pauses, ends with the new image's revocations, or goes back; a missed watchdog fences. Where
its condition does not hold an event changes nothing. -/
def Obligations.StartAndHandover : Prop :=
  (∀ (k : Fin 4) (s : State), s.fmn.state = .cold →
    exec (.powerGoodRise k false) s = .next (({ s with power := { s.power with good := true, strap := k.val } } : State).resetTo .boot (some 0)) ∧
    exec (.powerGoodRise k true) s = .next (({ s with power := { s.power with good := true, strap := k.val, thermN := false }, tap := .idcode } : State).resetTo .boot (some 0))) ∧
  (∀ (k : Fin 4) (b : Bool) (s : State), s.fmn.state ≠ .cold → exec (.powerGoodRise k b) s = .next s) ∧
  (∀ (s : State), ∃ u, exec .powerGoodFall s = .next u ∧ u = (s.resetTo .cold none).setPower (fun k => { k with good := false, dom := [] }) ∧
    u.fmn.state = .cold ∧ u.power.good = false ∧ u.power.dom = [] ∧ u.dram = s.dram ∧ u.sel.fuses = s.sel.fuses ∧ u.sel.recs = s.sel.recs ∧ u.sel.images = s.sel.images) ∧
  (∀ (s : State), s.power.good = true → ∃ u, exec .resetPin s = .next u ∧ u = s.resetTo .boot (some 1) ∧ u.fmn.state = .boot ∧ u.tap = s.tap) ∧
  (∀ (s : State), s.power.good = false → exec .resetPin s = .next s) ∧
  (∀ (e : Bool) (us pf af f0 f1 : Nat) (s : State), (s.fmn.state ≠ .boot ∨ s.sel.booted = true) → exec (.sealBoot e us pf af f0 f1) s = .next s) ∧
  (∀ (us pf af f0 f1 : Nat) (s : State), s.fmn.state = .boot → s.sel.booted = false → exec (.sealBoot true us pf af f0 f1) s = .next (({ s with sel := { s.sel with booted := true } } : State).latch pgSEL 7)) ∧
  (∀ (us pf af f0 f1 : Nat) (s : State), s.fmn.state = .boot → s.sel.booted = false → newestRec s.sel.recs = none → 2 ≤ s.lifeCycle →
    exec (.sealBoot false us pf af f0 f1) s = .next (((s.bootScan us).setSel (fun k => { k with ldgPhase := 4 })).sealHalt)) ∧
  (∀ (us pf af f0 f1 : Nat) (s x : State), s.fmn.state = .boot → s.sel.booted = false → newestRec s.sel.recs = none → s.lifeCycle < 2 →
    x = (s.bootScan us).setSel (fun k => { k with ldgPhase := 1, recs := putRec k.recs (emptyRecord s.lifeCycle), cur := emptyRecord s.lifeCycle }) →
    exec (.sealBoot false us pf af f0 f1) s = .next (if s.lifeCycle = 0 then x.sealHalt else x.bootSlot 0 af f0 f1)) ∧
  (∀ (us pf af f0 f1 : Nat) (s x : State) (r : LRec), s.fmn.state = .boot → s.sel.booted = false → newestRec s.sel.recs = some r →
    x = ((s.bootScan us).setSel (fun k => { k with ldgPhase := 1, cur := r })).settleLc pf →
    exec (.sealBoot false us pf af f0 f1) s = .next (if s.lifeCycle = 0 ∨ s.lifeCycle = 5 then x.sealHalt else x.bootSlot (x.fwActive % 2) af f0 f1)) ∧
  (∀ (slot af f0 f1 : Nat) (s : State), s.bootSlot slot af f0 f1 =
    if s.sel.fuses.fwCheck (s.image slot) = 0 then s.runSlot slot f0 f1 else (s.fwReject (s.sel.fuses.fwCheck (s.image slot)) slot).fallBack slot af f0 f1) ∧
  (∀ (s x : State), s.fmn.state = .boot → s.sel.phase = 3 → s.domOn 183 = false → x = (s.loadTiles.loadRepairs.loadRegs.domainsOn alwaysOn).domainsOn s.requested →
    ∃ u, exec .otaraquaStart s = .next u ∧ u = x.enabledTiles.foldl (fun (y : State) p => y.tileOn p) x ∧ ∀ d ∈ alwaysOn, u.domOn d = true) ∧
  (∀ (af f0 f1 : Nat) (s : State), s.fmn.state = .boot → s.sel.phase = 3 → s.domOn 183 = false → exec (.otaraquaRunTimeout af f0 f1) s = .next (s.fallBack s.sel.slot af f0 f1)) ∧
  (∀ (af f0 f1 : Nat) (s : State), (s.fmn.state ≠ .boot ∨ s.sel.phase ≠ 3 ∨ s.domOn 183 = true) → exec .otaraquaStart s = .next s ∧ exec (.otaraquaRunTimeout af f0 f1) s = .next s) ∧
  (∀ (failing : List (Fin 136)) (s x y : State), s.fmn.state = .boot → s.domOn 183 = true → s.mgmt.selfTested = false →
    x = ((failing.map (·.val)).filter (fun p => (s.tile p).role == .spare)).foldl (fun (z : State) p => z.retireSpare p) s →
    y = ((failing.map (·.val)).filter (fun p => (s.tile p).role == .enabled)).foldl (fun (z : State) p => if (z.tile p).role == .enabled then z.replaceTile p else z) x →
    exec (.tileSelfTest failing) s = .next ({ y with mgmt := { y.mgmt with selfTested := true } } : State).bootDone) ∧
  (∀ (failing : List (Fin 136)) (s : State), (s.fmn.state ≠ .boot ∨ s.domOn 183 = false ∨ s.mgmt.selfTested = true) → exec (.tileSelfTest failing) s = .next s) ∧
  (∀ (s : State), s.fmn.state = .wipe → (∀ m : Fin 16, s.phaseOf m.val = 4) → (∀ p : Fin 12, s.domOn (166 + p.val) = false ∨ s.link p.val ≠ 1) → s.ethLink = 2 →
    exec .wipeToIdle s = .next (s.setMod (if s.lifeCycle = 1 ∨ s.lifeCycle = 4 then .service else .idle))) ∧
  (∀ (s : State), (s.fmn.state ≠ .wipe ∨ (∃ m : Fin 16, s.phaseOf m.val ≠ 4) ∨ (∃ p : Fin 12, s.domOn (166 + p.val) = true ∧ s.link p.val = 1) ∨ s.ethLink ≠ 2) → exec .wipeToIdle s = .next s) ∧
  (∀ (s : State), s.mgmt.handover = .waiting → s.spv.mbox = none → exec .handoverPauseStart s = .next { s with mgmt := { s.mgmt with handover := .paused }, spv := { s.spv with paused := true } }) ∧
  (∀ (s : State), (s.mgmt.handover ≠ .waiting ∨ s.spv.mbox ≠ none) → exec .handoverPauseStart s = .next s) ∧
  (∀ (us f0 f1 : Nat) (s x : State) (img : Bytes), s.mgmt.handover = .paused → img = s.image (s.fwActive % 2) → x = (s.pauseEnds us stOK 8).lifeAdd 4 1 →
    exec (.handoverComplete us f0 f1) s = .next (({ x with sel := { x.sel with fuses := x.sel.fuses.commit img, slot := s.fwActive % 2, svn := leAt img 7 1, meas := fwMeas img } } : State).makeAlias f0 f1)) ∧
  (∀ (us fails : Nat) (s : State), s.mgmt.handover = .paused →
    exec (.handoverTimeout us fails) s = .next ((s.pauseEnds us stNORES 9).ledgerPut 1 fails (fun m => setStaged (1 - s.mgmt.oldSlot % 2) (setActive s.mgmt.oldSlot m)) id).1) ∧
  (∀ (us f0 f1 fails : Nat) (s : State), s.mgmt.handover ≠ .paused → exec (.handoverComplete us f0 f1) s = .next s ∧ exec (.handoverTimeout us fails) s = .next s) ∧
  (∀ (s : State), s.mgmt.handover ≠ .paused → s.domOn 183 = true → exec .watchdogMiss s = .next (s.fenceFor 9)) ∧
  (∀ (s : State), (s.mgmt.handover = .paused ∨ s.domOn 183 = false) → exec .watchdogMiss s = .next s)

/-- CLOCK_LOSS, DOMAIN_POWER_ON_DONE, DOMAIN_FAULT, OPP_CHANGE, THROTTLE_RISE, THROTTLE_FALL, PWR_HOT, TEMPERATURE_TRIP, PERSIST_TRIP and RAIL_TRIP (R492, R495 to R499):
a lost clock trips the module; a domain that has powered on is ON, its memories wiped; the fault of a tile's domain marks the tile, that of a spare's takes it out of
the map, any other fences the module; a tile takes the point in force; a Folio hot, over the power limit or with a hot memory goes one level up, one with every limit
clear one level down; a sensor at 115 degrees, a level held at 7 and a rail trip the module once, and a trip powers the domains of R499 off. Where its condition does
not hold an event changes nothing but the readings it brings. DOMAIN_POWER_REQUEST (R438, R494): in IDLE or SERVICE the request of a page whose domain switches is
stored and the domain follows it: off at once at 0, CHANGING at 1 where it was off; a request of 0 in another state is refused. A page whose domain does not switch
keeps its domain; a page outside the map is BAD_ARGUMENT. -/
def Obligations.PowerAndHeat : Prop :=
  (∀ (fails : Nat) (s x : State), s.fmn.state ≠ .cold → s.power.tripped = false → x = s.latchErr pgPWR 5 4 0 s.pwrHi →
    ∃ u, exec (.clockLoss fails) s = .next u ∧ u = x.tripActs fails ∧ u.power.tripped = true ∧ u.power.thermN = true) ∧
  (∀ (fails : Nat) (s : State), s.fmn.state ≠ .cold → s.power.tripped = true → exec (.clockLoss fails) s = .next (s.latchErr pgPWR 5 4 0 s.pwrHi)) ∧
  (∀ (fails : Nat) (s : State), s.fmn.state = .cold → exec (.clockLoss fails) s = .next s ∧ exec (.railTrip fails) s = .next s) ∧
  (∀ (fails d : Nat) (s : State), d ∈ tripDomains → (s.tripActs fails).domStatus d = 0) ∧
  (∀ (d : Fin 186) (s : State), s.domStatus d.val = 2 → d.val < 136 →
    ∃ u, exec (.domainPowerOnDone d) s = .next u ∧ u.domStatus d.val = 1 ∧ u.tile d.val = { (s.setDom d.val 1).tile d.val with mem := Ram.wiped, bankA := Bank.reset, bankB := Bank.reset, platen := [], freq := 3600 }) ∧
  (∀ (d : Fin 186) (s : State), s.domStatus d.val = 2 → 136 ≤ d.val → exec (.domainPowerOnDone d) s = .next
    (if d.val < 144 then { s.setDom d.val 1 with sorters := kvDel s.sorters (d.val - 136) } else if d.val = 160 ∨ d.val = 161 then { s.setDom d.val 1 with pgh := kvDel s.pgh (d.val - 160) } else s.setDom d.val 1)) ∧
  (∀ (d : Fin 186) (s : State), s.domStatus d.val ≠ 2 → exec (.domainPowerOnDone d) s = .next s) ∧
  (∀ (d : Fin 186) (s : State), 136 ≤ d.val → exec (.domainFault d) s = .next (((s.setDom d.val 3).latchErr pgPWR 4 1 d.val s.pwrHi).fenceFor 8)) ∧
  (∀ (d : Fin 186) (s x : State), d.val < 136 → x = (s.setDom d.val 3).latchErr pgPWR 4 1 d.val s.pwrHi → (x.tile d.val).role = .enabled → exec (.domainFault d) s = .next (x.markTile d.val)) ∧
  (∀ (d : Fin 186) (s x y : State) (p : Nat), d.val < 136 → x = (s.setDom d.val 3).latchErr pgPWR 4 1 d.val s.pwrHi → (x.tile d.val).role = .spare → y = (x.retireSpare d.val).setDom d.val 3 →
    (List.range 136).find? (fun p => tileFolio p == tileFolio d.val && (y.tile p).role == .enabled && (y.tile p).retire) = some p →
    exec (.domainFault d) s = .next (if (x.tile d.val).ready || (x.tile d.val).wiping then (y.modTile p (fun u => { u with retire := false })).markTile p else y)) ∧
  (∀ (d : Fin 186) (s x y : State), d.val < 136 → x = (s.setDom d.val 3).latchErr pgPWR 4 1 d.val s.pwrHi → (x.tile d.val).role = .spare → y = (x.retireSpare d.val).setDom d.val 3 →
    (List.range 136).find? (fun p => tileFolio p == tileFolio d.val && (y.tile p).role == .enabled && (y.tile p).retire) = none → exec (.domainFault d) s = .next y) ∧
  (∀ (d : Fin 186) (s x : State), d.val < 136 → x = (s.setDom d.val 3).latchErr pgPWR 4 1 d.val s.pwrHi → (x.tile d.val).role ≠ .enabled → (x.tile d.val).role ≠ .spare → exec (.domainFault d) s = .next x) ∧
  (∀ (t : Fin 136) (s : State) (k : Nat), (s.tile t.val).role = .enabled → s.domOn t.val = true → k = min 7 (kvGet s.power.force (s.tile t.val).logical 0 + s.throttle (tileFolio t.val)) →
    exec (.oppChange t) s = .next (s.setTile t.val { s.tile t.val with opp := k, freq := 3600 - 400 * k })) ∧
  (∀ (t : Fin 136) (s : State), ((s.tile t.val).role ≠ .enabled ∨ s.domOn t.val = false) → exec (.oppChange t) s = .next s) ∧
  (∀ (f : Fin 2) (temps : List (Fin 56 × Nat)) (w : Nat) (cap hot : Bool) (s x y z : State), x = { s.sense temps with power := { (s.sense temps).power with watts := w } } →
    hot = (bitOf (x.regN pgPWR 0x008) 0 && (folioSensors f.val).any (fun i => decide (x.tThrottle ≤ x.temp i))) → cap = (bitOf (x.regN pgPWR 0x008) 1 && decide (x.regN pgPWR 0x044 ≤ w)) →
    (hot || cap || x.memTemp f.val) = true → x.throttle f.val < 7 → y = { x with power := { x.power with level := kvSet x.power.level f.val (x.throttle f.val + 1) } } → z = (if cap then (y.bump pgPWR 0x06C 1).latch pgPWR 1 else y) →
    exec (.throttleRise f temps w) s = .next (if x.throttle f.val = 0 then (z.bump pgPWR 0x068 1).latch pgPWR 0 else z)) ∧
  (∀ (f : Fin 2) (temps : List (Fin 56 × Nat)) (w : Nat) (s x : State), x = { s.sense temps with power := { (s.sense temps).power with watts := w } } → bitOf (x.regN pgPWR 0x008) 0 = true → bitOf (x.regN pgPWR 0x008) 1 = false →
    (∃ i ∈ folioSensors f.val, x.tThrottle ≤ x.temp i) → 1 ≤ x.throttle f.val → x.throttle f.val < 7 →
    exec (.throttleRise f temps w) s = .next { x with power := { x.power with level := kvSet x.power.level f.val (x.throttle f.val + 1) } }) ∧
  (∀ (f : Fin 2) (temps : List (Fin 56 × Nat)) (w : Nat) (s x : State), x = { s.sense temps with power := { (s.sense temps).power with watts := w } } →
    (7 ≤ x.throttle f.val ∨ ((bitOf (x.regN pgPWR 0x008) 0 = false ∨ ∀ i ∈ folioSensors f.val, x.temp i < x.tThrottle) ∧ (bitOf (x.regN pgPWR 0x008) 1 = false ∨ w < x.regN pgPWR 0x044) ∧ x.memTemp f.val = false)) →
    exec (.throttleRise f temps w) s = .next x) ∧
  (∀ (f : Fin 2) (temps : List (Fin 56 × Nat)) (w : Nat) (s x : State), x = { s.sense temps with power := { (s.sense temps).power with watts := w } } → (∀ i ∈ folioSensors f.val, x.temp i + 40 ≤ x.tThrottle) →
    w + 50 ≤ x.regN pgPWR 0x044 → x.memTemp f.val = false → 0 < x.throttle f.val →
    exec (.throttleFall f temps w) s = .next { x with power := { x.power with level := kvSet x.power.level f.val (x.throttle f.val - 1) } }) ∧
  (∀ (f : Fin 2) (temps : List (Fin 56 × Nat)) (w : Nat) (s x : State), x = { s.sense temps with power := { (s.sense temps).power with watts := w } } →
    ((∃ i ∈ folioSensors f.val, x.tThrottle < x.temp i + 40) ∨ x.regN pgPWR 0x044 < w + 50 ∨ x.memTemp f.val = true ∨ x.throttle f.val = 0) → exec (.throttleFall f temps w) s = .next x) ∧
  (∀ (temps : List (Fin 56 × Nat)) (s : State), exec (.pwrHot temps) s = .next (s.sense temps)) ∧
  (∀ (i : Fin 56) (temp fails : Nat) (s x : State), x = s.sense [(i, temp)] → 920 ≤ x.temp i.val → x.power.tripped = false → ∃ u, exec (.temperatureTrip i temp fails) s = .next u ∧ u = x.trip 2 i.val fails ∧ u.power.tripped = true ∧ u.power.thermN = true) ∧
  (∀ (i : Fin 56) (temp fails : Nat) (s x : State), x = s.sense [(i, temp)] → (x.temp i.val < 920 ∨ x.power.tripped = true) → exec (.temperatureTrip i temp fails) s = .next x) ∧
  (∀ (f : Fin 2) (fails : Nat) (o : Option Nat) (s : State), s.throttle f.val = 7 → o = (folioSensors f.val).find? (fun i => decide (840 ≤ s.temp i)) → (o ≠ none ∨ s.memTemp f.val = true) → s.power.tripped = false →
    exec (.persistTrip f fails) s = .next (s.trip 3 (o.getD 0) fails)) ∧
  (∀ (f : Fin 2) (fails : Nat) (s : State), (s.throttle f.val ≠ 7 ∨ ((∀ i ∈ folioSensors f.val, s.temp i < 840) ∧ s.memTemp f.val = false) ∨ s.power.tripped = true) → exec (.persistTrip f fails) s = .next s) ∧
  (∀ (fails : Nat) (s : State), s.fmn.state ≠ .cold → exec (.railTrip fails) s = .next (if s.power.tripped then s else s.trip 5 0 fails)) ∧
  (∀ (i : Fin 8) (s : State), s.fmn.state = .service →
    ∃ u, exec (.domainPowerRequest ⟨0x0B0 + i.val, by omega⟩ false) s = .next u ∧
      u = { s with regs := u.regs, power := { s.power with dom := kvSet s.power.dom (136 + i.val) 0 }, answer := 0 } ∧
      u.domStatus (136 + i.val) = 0 ∧ regsBut s u [(pgSRT i.val, 0x030)]) ∧
  (∀ (i : Fin 8) (s : State), s.fmn.state = .service → s.domStatus (136 + i.val) = 0 →
    ∃ u, exec (.domainPowerRequest ⟨0x0B0 + i.val, by omega⟩ true) s = .next u ∧
      u = { s with regs := u.regs, power := { s.power with dom := kvSet s.power.dom (136 + i.val) 2 }, answer := 0 } ∧
      u.domStatus (136 + i.val) = 2 ∧ regsBut s u [(pgSRT i.val, 0x030)]) ∧
  (∀ (r : Bool) (s : State), s.fmn.state = .service → exec (.domainPowerRequest ⟨pgNUM, by decide⟩ r) s = .next { s with answer := 0 }) ∧
  (∀ (page : Fin 512) (r : Bool) (b : Blk) (i : Nat) (s : State), pageBlk page.val = some (b, i) → pwrSw b i = true → (s.fmn.state = .idle ∨ s.fmn.state = .service ∨ (r = true ∧ s.fmn.state ≠ .stepping)) →
    exec (.domainPowerRequest page r) s = .next { (s.storeRw page.val b i 0x030 (b2n r)).followReq b i with answer := 0 }) ∧
  (∀ (page : Fin 512) (b : Blk) (i : Nat) (s : State), pageBlk page.val = some (b, i) → pwrSw b i = true → s.fmn.state ≠ .idle → s.fmn.state ≠ .service →
    exec (.domainPowerRequest page false) s = .next { s with answer := stILLEGAL }) ∧
  (∀ (page : Fin 512) (r : Bool) (b : Blk) (i : Nat) (s : State), pageBlk page.val = some (b, i) → pwrSw b i = false → exec (.domainPowerRequest page r) s = .next { s with answer := 0 }) ∧
  (∀ (page : Fin 512) (b : Blk) (i : Nat) (s : State), pageBlk page.val = some (b, i) → pwrSw b i = true → s.fmn.state = .stepping →
    exec (.domainPowerRequest page true) s = .next (if dataPlane b i && s.changesNow page.val b i 0x030 1 then { s with answer := stILLEGAL } else { (s.storeRw page.val b i 0x030 1).followReq b i with answer := 0 })) ∧
  (∀ (page : Fin 512) (r : Bool) (s : State), pageBlk page.val = none → exec (.domainPowerRequest page r) s = .next { s with answer := stBAD })

/-- THERM_TRIP_N, once low, stays low whatever command runs, unless VDD_AUX has been lost (R529); the sampled straps change only at POWER_GOOD_RISE (R531). -/
def Obligations.TripAndStrapsHeld : Prop :=
  ∀ (c : Instr) (s t : State), exec c s = .next t →
    ((∀ k, c ≠ .powerGoodRise k true) → s.power.thermN = true → t.power.thermN = true) ∧ ((∀ k b, c ≠ .powerGoodRise k b) → t.power.strap = s.power.strap)

/-- DATELINE_TICK, PPS_EDGE, PPS_SERVO_SECOND, PPS_LOSS, PTP_LOSS, TAP_RESET and TAP_INSTRUCTION (R505 to R507, R534, R535): a tick adds a nanosecond and ADJ's part of
one, the fraction carried; an edge captures the time less the cable delay, counts, aligns an armed Dateline to its second, or the master's, and ends a HOLDOVER; the
servo keeps its bounds, and the fourth second in a row that is too far off latches its event; a lost source is a HOLDOVER; the TAP takes an instruction where access
is open, and BYPASS in its place where it is closed. TIME_ARM and PTP_OFFSET_MEASUREMENT (R506, R507): with no source named the Dateline is aligned at once;
otherwise it is armed; a measured offset is kept, completes an arm by PTP alone, and ends a HOLDOVER under PTP alone. -/
def Obligations.TimeAndTap : Prop :=
  (∀ (s : State) (f : Int), s.fmn.state ≠ .cold → f = s.dateline.frac + 1000000000 + sext 32 (s.regN pgDTL 0x050) →
    exec .datelineTick s = .next (({ s with dateline := { s.dateline with frac := f % 1000000000 } } : State).set64 pgDTL 0x040 (wrapN 64 ((s.reg64 pgDTL 0x040 : Int) + f / 1000000000)))) ∧
  (∀ (s : State), s.fmn.state = .cold → exec .datelineTick s = .next s ∧ exec .ppsEdge s = .next s) ∧
  (∀ (s : State), s.fmn.state ≠ .cold → s.dateline.arm = none → s.mode ≠ 4 →
    exec .ppsEdge s = .next ((s.set64 pgDTL 0x048 (wrapN 64 ((s.reg64 pgDTL 0x040 : Int) - (s.regN pgDTL 0x058 % 65536 : Nat)))).bump pgDTL 0x064 1)) ∧
  (∀ (s x : State), s.fmn.state ≠ .cold → s.dateline.arm = none → s.mode = 4 → x = (s.set64 pgDTL 0x048 (wrapN 64 ((s.reg64 pgDTL 0x040 : Int) - (s.regN pgDTL 0x058 % 65536 : Nat)))).bump pgDTL 0x064 1 →
    exec .ppsEdge s = .next (if x.field pgDTL 0x00C 27 1 = 1 then x.setMode 2 else x)) ∧
  (∀ (s x : State) (a : Arm), s.fmn.state ≠ .cold → s.dateline.arm = some a → a.pps = true → a.ptp = false →
    x = (s.set64 pgDTL 0x048 (wrapN 64 ((s.reg64 pgDTL 0x040 : Int) - (s.regN pgDTL 0x058 % 65536 : Nat)))).bump pgDTL 0x064 1 →
    exec .ppsEdge s = .next ((x.align (((a.seconds * 10 ^ 9 : Nat) : Int) + (s.regN pgDTL 0x058 % 65536 : Nat)) 2).set64 pgDTL 0x048 (wrapN 64 ((a.seconds * 10 ^ 9 : Nat) : Int)))) ∧
  (∀ (s x : State) (a : Arm) (m t : Int), s.fmn.state ≠ .cold → s.dateline.arm = some a → a.pps = true → a.ptp = true → s.dateline.master = some m →
    x = (s.set64 pgDTL 0x048 (wrapN 64 ((s.reg64 pgDTL 0x040 : Int) - (s.regN pgDTL 0x058 % 65536 : Nat)))).bump pgDTL 0x064 1 → t = nearestSecond ((s.reg64 pgDTL 0x040 : Int) - (s.regN pgDTL 0x058 % 65536 : Nat) + m) →
    exec .ppsEdge s = .next ((x.align (t + (s.regN pgDTL 0x058 % 65536 : Nat)) 2).set64 pgDTL 0x048 (wrapN 64 t))) ∧
  (∀ (s : State) (a : Arm), s.fmn.state ≠ .cold → s.dateline.arm = some a → (a.pps = false ∨ (a.ptp = true ∧ s.dateline.master = none)) →
    exec .ppsEdge s = .next ((s.set64 pgDTL 0x048 (wrapN 64 ((s.reg64 pgDTL 0x040 : Int) - (s.regN pgDTL 0x058 % 65536 : Nat)))).bump pgDTL 0x064 1)) ∧
  (∀ (i e : Int), -100000 ≤ (ppsServo i e).1 ∧ (ppsServo i e).1 ≤ 100000 ∧ -500000 ≤ (ppsServo i e).2 ∧ (ppsServo i e).2 ≤ 500000) ∧
  (∀ (mean e : Int) (n : Nat) (s x y : State), (s.mode = 2 ∨ s.mode = 3) → e = s.servoOffset mean → n = (if 1000000 < e ∨ e < -1000000 then s.dateline.late + 1 else 0) →
    x = ({ s with dateline := { s.dateline with late := n } } : State).setN pgDTL 0x054 (wrapN 32 (clampI e (-2 ^ 31) (2 ^ 31 - 1))) → y = (if n = 4 then x.latch pgDTL 4 else x) →
    exec (.ppsServoSecond mean) s = .next (if bitOf (s.regN pgDTL 0x008) 0 then
      ({ y with dateline := { y.dateline with integ := (ppsServo s.dateline.integ e).1 } } : State).setN pgDTL 0x050 (wrapN 32 (ppsServo s.dateline.integ e).2) else y)) ∧
  (∀ (mean : Int) (s : State), s.mode = 3 → s.servoOffset mean = mean) ∧
  (∀ (mean : Int) (s : State), s.mode ≠ 2 → s.mode ≠ 3 → exec (.ppsServoSecond mean) s = .next s) ∧
  (∀ (s : State), exec .ppsLoss s = .next (if s.mode = 2 then (s.setMode 4).latch pgDTL 2 else s)) ∧
  (∀ (s : State), (s.mode = 2 ∨ s.mode = 3) → s.field pgDTL 0x00C 26 1 = 1 → exec .ptpLoss s = .next ((({ s with dateline := { s.dateline with master := none } } : State).setMode 4).latch pgDTL 3)) ∧
  (∀ (s : State), ((s.mode ≠ 2 ∧ s.mode ≠ 3) ∨ s.field pgDTL 0x00C 26 1 ≠ 1) → exec .ptpLoss s = .next s) ∧
  (∀ (s : State), exec .tapReset s = .next { s with tap := .idcode }) ∧
  (∀ (c : Fin 6) (s : State), (s.lifeCycle = 2 ∨ s.lifeCycle = 3) → exec (.tapInstruction c) s = .next (s.tapSelect (if c.val = 1 then .idcode else .bypass))) ∧
  (∀ (c : Fin 6) (s : State), s.lifeCycle ≠ 2 → s.lifeCycle ≠ 3 → (c.val ≠ 5 ∨ s.lifeCycle ≠ 0) → exec (.tapInstruction c) s = .next (s.tapSelect (tapCode c.val))) ∧
  (∀ (s : State) (i : TapIns), s.tapSelect i = { s with tap := i, readData := if i = .idcode then 0x286209AB#32 else s.readData }) ∧
  (∀ (s : State), s.lifeCycle = 0 → ∃ u, exec (.tapInstruction 5) s = .next u ∧ u = { s with tap := .blankToTest, sel := { s.sel with fuses := { s.sel.fuses with lc := s.sel.fuses.lc ||| 1 } } } ∧ u.lifeCycle = 1) ∧
  (∀ (q : Fin 64) (c : Cmd) (s x : State), mails s q.val 0x75 c → x = s.mailed q.val c → 1 ≤ leAt c.body 0 1 → leAt c.body 0 1 < 4 →
    exec (.timeArm q) s = .next ((({ (x.setField pgDTL 0x00C 27 1 (leAt c.body 0 1 % 2)).setField pgDTL 0x00C 26 1 (leAt c.body 0 1 / 2) with dateline := { x.dateline with arm := some { pps := bitOf (leAt c.body 0 1) 0, ptp := bitOf (leAt c.body 0 1) 1, seconds := leAt c.body 8 8 } } } : State).setMode 1).mgmtReply (c.ret q.val) stOK [])) ∧
  (∀ (q : Fin 64) (c : Cmd) (s x : State), mails s q.val 0x75 c → x = s.mailed q.val c → leAt c.body 0 1 = 0 →
    exec (.timeArm q) s = .next ((((x.setField pgDTL 0x00C 27 1 0).setField pgDTL 0x00C 26 1 0).align (leAt c.body 8 8 * 10 ^ 9 : Nat) 5).mgmtReply (c.ret q.val) stOK [])) ∧
  (∀ (q : Fin 64) (c : Cmd) (s x : State), mails s q.val 0x75 c → x = s.mailed q.val c → 4 ≤ leAt c.body 0 1 → exec (.timeArm q) s = .next (x.mgmtReply (c.ret q.val) stBAD [])) ∧
  (∀ (off : Int) (s : State) (a : Arm), s.dateline.arm = some a → a.ptp = true → a.pps = false →
    exec (.ptpOffsetMeasurement off) s = .next (({ s with dateline := { s.dateline with master := some off } } : State).align ((s.reg64 pgDTL 0x040 : Int) + off) 3)) ∧
  (∀ (off : Int) (s : State), s.dateline.arm = none → s.mode = 4 → s.field pgDTL 0x00C 26 1 = 1 → s.field pgDTL 0x00C 27 1 = 0 →
    exec (.ptpOffsetMeasurement off) s = .next (({ s with dateline := { s.dateline with master := some off } } : State).setMode 3)) ∧
  (∀ (off : Int) (s : State), ((∃ a, s.dateline.arm = some a ∧ (a.ptp = false ∨ a.pps = true)) ∨ (s.dateline.arm = none ∧ (s.mode ≠ 4 ∨ s.field pgDTL 0x00C 26 1 ≠ 1 ∨ s.field pgDTL 0x00C 27 1 ≠ 0))) → exec (.ptpOffsetMeasurement off) s = .next { s with dateline := { s.dateline with master := some off } })

/-- A step keeps this: with access closed the TAP has BYPASS or IDCODE selected (R535), also where the step itself closes the access (R476). -/
def Obligations.ClosedAccessKept : Prop := ∀ (s t : State), tapSafe s → step s = .next t → tapSafe t
end

