-- ==== Sys2Proof/Laws/Maps.lean ====
section
/-! SUPPORT. Laws of the sparse tables: a read after a write, other keys, lists of rising numbers. -/

namespace Sys2Proof.Machine

theorem kvFind_kvSet {α : Type} (m : AMap α) (k j : Nat) (v : α) : kvFind (kvSet m k v) j = if j = k then some v else kvFind m j := by
  induction m with
  | nil => simp [kvSet, kvFind]
  | cons p r ih =>
    obtain ⟨i, w⟩ := p
    simp only [kvSet]
    split
    · simp only [kvFind]
    · split
      · simp only [kvFind]; split <;> simp_all
      · simp only [kvFind, ih]
        by_cases hk : j = i
        · simp [hk, Ne.symm ‹¬k = i›]
        · simp [hk]

@[simp] theorem kvFind_kvSet_self {α : Type} (m : AMap α) (k : Nat) (v : α) : kvFind (kvSet m k v) k = some v := by simp [kvFind_kvSet]

theorem kvFind_kvSet_ne {α : Type} (m : AMap α) {k j : Nat} (v : α) (h : j ≠ k) : kvFind (kvSet m k v) j = kvFind m j := by simp [kvFind_kvSet, h]

@[simp] theorem kvGet_kvSet_self {α : Type} (m : AMap α) (k : Nat) (v d : α) : kvGet (kvSet m k v) k d = v := by simp [kvGet]

theorem kvGet_kvSet_ne {α : Type} (m : AMap α) {k j : Nat} (v d : α) (h : j ≠ k) : kvGet (kvSet m k v) j d = kvGet m j d := by simp [kvGet, kvFind_kvSet, h]

@[simp] theorem kvHas_kvSet_self {α : Type} (m : AMap α) (k : Nat) (v : α) : kvHas (kvSet m k v) k = true := by simp [kvHas]

theorem kvFind_kvDel {α : Type} (m : AMap α) (k j : Nat) : kvFind (kvDel m k) j = if j = k then none else kvFind m j := by
  induction m with
  | nil => simp [kvDel, kvFind]
  | cons p r ih =>
    obtain ⟨i, w⟩ := p
    simp only [kvDel, List.filter_cons] at ih ⊢
    by_cases hi : i = k
    · subst hi
      simp only [bne_self_eq_false, Bool.false_eq_true, ↓reduceIte, ih, kvFind]
      split <;> rfl
    · simp only [bne_iff_ne, ne_eq, hi, not_false_eq_true, ↓reduceIte, kvFind, ih]
      by_cases hj : j = i
      · subst hj; simp [hi]
      · simp [hj]

theorem mem_setIns (m : List Nat) (k j : Nat) : j ∈ setIns m k ↔ j = k ∨ j ∈ m := by
  induction m with
  | nil => simp [setIns]
  | cons i r ih =>
    simp only [setIns]
    split
    · simp
    · split
      · subst_vars; simp
      · simp only [List.mem_cons, ih]; tauto

theorem mem_setDel (m : List Nat) (k j : Nat) : j ∈ setDel m k ↔ j ∈ m ∧ j ≠ k := by simp [setDel]

end Sys2Proof.Machine
end

