-- ==== Sys2Proof/Laws/State.lean ====
section
/-! SUPPORT. What each primitive update does to each field of State, so that no proof unfolds a record update. -/

namespace Sys2Proof.Machine

-- State.setReg
@[simp] theorem State.setReg_regs (s : State) (p o : Nat) (v : Word) : (s.setReg p o v).regs = kvSet s.regs (regKey p o) v := rfl
@[simp] theorem State.setReg_heldOld (s : State) (p o : Nat) (v : Word) : (s.setReg p o v).heldOld = s.heldOld := rfl
@[simp] theorem State.setReg_captured (s : State) (p o : Nat) (v : Word) : (s.setReg p o v).captured = s.captured := rfl
@[simp] theorem State.setReg_tiles (s : State) (p o : Nat) (v : Word) : (s.setReg p o v).tiles = s.tiles := rfl
@[simp] theorem State.setReg_dram (s : State) (p o : Nat) (v : Word) : (s.setReg p o v).dram = s.dram := rfl
@[simp] theorem State.setReg_mem (s : State) (p o : Nat) (v : Word) : (s.setReg p o v).mem = s.mem := rfl
@[simp] theorem State.setReg_par (s : State) (p o : Nat) (v : Word) : (s.setReg p o v).par = s.par := rfl
@[simp] theorem State.setReg_pgh (s : State) (p o : Nat) (v : Word) : (s.setReg p o v).pgh = s.pgh := rfl
@[simp] theorem State.setReg_sorters (s : State) (p o : Nat) (v : Word) : (s.setReg p o v).sorters = s.sorters := rfl
@[simp] theorem State.setReg_res (s : State) (p o : Nat) (v : Word) : (s.setReg p o v).res = s.res := rfl
@[simp] theorem State.setReg_spv (s : State) (p o : Nat) (v : Word) : (s.setReg p o v).spv = s.spv := rfl
@[simp] theorem State.setReg_eth (s : State) (p o : Nat) (v : Word) : (s.setReg p o v).eth = s.eth := rfl
@[simp] theorem State.setReg_col (s : State) (p o : Nat) (v : Word) : (s.setReg p o v).col = s.col := rfl
@[simp] theorem State.setReg_subs (s : State) (p o : Nat) (v : Word) : (s.setReg p o v).subs = s.subs := rfl
@[simp] theorem State.setReg_letters (s : State) (p o : Nat) (v : Word) : (s.setReg p o v).letters = s.letters := rfl
@[simp] theorem State.setReg_withheld (s : State) (p o : Nat) (v : Word) : (s.setReg p o v).withheld = s.withheld := rfl
@[simp] theorem State.setReg_fmn (s : State) (p o : Nat) (v : Word) : (s.setReg p o v).fmn = s.fmn := rfl
@[simp] theorem State.setReg_num (s : State) (p o : Nat) (v : Word) : (s.setReg p o v).num = s.num := rfl
@[simp] theorem State.setReg_imp (s : State) (p o : Nat) (v : Word) : (s.setReg p o v).imp = s.imp := rfl
@[simp] theorem State.setReg_fab (s : State) (p o : Nat) (v : Word) : (s.setReg p o v).fab = s.fab := rfl
@[simp] theorem State.setReg_fencing (s : State) (p o : Nat) (v : Word) : (s.setReg p o v).fencing = s.fencing := rfl
@[simp] theorem State.setReg_sel (s : State) (p o : Nat) (v : Word) : (s.setReg p o v).sel = s.sel := rfl
@[simp] theorem State.setReg_power (s : State) (p o : Nat) (v : Word) : (s.setReg p o v).power = s.power := rfl
@[simp] theorem State.setReg_dateline (s : State) (p o : Nat) (v : Word) : (s.setReg p o v).dateline = s.dateline := rfl
@[simp] theorem State.setReg_mgmt (s : State) (p o : Nat) (v : Word) : (s.setReg p o v).mgmt = s.mgmt := rfl
@[simp] theorem State.setReg_pouches (s : State) (p o : Nat) (v : Word) : (s.setReg p o v).pouches = s.pouches := rfl
@[simp] theorem State.setReg_tap (s : State) (p o : Nat) (v : Word) : (s.setReg p o v).tap = s.tap := rfl
@[simp] theorem State.setReg_answer (s : State) (p o : Nat) (v : Word) : (s.setReg p o v).answer = s.answer := rfl
@[simp] theorem State.setReg_readData (s : State) (p o : Nat) (v : Word) : (s.setReg p o v).readData = s.readData := rfl
@[simp] theorem State.setReg_serial (s : State) (p o : Nat) (v : Word) : (s.setReg p o v).serial = s.serial := rfl
@[simp] theorem State.setReg_freeCtr (s : State) (p o : Nat) (v : Word) : (s.setReg p o v).freeCtr = s.freeCtr := rfl
@[simp] theorem State.setReg_pending (s : State) (p o : Nat) (v : Word) : (s.setReg p o v).pending = s.pending := rfl

-- State.setN
@[simp] theorem State.setN_regs (s : State) (p o v : Nat) : (s.setN p o v).regs = kvSet s.regs (regKey p o) (BitVec.ofNat 32 v) := rfl
@[simp] theorem State.setN_heldOld (s : State) (p o v : Nat) : (s.setN p o v).heldOld = s.heldOld := rfl
@[simp] theorem State.setN_captured (s : State) (p o v : Nat) : (s.setN p o v).captured = s.captured := rfl
@[simp] theorem State.setN_tiles (s : State) (p o v : Nat) : (s.setN p o v).tiles = s.tiles := rfl
@[simp] theorem State.setN_dram (s : State) (p o v : Nat) : (s.setN p o v).dram = s.dram := rfl
@[simp] theorem State.setN_mem (s : State) (p o v : Nat) : (s.setN p o v).mem = s.mem := rfl
@[simp] theorem State.setN_par (s : State) (p o v : Nat) : (s.setN p o v).par = s.par := rfl
@[simp] theorem State.setN_pgh (s : State) (p o v : Nat) : (s.setN p o v).pgh = s.pgh := rfl
@[simp] theorem State.setN_sorters (s : State) (p o v : Nat) : (s.setN p o v).sorters = s.sorters := rfl
@[simp] theorem State.setN_res (s : State) (p o v : Nat) : (s.setN p o v).res = s.res := rfl
@[simp] theorem State.setN_spv (s : State) (p o v : Nat) : (s.setN p o v).spv = s.spv := rfl
@[simp] theorem State.setN_eth (s : State) (p o v : Nat) : (s.setN p o v).eth = s.eth := rfl
@[simp] theorem State.setN_col (s : State) (p o v : Nat) : (s.setN p o v).col = s.col := rfl
@[simp] theorem State.setN_subs (s : State) (p o v : Nat) : (s.setN p o v).subs = s.subs := rfl
@[simp] theorem State.setN_letters (s : State) (p o v : Nat) : (s.setN p o v).letters = s.letters := rfl
@[simp] theorem State.setN_withheld (s : State) (p o v : Nat) : (s.setN p o v).withheld = s.withheld := rfl
@[simp] theorem State.setN_fmn (s : State) (p o v : Nat) : (s.setN p o v).fmn = s.fmn := rfl
@[simp] theorem State.setN_num (s : State) (p o v : Nat) : (s.setN p o v).num = s.num := rfl
@[simp] theorem State.setN_imp (s : State) (p o v : Nat) : (s.setN p o v).imp = s.imp := rfl
@[simp] theorem State.setN_fab (s : State) (p o v : Nat) : (s.setN p o v).fab = s.fab := rfl
@[simp] theorem State.setN_fencing (s : State) (p o v : Nat) : (s.setN p o v).fencing = s.fencing := rfl
@[simp] theorem State.setN_sel (s : State) (p o v : Nat) : (s.setN p o v).sel = s.sel := rfl
@[simp] theorem State.setN_power (s : State) (p o v : Nat) : (s.setN p o v).power = s.power := rfl
@[simp] theorem State.setN_dateline (s : State) (p o v : Nat) : (s.setN p o v).dateline = s.dateline := rfl
@[simp] theorem State.setN_mgmt (s : State) (p o v : Nat) : (s.setN p o v).mgmt = s.mgmt := rfl
@[simp] theorem State.setN_pouches (s : State) (p o v : Nat) : (s.setN p o v).pouches = s.pouches := rfl
@[simp] theorem State.setN_tap (s : State) (p o v : Nat) : (s.setN p o v).tap = s.tap := rfl
@[simp] theorem State.setN_answer (s : State) (p o v : Nat) : (s.setN p o v).answer = s.answer := rfl
@[simp] theorem State.setN_readData (s : State) (p o v : Nat) : (s.setN p o v).readData = s.readData := rfl
@[simp] theorem State.setN_serial (s : State) (p o v : Nat) : (s.setN p o v).serial = s.serial := rfl
@[simp] theorem State.setN_freeCtr (s : State) (p o v : Nat) : (s.setN p o v).freeCtr = s.freeCtr := rfl
@[simp] theorem State.setN_pending (s : State) (p o v : Nat) : (s.setN p o v).pending = s.pending := rfl

-- State.setField
@[simp] theorem State.setField_regs (s : State) (p o lo len v : Nat) : (s.setField p o lo len v).regs = kvSet s.regs (regKey p o) (wset (s.reg p o) lo len v) := rfl
@[simp] theorem State.setField_heldOld (s : State) (p o lo len v : Nat) : (s.setField p o lo len v).heldOld = s.heldOld := rfl
@[simp] theorem State.setField_captured (s : State) (p o lo len v : Nat) : (s.setField p o lo len v).captured = s.captured := rfl
@[simp] theorem State.setField_tiles (s : State) (p o lo len v : Nat) : (s.setField p o lo len v).tiles = s.tiles := rfl
@[simp] theorem State.setField_dram (s : State) (p o lo len v : Nat) : (s.setField p o lo len v).dram = s.dram := rfl
@[simp] theorem State.setField_mem (s : State) (p o lo len v : Nat) : (s.setField p o lo len v).mem = s.mem := rfl
@[simp] theorem State.setField_par (s : State) (p o lo len v : Nat) : (s.setField p o lo len v).par = s.par := rfl
@[simp] theorem State.setField_pgh (s : State) (p o lo len v : Nat) : (s.setField p o lo len v).pgh = s.pgh := rfl
@[simp] theorem State.setField_sorters (s : State) (p o lo len v : Nat) : (s.setField p o lo len v).sorters = s.sorters := rfl
@[simp] theorem State.setField_res (s : State) (p o lo len v : Nat) : (s.setField p o lo len v).res = s.res := rfl
@[simp] theorem State.setField_spv (s : State) (p o lo len v : Nat) : (s.setField p o lo len v).spv = s.spv := rfl
@[simp] theorem State.setField_eth (s : State) (p o lo len v : Nat) : (s.setField p o lo len v).eth = s.eth := rfl
@[simp] theorem State.setField_col (s : State) (p o lo len v : Nat) : (s.setField p o lo len v).col = s.col := rfl
@[simp] theorem State.setField_subs (s : State) (p o lo len v : Nat) : (s.setField p o lo len v).subs = s.subs := rfl
@[simp] theorem State.setField_letters (s : State) (p o lo len v : Nat) : (s.setField p o lo len v).letters = s.letters := rfl
@[simp] theorem State.setField_withheld (s : State) (p o lo len v : Nat) : (s.setField p o lo len v).withheld = s.withheld := rfl
@[simp] theorem State.setField_fmn (s : State) (p o lo len v : Nat) : (s.setField p o lo len v).fmn = s.fmn := rfl
@[simp] theorem State.setField_num (s : State) (p o lo len v : Nat) : (s.setField p o lo len v).num = s.num := rfl
@[simp] theorem State.setField_imp (s : State) (p o lo len v : Nat) : (s.setField p o lo len v).imp = s.imp := rfl
@[simp] theorem State.setField_fab (s : State) (p o lo len v : Nat) : (s.setField p o lo len v).fab = s.fab := rfl
@[simp] theorem State.setField_fencing (s : State) (p o lo len v : Nat) : (s.setField p o lo len v).fencing = s.fencing := rfl
@[simp] theorem State.setField_sel (s : State) (p o lo len v : Nat) : (s.setField p o lo len v).sel = s.sel := rfl
@[simp] theorem State.setField_power (s : State) (p o lo len v : Nat) : (s.setField p o lo len v).power = s.power := rfl
@[simp] theorem State.setField_dateline (s : State) (p o lo len v : Nat) : (s.setField p o lo len v).dateline = s.dateline := rfl
@[simp] theorem State.setField_mgmt (s : State) (p o lo len v : Nat) : (s.setField p o lo len v).mgmt = s.mgmt := rfl
@[simp] theorem State.setField_pouches (s : State) (p o lo len v : Nat) : (s.setField p o lo len v).pouches = s.pouches := rfl
@[simp] theorem State.setField_tap (s : State) (p o lo len v : Nat) : (s.setField p o lo len v).tap = s.tap := rfl
@[simp] theorem State.setField_answer (s : State) (p o lo len v : Nat) : (s.setField p o lo len v).answer = s.answer := rfl
@[simp] theorem State.setField_readData (s : State) (p o lo len v : Nat) : (s.setField p o lo len v).readData = s.readData := rfl
@[simp] theorem State.setField_serial (s : State) (p o lo len v : Nat) : (s.setField p o lo len v).serial = s.serial := rfl
@[simp] theorem State.setField_freeCtr (s : State) (p o lo len v : Nat) : (s.setField p o lo len v).freeCtr = s.freeCtr := rfl
@[simp] theorem State.setField_pending (s : State) (p o lo len v : Nat) : (s.setField p o lo len v).pending = s.pending := rfl

-- State.bump
@[simp] theorem State.bump_regs (s : State) (p o n : Nat) : (s.bump p o n).regs = kvSet s.regs (regKey p o) (BitVec.ofNat 32 (satAdd32 (s.regN p o) n)) := rfl
@[simp] theorem State.bump_heldOld (s : State) (p o n : Nat) : (s.bump p o n).heldOld = s.heldOld := rfl
@[simp] theorem State.bump_captured (s : State) (p o n : Nat) : (s.bump p o n).captured = s.captured := rfl
@[simp] theorem State.bump_tiles (s : State) (p o n : Nat) : (s.bump p o n).tiles = s.tiles := rfl
@[simp] theorem State.bump_dram (s : State) (p o n : Nat) : (s.bump p o n).dram = s.dram := rfl
@[simp] theorem State.bump_mem (s : State) (p o n : Nat) : (s.bump p o n).mem = s.mem := rfl
@[simp] theorem State.bump_par (s : State) (p o n : Nat) : (s.bump p o n).par = s.par := rfl
@[simp] theorem State.bump_pgh (s : State) (p o n : Nat) : (s.bump p o n).pgh = s.pgh := rfl
@[simp] theorem State.bump_sorters (s : State) (p o n : Nat) : (s.bump p o n).sorters = s.sorters := rfl
@[simp] theorem State.bump_res (s : State) (p o n : Nat) : (s.bump p o n).res = s.res := rfl
@[simp] theorem State.bump_spv (s : State) (p o n : Nat) : (s.bump p o n).spv = s.spv := rfl
@[simp] theorem State.bump_eth (s : State) (p o n : Nat) : (s.bump p o n).eth = s.eth := rfl
@[simp] theorem State.bump_col (s : State) (p o n : Nat) : (s.bump p o n).col = s.col := rfl
@[simp] theorem State.bump_subs (s : State) (p o n : Nat) : (s.bump p o n).subs = s.subs := rfl
@[simp] theorem State.bump_letters (s : State) (p o n : Nat) : (s.bump p o n).letters = s.letters := rfl
@[simp] theorem State.bump_withheld (s : State) (p o n : Nat) : (s.bump p o n).withheld = s.withheld := rfl
@[simp] theorem State.bump_fmn (s : State) (p o n : Nat) : (s.bump p o n).fmn = s.fmn := rfl
@[simp] theorem State.bump_num (s : State) (p o n : Nat) : (s.bump p o n).num = s.num := rfl
@[simp] theorem State.bump_imp (s : State) (p o n : Nat) : (s.bump p o n).imp = s.imp := rfl
@[simp] theorem State.bump_fab (s : State) (p o n : Nat) : (s.bump p o n).fab = s.fab := rfl
@[simp] theorem State.bump_fencing (s : State) (p o n : Nat) : (s.bump p o n).fencing = s.fencing := rfl
@[simp] theorem State.bump_sel (s : State) (p o n : Nat) : (s.bump p o n).sel = s.sel := rfl
@[simp] theorem State.bump_power (s : State) (p o n : Nat) : (s.bump p o n).power = s.power := rfl
@[simp] theorem State.bump_dateline (s : State) (p o n : Nat) : (s.bump p o n).dateline = s.dateline := rfl
@[simp] theorem State.bump_mgmt (s : State) (p o n : Nat) : (s.bump p o n).mgmt = s.mgmt := rfl
@[simp] theorem State.bump_pouches (s : State) (p o n : Nat) : (s.bump p o n).pouches = s.pouches := rfl
@[simp] theorem State.bump_tap (s : State) (p o n : Nat) : (s.bump p o n).tap = s.tap := rfl
@[simp] theorem State.bump_answer (s : State) (p o n : Nat) : (s.bump p o n).answer = s.answer := rfl
@[simp] theorem State.bump_readData (s : State) (p o n : Nat) : (s.bump p o n).readData = s.readData := rfl
@[simp] theorem State.bump_serial (s : State) (p o n : Nat) : (s.bump p o n).serial = s.serial := rfl
@[simp] theorem State.bump_freeCtr (s : State) (p o n : Nat) : (s.bump p o n).freeCtr = s.freeCtr := rfl
@[simp] theorem State.bump_pending (s : State) (p o n : Nat) : (s.bump p o n).pending = s.pending := rfl

-- State.setTile
@[simp] theorem State.setTile_regs (s : State) (p : Nat) (t : Tile) : (s.setTile p t).regs = s.regs := rfl
@[simp] theorem State.setTile_heldOld (s : State) (p : Nat) (t : Tile) : (s.setTile p t).heldOld = s.heldOld := rfl
@[simp] theorem State.setTile_captured (s : State) (p : Nat) (t : Tile) : (s.setTile p t).captured = s.captured := rfl
@[simp] theorem State.setTile_tiles (s : State) (p : Nat) (t : Tile) : (s.setTile p t).tiles = kvSet s.tiles p t := rfl
@[simp] theorem State.setTile_dram (s : State) (p : Nat) (t : Tile) : (s.setTile p t).dram = s.dram := rfl
@[simp] theorem State.setTile_mem (s : State) (p : Nat) (t : Tile) : (s.setTile p t).mem = s.mem := rfl
@[simp] theorem State.setTile_par (s : State) (p : Nat) (t : Tile) : (s.setTile p t).par = s.par := rfl
@[simp] theorem State.setTile_pgh (s : State) (p : Nat) (t : Tile) : (s.setTile p t).pgh = s.pgh := rfl
@[simp] theorem State.setTile_sorters (s : State) (p : Nat) (t : Tile) : (s.setTile p t).sorters = s.sorters := rfl
@[simp] theorem State.setTile_res (s : State) (p : Nat) (t : Tile) : (s.setTile p t).res = s.res := rfl
@[simp] theorem State.setTile_spv (s : State) (p : Nat) (t : Tile) : (s.setTile p t).spv = s.spv := rfl
@[simp] theorem State.setTile_eth (s : State) (p : Nat) (t : Tile) : (s.setTile p t).eth = s.eth := rfl
@[simp] theorem State.setTile_col (s : State) (p : Nat) (t : Tile) : (s.setTile p t).col = s.col := rfl
@[simp] theorem State.setTile_subs (s : State) (p : Nat) (t : Tile) : (s.setTile p t).subs = s.subs := rfl
@[simp] theorem State.setTile_letters (s : State) (p : Nat) (t : Tile) : (s.setTile p t).letters = s.letters := rfl
@[simp] theorem State.setTile_withheld (s : State) (p : Nat) (t : Tile) : (s.setTile p t).withheld = s.withheld := rfl
@[simp] theorem State.setTile_fmn (s : State) (p : Nat) (t : Tile) : (s.setTile p t).fmn = s.fmn := rfl
@[simp] theorem State.setTile_num (s : State) (p : Nat) (t : Tile) : (s.setTile p t).num = s.num := rfl
@[simp] theorem State.setTile_imp (s : State) (p : Nat) (t : Tile) : (s.setTile p t).imp = s.imp := rfl
@[simp] theorem State.setTile_fab (s : State) (p : Nat) (t : Tile) : (s.setTile p t).fab = s.fab := rfl
@[simp] theorem State.setTile_fencing (s : State) (p : Nat) (t : Tile) : (s.setTile p t).fencing = s.fencing := rfl
@[simp] theorem State.setTile_sel (s : State) (p : Nat) (t : Tile) : (s.setTile p t).sel = s.sel := rfl
@[simp] theorem State.setTile_power (s : State) (p : Nat) (t : Tile) : (s.setTile p t).power = s.power := rfl
@[simp] theorem State.setTile_dateline (s : State) (p : Nat) (t : Tile) : (s.setTile p t).dateline = s.dateline := rfl
@[simp] theorem State.setTile_mgmt (s : State) (p : Nat) (t : Tile) : (s.setTile p t).mgmt = s.mgmt := rfl
@[simp] theorem State.setTile_pouches (s : State) (p : Nat) (t : Tile) : (s.setTile p t).pouches = s.pouches := rfl
@[simp] theorem State.setTile_tap (s : State) (p : Nat) (t : Tile) : (s.setTile p t).tap = s.tap := rfl
@[simp] theorem State.setTile_answer (s : State) (p : Nat) (t : Tile) : (s.setTile p t).answer = s.answer := rfl
@[simp] theorem State.setTile_readData (s : State) (p : Nat) (t : Tile) : (s.setTile p t).readData = s.readData := rfl
@[simp] theorem State.setTile_serial (s : State) (p : Nat) (t : Tile) : (s.setTile p t).serial = s.serial := rfl
@[simp] theorem State.setTile_freeCtr (s : State) (p : Nat) (t : Tile) : (s.setTile p t).freeCtr = s.freeCtr := rfl
@[simp] theorem State.setTile_pending (s : State) (p : Nat) (t : Tile) : (s.setTile p t).pending = s.pending := rfl

-- State.modTile
@[simp] theorem State.modTile_regs (s : State) (p : Nat) (f : Tile → Tile) : (s.modTile p f).regs = s.regs := rfl
@[simp] theorem State.modTile_heldOld (s : State) (p : Nat) (f : Tile → Tile) : (s.modTile p f).heldOld = s.heldOld := rfl
@[simp] theorem State.modTile_captured (s : State) (p : Nat) (f : Tile → Tile) : (s.modTile p f).captured = s.captured := rfl
@[simp] theorem State.modTile_tiles (s : State) (p : Nat) (f : Tile → Tile) : (s.modTile p f).tiles = kvSet s.tiles p (f (s.tile p)) := rfl
@[simp] theorem State.modTile_dram (s : State) (p : Nat) (f : Tile → Tile) : (s.modTile p f).dram = s.dram := rfl
@[simp] theorem State.modTile_mem (s : State) (p : Nat) (f : Tile → Tile) : (s.modTile p f).mem = s.mem := rfl
@[simp] theorem State.modTile_par (s : State) (p : Nat) (f : Tile → Tile) : (s.modTile p f).par = s.par := rfl
@[simp] theorem State.modTile_pgh (s : State) (p : Nat) (f : Tile → Tile) : (s.modTile p f).pgh = s.pgh := rfl
@[simp] theorem State.modTile_sorters (s : State) (p : Nat) (f : Tile → Tile) : (s.modTile p f).sorters = s.sorters := rfl
@[simp] theorem State.modTile_res (s : State) (p : Nat) (f : Tile → Tile) : (s.modTile p f).res = s.res := rfl
@[simp] theorem State.modTile_spv (s : State) (p : Nat) (f : Tile → Tile) : (s.modTile p f).spv = s.spv := rfl
@[simp] theorem State.modTile_eth (s : State) (p : Nat) (f : Tile → Tile) : (s.modTile p f).eth = s.eth := rfl
@[simp] theorem State.modTile_col (s : State) (p : Nat) (f : Tile → Tile) : (s.modTile p f).col = s.col := rfl
@[simp] theorem State.modTile_subs (s : State) (p : Nat) (f : Tile → Tile) : (s.modTile p f).subs = s.subs := rfl
@[simp] theorem State.modTile_letters (s : State) (p : Nat) (f : Tile → Tile) : (s.modTile p f).letters = s.letters := rfl
@[simp] theorem State.modTile_withheld (s : State) (p : Nat) (f : Tile → Tile) : (s.modTile p f).withheld = s.withheld := rfl
@[simp] theorem State.modTile_fmn (s : State) (p : Nat) (f : Tile → Tile) : (s.modTile p f).fmn = s.fmn := rfl
@[simp] theorem State.modTile_num (s : State) (p : Nat) (f : Tile → Tile) : (s.modTile p f).num = s.num := rfl
@[simp] theorem State.modTile_imp (s : State) (p : Nat) (f : Tile → Tile) : (s.modTile p f).imp = s.imp := rfl
@[simp] theorem State.modTile_fab (s : State) (p : Nat) (f : Tile → Tile) : (s.modTile p f).fab = s.fab := rfl
@[simp] theorem State.modTile_fencing (s : State) (p : Nat) (f : Tile → Tile) : (s.modTile p f).fencing = s.fencing := rfl
@[simp] theorem State.modTile_sel (s : State) (p : Nat) (f : Tile → Tile) : (s.modTile p f).sel = s.sel := rfl
@[simp] theorem State.modTile_power (s : State) (p : Nat) (f : Tile → Tile) : (s.modTile p f).power = s.power := rfl
@[simp] theorem State.modTile_dateline (s : State) (p : Nat) (f : Tile → Tile) : (s.modTile p f).dateline = s.dateline := rfl
@[simp] theorem State.modTile_mgmt (s : State) (p : Nat) (f : Tile → Tile) : (s.modTile p f).mgmt = s.mgmt := rfl
@[simp] theorem State.modTile_pouches (s : State) (p : Nat) (f : Tile → Tile) : (s.modTile p f).pouches = s.pouches := rfl
@[simp] theorem State.modTile_tap (s : State) (p : Nat) (f : Tile → Tile) : (s.modTile p f).tap = s.tap := rfl
@[simp] theorem State.modTile_answer (s : State) (p : Nat) (f : Tile → Tile) : (s.modTile p f).answer = s.answer := rfl
@[simp] theorem State.modTile_readData (s : State) (p : Nat) (f : Tile → Tile) : (s.modTile p f).readData = s.readData := rfl
@[simp] theorem State.modTile_serial (s : State) (p : Nat) (f : Tile → Tile) : (s.modTile p f).serial = s.serial := rfl
@[simp] theorem State.modTile_freeCtr (s : State) (p : Nat) (f : Tile → Tile) : (s.modTile p f).freeCtr = s.freeCtr := rfl
@[simp] theorem State.modTile_pending (s : State) (p : Nat) (f : Tile → Tile) : (s.modTile p f).pending = s.pending := rfl

-- State.setDom
@[simp] theorem State.setDom_regs (s : State) (d v : Nat) : (s.setDom d v).regs = s.regs := rfl
@[simp] theorem State.setDom_heldOld (s : State) (d v : Nat) : (s.setDom d v).heldOld = s.heldOld := rfl
@[simp] theorem State.setDom_captured (s : State) (d v : Nat) : (s.setDom d v).captured = s.captured := rfl
@[simp] theorem State.setDom_tiles (s : State) (d v : Nat) : (s.setDom d v).tiles = s.tiles := rfl
@[simp] theorem State.setDom_dram (s : State) (d v : Nat) : (s.setDom d v).dram = s.dram := rfl
@[simp] theorem State.setDom_mem (s : State) (d v : Nat) : (s.setDom d v).mem = s.mem := rfl
@[simp] theorem State.setDom_par (s : State) (d v : Nat) : (s.setDom d v).par = s.par := rfl
@[simp] theorem State.setDom_pgh (s : State) (d v : Nat) : (s.setDom d v).pgh = s.pgh := rfl
@[simp] theorem State.setDom_sorters (s : State) (d v : Nat) : (s.setDom d v).sorters = s.sorters := rfl
@[simp] theorem State.setDom_res (s : State) (d v : Nat) : (s.setDom d v).res = s.res := rfl
@[simp] theorem State.setDom_spv (s : State) (d v : Nat) : (s.setDom d v).spv = s.spv := rfl
@[simp] theorem State.setDom_eth (s : State) (d v : Nat) : (s.setDom d v).eth = s.eth := rfl
@[simp] theorem State.setDom_col (s : State) (d v : Nat) : (s.setDom d v).col = s.col := rfl
@[simp] theorem State.setDom_subs (s : State) (d v : Nat) : (s.setDom d v).subs = s.subs := rfl
@[simp] theorem State.setDom_letters (s : State) (d v : Nat) : (s.setDom d v).letters = s.letters := rfl
@[simp] theorem State.setDom_withheld (s : State) (d v : Nat) : (s.setDom d v).withheld = s.withheld := rfl
@[simp] theorem State.setDom_fmn (s : State) (d v : Nat) : (s.setDom d v).fmn = s.fmn := rfl
@[simp] theorem State.setDom_num (s : State) (d v : Nat) : (s.setDom d v).num = s.num := rfl
@[simp] theorem State.setDom_imp (s : State) (d v : Nat) : (s.setDom d v).imp = s.imp := rfl
@[simp] theorem State.setDom_fab (s : State) (d v : Nat) : (s.setDom d v).fab = s.fab := rfl
@[simp] theorem State.setDom_fencing (s : State) (d v : Nat) : (s.setDom d v).fencing = s.fencing := rfl
@[simp] theorem State.setDom_sel (s : State) (d v : Nat) : (s.setDom d v).sel = s.sel := rfl
@[simp] theorem State.setDom_power (s : State) (d v : Nat) : (s.setDom d v).power = { s.power with dom := kvSet s.power.dom d v } := rfl
@[simp] theorem State.setDom_dateline (s : State) (d v : Nat) : (s.setDom d v).dateline = s.dateline := rfl
@[simp] theorem State.setDom_mgmt (s : State) (d v : Nat) : (s.setDom d v).mgmt = s.mgmt := rfl
@[simp] theorem State.setDom_pouches (s : State) (d v : Nat) : (s.setDom d v).pouches = s.pouches := rfl
@[simp] theorem State.setDom_tap (s : State) (d v : Nat) : (s.setDom d v).tap = s.tap := rfl
@[simp] theorem State.setDom_answer (s : State) (d v : Nat) : (s.setDom d v).answer = s.answer := rfl
@[simp] theorem State.setDom_readData (s : State) (d v : Nat) : (s.setDom d v).readData = s.readData := rfl
@[simp] theorem State.setDom_serial (s : State) (d v : Nat) : (s.setDom d v).serial = s.serial := rfl
@[simp] theorem State.setDom_freeCtr (s : State) (d v : Nat) : (s.setDom d v).freeCtr = s.freeCtr := rfl
@[simp] theorem State.setDom_pending (s : State) (d v : Nat) : (s.setDom d v).pending = s.pending := rfl

-- State.setSel
@[simp] theorem State.setSel_regs (s : State) (f : Seal → Seal) : (s.setSel f).regs = s.regs := rfl
@[simp] theorem State.setSel_heldOld (s : State) (f : Seal → Seal) : (s.setSel f).heldOld = s.heldOld := rfl
@[simp] theorem State.setSel_captured (s : State) (f : Seal → Seal) : (s.setSel f).captured = s.captured := rfl
@[simp] theorem State.setSel_tiles (s : State) (f : Seal → Seal) : (s.setSel f).tiles = s.tiles := rfl
@[simp] theorem State.setSel_dram (s : State) (f : Seal → Seal) : (s.setSel f).dram = s.dram := rfl
@[simp] theorem State.setSel_mem (s : State) (f : Seal → Seal) : (s.setSel f).mem = s.mem := rfl
@[simp] theorem State.setSel_par (s : State) (f : Seal → Seal) : (s.setSel f).par = s.par := rfl
@[simp] theorem State.setSel_pgh (s : State) (f : Seal → Seal) : (s.setSel f).pgh = s.pgh := rfl
@[simp] theorem State.setSel_sorters (s : State) (f : Seal → Seal) : (s.setSel f).sorters = s.sorters := rfl
@[simp] theorem State.setSel_res (s : State) (f : Seal → Seal) : (s.setSel f).res = s.res := rfl
@[simp] theorem State.setSel_spv (s : State) (f : Seal → Seal) : (s.setSel f).spv = s.spv := rfl
@[simp] theorem State.setSel_eth (s : State) (f : Seal → Seal) : (s.setSel f).eth = s.eth := rfl
@[simp] theorem State.setSel_col (s : State) (f : Seal → Seal) : (s.setSel f).col = s.col := rfl
@[simp] theorem State.setSel_subs (s : State) (f : Seal → Seal) : (s.setSel f).subs = s.subs := rfl
@[simp] theorem State.setSel_letters (s : State) (f : Seal → Seal) : (s.setSel f).letters = s.letters := rfl
@[simp] theorem State.setSel_withheld (s : State) (f : Seal → Seal) : (s.setSel f).withheld = s.withheld := rfl
@[simp] theorem State.setSel_fmn (s : State) (f : Seal → Seal) : (s.setSel f).fmn = s.fmn := rfl
@[simp] theorem State.setSel_num (s : State) (f : Seal → Seal) : (s.setSel f).num = s.num := rfl
@[simp] theorem State.setSel_imp (s : State) (f : Seal → Seal) : (s.setSel f).imp = s.imp := rfl
@[simp] theorem State.setSel_fab (s : State) (f : Seal → Seal) : (s.setSel f).fab = s.fab := rfl
@[simp] theorem State.setSel_fencing (s : State) (f : Seal → Seal) : (s.setSel f).fencing = s.fencing := rfl
@[simp] theorem State.setSel_sel (s : State) (f : Seal → Seal) : (s.setSel f).sel = f s.sel := rfl
@[simp] theorem State.setSel_power (s : State) (f : Seal → Seal) : (s.setSel f).power = s.power := rfl
@[simp] theorem State.setSel_dateline (s : State) (f : Seal → Seal) : (s.setSel f).dateline = s.dateline := rfl
@[simp] theorem State.setSel_mgmt (s : State) (f : Seal → Seal) : (s.setSel f).mgmt = s.mgmt := rfl
@[simp] theorem State.setSel_pouches (s : State) (f : Seal → Seal) : (s.setSel f).pouches = s.pouches := rfl
@[simp] theorem State.setSel_tap (s : State) (f : Seal → Seal) : (s.setSel f).tap = s.tap := rfl
@[simp] theorem State.setSel_answer (s : State) (f : Seal → Seal) : (s.setSel f).answer = s.answer := rfl
@[simp] theorem State.setSel_readData (s : State) (f : Seal → Seal) : (s.setSel f).readData = s.readData := rfl
@[simp] theorem State.setSel_serial (s : State) (f : Seal → Seal) : (s.setSel f).serial = s.serial := rfl
@[simp] theorem State.setSel_freeCtr (s : State) (f : Seal → Seal) : (s.setSel f).freeCtr = s.freeCtr := rfl
@[simp] theorem State.setSel_pending (s : State) (f : Seal → Seal) : (s.setSel f).pending = s.pending := rfl

-- State.setPower
@[simp] theorem State.setPower_regs (s : State) (f : Power → Power) : (s.setPower f).regs = s.regs := rfl
@[simp] theorem State.setPower_heldOld (s : State) (f : Power → Power) : (s.setPower f).heldOld = s.heldOld := rfl
@[simp] theorem State.setPower_captured (s : State) (f : Power → Power) : (s.setPower f).captured = s.captured := rfl
@[simp] theorem State.setPower_tiles (s : State) (f : Power → Power) : (s.setPower f).tiles = s.tiles := rfl
@[simp] theorem State.setPower_dram (s : State) (f : Power → Power) : (s.setPower f).dram = s.dram := rfl
@[simp] theorem State.setPower_mem (s : State) (f : Power → Power) : (s.setPower f).mem = s.mem := rfl
@[simp] theorem State.setPower_par (s : State) (f : Power → Power) : (s.setPower f).par = s.par := rfl
@[simp] theorem State.setPower_pgh (s : State) (f : Power → Power) : (s.setPower f).pgh = s.pgh := rfl
@[simp] theorem State.setPower_sorters (s : State) (f : Power → Power) : (s.setPower f).sorters = s.sorters := rfl
@[simp] theorem State.setPower_res (s : State) (f : Power → Power) : (s.setPower f).res = s.res := rfl
@[simp] theorem State.setPower_spv (s : State) (f : Power → Power) : (s.setPower f).spv = s.spv := rfl
@[simp] theorem State.setPower_eth (s : State) (f : Power → Power) : (s.setPower f).eth = s.eth := rfl
@[simp] theorem State.setPower_col (s : State) (f : Power → Power) : (s.setPower f).col = s.col := rfl
@[simp] theorem State.setPower_subs (s : State) (f : Power → Power) : (s.setPower f).subs = s.subs := rfl
@[simp] theorem State.setPower_letters (s : State) (f : Power → Power) : (s.setPower f).letters = s.letters := rfl
@[simp] theorem State.setPower_withheld (s : State) (f : Power → Power) : (s.setPower f).withheld = s.withheld := rfl
@[simp] theorem State.setPower_fmn (s : State) (f : Power → Power) : (s.setPower f).fmn = s.fmn := rfl
@[simp] theorem State.setPower_num (s : State) (f : Power → Power) : (s.setPower f).num = s.num := rfl
@[simp] theorem State.setPower_imp (s : State) (f : Power → Power) : (s.setPower f).imp = s.imp := rfl
@[simp] theorem State.setPower_fab (s : State) (f : Power → Power) : (s.setPower f).fab = s.fab := rfl
@[simp] theorem State.setPower_fencing (s : State) (f : Power → Power) : (s.setPower f).fencing = s.fencing := rfl
@[simp] theorem State.setPower_sel (s : State) (f : Power → Power) : (s.setPower f).sel = s.sel := rfl
@[simp] theorem State.setPower_power (s : State) (f : Power → Power) : (s.setPower f).power = f s.power := rfl
@[simp] theorem State.setPower_dateline (s : State) (f : Power → Power) : (s.setPower f).dateline = s.dateline := rfl
@[simp] theorem State.setPower_mgmt (s : State) (f : Power → Power) : (s.setPower f).mgmt = s.mgmt := rfl
@[simp] theorem State.setPower_pouches (s : State) (f : Power → Power) : (s.setPower f).pouches = s.pouches := rfl
@[simp] theorem State.setPower_tap (s : State) (f : Power → Power) : (s.setPower f).tap = s.tap := rfl
@[simp] theorem State.setPower_answer (s : State) (f : Power → Power) : (s.setPower f).answer = s.answer := rfl
@[simp] theorem State.setPower_readData (s : State) (f : Power → Power) : (s.setPower f).readData = s.readData := rfl
@[simp] theorem State.setPower_serial (s : State) (f : Power → Power) : (s.setPower f).serial = s.serial := rfl
@[simp] theorem State.setPower_freeCtr (s : State) (f : Power → Power) : (s.setPower f).freeCtr = s.freeCtr := rfl
@[simp] theorem State.setPower_pending (s : State) (f : Power → Power) : (s.setPower f).pending = s.pending := rfl

-- State.setMgmt
@[simp] theorem State.setMgmt_regs (s : State) (f : Mgmt → Mgmt) : (s.setMgmt f).regs = s.regs := rfl
@[simp] theorem State.setMgmt_heldOld (s : State) (f : Mgmt → Mgmt) : (s.setMgmt f).heldOld = s.heldOld := rfl
@[simp] theorem State.setMgmt_captured (s : State) (f : Mgmt → Mgmt) : (s.setMgmt f).captured = s.captured := rfl
@[simp] theorem State.setMgmt_tiles (s : State) (f : Mgmt → Mgmt) : (s.setMgmt f).tiles = s.tiles := rfl
@[simp] theorem State.setMgmt_dram (s : State) (f : Mgmt → Mgmt) : (s.setMgmt f).dram = s.dram := rfl
@[simp] theorem State.setMgmt_mem (s : State) (f : Mgmt → Mgmt) : (s.setMgmt f).mem = s.mem := rfl
@[simp] theorem State.setMgmt_par (s : State) (f : Mgmt → Mgmt) : (s.setMgmt f).par = s.par := rfl
@[simp] theorem State.setMgmt_pgh (s : State) (f : Mgmt → Mgmt) : (s.setMgmt f).pgh = s.pgh := rfl
@[simp] theorem State.setMgmt_sorters (s : State) (f : Mgmt → Mgmt) : (s.setMgmt f).sorters = s.sorters := rfl
@[simp] theorem State.setMgmt_res (s : State) (f : Mgmt → Mgmt) : (s.setMgmt f).res = s.res := rfl
@[simp] theorem State.setMgmt_spv (s : State) (f : Mgmt → Mgmt) : (s.setMgmt f).spv = s.spv := rfl
@[simp] theorem State.setMgmt_eth (s : State) (f : Mgmt → Mgmt) : (s.setMgmt f).eth = s.eth := rfl
@[simp] theorem State.setMgmt_col (s : State) (f : Mgmt → Mgmt) : (s.setMgmt f).col = s.col := rfl
@[simp] theorem State.setMgmt_subs (s : State) (f : Mgmt → Mgmt) : (s.setMgmt f).subs = s.subs := rfl
@[simp] theorem State.setMgmt_letters (s : State) (f : Mgmt → Mgmt) : (s.setMgmt f).letters = s.letters := rfl
@[simp] theorem State.setMgmt_withheld (s : State) (f : Mgmt → Mgmt) : (s.setMgmt f).withheld = s.withheld := rfl
@[simp] theorem State.setMgmt_fmn (s : State) (f : Mgmt → Mgmt) : (s.setMgmt f).fmn = s.fmn := rfl
@[simp] theorem State.setMgmt_num (s : State) (f : Mgmt → Mgmt) : (s.setMgmt f).num = s.num := rfl
@[simp] theorem State.setMgmt_imp (s : State) (f : Mgmt → Mgmt) : (s.setMgmt f).imp = s.imp := rfl
@[simp] theorem State.setMgmt_fab (s : State) (f : Mgmt → Mgmt) : (s.setMgmt f).fab = s.fab := rfl
@[simp] theorem State.setMgmt_fencing (s : State) (f : Mgmt → Mgmt) : (s.setMgmt f).fencing = s.fencing := rfl
@[simp] theorem State.setMgmt_sel (s : State) (f : Mgmt → Mgmt) : (s.setMgmt f).sel = s.sel := rfl
@[simp] theorem State.setMgmt_power (s : State) (f : Mgmt → Mgmt) : (s.setMgmt f).power = s.power := rfl
@[simp] theorem State.setMgmt_dateline (s : State) (f : Mgmt → Mgmt) : (s.setMgmt f).dateline = s.dateline := rfl
@[simp] theorem State.setMgmt_mgmt (s : State) (f : Mgmt → Mgmt) : (s.setMgmt f).mgmt = f s.mgmt := rfl
@[simp] theorem State.setMgmt_pouches (s : State) (f : Mgmt → Mgmt) : (s.setMgmt f).pouches = s.pouches := rfl
@[simp] theorem State.setMgmt_tap (s : State) (f : Mgmt → Mgmt) : (s.setMgmt f).tap = s.tap := rfl
@[simp] theorem State.setMgmt_answer (s : State) (f : Mgmt → Mgmt) : (s.setMgmt f).answer = s.answer := rfl
@[simp] theorem State.setMgmt_readData (s : State) (f : Mgmt → Mgmt) : (s.setMgmt f).readData = s.readData := rfl
@[simp] theorem State.setMgmt_serial (s : State) (f : Mgmt → Mgmt) : (s.setMgmt f).serial = s.serial := rfl
@[simp] theorem State.setMgmt_freeCtr (s : State) (f : Mgmt → Mgmt) : (s.setMgmt f).freeCtr = s.freeCtr := rfl
@[simp] theorem State.setMgmt_pending (s : State) (f : Mgmt → Mgmt) : (s.setMgmt f).pending = s.pending := rfl

-- State.setEth
@[simp] theorem State.setEth_regs (s : State) (f : Eth → Eth) : (s.setEth f).regs = s.regs := rfl
@[simp] theorem State.setEth_heldOld (s : State) (f : Eth → Eth) : (s.setEth f).heldOld = s.heldOld := rfl
@[simp] theorem State.setEth_captured (s : State) (f : Eth → Eth) : (s.setEth f).captured = s.captured := rfl
@[simp] theorem State.setEth_tiles (s : State) (f : Eth → Eth) : (s.setEth f).tiles = s.tiles := rfl
@[simp] theorem State.setEth_dram (s : State) (f : Eth → Eth) : (s.setEth f).dram = s.dram := rfl
@[simp] theorem State.setEth_mem (s : State) (f : Eth → Eth) : (s.setEth f).mem = s.mem := rfl
@[simp] theorem State.setEth_par (s : State) (f : Eth → Eth) : (s.setEth f).par = s.par := rfl
@[simp] theorem State.setEth_pgh (s : State) (f : Eth → Eth) : (s.setEth f).pgh = s.pgh := rfl
@[simp] theorem State.setEth_sorters (s : State) (f : Eth → Eth) : (s.setEth f).sorters = s.sorters := rfl
@[simp] theorem State.setEth_res (s : State) (f : Eth → Eth) : (s.setEth f).res = s.res := rfl
@[simp] theorem State.setEth_spv (s : State) (f : Eth → Eth) : (s.setEth f).spv = s.spv := rfl
@[simp] theorem State.setEth_eth (s : State) (f : Eth → Eth) : (s.setEth f).eth = f s.eth := rfl
@[simp] theorem State.setEth_col (s : State) (f : Eth → Eth) : (s.setEth f).col = s.col := rfl
@[simp] theorem State.setEth_subs (s : State) (f : Eth → Eth) : (s.setEth f).subs = s.subs := rfl
@[simp] theorem State.setEth_letters (s : State) (f : Eth → Eth) : (s.setEth f).letters = s.letters := rfl
@[simp] theorem State.setEth_withheld (s : State) (f : Eth → Eth) : (s.setEth f).withheld = s.withheld := rfl
@[simp] theorem State.setEth_fmn (s : State) (f : Eth → Eth) : (s.setEth f).fmn = s.fmn := rfl
@[simp] theorem State.setEth_num (s : State) (f : Eth → Eth) : (s.setEth f).num = s.num := rfl
@[simp] theorem State.setEth_imp (s : State) (f : Eth → Eth) : (s.setEth f).imp = s.imp := rfl
@[simp] theorem State.setEth_fab (s : State) (f : Eth → Eth) : (s.setEth f).fab = s.fab := rfl
@[simp] theorem State.setEth_fencing (s : State) (f : Eth → Eth) : (s.setEth f).fencing = s.fencing := rfl
@[simp] theorem State.setEth_sel (s : State) (f : Eth → Eth) : (s.setEth f).sel = s.sel := rfl
@[simp] theorem State.setEth_power (s : State) (f : Eth → Eth) : (s.setEth f).power = s.power := rfl
@[simp] theorem State.setEth_dateline (s : State) (f : Eth → Eth) : (s.setEth f).dateline = s.dateline := rfl
@[simp] theorem State.setEth_mgmt (s : State) (f : Eth → Eth) : (s.setEth f).mgmt = s.mgmt := rfl
@[simp] theorem State.setEth_pouches (s : State) (f : Eth → Eth) : (s.setEth f).pouches = s.pouches := rfl
@[simp] theorem State.setEth_tap (s : State) (f : Eth → Eth) : (s.setEth f).tap = s.tap := rfl
@[simp] theorem State.setEth_answer (s : State) (f : Eth → Eth) : (s.setEth f).answer = s.answer := rfl
@[simp] theorem State.setEth_readData (s : State) (f : Eth → Eth) : (s.setEth f).readData = s.readData := rfl
@[simp] theorem State.setEth_serial (s : State) (f : Eth → Eth) : (s.setEth f).serial = s.serial := rfl
@[simp] theorem State.setEth_freeCtr (s : State) (f : Eth → Eth) : (s.setEth f).freeCtr = s.freeCtr := rfl
@[simp] theorem State.setEth_pending (s : State) (f : Eth → Eth) : (s.setEth f).pending = s.pending := rfl

-- State.setFmn
@[simp] theorem State.setFmn_regs (s : State) (f : Foreman → Foreman) : (s.setFmn f).regs = s.regs := rfl
@[simp] theorem State.setFmn_heldOld (s : State) (f : Foreman → Foreman) : (s.setFmn f).heldOld = s.heldOld := rfl
@[simp] theorem State.setFmn_captured (s : State) (f : Foreman → Foreman) : (s.setFmn f).captured = s.captured := rfl
@[simp] theorem State.setFmn_tiles (s : State) (f : Foreman → Foreman) : (s.setFmn f).tiles = s.tiles := rfl
@[simp] theorem State.setFmn_dram (s : State) (f : Foreman → Foreman) : (s.setFmn f).dram = s.dram := rfl
@[simp] theorem State.setFmn_mem (s : State) (f : Foreman → Foreman) : (s.setFmn f).mem = s.mem := rfl
@[simp] theorem State.setFmn_par (s : State) (f : Foreman → Foreman) : (s.setFmn f).par = s.par := rfl
@[simp] theorem State.setFmn_pgh (s : State) (f : Foreman → Foreman) : (s.setFmn f).pgh = s.pgh := rfl
@[simp] theorem State.setFmn_sorters (s : State) (f : Foreman → Foreman) : (s.setFmn f).sorters = s.sorters := rfl
@[simp] theorem State.setFmn_res (s : State) (f : Foreman → Foreman) : (s.setFmn f).res = s.res := rfl
@[simp] theorem State.setFmn_spv (s : State) (f : Foreman → Foreman) : (s.setFmn f).spv = s.spv := rfl
@[simp] theorem State.setFmn_eth (s : State) (f : Foreman → Foreman) : (s.setFmn f).eth = s.eth := rfl
@[simp] theorem State.setFmn_col (s : State) (f : Foreman → Foreman) : (s.setFmn f).col = s.col := rfl
@[simp] theorem State.setFmn_subs (s : State) (f : Foreman → Foreman) : (s.setFmn f).subs = s.subs := rfl
@[simp] theorem State.setFmn_letters (s : State) (f : Foreman → Foreman) : (s.setFmn f).letters = s.letters := rfl
@[simp] theorem State.setFmn_withheld (s : State) (f : Foreman → Foreman) : (s.setFmn f).withheld = s.withheld := rfl
@[simp] theorem State.setFmn_fmn (s : State) (f : Foreman → Foreman) : (s.setFmn f).fmn = f s.fmn := rfl
@[simp] theorem State.setFmn_num (s : State) (f : Foreman → Foreman) : (s.setFmn f).num = s.num := rfl
@[simp] theorem State.setFmn_imp (s : State) (f : Foreman → Foreman) : (s.setFmn f).imp = s.imp := rfl
@[simp] theorem State.setFmn_fab (s : State) (f : Foreman → Foreman) : (s.setFmn f).fab = s.fab := rfl
@[simp] theorem State.setFmn_fencing (s : State) (f : Foreman → Foreman) : (s.setFmn f).fencing = s.fencing := rfl
@[simp] theorem State.setFmn_sel (s : State) (f : Foreman → Foreman) : (s.setFmn f).sel = s.sel := rfl
@[simp] theorem State.setFmn_power (s : State) (f : Foreman → Foreman) : (s.setFmn f).power = s.power := rfl
@[simp] theorem State.setFmn_dateline (s : State) (f : Foreman → Foreman) : (s.setFmn f).dateline = s.dateline := rfl
@[simp] theorem State.setFmn_mgmt (s : State) (f : Foreman → Foreman) : (s.setFmn f).mgmt = s.mgmt := rfl
@[simp] theorem State.setFmn_pouches (s : State) (f : Foreman → Foreman) : (s.setFmn f).pouches = s.pouches := rfl
@[simp] theorem State.setFmn_tap (s : State) (f : Foreman → Foreman) : (s.setFmn f).tap = s.tap := rfl
@[simp] theorem State.setFmn_answer (s : State) (f : Foreman → Foreman) : (s.setFmn f).answer = s.answer := rfl
@[simp] theorem State.setFmn_readData (s : State) (f : Foreman → Foreman) : (s.setFmn f).readData = s.readData := rfl
@[simp] theorem State.setFmn_serial (s : State) (f : Foreman → Foreman) : (s.setFmn f).serial = s.serial := rfl
@[simp] theorem State.setFmn_freeCtr (s : State) (f : Foreman → Foreman) : (s.setFmn f).freeCtr = s.freeCtr := rfl
@[simp] theorem State.setFmn_pending (s : State) (f : Foreman → Foreman) : (s.setFmn f).pending = s.pending := rfl

-- State.setImp
@[simp] theorem State.setImp_regs (s : State) (f : ImpCtl → ImpCtl) : (s.setImp f).regs = s.regs := rfl
@[simp] theorem State.setImp_heldOld (s : State) (f : ImpCtl → ImpCtl) : (s.setImp f).heldOld = s.heldOld := rfl
@[simp] theorem State.setImp_captured (s : State) (f : ImpCtl → ImpCtl) : (s.setImp f).captured = s.captured := rfl
@[simp] theorem State.setImp_tiles (s : State) (f : ImpCtl → ImpCtl) : (s.setImp f).tiles = s.tiles := rfl
@[simp] theorem State.setImp_dram (s : State) (f : ImpCtl → ImpCtl) : (s.setImp f).dram = s.dram := rfl
@[simp] theorem State.setImp_mem (s : State) (f : ImpCtl → ImpCtl) : (s.setImp f).mem = s.mem := rfl
@[simp] theorem State.setImp_par (s : State) (f : ImpCtl → ImpCtl) : (s.setImp f).par = s.par := rfl
@[simp] theorem State.setImp_pgh (s : State) (f : ImpCtl → ImpCtl) : (s.setImp f).pgh = s.pgh := rfl
@[simp] theorem State.setImp_sorters (s : State) (f : ImpCtl → ImpCtl) : (s.setImp f).sorters = s.sorters := rfl
@[simp] theorem State.setImp_res (s : State) (f : ImpCtl → ImpCtl) : (s.setImp f).res = s.res := rfl
@[simp] theorem State.setImp_spv (s : State) (f : ImpCtl → ImpCtl) : (s.setImp f).spv = s.spv := rfl
@[simp] theorem State.setImp_eth (s : State) (f : ImpCtl → ImpCtl) : (s.setImp f).eth = s.eth := rfl
@[simp] theorem State.setImp_col (s : State) (f : ImpCtl → ImpCtl) : (s.setImp f).col = s.col := rfl
@[simp] theorem State.setImp_subs (s : State) (f : ImpCtl → ImpCtl) : (s.setImp f).subs = s.subs := rfl
@[simp] theorem State.setImp_letters (s : State) (f : ImpCtl → ImpCtl) : (s.setImp f).letters = s.letters := rfl
@[simp] theorem State.setImp_withheld (s : State) (f : ImpCtl → ImpCtl) : (s.setImp f).withheld = s.withheld := rfl
@[simp] theorem State.setImp_fmn (s : State) (f : ImpCtl → ImpCtl) : (s.setImp f).fmn = s.fmn := rfl
@[simp] theorem State.setImp_num (s : State) (f : ImpCtl → ImpCtl) : (s.setImp f).num = s.num := rfl
@[simp] theorem State.setImp_imp (s : State) (f : ImpCtl → ImpCtl) : (s.setImp f).imp = f s.imp := rfl
@[simp] theorem State.setImp_fab (s : State) (f : ImpCtl → ImpCtl) : (s.setImp f).fab = s.fab := rfl
@[simp] theorem State.setImp_fencing (s : State) (f : ImpCtl → ImpCtl) : (s.setImp f).fencing = s.fencing := rfl
@[simp] theorem State.setImp_sel (s : State) (f : ImpCtl → ImpCtl) : (s.setImp f).sel = s.sel := rfl
@[simp] theorem State.setImp_power (s : State) (f : ImpCtl → ImpCtl) : (s.setImp f).power = s.power := rfl
@[simp] theorem State.setImp_dateline (s : State) (f : ImpCtl → ImpCtl) : (s.setImp f).dateline = s.dateline := rfl
@[simp] theorem State.setImp_mgmt (s : State) (f : ImpCtl → ImpCtl) : (s.setImp f).mgmt = s.mgmt := rfl
@[simp] theorem State.setImp_pouches (s : State) (f : ImpCtl → ImpCtl) : (s.setImp f).pouches = s.pouches := rfl
@[simp] theorem State.setImp_tap (s : State) (f : ImpCtl → ImpCtl) : (s.setImp f).tap = s.tap := rfl
@[simp] theorem State.setImp_answer (s : State) (f : ImpCtl → ImpCtl) : (s.setImp f).answer = s.answer := rfl
@[simp] theorem State.setImp_readData (s : State) (f : ImpCtl → ImpCtl) : (s.setImp f).readData = s.readData := rfl
@[simp] theorem State.setImp_serial (s : State) (f : ImpCtl → ImpCtl) : (s.setImp f).serial = s.serial := rfl
@[simp] theorem State.setImp_freeCtr (s : State) (f : ImpCtl → ImpCtl) : (s.setImp f).freeCtr = s.freeCtr := rfl
@[simp] theorem State.setImp_pending (s : State) (f : ImpCtl → ImpCtl) : (s.setImp f).pending = s.pending := rfl

-- State.setPar
@[simp] theorem State.setPar_regs (s : State) (f : Params → Params) : (s.setPar f).regs = s.regs := rfl
@[simp] theorem State.setPar_heldOld (s : State) (f : Params → Params) : (s.setPar f).heldOld = s.heldOld := rfl
@[simp] theorem State.setPar_captured (s : State) (f : Params → Params) : (s.setPar f).captured = s.captured := rfl
@[simp] theorem State.setPar_tiles (s : State) (f : Params → Params) : (s.setPar f).tiles = s.tiles := rfl
@[simp] theorem State.setPar_dram (s : State) (f : Params → Params) : (s.setPar f).dram = s.dram := rfl
@[simp] theorem State.setPar_mem (s : State) (f : Params → Params) : (s.setPar f).mem = s.mem := rfl
@[simp] theorem State.setPar_par (s : State) (f : Params → Params) : (s.setPar f).par = f s.par := rfl
@[simp] theorem State.setPar_pgh (s : State) (f : Params → Params) : (s.setPar f).pgh = s.pgh := rfl
@[simp] theorem State.setPar_sorters (s : State) (f : Params → Params) : (s.setPar f).sorters = s.sorters := rfl
@[simp] theorem State.setPar_res (s : State) (f : Params → Params) : (s.setPar f).res = s.res := rfl
@[simp] theorem State.setPar_spv (s : State) (f : Params → Params) : (s.setPar f).spv = s.spv := rfl
@[simp] theorem State.setPar_eth (s : State) (f : Params → Params) : (s.setPar f).eth = s.eth := rfl
@[simp] theorem State.setPar_col (s : State) (f : Params → Params) : (s.setPar f).col = s.col := rfl
@[simp] theorem State.setPar_subs (s : State) (f : Params → Params) : (s.setPar f).subs = s.subs := rfl
@[simp] theorem State.setPar_letters (s : State) (f : Params → Params) : (s.setPar f).letters = s.letters := rfl
@[simp] theorem State.setPar_withheld (s : State) (f : Params → Params) : (s.setPar f).withheld = s.withheld := rfl
@[simp] theorem State.setPar_fmn (s : State) (f : Params → Params) : (s.setPar f).fmn = s.fmn := rfl
@[simp] theorem State.setPar_num (s : State) (f : Params → Params) : (s.setPar f).num = s.num := rfl
@[simp] theorem State.setPar_imp (s : State) (f : Params → Params) : (s.setPar f).imp = s.imp := rfl
@[simp] theorem State.setPar_fab (s : State) (f : Params → Params) : (s.setPar f).fab = s.fab := rfl
@[simp] theorem State.setPar_fencing (s : State) (f : Params → Params) : (s.setPar f).fencing = s.fencing := rfl
@[simp] theorem State.setPar_sel (s : State) (f : Params → Params) : (s.setPar f).sel = s.sel := rfl
@[simp] theorem State.setPar_power (s : State) (f : Params → Params) : (s.setPar f).power = s.power := rfl
@[simp] theorem State.setPar_dateline (s : State) (f : Params → Params) : (s.setPar f).dateline = s.dateline := rfl
@[simp] theorem State.setPar_mgmt (s : State) (f : Params → Params) : (s.setPar f).mgmt = s.mgmt := rfl
@[simp] theorem State.setPar_pouches (s : State) (f : Params → Params) : (s.setPar f).pouches = s.pouches := rfl
@[simp] theorem State.setPar_tap (s : State) (f : Params → Params) : (s.setPar f).tap = s.tap := rfl
@[simp] theorem State.setPar_answer (s : State) (f : Params → Params) : (s.setPar f).answer = s.answer := rfl
@[simp] theorem State.setPar_readData (s : State) (f : Params → Params) : (s.setPar f).readData = s.readData := rfl
@[simp] theorem State.setPar_serial (s : State) (f : Params → Params) : (s.setPar f).serial = s.serial := rfl
@[simp] theorem State.setPar_freeCtr (s : State) (f : Params → Params) : (s.setPar f).freeCtr = s.freeCtr := rfl
@[simp] theorem State.setPar_pending (s : State) (f : Params → Params) : (s.setPar f).pending = s.pending := rfl

-- State.setCol
@[simp] theorem State.setCol_regs (s : State) (f : Col → Col) : (s.setCol f).regs = s.regs := rfl
@[simp] theorem State.setCol_heldOld (s : State) (f : Col → Col) : (s.setCol f).heldOld = s.heldOld := rfl
@[simp] theorem State.setCol_captured (s : State) (f : Col → Col) : (s.setCol f).captured = s.captured := rfl
@[simp] theorem State.setCol_tiles (s : State) (f : Col → Col) : (s.setCol f).tiles = s.tiles := rfl
@[simp] theorem State.setCol_dram (s : State) (f : Col → Col) : (s.setCol f).dram = s.dram := rfl
@[simp] theorem State.setCol_mem (s : State) (f : Col → Col) : (s.setCol f).mem = s.mem := rfl
@[simp] theorem State.setCol_par (s : State) (f : Col → Col) : (s.setCol f).par = s.par := rfl
@[simp] theorem State.setCol_pgh (s : State) (f : Col → Col) : (s.setCol f).pgh = s.pgh := rfl
@[simp] theorem State.setCol_sorters (s : State) (f : Col → Col) : (s.setCol f).sorters = s.sorters := rfl
@[simp] theorem State.setCol_res (s : State) (f : Col → Col) : (s.setCol f).res = s.res := rfl
@[simp] theorem State.setCol_spv (s : State) (f : Col → Col) : (s.setCol f).spv = s.spv := rfl
@[simp] theorem State.setCol_eth (s : State) (f : Col → Col) : (s.setCol f).eth = s.eth := rfl
@[simp] theorem State.setCol_col (s : State) (f : Col → Col) : (s.setCol f).col = f s.col := rfl
@[simp] theorem State.setCol_subs (s : State) (f : Col → Col) : (s.setCol f).subs = s.subs := rfl
@[simp] theorem State.setCol_letters (s : State) (f : Col → Col) : (s.setCol f).letters = s.letters := rfl
@[simp] theorem State.setCol_withheld (s : State) (f : Col → Col) : (s.setCol f).withheld = s.withheld := rfl
@[simp] theorem State.setCol_fmn (s : State) (f : Col → Col) : (s.setCol f).fmn = s.fmn := rfl
@[simp] theorem State.setCol_num (s : State) (f : Col → Col) : (s.setCol f).num = s.num := rfl
@[simp] theorem State.setCol_imp (s : State) (f : Col → Col) : (s.setCol f).imp = s.imp := rfl
@[simp] theorem State.setCol_fab (s : State) (f : Col → Col) : (s.setCol f).fab = s.fab := rfl
@[simp] theorem State.setCol_fencing (s : State) (f : Col → Col) : (s.setCol f).fencing = s.fencing := rfl
@[simp] theorem State.setCol_sel (s : State) (f : Col → Col) : (s.setCol f).sel = s.sel := rfl
@[simp] theorem State.setCol_power (s : State) (f : Col → Col) : (s.setCol f).power = s.power := rfl
@[simp] theorem State.setCol_dateline (s : State) (f : Col → Col) : (s.setCol f).dateline = s.dateline := rfl
@[simp] theorem State.setCol_mgmt (s : State) (f : Col → Col) : (s.setCol f).mgmt = s.mgmt := rfl
@[simp] theorem State.setCol_pouches (s : State) (f : Col → Col) : (s.setCol f).pouches = s.pouches := rfl
@[simp] theorem State.setCol_tap (s : State) (f : Col → Col) : (s.setCol f).tap = s.tap := rfl
@[simp] theorem State.setCol_answer (s : State) (f : Col → Col) : (s.setCol f).answer = s.answer := rfl
@[simp] theorem State.setCol_readData (s : State) (f : Col → Col) : (s.setCol f).readData = s.readData := rfl
@[simp] theorem State.setCol_serial (s : State) (f : Col → Col) : (s.setCol f).serial = s.serial := rfl
@[simp] theorem State.setCol_freeCtr (s : State) (f : Col → Col) : (s.setCol f).freeCtr = s.freeCtr := rfl
@[simp] theorem State.setCol_pending (s : State) (f : Col → Col) : (s.setCol f).pending = s.pending := rfl

-- State.setPort
@[simp] theorem State.setPort_regs (s : State) (p : Nat) (v : Port) : (s.setPort p v).regs = s.regs := rfl
@[simp] theorem State.setPort_heldOld (s : State) (p : Nat) (v : Port) : (s.setPort p v).heldOld = s.heldOld := rfl
@[simp] theorem State.setPort_captured (s : State) (p : Nat) (v : Port) : (s.setPort p v).captured = s.captured := rfl
@[simp] theorem State.setPort_tiles (s : State) (p : Nat) (v : Port) : (s.setPort p v).tiles = s.tiles := rfl
@[simp] theorem State.setPort_dram (s : State) (p : Nat) (v : Port) : (s.setPort p v).dram = s.dram := rfl
@[simp] theorem State.setPort_mem (s : State) (p : Nat) (v : Port) : (s.setPort p v).mem = s.mem := rfl
@[simp] theorem State.setPort_par (s : State) (p : Nat) (v : Port) : (s.setPort p v).par = s.par := rfl
@[simp] theorem State.setPort_pgh (s : State) (p : Nat) (v : Port) : (s.setPort p v).pgh = s.pgh := rfl
@[simp] theorem State.setPort_sorters (s : State) (p : Nat) (v : Port) : (s.setPort p v).sorters = s.sorters := rfl
@[simp] theorem State.setPort_res (s : State) (p : Nat) (v : Port) : (s.setPort p v).res = s.res := rfl
@[simp] theorem State.setPort_spv (s : State) (p : Nat) (v : Port) : (s.setPort p v).spv = s.spv := rfl
@[simp] theorem State.setPort_eth (s : State) (p : Nat) (v : Port) : (s.setPort p v).eth = s.eth := rfl
@[simp] theorem State.setPort_col (s : State) (p : Nat) (v : Port) : (s.setPort p v).col = s.col := rfl
@[simp] theorem State.setPort_subs (s : State) (p : Nat) (v : Port) : (s.setPort p v).subs = s.subs := rfl
@[simp] theorem State.setPort_letters (s : State) (p : Nat) (v : Port) : (s.setPort p v).letters = s.letters := rfl
@[simp] theorem State.setPort_withheld (s : State) (p : Nat) (v : Port) : (s.setPort p v).withheld = s.withheld := rfl
@[simp] theorem State.setPort_fmn (s : State) (p : Nat) (v : Port) : (s.setPort p v).fmn = s.fmn := rfl
@[simp] theorem State.setPort_num (s : State) (p : Nat) (v : Port) : (s.setPort p v).num = s.num := rfl
@[simp] theorem State.setPort_imp (s : State) (p : Nat) (v : Port) : (s.setPort p v).imp = s.imp := rfl
@[simp] theorem State.setPort_fab (s : State) (p : Nat) (v : Port) : (s.setPort p v).fab = { s.fab with ports := kvSet s.fab.ports p v } := rfl
@[simp] theorem State.setPort_fencing (s : State) (p : Nat) (v : Port) : (s.setPort p v).fencing = s.fencing := rfl
@[simp] theorem State.setPort_sel (s : State) (p : Nat) (v : Port) : (s.setPort p v).sel = s.sel := rfl
@[simp] theorem State.setPort_power (s : State) (p : Nat) (v : Port) : (s.setPort p v).power = s.power := rfl
@[simp] theorem State.setPort_dateline (s : State) (p : Nat) (v : Port) : (s.setPort p v).dateline = s.dateline := rfl
@[simp] theorem State.setPort_mgmt (s : State) (p : Nat) (v : Port) : (s.setPort p v).mgmt = s.mgmt := rfl
@[simp] theorem State.setPort_pouches (s : State) (p : Nat) (v : Port) : (s.setPort p v).pouches = s.pouches := rfl
@[simp] theorem State.setPort_tap (s : State) (p : Nat) (v : Port) : (s.setPort p v).tap = s.tap := rfl
@[simp] theorem State.setPort_answer (s : State) (p : Nat) (v : Port) : (s.setPort p v).answer = s.answer := rfl
@[simp] theorem State.setPort_readData (s : State) (p : Nat) (v : Port) : (s.setPort p v).readData = s.readData := rfl
@[simp] theorem State.setPort_serial (s : State) (p : Nat) (v : Port) : (s.setPort p v).serial = s.serial := rfl
@[simp] theorem State.setPort_freeCtr (s : State) (p : Nat) (v : Port) : (s.setPort p v).freeCtr = s.freeCtr := rfl
@[simp] theorem State.setPort_pending (s : State) (p : Nat) (v : Port) : (s.setPort p v).pending = s.pending := rfl

-- State.modQueue
@[simp] theorem State.modQueue_regs (s : State) (q : Nat) (f : CmdQueue → CmdQueue) : (s.modQueue q f).regs = s.regs := rfl
@[simp] theorem State.modQueue_heldOld (s : State) (q : Nat) (f : CmdQueue → CmdQueue) : (s.modQueue q f).heldOld = s.heldOld := rfl
@[simp] theorem State.modQueue_captured (s : State) (q : Nat) (f : CmdQueue → CmdQueue) : (s.modQueue q f).captured = s.captured := rfl
@[simp] theorem State.modQueue_tiles (s : State) (q : Nat) (f : CmdQueue → CmdQueue) : (s.modQueue q f).tiles = s.tiles := rfl
@[simp] theorem State.modQueue_dram (s : State) (q : Nat) (f : CmdQueue → CmdQueue) : (s.modQueue q f).dram = s.dram := rfl
@[simp] theorem State.modQueue_mem (s : State) (q : Nat) (f : CmdQueue → CmdQueue) : (s.modQueue q f).mem = s.mem := rfl
@[simp] theorem State.modQueue_par (s : State) (q : Nat) (f : CmdQueue → CmdQueue) : (s.modQueue q f).par = s.par := rfl
@[simp] theorem State.modQueue_pgh (s : State) (q : Nat) (f : CmdQueue → CmdQueue) : (s.modQueue q f).pgh = s.pgh := rfl
@[simp] theorem State.modQueue_sorters (s : State) (q : Nat) (f : CmdQueue → CmdQueue) : (s.modQueue q f).sorters = s.sorters := rfl
@[simp] theorem State.modQueue_res (s : State) (q : Nat) (f : CmdQueue → CmdQueue) : (s.modQueue q f).res = s.res := rfl
@[simp] theorem State.modQueue_spv (s : State) (q : Nat) (f : CmdQueue → CmdQueue) : (s.modQueue q f).spv = { s.spv with queues := kvMod s.spv.queues q CmdQueue.reset f } := rfl
@[simp] theorem State.modQueue_eth (s : State) (q : Nat) (f : CmdQueue → CmdQueue) : (s.modQueue q f).eth = s.eth := rfl
@[simp] theorem State.modQueue_col (s : State) (q : Nat) (f : CmdQueue → CmdQueue) : (s.modQueue q f).col = s.col := rfl
@[simp] theorem State.modQueue_subs (s : State) (q : Nat) (f : CmdQueue → CmdQueue) : (s.modQueue q f).subs = s.subs := rfl
@[simp] theorem State.modQueue_letters (s : State) (q : Nat) (f : CmdQueue → CmdQueue) : (s.modQueue q f).letters = s.letters := rfl
@[simp] theorem State.modQueue_withheld (s : State) (q : Nat) (f : CmdQueue → CmdQueue) : (s.modQueue q f).withheld = s.withheld := rfl
@[simp] theorem State.modQueue_fmn (s : State) (q : Nat) (f : CmdQueue → CmdQueue) : (s.modQueue q f).fmn = s.fmn := rfl
@[simp] theorem State.modQueue_num (s : State) (q : Nat) (f : CmdQueue → CmdQueue) : (s.modQueue q f).num = s.num := rfl
@[simp] theorem State.modQueue_imp (s : State) (q : Nat) (f : CmdQueue → CmdQueue) : (s.modQueue q f).imp = s.imp := rfl
@[simp] theorem State.modQueue_fab (s : State) (q : Nat) (f : CmdQueue → CmdQueue) : (s.modQueue q f).fab = s.fab := rfl
@[simp] theorem State.modQueue_fencing (s : State) (q : Nat) (f : CmdQueue → CmdQueue) : (s.modQueue q f).fencing = s.fencing := rfl
@[simp] theorem State.modQueue_sel (s : State) (q : Nat) (f : CmdQueue → CmdQueue) : (s.modQueue q f).sel = s.sel := rfl
@[simp] theorem State.modQueue_power (s : State) (q : Nat) (f : CmdQueue → CmdQueue) : (s.modQueue q f).power = s.power := rfl
@[simp] theorem State.modQueue_dateline (s : State) (q : Nat) (f : CmdQueue → CmdQueue) : (s.modQueue q f).dateline = s.dateline := rfl
@[simp] theorem State.modQueue_mgmt (s : State) (q : Nat) (f : CmdQueue → CmdQueue) : (s.modQueue q f).mgmt = s.mgmt := rfl
@[simp] theorem State.modQueue_pouches (s : State) (q : Nat) (f : CmdQueue → CmdQueue) : (s.modQueue q f).pouches = s.pouches := rfl
@[simp] theorem State.modQueue_tap (s : State) (q : Nat) (f : CmdQueue → CmdQueue) : (s.modQueue q f).tap = s.tap := rfl
@[simp] theorem State.modQueue_answer (s : State) (q : Nat) (f : CmdQueue → CmdQueue) : (s.modQueue q f).answer = s.answer := rfl
@[simp] theorem State.modQueue_readData (s : State) (q : Nat) (f : CmdQueue → CmdQueue) : (s.modQueue q f).readData = s.readData := rfl
@[simp] theorem State.modQueue_serial (s : State) (q : Nat) (f : CmdQueue → CmdQueue) : (s.modQueue q f).serial = s.serial := rfl
@[simp] theorem State.modQueue_freeCtr (s : State) (q : Nat) (f : CmdQueue → CmdQueue) : (s.modQueue q f).freeCtr = s.freeCtr := rfl
@[simp] theorem State.modQueue_pending (s : State) (q : Nat) (f : CmdQueue → CmdQueue) : (s.modQueue q f).pending = s.pending := rfl

-- State.modChan
@[simp] theorem State.modChan_regs (s : State) (c : Nat) (f : Chan → Chan) : (s.modChan c f).regs = s.regs := rfl
@[simp] theorem State.modChan_heldOld (s : State) (c : Nat) (f : Chan → Chan) : (s.modChan c f).heldOld = s.heldOld := rfl
@[simp] theorem State.modChan_captured (s : State) (c : Nat) (f : Chan → Chan) : (s.modChan c f).captured = s.captured := rfl
@[simp] theorem State.modChan_tiles (s : State) (c : Nat) (f : Chan → Chan) : (s.modChan c f).tiles = s.tiles := rfl
@[simp] theorem State.modChan_dram (s : State) (c : Nat) (f : Chan → Chan) : (s.modChan c f).dram = s.dram := rfl
@[simp] theorem State.modChan_mem (s : State) (c : Nat) (f : Chan → Chan) : (s.modChan c f).mem = { s.mem with chans := kvMod s.mem.chans c Chan.reset f } := rfl
@[simp] theorem State.modChan_par (s : State) (c : Nat) (f : Chan → Chan) : (s.modChan c f).par = s.par := rfl
@[simp] theorem State.modChan_pgh (s : State) (c : Nat) (f : Chan → Chan) : (s.modChan c f).pgh = s.pgh := rfl
@[simp] theorem State.modChan_sorters (s : State) (c : Nat) (f : Chan → Chan) : (s.modChan c f).sorters = s.sorters := rfl
@[simp] theorem State.modChan_res (s : State) (c : Nat) (f : Chan → Chan) : (s.modChan c f).res = s.res := rfl
@[simp] theorem State.modChan_spv (s : State) (c : Nat) (f : Chan → Chan) : (s.modChan c f).spv = s.spv := rfl
@[simp] theorem State.modChan_eth (s : State) (c : Nat) (f : Chan → Chan) : (s.modChan c f).eth = s.eth := rfl
@[simp] theorem State.modChan_col (s : State) (c : Nat) (f : Chan → Chan) : (s.modChan c f).col = s.col := rfl
@[simp] theorem State.modChan_subs (s : State) (c : Nat) (f : Chan → Chan) : (s.modChan c f).subs = s.subs := rfl
@[simp] theorem State.modChan_letters (s : State) (c : Nat) (f : Chan → Chan) : (s.modChan c f).letters = s.letters := rfl
@[simp] theorem State.modChan_withheld (s : State) (c : Nat) (f : Chan → Chan) : (s.modChan c f).withheld = s.withheld := rfl
@[simp] theorem State.modChan_fmn (s : State) (c : Nat) (f : Chan → Chan) : (s.modChan c f).fmn = s.fmn := rfl
@[simp] theorem State.modChan_num (s : State) (c : Nat) (f : Chan → Chan) : (s.modChan c f).num = s.num := rfl
@[simp] theorem State.modChan_imp (s : State) (c : Nat) (f : Chan → Chan) : (s.modChan c f).imp = s.imp := rfl
@[simp] theorem State.modChan_fab (s : State) (c : Nat) (f : Chan → Chan) : (s.modChan c f).fab = s.fab := rfl
@[simp] theorem State.modChan_fencing (s : State) (c : Nat) (f : Chan → Chan) : (s.modChan c f).fencing = s.fencing := rfl
@[simp] theorem State.modChan_sel (s : State) (c : Nat) (f : Chan → Chan) : (s.modChan c f).sel = s.sel := rfl
@[simp] theorem State.modChan_power (s : State) (c : Nat) (f : Chan → Chan) : (s.modChan c f).power = s.power := rfl
@[simp] theorem State.modChan_dateline (s : State) (c : Nat) (f : Chan → Chan) : (s.modChan c f).dateline = s.dateline := rfl
@[simp] theorem State.modChan_mgmt (s : State) (c : Nat) (f : Chan → Chan) : (s.modChan c f).mgmt = s.mgmt := rfl
@[simp] theorem State.modChan_pouches (s : State) (c : Nat) (f : Chan → Chan) : (s.modChan c f).pouches = s.pouches := rfl
@[simp] theorem State.modChan_tap (s : State) (c : Nat) (f : Chan → Chan) : (s.modChan c f).tap = s.tap := rfl
@[simp] theorem State.modChan_answer (s : State) (c : Nat) (f : Chan → Chan) : (s.modChan c f).answer = s.answer := rfl
@[simp] theorem State.modChan_readData (s : State) (c : Nat) (f : Chan → Chan) : (s.modChan c f).readData = s.readData := rfl
@[simp] theorem State.modChan_serial (s : State) (c : Nat) (f : Chan → Chan) : (s.modChan c f).serial = s.serial := rfl
@[simp] theorem State.modChan_freeCtr (s : State) (c : Nat) (f : Chan → Chan) : (s.modChan c f).freeCtr = s.freeCtr := rfl
@[simp] theorem State.modChan_pending (s : State) (c : Nat) (f : Chan → Chan) : (s.modChan c f).pending = s.pending := rfl

-- State.modSrt
@[simp] theorem State.modSrt_regs (s : State) (q : Nat) (f : Sorter → Sorter) : (s.modSrt q f).regs = s.regs := rfl
@[simp] theorem State.modSrt_heldOld (s : State) (q : Nat) (f : Sorter → Sorter) : (s.modSrt q f).heldOld = s.heldOld := rfl
@[simp] theorem State.modSrt_captured (s : State) (q : Nat) (f : Sorter → Sorter) : (s.modSrt q f).captured = s.captured := rfl
@[simp] theorem State.modSrt_tiles (s : State) (q : Nat) (f : Sorter → Sorter) : (s.modSrt q f).tiles = s.tiles := rfl
@[simp] theorem State.modSrt_dram (s : State) (q : Nat) (f : Sorter → Sorter) : (s.modSrt q f).dram = s.dram := rfl
@[simp] theorem State.modSrt_mem (s : State) (q : Nat) (f : Sorter → Sorter) : (s.modSrt q f).mem = s.mem := rfl
@[simp] theorem State.modSrt_par (s : State) (q : Nat) (f : Sorter → Sorter) : (s.modSrt q f).par = s.par := rfl
@[simp] theorem State.modSrt_pgh (s : State) (q : Nat) (f : Sorter → Sorter) : (s.modSrt q f).pgh = s.pgh := rfl
@[simp] theorem State.modSrt_sorters (s : State) (q : Nat) (f : Sorter → Sorter) : (s.modSrt q f).sorters = kvMod s.sorters q Sorter.reset f := rfl
@[simp] theorem State.modSrt_res (s : State) (q : Nat) (f : Sorter → Sorter) : (s.modSrt q f).res = s.res := rfl
@[simp] theorem State.modSrt_spv (s : State) (q : Nat) (f : Sorter → Sorter) : (s.modSrt q f).spv = s.spv := rfl
@[simp] theorem State.modSrt_eth (s : State) (q : Nat) (f : Sorter → Sorter) : (s.modSrt q f).eth = s.eth := rfl
@[simp] theorem State.modSrt_col (s : State) (q : Nat) (f : Sorter → Sorter) : (s.modSrt q f).col = s.col := rfl
@[simp] theorem State.modSrt_subs (s : State) (q : Nat) (f : Sorter → Sorter) : (s.modSrt q f).subs = s.subs := rfl
@[simp] theorem State.modSrt_letters (s : State) (q : Nat) (f : Sorter → Sorter) : (s.modSrt q f).letters = s.letters := rfl
@[simp] theorem State.modSrt_withheld (s : State) (q : Nat) (f : Sorter → Sorter) : (s.modSrt q f).withheld = s.withheld := rfl
@[simp] theorem State.modSrt_fmn (s : State) (q : Nat) (f : Sorter → Sorter) : (s.modSrt q f).fmn = s.fmn := rfl
@[simp] theorem State.modSrt_num (s : State) (q : Nat) (f : Sorter → Sorter) : (s.modSrt q f).num = s.num := rfl
@[simp] theorem State.modSrt_imp (s : State) (q : Nat) (f : Sorter → Sorter) : (s.modSrt q f).imp = s.imp := rfl
@[simp] theorem State.modSrt_fab (s : State) (q : Nat) (f : Sorter → Sorter) : (s.modSrt q f).fab = s.fab := rfl
@[simp] theorem State.modSrt_fencing (s : State) (q : Nat) (f : Sorter → Sorter) : (s.modSrt q f).fencing = s.fencing := rfl
@[simp] theorem State.modSrt_sel (s : State) (q : Nat) (f : Sorter → Sorter) : (s.modSrt q f).sel = s.sel := rfl
@[simp] theorem State.modSrt_power (s : State) (q : Nat) (f : Sorter → Sorter) : (s.modSrt q f).power = s.power := rfl
@[simp] theorem State.modSrt_dateline (s : State) (q : Nat) (f : Sorter → Sorter) : (s.modSrt q f).dateline = s.dateline := rfl
@[simp] theorem State.modSrt_mgmt (s : State) (q : Nat) (f : Sorter → Sorter) : (s.modSrt q f).mgmt = s.mgmt := rfl
@[simp] theorem State.modSrt_pouches (s : State) (q : Nat) (f : Sorter → Sorter) : (s.modSrt q f).pouches = s.pouches := rfl
@[simp] theorem State.modSrt_tap (s : State) (q : Nat) (f : Sorter → Sorter) : (s.modSrt q f).tap = s.tap := rfl
@[simp] theorem State.modSrt_answer (s : State) (q : Nat) (f : Sorter → Sorter) : (s.modSrt q f).answer = s.answer := rfl
@[simp] theorem State.modSrt_readData (s : State) (q : Nat) (f : Sorter → Sorter) : (s.modSrt q f).readData = s.readData := rfl
@[simp] theorem State.modSrt_serial (s : State) (q : Nat) (f : Sorter → Sorter) : (s.modSrt q f).serial = s.serial := rfl
@[simp] theorem State.modSrt_freeCtr (s : State) (q : Nat) (f : Sorter → Sorter) : (s.modSrt q f).freeCtr = s.freeCtr := rfl
@[simp] theorem State.modSrt_pending (s : State) (q : Nat) (f : Sorter → Sorter) : (s.modSrt q f).pending = s.pending := rfl

-- State.modCache
@[simp] theorem State.modCache_regs (s : State) (c : Nat) (f : Pgh → Pgh) : (s.modCache c f).regs = s.regs := rfl
@[simp] theorem State.modCache_heldOld (s : State) (c : Nat) (f : Pgh → Pgh) : (s.modCache c f).heldOld = s.heldOld := rfl
@[simp] theorem State.modCache_captured (s : State) (c : Nat) (f : Pgh → Pgh) : (s.modCache c f).captured = s.captured := rfl
@[simp] theorem State.modCache_tiles (s : State) (c : Nat) (f : Pgh → Pgh) : (s.modCache c f).tiles = s.tiles := rfl
@[simp] theorem State.modCache_dram (s : State) (c : Nat) (f : Pgh → Pgh) : (s.modCache c f).dram = s.dram := rfl
@[simp] theorem State.modCache_mem (s : State) (c : Nat) (f : Pgh → Pgh) : (s.modCache c f).mem = s.mem := rfl
@[simp] theorem State.modCache_par (s : State) (c : Nat) (f : Pgh → Pgh) : (s.modCache c f).par = s.par := rfl
@[simp] theorem State.modCache_pgh (s : State) (c : Nat) (f : Pgh → Pgh) : (s.modCache c f).pgh = kvMod s.pgh c Pgh.reset f := rfl
@[simp] theorem State.modCache_sorters (s : State) (c : Nat) (f : Pgh → Pgh) : (s.modCache c f).sorters = s.sorters := rfl
@[simp] theorem State.modCache_res (s : State) (c : Nat) (f : Pgh → Pgh) : (s.modCache c f).res = s.res := rfl
@[simp] theorem State.modCache_spv (s : State) (c : Nat) (f : Pgh → Pgh) : (s.modCache c f).spv = s.spv := rfl
@[simp] theorem State.modCache_eth (s : State) (c : Nat) (f : Pgh → Pgh) : (s.modCache c f).eth = s.eth := rfl
@[simp] theorem State.modCache_col (s : State) (c : Nat) (f : Pgh → Pgh) : (s.modCache c f).col = s.col := rfl
@[simp] theorem State.modCache_subs (s : State) (c : Nat) (f : Pgh → Pgh) : (s.modCache c f).subs = s.subs := rfl
@[simp] theorem State.modCache_letters (s : State) (c : Nat) (f : Pgh → Pgh) : (s.modCache c f).letters = s.letters := rfl
@[simp] theorem State.modCache_withheld (s : State) (c : Nat) (f : Pgh → Pgh) : (s.modCache c f).withheld = s.withheld := rfl
@[simp] theorem State.modCache_fmn (s : State) (c : Nat) (f : Pgh → Pgh) : (s.modCache c f).fmn = s.fmn := rfl
@[simp] theorem State.modCache_num (s : State) (c : Nat) (f : Pgh → Pgh) : (s.modCache c f).num = s.num := rfl
@[simp] theorem State.modCache_imp (s : State) (c : Nat) (f : Pgh → Pgh) : (s.modCache c f).imp = s.imp := rfl
@[simp] theorem State.modCache_fab (s : State) (c : Nat) (f : Pgh → Pgh) : (s.modCache c f).fab = s.fab := rfl
@[simp] theorem State.modCache_fencing (s : State) (c : Nat) (f : Pgh → Pgh) : (s.modCache c f).fencing = s.fencing := rfl
@[simp] theorem State.modCache_sel (s : State) (c : Nat) (f : Pgh → Pgh) : (s.modCache c f).sel = s.sel := rfl
@[simp] theorem State.modCache_power (s : State) (c : Nat) (f : Pgh → Pgh) : (s.modCache c f).power = s.power := rfl
@[simp] theorem State.modCache_dateline (s : State) (c : Nat) (f : Pgh → Pgh) : (s.modCache c f).dateline = s.dateline := rfl
@[simp] theorem State.modCache_mgmt (s : State) (c : Nat) (f : Pgh → Pgh) : (s.modCache c f).mgmt = s.mgmt := rfl
@[simp] theorem State.modCache_pouches (s : State) (c : Nat) (f : Pgh → Pgh) : (s.modCache c f).pouches = s.pouches := rfl
@[simp] theorem State.modCache_tap (s : State) (c : Nat) (f : Pgh → Pgh) : (s.modCache c f).tap = s.tap := rfl
@[simp] theorem State.modCache_answer (s : State) (c : Nat) (f : Pgh → Pgh) : (s.modCache c f).answer = s.answer := rfl
@[simp] theorem State.modCache_readData (s : State) (c : Nat) (f : Pgh → Pgh) : (s.modCache c f).readData = s.readData := rfl
@[simp] theorem State.modCache_serial (s : State) (c : Nat) (f : Pgh → Pgh) : (s.modCache c f).serial = s.serial := rfl
@[simp] theorem State.modCache_freeCtr (s : State) (c : Nat) (f : Pgh → Pgh) : (s.modCache c f).freeCtr = s.freeCtr := rfl
@[simp] theorem State.modCache_pending (s : State) (c : Nat) (f : Pgh → Pgh) : (s.modCache c f).pending = s.pending := rfl

-- State.setPouch
@[simp] theorem State.setPouch_regs (s : State) (p i : Nat) (ws : Pouch) : (s.setPouch p i ws).regs = s.regs := rfl
@[simp] theorem State.setPouch_heldOld (s : State) (p i : Nat) (ws : Pouch) : (s.setPouch p i ws).heldOld = s.heldOld := rfl
@[simp] theorem State.setPouch_captured (s : State) (p i : Nat) (ws : Pouch) : (s.setPouch p i ws).captured = s.captured := rfl
@[simp] theorem State.setPouch_tiles (s : State) (p i : Nat) (ws : Pouch) : (s.setPouch p i ws).tiles = s.tiles := rfl
@[simp] theorem State.setPouch_dram (s : State) (p i : Nat) (ws : Pouch) : (s.setPouch p i ws).dram = s.dram := rfl
@[simp] theorem State.setPouch_mem (s : State) (p i : Nat) (ws : Pouch) : (s.setPouch p i ws).mem = s.mem := rfl
@[simp] theorem State.setPouch_par (s : State) (p i : Nat) (ws : Pouch) : (s.setPouch p i ws).par = s.par := rfl
@[simp] theorem State.setPouch_pgh (s : State) (p i : Nat) (ws : Pouch) : (s.setPouch p i ws).pgh = s.pgh := rfl
@[simp] theorem State.setPouch_sorters (s : State) (p i : Nat) (ws : Pouch) : (s.setPouch p i ws).sorters = s.sorters := rfl
@[simp] theorem State.setPouch_res (s : State) (p i : Nat) (ws : Pouch) : (s.setPouch p i ws).res = s.res := rfl
@[simp] theorem State.setPouch_spv (s : State) (p i : Nat) (ws : Pouch) : (s.setPouch p i ws).spv = s.spv := rfl
@[simp] theorem State.setPouch_eth (s : State) (p i : Nat) (ws : Pouch) : (s.setPouch p i ws).eth = s.eth := rfl
@[simp] theorem State.setPouch_col (s : State) (p i : Nat) (ws : Pouch) : (s.setPouch p i ws).col = s.col := rfl
@[simp] theorem State.setPouch_subs (s : State) (p i : Nat) (ws : Pouch) : (s.setPouch p i ws).subs = s.subs := rfl
@[simp] theorem State.setPouch_letters (s : State) (p i : Nat) (ws : Pouch) : (s.setPouch p i ws).letters = s.letters := rfl
@[simp] theorem State.setPouch_withheld (s : State) (p i : Nat) (ws : Pouch) : (s.setPouch p i ws).withheld = s.withheld := rfl
@[simp] theorem State.setPouch_fmn (s : State) (p i : Nat) (ws : Pouch) : (s.setPouch p i ws).fmn = s.fmn := rfl
@[simp] theorem State.setPouch_num (s : State) (p i : Nat) (ws : Pouch) : (s.setPouch p i ws).num = s.num := rfl
@[simp] theorem State.setPouch_imp (s : State) (p i : Nat) (ws : Pouch) : (s.setPouch p i ws).imp = s.imp := rfl
@[simp] theorem State.setPouch_fab (s : State) (p i : Nat) (ws : Pouch) : (s.setPouch p i ws).fab = s.fab := rfl
@[simp] theorem State.setPouch_fencing (s : State) (p i : Nat) (ws : Pouch) : (s.setPouch p i ws).fencing = s.fencing := rfl
@[simp] theorem State.setPouch_sel (s : State) (p i : Nat) (ws : Pouch) : (s.setPouch p i ws).sel = s.sel := rfl
@[simp] theorem State.setPouch_power (s : State) (p i : Nat) (ws : Pouch) : (s.setPouch p i ws).power = s.power := rfl
@[simp] theorem State.setPouch_dateline (s : State) (p i : Nat) (ws : Pouch) : (s.setPouch p i ws).dateline = s.dateline := rfl
@[simp] theorem State.setPouch_mgmt (s : State) (p i : Nat) (ws : Pouch) : (s.setPouch p i ws).mgmt = s.mgmt := rfl
@[simp] theorem State.setPouch_pouches (s : State) (p i : Nat) (ws : Pouch) : (s.setPouch p i ws).pouches = kvSet s.pouches (p * 256 + i) ws := rfl
@[simp] theorem State.setPouch_tap (s : State) (p i : Nat) (ws : Pouch) : (s.setPouch p i ws).tap = s.tap := rfl
@[simp] theorem State.setPouch_answer (s : State) (p i : Nat) (ws : Pouch) : (s.setPouch p i ws).answer = s.answer := rfl
@[simp] theorem State.setPouch_readData (s : State) (p i : Nat) (ws : Pouch) : (s.setPouch p i ws).readData = s.readData := rfl
@[simp] theorem State.setPouch_serial (s : State) (p i : Nat) (ws : Pouch) : (s.setPouch p i ws).serial = s.serial := rfl
@[simp] theorem State.setPouch_freeCtr (s : State) (p i : Nat) (ws : Pouch) : (s.setPouch p i ws).freeCtr = s.freeCtr := rfl
@[simp] theorem State.setPouch_pending (s : State) (p i : Nat) (ws : Pouch) : (s.setPouch p i ws).pending = s.pending := rfl

end Sys2Proof.Machine
end

