-- ==== Sys2Proof/Laws/Regs.lean ====
section
/-! SUPPORT. Laws of the register file and of the latching of events: what a register reads as after a write, and what a latch leaves alone. -/

namespace Sys2Proof.Machine

/-- Two registers share a place only where page and offset agree. -/
theorem regKey_inj {p q o u : Nat} (ho : o < 4096) (hu : u < 4096) (ha : o % 4 = 0) (hb : u % 4 = 0) (h : regKey p o = regKey q u) : p = q ∧ o = u := by
  unfold regKey at h; omega

@[simp] theorem State.reg_setReg_self (s : State) (p o : Nat) (v : Word) : (s.setReg p o v).reg p o = v := by simp [State.reg]
theorem State.reg_setReg_ne (s : State) {p o q u : Nat} (v : Word) (h : regKey q u ≠ regKey p o) : (s.setReg p o v).reg q u = s.reg q u := by
  simp [State.reg, kvGet_kvSet_ne _ _ _ h]
@[simp] theorem State.reg_setN_self (s : State) (p o v : Nat) : (s.setN p o v).reg p o = BitVec.ofNat 32 v := by simp [State.setN]
theorem State.reg_setN_ne (s : State) {p o q u : Nat} (v : Nat) (h : regKey q u ≠ regKey p o) : (s.setN p o v).reg q u = s.reg q u := by
  simp [State.setN, State.reg_setReg_ne _ _ h]
theorem State.regN_setN_self (s : State) (p o : Nat) {v : Nat} (h : v < 2 ^ 32) : (s.setN p o v).regN p o = v := by
  simp only [State.regN, State.reg_setN_self, BitVec.toNat_ofNat]; exact Nat.mod_eq_of_lt h
theorem State.regN_setN_ne (s : State) {p o q u : Nat} (v : Nat) (h : regKey q u ≠ regKey p o) : (s.setN p o v).regN q u = s.regN q u := by
  simp [State.regN, State.reg_setN_ne _ _ h]
theorem State.regN_lt (s : State) (p o : Nat) : s.regN p o < 2 ^ 32 := (s.reg p o).isLt
theorem satAdd32_lt (a b : Nat) : satAdd32 a b < 2 ^ 32 := by unfold satAdd32; omega
/-- A counter after a count: the saturating sum (R17). -/
theorem State.regN_bump_self (s : State) (p o n : Nat) : (s.bump p o n).regN p o = satAdd32 (s.regN p o) n := by
  unfold State.bump; exact State.regN_setN_self _ _ _ (satAdd32_lt _ _)
theorem State.regN_bump_ne (s : State) {p o q u : Nat} (n : Nat) (h : regKey q u ≠ regKey p o) : (s.bump p o n).regN q u = s.regN q u := by
  unfold State.bump; exact State.regN_setN_ne _ _ h

/-- A letter changes registers, letters, withheld counts and subscriptions only. -/
theorem State.pushLetter_shape (s : State) (q : Nat) (mk : Nat → Letter) :
    ∃ l u, s.pushLetter q mk = { s with letters := l, subs := u } := by
  unfold State.pushLetter
  split
  · exact ⟨s.letters, s.subs, rfl⟩
  · exact ⟨_, _, rfl⟩

theorem State.letters_shape (f : State → Nat → State) (hf : ∀ s q, ∃ l u, f s q = { s with letters := l, subs := u }) (qs : List Nat) (s : State) :
    ∃ l u, qs.foldl f s = { s with letters := l, subs := u } := by
  induction qs generalizing s with
  | nil => exact ⟨s.letters, s.subs, rfl⟩
  | cons q r ih =>
    obtain ⟨l, u, h⟩ := hf s q
    obtain ⟨l2, u2, h2⟩ := ih (f s q)
    exact ⟨l2, u2, by rw [List.foldl_cons, h2, h]⟩

/-- What an EVENT letter can change: SPV counters and event registers, and the letter tables. -/
theorem State.letter_shape (s : State) (p b st ti : Nat) :
    ∃ r l w u, s.letter p b st ti = { s with regs := r, letters := l, withheld := w, subs := u } ∧
      ∀ q o, regKey q o ≠ regKey pgSPV 0x074 → regKey q o ≠ regKey pgSPV 0x014 → regKey q o ≠ regKey pgSPV 0x020 → kvFind r (regKey q o) = kvFind s.regs (regKey q o) := by
  unfold State.letter
  split
  · dsimp only
    split
    · exact ⟨_, _, _, _, rfl, fun _ _ _ _ _ => rfl⟩
    · split
      · refine ⟨_, s.letters, _, s.subs, rfl, ?_⟩
        intro q o h1 h2 h3
        simp [State.bump, State.setN, State.setReg, kvFind_kvSet, h1, h2, h3]
      · obtain ⟨l, u, h⟩ := State.letters_shape _ (fun x q => State.pushLetter_shape x q _) (s.subscribers p) s
        exact ⟨_, l, _, u, h, fun _ _ _ _ _ => rfl⟩
  · exact ⟨_, _, _, _, rfl, fun _ _ _ _ _ => rfl⟩

theorem State.latchAt_shape (s : State) (p b st : Nat) :
    ∃ r l w u, s.latchAt p b st = { s with regs := r, letters := l, withheld := w, subs := u } := by
  obtain ⟨r, l, w, u, h, -⟩ := State.letter_shape (s.latchRaw p b) p b st (s.reg64 pgDTL 0x040)
  exact ⟨r, l, w, u, by rw [State.latchAt, h]; rfl⟩

/-- A latch leaves every register alone but the page's EVT_PEND and EVT_COUNT and three SPV registers (R441, R422). -/
theorem State.reg_latchAt (s : State) (p b st q o : Nat) (h : regKey q o ∉ [regKey p 0x014, regKey p 0x020, regKey pgSPV 0x074, regKey pgSPV 0x014, regKey pgSPV 0x020]) :
    (s.latchAt p b st).reg q o = s.reg q o := by
  simp only [List.mem_cons, List.not_mem_nil, or_false, not_or] at h
  obtain ⟨h1, h2, h3, h4, h5⟩ := h
  obtain ⟨r, l, w, u, he, hr⟩ := State.letter_shape (s.latchRaw p b) p b st (s.reg64 pgDTL 0x040)
  have hk := hr q o h3 h4 h5
  rw [State.latchAt, he]
  simp only [State.reg, kvGet] at *
  rw [hk]
  simp [State.latchRaw, State.bump, State.setN, State.setReg, kvFind_kvSet, h1, h2]

theorem State.reg_latch (s : State) (p b q o : Nat) (h : regKey q o ∉ [regKey p 0x014, regKey p 0x020, regKey pgSPV 0x074, regKey pgSPV 0x014, regKey pgSPV 0x020]) :
    (s.latch p b).reg q o = s.reg q o := State.reg_latchAt s p b _ q o h

/-- A latch sets the event's bit in EVT_PEND (R441). -/
theorem State.pend_latchAt (s : State) (p b st : Nat) (hp : p ≠ pgSPV) : (s.latchAt p b st).reg p 0x014 = s.reg p 0x014 ||| BitVec.ofNat 32 (2 ^ b) := by
  obtain ⟨r, l, w, u, he, hr⟩ := State.letter_shape (s.latchRaw p b) p b st (s.reg64 pgDTL 0x040)
  have hk := hr p 0x014 (by unfold regKey; omega) (by unfold regKey; omega) (by unfold regKey; omega)
  rw [State.latchAt, he]
  simp only [State.reg, kvGet] at *
  rw [hk]
  have : regKey p 0x014 ≠ regKey p 0x020 := by unfold regKey; omega
  simp [State.latchRaw, State.bump, State.setN, State.setReg, kvFind_kvSet, this, State.reg, kvGet]

@[simp] theorem State.latchAt_heldOld (s : State) (p b st : Nat) : (s.latchAt p b st).heldOld = s.heldOld := by obtain ⟨r, l, w, u, h⟩ := State.latchAt_shape s p b st; rw [h]
@[simp] theorem State.latch_heldOld (s : State) (p b : Nat) : (s.latch p b).heldOld = s.heldOld := State.latchAt_heldOld s p b _
@[simp] theorem State.latchErr_heldOld (s : State) (p b c lo hi : Nat) : (s.latchErr p b c lo hi).heldOld = s.heldOld := by simp [State.latchErr, State.setErr]
@[simp] theorem State.latchAt_captured (s : State) (p b st : Nat) : (s.latchAt p b st).captured = s.captured := by obtain ⟨r, l, w, u, h⟩ := State.latchAt_shape s p b st; rw [h]
@[simp] theorem State.latch_captured (s : State) (p b : Nat) : (s.latch p b).captured = s.captured := State.latchAt_captured s p b _
@[simp] theorem State.latchErr_captured (s : State) (p b c lo hi : Nat) : (s.latchErr p b c lo hi).captured = s.captured := by simp [State.latchErr, State.setErr]
@[simp] theorem State.latchAt_tiles (s : State) (p b st : Nat) : (s.latchAt p b st).tiles = s.tiles := by obtain ⟨r, l, w, u, h⟩ := State.latchAt_shape s p b st; rw [h]
@[simp] theorem State.latch_tiles (s : State) (p b : Nat) : (s.latch p b).tiles = s.tiles := State.latchAt_tiles s p b _
@[simp] theorem State.latchErr_tiles (s : State) (p b c lo hi : Nat) : (s.latchErr p b c lo hi).tiles = s.tiles := by simp [State.latchErr, State.setErr]
@[simp] theorem State.latchAt_dram (s : State) (p b st : Nat) : (s.latchAt p b st).dram = s.dram := by obtain ⟨r, l, w, u, h⟩ := State.latchAt_shape s p b st; rw [h]
@[simp] theorem State.latch_dram (s : State) (p b : Nat) : (s.latch p b).dram = s.dram := State.latchAt_dram s p b _
@[simp] theorem State.latchErr_dram (s : State) (p b c lo hi : Nat) : (s.latchErr p b c lo hi).dram = s.dram := by simp [State.latchErr, State.setErr]
@[simp] theorem State.latchAt_mem (s : State) (p b st : Nat) : (s.latchAt p b st).mem = s.mem := by obtain ⟨r, l, w, u, h⟩ := State.latchAt_shape s p b st; rw [h]
@[simp] theorem State.latch_mem (s : State) (p b : Nat) : (s.latch p b).mem = s.mem := State.latchAt_mem s p b _
@[simp] theorem State.latchErr_mem (s : State) (p b c lo hi : Nat) : (s.latchErr p b c lo hi).mem = s.mem := by simp [State.latchErr, State.setErr]
@[simp] theorem State.latchAt_par (s : State) (p b st : Nat) : (s.latchAt p b st).par = s.par := by obtain ⟨r, l, w, u, h⟩ := State.latchAt_shape s p b st; rw [h]
@[simp] theorem State.latch_par (s : State) (p b : Nat) : (s.latch p b).par = s.par := State.latchAt_par s p b _
@[simp] theorem State.latchErr_par (s : State) (p b c lo hi : Nat) : (s.latchErr p b c lo hi).par = s.par := by simp [State.latchErr, State.setErr]
@[simp] theorem State.latchAt_pgh (s : State) (p b st : Nat) : (s.latchAt p b st).pgh = s.pgh := by obtain ⟨r, l, w, u, h⟩ := State.latchAt_shape s p b st; rw [h]
@[simp] theorem State.latch_pgh (s : State) (p b : Nat) : (s.latch p b).pgh = s.pgh := State.latchAt_pgh s p b _
@[simp] theorem State.latchErr_pgh (s : State) (p b c lo hi : Nat) : (s.latchErr p b c lo hi).pgh = s.pgh := by simp [State.latchErr, State.setErr]
@[simp] theorem State.latchAt_sorters (s : State) (p b st : Nat) : (s.latchAt p b st).sorters = s.sorters := by obtain ⟨r, l, w, u, h⟩ := State.latchAt_shape s p b st; rw [h]
@[simp] theorem State.latch_sorters (s : State) (p b : Nat) : (s.latch p b).sorters = s.sorters := State.latchAt_sorters s p b _
@[simp] theorem State.latchErr_sorters (s : State) (p b c lo hi : Nat) : (s.latchErr p b c lo hi).sorters = s.sorters := by simp [State.latchErr, State.setErr]
@[simp] theorem State.latchAt_res (s : State) (p b st : Nat) : (s.latchAt p b st).res = s.res := by obtain ⟨r, l, w, u, h⟩ := State.latchAt_shape s p b st; rw [h]
@[simp] theorem State.latch_res (s : State) (p b : Nat) : (s.latch p b).res = s.res := State.latchAt_res s p b _
@[simp] theorem State.latchErr_res (s : State) (p b c lo hi : Nat) : (s.latchErr p b c lo hi).res = s.res := by simp [State.latchErr, State.setErr]
@[simp] theorem State.latchAt_spv (s : State) (p b st : Nat) : (s.latchAt p b st).spv = s.spv := by obtain ⟨r, l, w, u, h⟩ := State.latchAt_shape s p b st; rw [h]
@[simp] theorem State.latch_spv (s : State) (p b : Nat) : (s.latch p b).spv = s.spv := State.latchAt_spv s p b _
@[simp] theorem State.latchErr_spv (s : State) (p b c lo hi : Nat) : (s.latchErr p b c lo hi).spv = s.spv := by simp [State.latchErr, State.setErr]
@[simp] theorem State.latchAt_eth (s : State) (p b st : Nat) : (s.latchAt p b st).eth = s.eth := by obtain ⟨r, l, w, u, h⟩ := State.latchAt_shape s p b st; rw [h]
@[simp] theorem State.latch_eth (s : State) (p b : Nat) : (s.latch p b).eth = s.eth := State.latchAt_eth s p b _
@[simp] theorem State.latchErr_eth (s : State) (p b c lo hi : Nat) : (s.latchErr p b c lo hi).eth = s.eth := by simp [State.latchErr, State.setErr]
@[simp] theorem State.latchAt_col (s : State) (p b st : Nat) : (s.latchAt p b st).col = s.col := by obtain ⟨r, l, w, u, h⟩ := State.latchAt_shape s p b st; rw [h]
@[simp] theorem State.latch_col (s : State) (p b : Nat) : (s.latch p b).col = s.col := State.latchAt_col s p b _
@[simp] theorem State.latchErr_col (s : State) (p b c lo hi : Nat) : (s.latchErr p b c lo hi).col = s.col := by simp [State.latchErr, State.setErr]
@[simp] theorem State.latchAt_fmn (s : State) (p b st : Nat) : (s.latchAt p b st).fmn = s.fmn := by obtain ⟨r, l, w, u, h⟩ := State.latchAt_shape s p b st; rw [h]
@[simp] theorem State.latch_fmn (s : State) (p b : Nat) : (s.latch p b).fmn = s.fmn := State.latchAt_fmn s p b _
@[simp] theorem State.latchErr_fmn (s : State) (p b c lo hi : Nat) : (s.latchErr p b c lo hi).fmn = s.fmn := by simp [State.latchErr, State.setErr]
@[simp] theorem State.latchAt_num (s : State) (p b st : Nat) : (s.latchAt p b st).num = s.num := by obtain ⟨r, l, w, u, h⟩ := State.latchAt_shape s p b st; rw [h]
@[simp] theorem State.latch_num (s : State) (p b : Nat) : (s.latch p b).num = s.num := State.latchAt_num s p b _
@[simp] theorem State.latchErr_num (s : State) (p b c lo hi : Nat) : (s.latchErr p b c lo hi).num = s.num := by simp [State.latchErr, State.setErr]
@[simp] theorem State.latchAt_imp (s : State) (p b st : Nat) : (s.latchAt p b st).imp = s.imp := by obtain ⟨r, l, w, u, h⟩ := State.latchAt_shape s p b st; rw [h]
@[simp] theorem State.latch_imp (s : State) (p b : Nat) : (s.latch p b).imp = s.imp := State.latchAt_imp s p b _
@[simp] theorem State.latchErr_imp (s : State) (p b c lo hi : Nat) : (s.latchErr p b c lo hi).imp = s.imp := by simp [State.latchErr, State.setErr]
@[simp] theorem State.latchAt_fab (s : State) (p b st : Nat) : (s.latchAt p b st).fab = s.fab := by obtain ⟨r, l, w, u, h⟩ := State.latchAt_shape s p b st; rw [h]
@[simp] theorem State.latch_fab (s : State) (p b : Nat) : (s.latch p b).fab = s.fab := State.latchAt_fab s p b _
@[simp] theorem State.latchErr_fab (s : State) (p b c lo hi : Nat) : (s.latchErr p b c lo hi).fab = s.fab := by simp [State.latchErr, State.setErr]
@[simp] theorem State.latchAt_fencing (s : State) (p b st : Nat) : (s.latchAt p b st).fencing = s.fencing := by obtain ⟨r, l, w, u, h⟩ := State.latchAt_shape s p b st; rw [h]
@[simp] theorem State.latch_fencing (s : State) (p b : Nat) : (s.latch p b).fencing = s.fencing := State.latchAt_fencing s p b _
@[simp] theorem State.latchErr_fencing (s : State) (p b c lo hi : Nat) : (s.latchErr p b c lo hi).fencing = s.fencing := by simp [State.latchErr, State.setErr]
@[simp] theorem State.latchAt_sel (s : State) (p b st : Nat) : (s.latchAt p b st).sel = s.sel := by obtain ⟨r, l, w, u, h⟩ := State.latchAt_shape s p b st; rw [h]
@[simp] theorem State.latch_sel (s : State) (p b : Nat) : (s.latch p b).sel = s.sel := State.latchAt_sel s p b _
@[simp] theorem State.latchErr_sel (s : State) (p b c lo hi : Nat) : (s.latchErr p b c lo hi).sel = s.sel := by simp [State.latchErr, State.setErr]
@[simp] theorem State.latchAt_power (s : State) (p b st : Nat) : (s.latchAt p b st).power = s.power := by obtain ⟨r, l, w, u, h⟩ := State.latchAt_shape s p b st; rw [h]
@[simp] theorem State.latch_power (s : State) (p b : Nat) : (s.latch p b).power = s.power := State.latchAt_power s p b _
@[simp] theorem State.latchErr_power (s : State) (p b c lo hi : Nat) : (s.latchErr p b c lo hi).power = s.power := by simp [State.latchErr, State.setErr]
@[simp] theorem State.latchAt_dateline (s : State) (p b st : Nat) : (s.latchAt p b st).dateline = s.dateline := by obtain ⟨r, l, w, u, h⟩ := State.latchAt_shape s p b st; rw [h]
@[simp] theorem State.latch_dateline (s : State) (p b : Nat) : (s.latch p b).dateline = s.dateline := State.latchAt_dateline s p b _
@[simp] theorem State.latchErr_dateline (s : State) (p b c lo hi : Nat) : (s.latchErr p b c lo hi).dateline = s.dateline := by simp [State.latchErr, State.setErr]
@[simp] theorem State.latchAt_mgmt (s : State) (p b st : Nat) : (s.latchAt p b st).mgmt = s.mgmt := by obtain ⟨r, l, w, u, h⟩ := State.latchAt_shape s p b st; rw [h]
@[simp] theorem State.latch_mgmt (s : State) (p b : Nat) : (s.latch p b).mgmt = s.mgmt := State.latchAt_mgmt s p b _
@[simp] theorem State.latchErr_mgmt (s : State) (p b c lo hi : Nat) : (s.latchErr p b c lo hi).mgmt = s.mgmt := by simp [State.latchErr, State.setErr]
@[simp] theorem State.latchAt_pouches (s : State) (p b st : Nat) : (s.latchAt p b st).pouches = s.pouches := by obtain ⟨r, l, w, u, h⟩ := State.latchAt_shape s p b st; rw [h]
@[simp] theorem State.latch_pouches (s : State) (p b : Nat) : (s.latch p b).pouches = s.pouches := State.latchAt_pouches s p b _
@[simp] theorem State.latchErr_pouches (s : State) (p b c lo hi : Nat) : (s.latchErr p b c lo hi).pouches = s.pouches := by simp [State.latchErr, State.setErr]
@[simp] theorem State.latchAt_tap (s : State) (p b st : Nat) : (s.latchAt p b st).tap = s.tap := by obtain ⟨r, l, w, u, h⟩ := State.latchAt_shape s p b st; rw [h]
@[simp] theorem State.latch_tap (s : State) (p b : Nat) : (s.latch p b).tap = s.tap := State.latchAt_tap s p b _
@[simp] theorem State.latchErr_tap (s : State) (p b c lo hi : Nat) : (s.latchErr p b c lo hi).tap = s.tap := by simp [State.latchErr, State.setErr]
@[simp] theorem State.latchAt_answer (s : State) (p b st : Nat) : (s.latchAt p b st).answer = s.answer := by obtain ⟨r, l, w, u, h⟩ := State.latchAt_shape s p b st; rw [h]
@[simp] theorem State.latch_answer (s : State) (p b : Nat) : (s.latch p b).answer = s.answer := State.latchAt_answer s p b _
@[simp] theorem State.latchErr_answer (s : State) (p b c lo hi : Nat) : (s.latchErr p b c lo hi).answer = s.answer := by simp [State.latchErr, State.setErr]
@[simp] theorem State.latchAt_readData (s : State) (p b st : Nat) : (s.latchAt p b st).readData = s.readData := by obtain ⟨r, l, w, u, h⟩ := State.latchAt_shape s p b st; rw [h]
@[simp] theorem State.latch_readData (s : State) (p b : Nat) : (s.latch p b).readData = s.readData := State.latchAt_readData s p b _
@[simp] theorem State.latchErr_readData (s : State) (p b c lo hi : Nat) : (s.latchErr p b c lo hi).readData = s.readData := by simp [State.latchErr, State.setErr]
@[simp] theorem State.latchAt_serial (s : State) (p b st : Nat) : (s.latchAt p b st).serial = s.serial := by obtain ⟨r, l, w, u, h⟩ := State.latchAt_shape s p b st; rw [h]
@[simp] theorem State.latch_serial (s : State) (p b : Nat) : (s.latch p b).serial = s.serial := State.latchAt_serial s p b _
@[simp] theorem State.latchErr_serial (s : State) (p b c lo hi : Nat) : (s.latchErr p b c lo hi).serial = s.serial := by simp [State.latchErr, State.setErr]
@[simp] theorem State.latchAt_freeCtr (s : State) (p b st : Nat) : (s.latchAt p b st).freeCtr = s.freeCtr := by obtain ⟨r, l, w, u, h⟩ := State.latchAt_shape s p b st; rw [h]
@[simp] theorem State.latch_freeCtr (s : State) (p b : Nat) : (s.latch p b).freeCtr = s.freeCtr := State.latchAt_freeCtr s p b _
@[simp] theorem State.latchErr_freeCtr (s : State) (p b c lo hi : Nat) : (s.latchErr p b c lo hi).freeCtr = s.freeCtr := by simp [State.latchErr, State.setErr]
@[simp] theorem State.latchAt_pending (s : State) (p b st : Nat) : (s.latchAt p b st).pending = s.pending := by obtain ⟨r, l, w, u, h⟩ := State.latchAt_shape s p b st; rw [h]
@[simp] theorem State.latch_pending (s : State) (p b : Nat) : (s.latch p b).pending = s.pending := State.latchAt_pending s p b _
@[simp] theorem State.latchErr_pending (s : State) (p b c lo hi : Nat) : (s.latchErr p b c lo hi).pending = s.pending := by simp [State.latchErr, State.setErr]

end Sys2Proof.Machine
end

