-- ==== Sys2Proof/Laws/StillRegs.lean ====
section
/-! SUPPORT. What the operations of State, Regs, Flags, Ops, FabricTypes, ForemanTypes, Fabric, Link, Base leave alone: each keeps `State.still` (cite these lemmas instead of unfolding an operation). -/

namespace Sys2Proof.Machine

/-- What most of the machine never touches: the fuses, the firmware images, the TAP, the queue, and three wires of the power side. -/
structure Still where
  fuses : Fuses
  images : AMap Bytes
  tap : TapIns
  pending : List Instr
  good : Bool
  strap : Nat
  thermN : Bool

/-- Those fields of a state. -/
def State.still (s : State) : Still := ⟨s.sel.fuses, s.sel.images, s.tap, s.pending, s.power.good, s.power.strap, s.power.thermN⟩

@[simp] theorem still_mk regs heldOld captured tiles dram mem par pgh sorters res spv eth col subs letters withheld fmn num imp fab fencing sel power dateline mgmt pouches tap answer readData serial freeCtr pending : State.still (State.mk regs heldOld captured tiles dram mem par pgh sorters res spv eth col subs letters withheld fmn num imp fab fencing sel power dateline mgmt pouches tap answer readData serial freeCtr pending) = Still.mk sel.fuses sel.images tap pending power.good power.strap power.thermN := of_eq_true (eq_self _)

@[simp] theorem still_fold (s : State) : Still.mk s.sel.fuses s.sel.images s.tap s.pending s.power.good s.power.strap s.power.thermN = s.still := of_eq_true (eq_self _)

@[simp] theorem still_ite (c : Prop) [Decidable c] (a b : State) : (if c then a else b).still = if c then a.still else b.still := by split <;> rfl

@[simp] theorem still_foldl {α : Type} (g : State → α → State) (l : List α) (s : State) (h : ∀ x a, (g x a).still = x.still) : (l.foldl g s).still = s.still := by
  induction l generalizing s with
  | nil => rfl
  | cons a r ih => simp only [List.foldl_cons, ih, h]

/-- The next state of an outcome; `d` where there is none. -/
def stateOf (o : Host.Outcome State Fault Refusal) (d : State) : State := match o with | .next t => t | _ => d

@[simp] theorem stateOf_next (t d : State) : stateOf (.next t) d = t := rfl

@[simp] theorem still_foldl_fst {α β : Type} (g : State × β → α → State × β) (l : List α) (s : State × β) (h : ∀ x a, (g x a).1.still = x.1.still) : (l.foldl g s).1.still = s.1.still := by
  induction l generalizing s with
  | nil => rfl
  | cons a r ih => simp only [List.foldl_cons, ih, h]

@[simp] theorem still_foldl_snd {α β : Type} (g : β × State → α → β × State) (l : List α) (s : β × State) (h : ∀ x a, (g x a).2.still = x.2.still) : (l.foldl g s).2.still = s.2.still := by
  induction l generalizing s with
  | nil => rfl
  | cons a r ih => simp only [List.foldl_cons, ih, h]

@[simp] theorem still_foldl_thd {α β γ : Type} (g : β × γ × State → α → β × γ × State) (l : List α) (s : β × γ × State) (h : ∀ x a, (g x a).2.2.still = x.2.2.still) : (l.foldl g s).2.2.still = s.2.2.still := by
  induction l generalizing s with
  | nil => rfl
  | cons a r ih => simp only [List.foldl_cons, ih, h]

@[simp] theorem State.setReg_still (s : State) (page off : Nat) (v : Word) : (State.setReg s page off v).still = s.still := by
  unfold State.setReg; simp

@[simp] theorem State.setN_still (s : State) (page off v : Nat) : (State.setN s page off v).still = s.still := by
  unfold State.setN; simp

@[simp] theorem State.set64_still (s : State) (page off v : Nat) : (State.set64 s page off v).still = s.still := by
  unfold State.set64; simp

@[simp] theorem State.bump_still (s : State) (page off n : Nat) : (State.bump s page off n).still = s.still := by
  unfold State.bump; simp

@[simp] theorem State.bump64_still (s : State) (page off n : Nat) : (State.bump64 s page off n).still = s.still := by
  unfold State.bump64; simp

@[simp] theorem State.setField_still (s : State) (page off lo len v : Nat) : (State.setField s page off lo len v).still = s.still := by
  unfold State.setField; simp

@[simp] theorem State.pushLetter_still (s : State) (q : Nat) (mk : Nat → Letter) : (State.pushLetter s q mk).still = s.still := by
  unfold State.pushLetter; split <;> simp

@[simp] theorem State.latchRaw_still (s : State) (page bit : Nat) : (State.latchRaw s page bit).still = s.still := by
  unfold State.latchRaw; simp

@[simp] theorem State.letter_still (s : State) (page bit step time : Nat) : (State.letter s page bit step time).still = s.still := by
  unfold State.letter; simp

@[simp] theorem State.latchAt_still (s : State) (page bit step : Nat) : (State.latchAt s page bit step).still = s.still := by
  unfold State.latchAt; simp

@[simp] theorem State.latch_still (s : State) (page bit : Nat) : (State.latch s page bit).still = s.still := by
  unfold State.latch; simp

@[simp] theorem State.setErr_still (s : State) (page code lo hi : Nat) : (State.setErr s page code lo hi).still = s.still := by
  unfold State.setErr; simp

@[simp] theorem State.latchErr_still (s : State) (page bit code lo hi : Nat) : (State.latchErr s page bit code lo hi).still = s.still := by
  unfold State.latchErr; simp

@[simp] theorem State.stateEvent_still (s : State) (page bit : Nat) (holds : Bool) : (State.stateEvent s page bit holds).still = s.still := by
  unfold State.stateEvent; simp

@[simp] theorem State.setTile_still (s : State) (p : Nat) (t : Tile) : (State.setTile s p t).still = s.still := by
  unfold State.setTile; simp

@[simp] theorem State.modTile_still (s : State) (p : Nat) (f : Tile → Tile) : (State.modTile s p f).still = s.still := by
  unfold State.modTile; simp

@[simp] theorem State.setDom_still (s : State) (d v : Nat) : (State.setDom s d v).still = s.still := by
  unfold State.setDom; simp

@[simp] theorem State.fresh_still (s : State) : (State.fresh s).2.still = s.still := by
  unfold State.fresh; simp

@[simp] theorem State.caseErrors_still (s : State) (p : Nat) (errs : List CaseErr) : (State.caseErrors s p errs).still = s.still := by
  unfold State.caseErrors; simp

@[simp] theorem State.send_still (s : State) (p : Packet) (org : Origin) : (State.send s p org).still = s.still := by
  unfold State.send; simp

@[simp] theorem State.selfReply_still (s : State) (p : Packet) (org : Origin) (status : Nat) (data : Bytes) : (State.selfReply s p org status data).still = s.still := by
  unfold State.selfReply; simp

@[simp] theorem State.recordStatus_still (s : State) (src lane tag status : Nat) : (State.recordStatus s src lane tag status).still = s.still := by
  unfold State.recordStatus; simp

@[simp] theorem State.reply_still (s : State) (d : OutPkt) (status : Nat) (data : Bytes) : (State.reply s d status data).still = s.still := by
  unfold State.reply; simp

@[simp] theorem State.rteErr_still (s : State) (bit code : Nat) (p : Packet) : (State.rteErr s bit code p).still = s.still := by
  unfold State.rteErr; simp

@[simp] theorem State.pmkMessage_still (s : State) (u value : Nat) : (State.pmkMessage s u value).still = s.still := by
  unfold State.pmkMessage; simp

@[simp] theorem State.aliveTick_still (s : State) (u : Nat) : (State.aliveTick s u).still = s.still := by
  unfold State.aliveTick; simp

@[simp] theorem State.aliveHalf_still (s : State) (u : Nat) (out : Bool) : (State.aliveHalf s u out).still = s.still := by
  unfold State.aliveHalf; simp

@[simp] theorem State.pmkCheck_still (s : State) (u result : Nat) (ok : Bool) (info : Nat) : (State.pmkCheck s u result ok info).still = s.still := by
  unfold State.pmkCheck; simp

@[simp] theorem State.enterRouter_still (s : State) (p : Packet) : (State.enterRouter s p).still = s.still := by
  unfold State.enterRouter; simp

@[simp] theorem State.enterTagged_still (s : State) (o : OutPkt) : (State.enterTagged s o).still = s.still := by
  unfold State.enterTagged; simp

@[simp] theorem State.inject_still (s : State) (i : Nat) : (State.inject s i).still = s.still := by
  unfold State.inject; split <;> simp

@[simp] theorem State.setPort_still (s : State) (p : Nat) (v : Port) : (State.setPort s p v).still = s.still := by
  unfold State.setPort; simp

@[simp] theorem State.freeCredit_still (s : State) (r : InRouter) : (State.freeCredit s r).still = s.still := by
  unfold State.freeCredit; simp

@[simp] theorem State.pathDrop_still (s : State) (r : InRouter) : (State.pathDrop s r).still = s.still := by
  unfold State.pathDrop; dsimp only; (repeat' split) <;> simp

@[simp] theorem State.forwardOne_still (s : State) : (State.forwardOne s).still = s.still := by
  unfold State.forwardOne; dsimp only; (repeat' split) <;> simp

@[simp] theorem State.deliver_still (s : State) (p : Packet) : (State.deliver s p).still = s.still := by
  unfold State.deliver; simp

@[simp] theorem State.accept_still (s : State) (p : Packet) : (State.accept s p).still = s.still := by
  unfold State.accept; dsimp only; (repeat' split) <;> simp

@[simp] theorem State.countStall_still (s : State) : (State.countStall s).still = s.still := by
  unfold State.countStall; (repeat' split) <;> simp

@[simp] theorem State.ejectAt_still (s : State) (i : Nat) (r : InRouter) : (State.ejectAt s i r).still = s.still := by
  unfold State.ejectAt; dsimp only; (repeat' split) <;> simp

@[simp] theorem State.ejectOne_still (s : State) : (State.ejectOne s).still = s.still := by
  unfold State.ejectOne; dsimp only; (repeat' split) <;> simp

@[simp] theorem State.resendAll_still (s : State) (chip lane : Nat) : (State.resendAll s chip lane).still = s.still := by
  unfold State.resendAll; simp

@[simp] theorem State.e2eFail_still (s : State) (chip lane : Nat) : (State.e2eFail s chip lane).still = s.still := by
  unfold State.e2eFail; split <;> simp

theorem State.takeArrived_some {s t : State} {f : Packet → Bool} {o : OutPkt} (h : s.takeArrived f = some (o, t)) : t.still = s.still := by
  unfold State.takeArrived at h
  (repeat' split at h) <;> simp_all
  obtain ⟨-, rfl⟩ := h
  simp

@[simp] theorem State.laneFault_still (s : State) (p : Nat) : (State.laneFault s p).still = s.still := by
  unfold State.laneFault; simp [State.setLink]

@[simp] theorem State.startResend_still (s : State) (p : Nat) : (State.startResend s p).still = s.still := by
  unfold State.startResend; simp

@[simp] theorem State.takeNak_still (s : State) (p : Nat) (lack : Nat) : (State.takeNak s p lack).still = s.still := by
  unfold State.takeNak; simp

@[simp] theorem State.takeData_still (s : State) (p : Nat) (f : Flit) : (State.takeData s p f).still = s.still := by
  unfold State.takeData; simp

@[simp] theorem State.takeControl_still (s : State) (p : Nat) (f : Flit) : (State.takeControl s p f).still = s.still := by
  unfold State.takeControl; simp

@[simp] theorem State.countFec_still (s : State) (p : Nat) (c : FecCount) : (State.countFec s p c).still = s.still := by
  unfold State.countFec; (try dsimp only); (repeat' split) <;> simp

@[simp] theorem State.countShorts_still (s : State) (p : Nat) : (State.countShorts s p).still = s.still := by
  unfold State.countShorts; (try dsimp only); (repeat' split) <;> simp

@[simp] theorem State.badFlit_still (s : State) (p : Nat) : (State.badFlit s p).still = s.still := by
  unfold State.badFlit; simp

@[simp] theorem State.flitGone_still (s : State) (p : Nat) (f : Flit) : (State.flitGone s p f).still = s.still := by
  unfold State.flitGone; simp

@[simp] theorem State.setLink_still (s : State) (p v : Nat) : (State.setLink s p v).still = s.still := by
  unfold State.setLink; simp

@[simp] theorem State.linkNone_still (s : State) (p code chip : Nat) : (State.linkNone s p code chip).still = s.still := by
  unfold State.linkNone; simp

@[simp] theorem State.portDown_still (s : State) (p code chip : Nat) : (State.portDown s p code chip).still = s.still := by
  unfold State.portDown; simp

@[simp] theorem State.retrain_still (s : State) (p : Nat) : (State.retrain s p).still = s.still := by
  unfold State.retrain; simp

@[simp] theorem State.unmapped_still (s : State) (space off src : Nat) : (State.unmapped s space off src).still = s.still := by
  unfold State.unmapped; simp

@[simp] theorem State.sendSlice_still (s : State) (dst kind step attempt : Nat) (rest : Bytes) : (State.sendSlice s dst kind step attempt rest).still = s.still := by
  unfold State.sendSlice; simp

@[simp] theorem State.sendSliceAll_still (s : State) (dsts : List Nat) (kind step attempt : Nat) (rest : Bytes) : (State.sendSliceAll s dsts kind step attempt rest).still = s.still := by
  unfold State.sendSliceAll; simp

@[simp] theorem State.fenceFor_still (s : State) (cause : Nat) : (State.fenceFor s cause).still = s.still := by
  unfold State.fenceFor; simp

@[simp] theorem State.markTile_still (s : State) (p : Nat) : (State.markTile s p).still = s.still := by
  unfold State.markTile; dsimp only; (repeat' split) <;> simp

@[simp] theorem State.setSel_still (s : State) (f : Seal → Seal) (h : (f s.sel).fuses = s.sel.fuses) (h2 : (f s.sel).images = s.sel.images) : (s.setSel f).still = s.still := by
  simp [State.setSel, h, h2]

@[simp] theorem State.ledgerUpdate_still (s : State) (off : Nat) (bs : Bytes) : (State.ledgerUpdate s off bs).still = s.still := by
  unfold State.ledgerUpdate; simp

@[simp] theorem State.lifeAdd_still (s : State) (i n : Nat) : (State.lifeAdd s i n).still = s.still := by
  unfold State.lifeAdd; simp

@[simp] theorem State.modStep_still (s : State) (n : Nat) (f : StepRec → StepRec) : (State.modStep s n f).still = s.still := by
  unfold State.modStep; simp

@[simp] theorem State.setMod_still (s : State) (m : ModState) : (State.setMod s m).still = s.still := by
  unfold State.setMod; simp

@[simp] theorem State.ovfSource_still (s : State) (n bit : Nat) : (State.ovfSource s n bit).still = s.still := by
  unfold State.ovfSource; simp

@[simp] theorem State.askAbort_still (s : State) (n cause : Nat) : (State.askAbort s n cause).still = s.still := by
  unfold State.askAbort; simp

@[simp] theorem State.caseUE_still (s : State) (p : Nat) : (State.caseUE s p).still = s.still := by
  unfold State.caseUE; simp

end Sys2Proof.Machine
end

