-- ==== Sys2Proof/Laws/StillNum.lean ====
section
/-! SUPPORT. What the operations of Num, MemTypes, Gf, Dram, ParamTypes, Rows, HostTypes, Params, Inkers leave alone: each keeps `State.still`. -/

namespace Sys2Proof.Machine

@[simp] theorem State.modChan_still (s : State) (c : Nat) (f : Chan → Chan) : (State.modChan s c f).still = s.still := by
  unfold State.modChan; simp

@[simp] theorem State.lineRead_still (s : State) (off : Nat) : (State.lineRead s off).still = s.still := by
  unfold State.lineRead; simp

@[simp] theorem State.linePoison_still (s : State) (off : Nat) : (State.linePoison s off).still = s.still := by
  unfold State.linePoison; simp

@[simp] theorem State.lineLoad_still (s : State) (off : Nat) : (State.lineLoad s off).still = s.still := by
  unfold State.lineLoad; (repeat' split) <;> simp

@[simp] theorem State.dramLoad_still (s : State) (off n : Nat) : (State.dramLoad s off n).2.2.still = s.still := by
  unfold State.dramLoad; simp

@[simp] theorem State.dramSeen_still (s : State) (off n : Nat) : (State.dramSeen s off n).still = s.still := by
  unfold State.dramSeen; simp

@[simp] theorem State.addRepair_still (s : State) (c row : Nat) : (State.addRepair s c row).still = s.still := by
  unfold State.addRepair; simp

@[simp] theorem State.rowError_still (s : State) (c coff : Nat) (ue : Bool) : (State.rowError s c coff ue).still = s.still := by
  unfold State.rowError; simp

@[simp] theorem State.poisonLine_still (s : State) (off code : Nat) : (State.poisonLine s off code).still = s.still := by
  unfold State.poisonLine; simp

@[simp] theorem State.linePut_still (s : State) (off : Nat) (bs : Bytes) : (State.linePut s off bs).1.still = s.still := by
  unfold State.linePut; (repeat' split) <;> simp

@[simp] theorem State.lineWrite_still (s : State) (off : Nat) (bs : Bytes) : (State.lineWrite s off bs).1.still = s.still := by
  unfold State.lineWrite; (repeat' split) <;> simp

@[simp] theorem State.dramStore_still (s : State) (off : Nat) (bs : Bytes) : (State.dramStore s off bs).1.still = s.still := by
  unfold State.dramStore; simp

@[simp] theorem State.lineDecode_still (s : State) (off : Nat) (errs : List (Nat × BitVec 8)) (code : Nat) : (State.lineDecode s off errs code).still = s.still := by
  unfold State.lineDecode; dsimp only; split <;> simp

@[simp] theorem State.scrubNext_still (s : State) (m : Nat) (errs : List (Nat × BitVec 8)) : (State.scrubNext s m errs).still = s.still := by
  unfold State.scrubNext; simp

@[simp] theorem State.scrubEnd_still (s : State) (m : Nat) (late : Bool) : (State.scrubEnd s m late).still = s.still := by
  unfold State.scrubEnd; simp

@[simp] theorem State.chanLoad_still (s : State) (ch coff n : Nat) : (State.chanLoad s ch coff n).2.2.still = s.still := by
  unfold State.chanLoad; simp

@[simp] theorem State.chanSeen_still (s : State) (ch coff n : Nat) : (State.chanSeen s ch coff n).still = s.still := by
  unfold State.chanSeen; simp

@[simp] theorem State.chanStore_still (s : State) (ch coff : Nat) (bs : Bytes) : (State.chanStore s ch coff bs).1.still = s.still := by
  unfold State.chanStore; simp

@[simp] theorem State.chanZero_still (s : State) (ch coff n : Nat) : (State.chanZero s ch coff n).still = s.still := by
  unfold State.chanZero; simp

@[simp] theorem State.sendDeltas_still (s : State) (ink ch coff : Nat) (old new : Bytes) (held : Bool) (step att serial : Nat) : (State.sendDeltas s ink ch coff old new held step att serial).1.still = s.still := by
  unfold State.sendDeltas
  split
  · rfl
  · refine still_foldl_fst _ _ _ fun _ _ => still_foldl_fst _ _ _ fun _ _ => ?_
    split <;> simp

@[simp] theorem State.winPut_still (s : State) (ch coff : Nat) (bs : Bytes) : (State.winPut s ch coff bs).1.still = s.still := by
  unfold State.winPut; simp

@[simp] theorem State.dramWindow_still (s : State) (ink off : Nat) (bs : Bytes) (held : Option Item) : (State.dramWindow s ink off bs held).1.still = s.still := by
  unfold State.dramWindow; dsimp only; split <;> simp

@[simp] theorem State.dramKeep_still (s : State) (off : Nat) (bs : Bytes) : (State.dramKeep s off bs).1.still = s.still := by
  unfold State.dramKeep; dsimp only; (repeat' split) <;> simp

@[simp] theorem State.dramPut_still (s : State) (off : Nat) (bs : Bytes) : (State.dramPut s off bs).still = s.still := by
  unfold State.dramPut; simp

@[simp] theorem State.writeRecord_still (s : State) (r : ScaleRec) : (State.writeRecord s r).still = s.still := by
  unfold State.writeRecord; simp

@[simp] theorem State.putRecord_still (s : State) (r : ScaleRec) : (State.putRecord s r).still = s.still := by
  unfold State.putRecord; simp

@[simp] theorem State.moveRecords_still (s : State) : (State.moveRecords s).still = s.still := by
  unfold State.moveRecords; refine still_foldl _ _ _ fun _ _ => ?_; (repeat' split) <;> simp

@[simp] theorem State.trimHistories_still (s : State) : (State.trimHistories s).still = s.still := by
  unfold State.trimHistories; simp

@[simp] theorem State.lsOnDecision_still (s : State) (d : Verdict) (k : Int) (ovf : Nat) : (State.lsOnDecision s d k ovf).still = s.still := by
  unfold State.lsOnDecision; (repeat' split) <;> simp

@[simp] theorem State.appendHistories_still (s : State) (r : ScaleRec) (hist : AMap (AMap Nat)) : (State.appendHistories s r hist).still = s.still := by
  unfold State.appendHistories
  split
  · rfl
  · refine still_foldl _ _ _ fun _ _ => ?_
    dsimp only
    (repeat' split) <;> simp

@[simp] theorem State.silentMonitor_still (s : State) (hist : AMap (AMap Nat)) : (State.silentMonitor s hist).1.still = s.still := by
  unfold State.silentMonitor; dsimp only; (repeat' split) <;> simp

@[simp] theorem State.numLatest_still (s : State) (n : Nat) (d : DecMsg) : (State.numLatest s n d).still = s.still := by
  unfold State.numLatest; simp

@[simp] theorem State.numDecide_still (s : State) (r : StepRec) (d : DecMsg) : (State.numDecide s r d).1.still = s.still := by
  unfold State.numDecide; split <;> simp

@[simp] theorem State.numCfgErr_still (s : State) : (State.numCfgErr s).still = s.still := by
  unfold State.numCfgErr; simp

@[simp] theorem State.ttSelect_still (s : State) (i : Nat) : (State.ttSelect s i).still = s.still := by
  unfold State.ttSelect; simp

@[simp] theorem State.ttCommit_still (s : State) : (State.ttCommit s).still = s.still := by
  unfold State.ttCommit; simp

@[simp] theorem State.ttPlace_still (s : State) : (State.ttPlace s).still = s.still := by
  unfold State.ttPlace; simp

@[simp] theorem State.lsLoad_still (s : State) : (State.lsLoad s).still = s.still := by
  unfold State.lsLoad; simp

@[simp] theorem State.modInker_still (s : State) (i : Nat) (f : Inker → Inker) : (State.modInker s i f).still = s.still := by
  unfold State.modInker; simp

@[simp] theorem State.setPar_still (s : State) (f : Params → Params) : (State.setPar s f).still = s.still := by
  unfold State.setPar; simp

@[simp] theorem State.ethSend_still (s : State) (o : EthOut) : (State.ethSend s o).still = s.still := by
  unfold State.ethSend; simp

@[simp] theorem State.pushOp_still (s : State) (i : Nat) (o : RowOp) : (State.pushOp s i o).still = s.still := by
  unfold State.pushOp; simp

@[simp] theorem State.takeSnapshots_still (s : State) (n : Nat) : (State.takeSnapshots s n).still = s.still := by
  unfold State.takeSnapshots; simp

@[simp] theorem State.writeSlot_still (s : State) (t : Table) (ink h i : Nat) (x : DSlot) : (State.writeSlot s t ink h i x).still = s.still := by
  unfold State.writeSlot; simp

@[simp] theorem State.clearHalf_still (s : State) (h : Nat) : (State.clearHalf s h).still = s.still := by
  unfold State.clearHalf; simp

@[simp] theorem State.ownHalf_still (s : State) (n : Nat) : (State.ownHalf s n).still = s.still := by
  unfold State.ownHalf; simp

@[simp] theorem State.modPut_still (s : State) (f : Nat) (g : PutFolio → PutFolio) : (State.modPut s f g).still = s.still := by
  unfold State.modPut; simp

@[simp] theorem State.sendBack_still (s : State) (t : Table) (b : Writeback) : (State.sendBack s t b).still = s.still := by
  unfold State.sendBack; simp

@[simp] theorem State.writeTag_still (s : State) (f slot : Nat) : (State.writeTag s f slot).still = s.still := by
  unfold State.writeTag; (repeat' split) <;> simp

@[simp] theorem State.modCache_still (s : State) (f : Nat) (g : Pgh → Pgh) : (State.modCache s f g).still = s.still := by
  unfold State.modCache; simp

@[simp] theorem State.pghGen_still (s : State) (f : Nat) : (State.pghGen s f).still = s.still := by
  unfold State.pghGen; simp

@[simp] theorem State.fillReply_still (s : State) (filler status : Nat) (img : Bytes) : (State.fillReply s filler status img).still = s.still := by
  unfold State.fillReply; simp

@[simp] theorem State.dropWays_still (s : State) (c : Nat) (f : Way → Bool) : (State.dropWays s c f).still = s.still := by
  unfold State.dropWays; simp

@[simp] theorem State.pghDrop_still (s : State) (f : Way → Bool) : (State.pghDrop s f).still = s.still := by
  unfold State.pghDrop; simp

@[simp] theorem State.pghInvalidate_still (s : State) : (State.pghInvalidate s).still = s.still := by
  unfold State.pghInvalidate; simp

@[simp] theorem State.pghNofill_still (s : State) (f : List Nat → List Nat) : (State.pghNofill s f).still = s.still := by
  unfold State.pghNofill; simp

@[simp] theorem State.setEdn_still (s : State) (x : Shard) (b v : Nat) : (State.setEdn s x b v).still = s.still := by
  unfold State.setEdn; simp

@[simp] theorem State.setBuf_still (s : State) (x : Shard) (b st : Nat) : (State.setBuf s x b st).still = s.still := by
  unfold State.setBuf; simp

@[simp] theorem State.publishBuf_still (s : State) (x : Shard) (b : Nat) : (State.publishBuf s x b).still = s.still := by
  unfold State.publishBuf; dsimp only; (repeat' split) <;> simp

@[simp] theorem State.publishShard_still (s : State) (x : Shard) (st : Nat) : (State.publishShard s x st).still = s.still := by
  unfold State.publishShard; (repeat' split) <;> simp

@[simp] theorem State.publishAll_still (s : State) (st : Nat) : (State.publishAll s st).still = s.still := by
  unfold State.publishAll; simp

@[simp] theorem State.noteEdition_still (s : State) (e : Nat) : (State.noteEdition s e).still = s.still := by
  unfold State.noteEdition; simp

@[simp] theorem State.nextSerial_still (s : State) : (State.nextSerial s).2.still = s.still := by
  unfold State.nextSerial; simp

@[simp] theorem State.buildItems_still (s : State) (n : Nat) : (State.buildItems s n).still = s.still := by
  unfold State.buildItems; simp

@[simp] theorem State.modItem_still (s : State) (ser : Nat) (f : Item → Item) : (State.modItem s ser f).still = s.still := by
  unfold State.modItem; simp

@[simp] theorem State.endItem_still (s : State) (it : Item) (k : Nat) : (State.endItem s it k).still = s.still := by
  unfold State.endItem; simp

@[simp] theorem State.failItem_still (s : State) (it : Item) : (State.failItem s it).still = s.still := by
  unfold State.failItem; simp

@[simp] theorem State.freeSlot_still (s : State) (t : Table) (ink h i : Nat) : (State.freeSlot s t ink h i).still = s.still := by
  unfold State.freeSlot; simp

@[simp] theorem State.ownJrn_still (s : State) (n : Nat) : (State.ownJrn s n).still = s.still := by
  unfold State.ownJrn; simp

@[simp] theorem State.touchPromo_still (s : State) (t : Table) (ink l : Nat) : (State.touchPromo s t ink l).still = s.still := by
  unfold State.touchPromo; simp

@[simp] theorem State.countBad_still (s : State) (ink : Nat) (x : DSlot) : (State.countBad s ink x).still = s.still := by
  unfold State.countBad; simp

@[simp] theorem State.countNonFin_still (s : State) (ink n : Nat) (bad : Bool) : (State.countNonFin s ink n bad).still = s.still := by
  unfold State.countNonFin; simp

@[simp] theorem State.commitRow_still (s : State) (t : Table) (it : Item) : (State.commitRow s t it).still = s.still := by
  unfold State.commitRow; dsimp only; split <;> simp

@[simp] theorem State.commitShard_still (s : State) (t : Table) (x : Shard) (it : Item) (b : Nat) : (State.commitShard s t x it b).still = s.still := by
  unfold State.commitShard; dsimp only; (repeat' split) <;> simp

@[simp] theorem State.modEnt_still (s : State) (f slot : Nat) (g : PutEnt → PutEnt) : (State.modEnt s f slot g).still = s.still := by
  unfold State.modEnt; simp

@[simp] theorem State.commitPut_still (s : State) (t : Table) (it : Item) (e : PutEnt) : (State.commitPut s t it e).still = s.still := by
  unfold State.commitPut; simp

@[simp] theorem State.runItem_still (s : State) (it : Item) : (State.runItem s it).still = s.still := by
  unfold State.runItem; (repeat' split) <;> simp

@[simp] theorem State.restoreEntry_still (s : State) (t : Table) (ink jat size n : Nat) : (State.restoreEntry s t ink jat size n).1.still = s.still := by
  unfold State.restoreEntry; dsimp only; (repeat' split) <;> simp

@[simp] theorem State.restoreJrn_still (s : State) (ink n : Nat) : (State.restoreJrn s ink n).1.still = s.still := by
  unfold State.restoreJrn
  split
  · rfl
  · refine still_foldl_fst _ _ _ fun _ _ => ?_
    split <;> exact still_foldl_fst _ _ _ fun _ _ => by simp

@[simp] theorem State.restoreImage_still (s : State) (f : Nat) (e : Nat × PutEnt) : (State.restoreImage s f e).still = s.still := by
  unfold State.restoreImage; split <;> simp

@[simp] theorem State.restorePuts_still (s : State) (ink n : Nat) : (State.restorePuts s ink n).still = s.still := by
  unfold State.restorePuts; simp

@[simp] theorem State.restoreShards_still (s : State) (ink n : Nat) : (State.restoreShards s ink n).still = s.still := by
  unfold State.restoreShards; simp

@[simp] theorem State.restoreInk_still (s : State) (ink n : Nat) : (State.restoreInk s ink n).1.still = s.still := by
  unfold State.restoreInk; simp

@[simp] theorem State.freeEnts_still (s : State) (f : Nat) : (State.freeEnts s f).still = s.still := by
  unfold State.freeEnts; simp

@[simp] theorem State.lookupDone_still (s : State) (sorter id status path : Nat) (data : Bytes) : (State.lookupDone s sorter id status path data).still = s.still := by
  unfold State.lookupDone; simp

@[simp] theorem State.answerOp_still (s : State) (o : RowOp) (status : Nat) (data : Bytes) (tier : Bool) : (State.answerOp s o status data tier).still = s.still := by
  unfold State.answerOp; split <;> simp

@[simp] theorem State.forwardOp_still (s : State) (i : Nat) (m : Mig) (o : RowOp) : (State.forwardOp s i m o).still = s.still := by
  unfold State.forwardOp; simp

@[simp] theorem State.takeOp_still (s : State) (ink i : Nat) : (State.takeOp s ink i).still = s.still := by
  unfold State.takeOp; simp

@[simp] theorem State.pushFetch_still (s : State) (f : Fetch) : (State.pushFetch s f).still = s.still := by
  unfold State.pushFetch; simp

@[simp] theorem State.readRepl_still (s : State) (t : Table) (r : Repl) (o : RowOp) : (State.readRepl s t r o).still = s.still := by
  unfold State.readRepl; simp

@[simp] theorem State.readAt_still (s : State) (t : Table) (ink : Nat) (o : RowOp) : (State.readAt s t ink o).still = s.still := by
  unfold State.readAt; dsimp only; (repeat' split) <;> simp

@[simp] theorem State.doRead_still (s : State) (ink : Nat) (o : RowOp) : (State.doRead s ink o).still = s.still := by
  unfold State.doRead; (repeat' split) <;> simp

@[simp] theorem State.slotEvents_still (s : State) (ink n : Nat) (old new : DSlot) (lost : Bool) : (State.slotEvents s ink n old new lost).still = s.still := by
  unfold State.slotEvents; simp

@[simp] theorem State.deltaFull_still (s : State) (ink n : Nat) : (State.deltaFull s ink n).still = s.still := by
  unfold State.deltaFull; simp

@[simp] theorem State.addDelta_still (s : State) (t : Table) (ink l n : Nat) (vals : List Nat) : (State.addDelta s t ink l n vals).1.still = s.still := by
  unfold State.addDelta; dsimp only; (repeat' split) <;> simp

@[simp] theorem State.addShipped_still (s : State) (t : Table) (ink l n : Nat) (x : DSlot) : (State.addShipped s t ink l n x).still = s.still := by
  unfold State.addShipped; dsimp only; (repeat' split) <;> simp

@[simp] theorem State.directAdd_still (s : State) (t : Table) (ink l coff : Nat) (o : RowOp) : (State.directAdd s t ink l coff o).1.still = s.still := by
  unfold State.directAdd; dsimp only; (repeat' split) <;> simp

@[simp] theorem State.addPut_still (s : State) (t : Table) (ink slot : Nat) (o : RowOp) : (State.addPut s t ink slot o).still = s.still := by
  unfold State.addPut; dsimp only; split <;> simp

@[simp] theorem State.putContrib_still (s : State) (t : Table) (ink slot : Nat) (o : RowOp) : (State.putContrib s t ink slot o).still = s.still := by
  unfold State.putContrib; split <;> simp

theorem State.takeEnt_some {s t : State} {ink b l n i : Nat} (h : s.takeEnt ink b l n = some (i, t)) : t.still = s.still := by
  unfold State.takeEnt at h
  dsimp only at h
  (repeat' split at h) <;> simp only [Option.some.injEq, Prod.mk.injEq, reduceCtorEq] at h <;> (obtain ⟨-, rfl⟩ := h) <;> simp [State.modPut]

@[simp] theorem State.contribAt_still (s : State) (t : Table) (ink l : Nat) (o : RowOp) : (State.contribAt s t ink l o).still = s.still := by
  unfold State.contribAt; dsimp only; (repeat' split) <;> (first | (simp; done) | (have h2 := State.takeEnt_some (by assumption); simp_all))

@[simp] theorem State.doContrib_still (s : State) (ink : Nat) (o : RowOp) : (State.doContrib s ink o).still = s.still := by
  unfold State.doContrib; (repeat' split) <;> simp

@[simp] theorem State.doGather_still (s : State) (ink : Nat) (o : RowOp) : (State.doGather s ink o).still = s.still := by
  unfold State.doGather; dsimp only; (repeat' split) <;> simp

@[simp] theorem State.writeSum_still (s : State) (o : RowOp) : (State.writeSum s o).still = s.still := by
  unfold State.writeSum; split <;> simp

@[simp] theorem State.installRepl_still (s : State) (r : Repl) (n : Nat) : (State.installRepl s r n).still = s.still := by
  unfold State.installRepl; (repeat' split) <;> simp

@[simp] theorem State.installReady_still (s : State) : (State.installReady s).still = s.still := by
  unfold State.installReady; simp

@[simp] theorem State.setResidence_still (s : State) (t : Table) (ink l v : Nat) : (State.setResidence s t ink l v).still = s.still := by
  unfold State.setResidence; simp

@[simp] theorem State.promoteRow_still (s : State) (t : Table) (ink l slot : Nat) (rec_ : Bytes) (touched : Bool) : (State.promoteRow s t ink l slot rec_ touched).still = s.still := by
  unfold State.promoteRow; simp

@[simp] theorem State.startBack_still (s : State) (t : Table) (b : Writeback) : (State.startBack s t b).still = s.still := by
  unfold State.startBack; simp

@[simp] theorem State.moveHalf_still (s : State) (t : Table) (f slot : Nat) (e : PutEnt) (h : Nat) : (State.moveHalf s t f slot e h).still = s.still := by
  unfold State.moveHalf; (repeat' split) <;> simp

@[simp] theorem State.releasePut_still (s : State) (n : Nat) : (State.releasePut s n).still = s.still := by
  unfold State.releasePut
  refine still_foldl _ _ _ fun _ _ => ?_
  rw [State.freeEnts_still]
  refine still_foldl _ _ _ fun _ _ => ?_
  dsimp only
  (repeat' split) <;> simp

@[simp] theorem State.sweep_still (s : State) (t : Table) (ink fuel : Nat) : (s.sweep t ink fuel).still = s.still := by
  induction fuel generalizing s with
  | zero => rfl
  | succ n ih =>
    unfold State.sweep
    dsimp only
    (repeat' split) <;> simp [ih]

@[simp] theorem State.demote_still (s : State) : (State.demote s).still = s.still := by
  unfold State.demote; simp

@[simp] theorem State.armRepls_still (s : State) (n : Nat) : (State.armRepls s n).still = s.still := by
  unfold State.armRepls; simp

@[simp] theorem State.shipRow_still (s : State) (m : Mig) (n : Nat) : (State.shipRow s m n).still = s.still := by
  unfold State.shipRow; dsimp only; (repeat' split) <;> simp

@[simp] theorem State.shipAll_still (s : State) (n : Nat) : (State.shipAll s n).still = s.still := by
  unfold State.shipAll; simp

end Sys2Proof.Machine
end

