-- ==== Sys2Proof/Laws/StillBoundary.lean ====
section
/-! SUPPORT. What the operations of Boundary, Foreman, Trees, Leader, Command, Access leave alone: each keeps `State.still`. -/

namespace Sys2Proof.Machine

@[simp] theorem State.modQueue_still (s : State) (q : Nat) (f : CmdQueue → CmdQueue) : (State.modQueue s q f).still = s.still := by
  unfold State.modQueue; simp

@[simp] theorem State.sendReply_still (s : State) (r : Reply) : (State.sendReply s r).still = s.still := by
  unfold State.sendReply; simp

@[simp] theorem State.replyTo_still (s : State) (r : ReplyTo) (status : Nat) (data : Bytes) : (State.replyTo s r status data).still = s.still := by
  unfold State.replyTo; dsimp only; split <;> simp

@[simp] theorem State.replyAll_still (s : State) (rs : List ReplyTo) (status : Nat) : (State.replyAll s rs status).still = s.still := by
  unfold State.replyAll; simp

@[simp] theorem State.startTile_still (s : State) (p n : Nat) : (State.startTile s p n).still = s.still := by
  unfold State.startTile; dsimp only; (repeat' split) <;> simp

@[simp] theorem State.startContexts_still (s : State) (n : Nat) : (State.startContexts s n).still = s.still := by
  unfold State.startContexts; simp

@[simp] theorem State.resetFaulted_still (s : State) (p : Nat) : (State.resetFaulted s p).still = s.still := by
  unfold State.resetFaulted; simp

@[simp] theorem State.collectTally_still (s : State) (p : Nat) : (State.collectTally s p).still = s.still := by
  unfold State.collectTally; simp

@[simp] theorem State.collectFount_still (s : State) (p : Nat) : (State.collectFount s p).still = s.still := by
  unfold State.collectFount; simp

@[simp] theorem State.collectLoss_still (s : State) (p : Nat) : (State.collectLoss s p).still = s.still := by
  unfold State.collectLoss; simp

@[simp] theorem State.remapTile_still (s : State) (p : Nat) : (State.remapTile s p).still = s.still := by
  unfold State.remapTile; split <;> simp

@[simp] theorem State.pghApply_still (s : State) (f : Nat) : (State.pghApply s f).still = s.still := by
  unfold State.pghApply; simp

@[simp] theorem State.prfFreeze_still (s : State) (i : Nat) : (State.prfFreeze s i).still = s.still := by
  unfold State.prfFreeze; (try dsimp only); (repeat' split) <;> simp

@[simp] theorem State.pptApply_still (s : State) (p : Nat) : (State.pptApply s p).still = s.still := by
  unfold State.pptApply; simp

@[simp] theorem State.retireApply_still (s : State) (p : Nat) : (State.retireApply s p).still = s.still := by
  unfold State.retireApply; simp

@[simp] theorem State.cfgKeep_still (s : State) (commits : List (Nat × Nat × Nat)) (opt : Bool) : (State.cfgKeep s commits opt).still = s.still := by
  unfold State.cfgKeep; simp

@[simp] theorem State.boundary_still (s : State) : (State.boundary s).still = s.still := by
  unfold State.boundary; dsimp only; (repeat' split) <;> simp

@[simp] theorem State.setFmn_still (s : State) (f : Foreman → Foreman) : (State.setFmn s f).still = s.still := by
  unfold State.setFmn; simp

@[simp] theorem State.writeBlock_still (s : State) (r : StepRec) : (State.writeBlock s r).still = s.still := by
  unfold State.writeBlock; simp

@[simp] theorem State.newestRegs_still (s : State) : (State.newestRegs s).still = s.still := by
  unfold State.newestRegs; split <;> simp

@[simp] theorem State.applyInstall_still (s : State) : s.applyInstall.still = s.still := by
  unfold State.applyInstall; (repeat' split) <;> simp

@[simp] theorem State.openForming_still (s : State) (f : Forming) (sc : ScaleRec) : (State.openForming s f sc).still = s.still := by
  unfold State.openForming; simp

@[simp] theorem State.openWaits_still (s : State) : (State.openWaits s).still = s.still := by
  unfold State.openWaits; split <;> simp

@[simp] theorem State.toCollating_still (s : State) (n : Nat) (fault : Bool) : (State.toCollating s n fault).still = s.still := by
  unfold State.toCollating; split <;> simp

@[simp] theorem State.acted_still (s : State) (k n a : Nat) : (State.acted s k n a).still = s.still := by
  unfold State.acted; simp

@[simp] theorem State.writeReport_still (s : State) (r : StepRec) (d : DecMsg) (silent direct : List Nat) : (State.writeReport s r d silent direct).still = s.still := by
  unfold State.writeReport; simp

@[simp] theorem State.countDecision_still (s : State) (r : StepRec) (d : DecMsg) : (State.countDecision s r d).still = s.still := by
  unfold State.countDecision; (try dsimp only); (repeat' split) <;> simp

@[simp] theorem State.stopSorters_still (s : State) (n : Nat) : (State.stopSorters s n).still = s.still := by
  unfold State.stopSorters; simp

@[simp] theorem State.stopTiles_still (s : State) (n : Nat) : (State.stopTiles s n).still = s.still := by
  unfold State.stopTiles; simp

@[simp] theorem State.startRollback_still (s : State) (n : Nat) (v : Verdict) : (State.startRollback s n v).still = s.still := by
  unfold State.startRollback; simp

@[simp] theorem State.beginRestores_still (s : State) : (State.beginRestores s).still = s.still := by
  unfold State.beginRestores; dsimp only; split <;> simp

@[simp] theorem State.endingStep_still (s : State) (n : Nat) : (s.endingStep n).still = s.still := by
  unfold State.endingStep; simp

@[simp] theorem State.quiesce_still (s : State) : (State.quiesce s).still = s.still := by
  unfold State.quiesce; simp

@[simp] theorem State.dropStep_still (s : State) (n : Nat) : (State.dropStep s n).still = s.still := by
  unfold State.dropStep; (try dsimp only); (repeat' split) <;> simp

@[simp] theorem State.clearCollation_still (s : State) (n a : Nat) : (State.clearCollation s n a).still = s.still := by
  unfold State.clearCollation; simp

@[simp] theorem State.discardHeld_still (s : State) (n : Nat) : (State.discardHeld s n).still = s.still := by
  unfold State.discardHeld; simp

@[simp] theorem State.xorSlot_still (s : State) (ch coff : Nat) (d : Bytes) : (State.xorSlot s ch coff d).still = s.still := by
  unfold State.xorSlot; simp

@[simp] theorem State.applyHeld_still (s : State) (n : Nat) : (State.applyHeld s n).still = s.still := by
  unfold State.applyHeld; simp

@[simp] theorem State.rollEnds_still (s : State) (n : Nat) : (State.rollEnds s n).still = s.still := by
  unfold State.rollEnds; (try dsimp only); (repeat' split) <;> simp

@[simp] theorem State.rollbackDone_still (s : State) (n : Nat) : (State.rollbackDone s n).still = s.still := by
  unfold State.rollbackDone; (try dsimp only); (repeat' split) <;> simp

@[simp] theorem State.reopenStep_still (s : State) (n : Nat) : (State.reopenStep s n).still = s.still := by
  unfold State.reopenStep; split <;> simp

@[simp] theorem State.modLead_still (s : State) (n : Nat) (f : LeadRec → LeadRec) : (State.modLead s n f).still = s.still := by
  unfold State.modLead; simp

@[simp] theorem State.leadFor_still (s : State) (n a : Nat) : (State.leadFor s n a).still = s.still := by
  unfold State.leadFor; split <;> simp

@[simp] theorem State.broadcastDecision_still (s : State) (n a : Nat) (d : DecMsg) : (State.broadcastDecision s n a d).still = s.still := by
  unfold State.broadcastDecision; simp

@[simp] theorem State.sendDecision_still (s : State) (n a : Nat) (d : DecMsg) : (State.sendDecision s n a d).still = s.still := by
  unfold State.sendDecision; simp

@[simp] theorem State.noteSlow_still (s : State) (l : LeadRec) (d : DecMsg) : (State.noteSlow s l d).still = s.still := by
  unfold State.noteSlow; simp

@[simp] theorem State.leaderDecide_still (s : State) (n : Nat) : (State.leaderDecide s n).still = s.still := by
  unfold State.leaderDecide; (repeat' split) <;> simp

@[simp] theorem State.checkAllIn_still (s : State) (n : Nat) : (State.checkAllIn s n).still = s.still := by
  unfold State.checkAllIn; dsimp only; (repeat' split) <;> simp

@[simp] theorem State.takeReady_still (s : State) (src n a : Nat) (b : Bytes) : (State.takeReady s src n a b).still = s.still := by
  unfold State.takeReady; dsimp only; split <;> simp

@[simp] theorem State.leaderLost_still (s : State) (c : Nat) : (State.leaderLost s c).still = s.still := by
  unfold State.leaderLost; simp

@[simp] theorem State.checkRelease_still (s : State) (n : Nat) : (State.checkRelease s n).still = s.still := by
  unfold State.checkRelease; split <;> simp

@[simp] theorem State.takeCommitDone_still (s : State) (src n a : Nat) (failed : Bool) : (State.takeCommitDone s src n a failed).still = s.still := by
  unfold State.takeCommitDone; split <;> simp

@[simp] theorem State.deputyAck_still (s : State) (kind n a : Nat) : (State.deputyAck s kind n a).still = s.still := by
  unfold State.deputyAck; (repeat' split) <;> simp

@[simp] theorem State.takeAbort_still (s : State) (n a cause c : Nat) : (State.takeAbort s n a cause c).still = s.still := by
  unfold State.takeAbort; simp

@[simp] theorem State.leaderResume_still (s : State) : (State.leaderResume s).still = s.still := by
  unfold State.leaderResume; simp

@[simp] theorem State.newLeader_still (s : State) (c : Nat) : (State.newLeader s c).still = s.still := by
  unfold State.newLeader; simp

@[simp] theorem State.started_still (s : State) (q : Nat) (c : Cmd) : (State.started s q c).still = s.still := by
  unfold State.started; simp

@[simp] theorem State.refuse_still (s : State) (r : ReplyTo) (op st : Nat) : (State.refuse s r op st).still = s.still := by
  unfold State.refuse; simp

@[simp] theorem State.command_still (s : State) (q op : Nat) (own : Bytes → ReplyTo → State → State) (h_own : ∀ a0 a1 a2, (own a0 a1 a2).still = a2.still) : (State.command s q op own).still = s.still := by
  unfold State.command; dsimp only; (repeat' split) <;> simp_all

@[simp] theorem State.mboxDone_still (s : State) (r : ReplyTo) : (State.mboxDone s r).still = s.still := by
  unfold State.mboxDone; split <;> simp

@[simp] theorem State.mgmtReply_still (s : State) (r : ReplyTo) (st : Nat) (data : Bytes) : (State.mgmtReply s r st data).still = s.still := by
  unfold State.mgmtReply; simp

@[simp] theorem State.mgmtRefuse_still (s : State) (r : ReplyTo) (op st : Nat) : (State.mgmtRefuse s r op st).still = s.still := by
  unfold State.mgmtRefuse; simp

@[simp] theorem State.mgmtCommand_still (s : State) (q op : Nat) (own : Bytes → ReplyTo → State → State) (h_own : ∀ a0 a1 a2, (own a0 a1 a2).still = a2.still) : (State.mgmtCommand s q op own).still = s.still := by
  unfold State.mgmtCommand; dsimp only; (repeat' split) <;> simp_all

@[simp] theorem State.ok_still (s : State) (r : ReplyTo) (data : Bytes) : (State.ok s r data).still = s.still := by
  unfold State.ok; simp

@[simp] theorem State.accessErr_still (s : State) (p code a src : Nat) : (State.accessErr s p code a src).still = s.still := by
  unfold State.accessErr; simp

theorem State.tileGate_inr {s t : State} {off n src st : Nat} {own : Option Nat} (h : s.tileGate off n src own = .inr (st, t)) : t.still = s.still := by
  unfold State.tileGate at h
  dsimp only at h
  (repeat' split at h) <;> simp_all <;> (obtain ⟨-, rfl⟩ := h) <;> simp

@[simp] theorem State.spaceErrs_still (s : State) (space off n src : Nat) (errs : List CaseErr) (own : Option Nat) : (State.spaceErrs s space off n src errs own).still = s.still := by
  unfold State.spaceErrs; (repeat' split) <;> simp

@[simp] theorem State.spaceRead_still (s : State) (space off n src : Nat) (own : Option Nat) : (State.spaceRead s space off n src own).2.2.still = s.still := by
  unfold State.spaceRead; dsimp only; (repeat' split) <;> (first | (simp; done) | (have h2 := State.tileGate_inr (by assumption); simp_all))

@[simp] theorem State.spaceWrite_still (s : State) (space off : Nat) (bs : Bytes) (src : Nat) (own : Option Nat) : (State.spaceWrite s space off bs src own).2.still = s.still := by
  unfold State.spaceWrite; dsimp only; (repeat' split) <;> (first | (simp; done) | (have h2 := State.tileGate_inr (by assumption); simp_all))

@[simp] theorem State.spaceAdd_still (s : State) (off v src : Nat) (own : Option Nat) : (State.spaceAdd s off v src own).2.still = s.still := by
  unfold State.spaceAdd; (repeat' split) <;> (first | (simp; done) | (have h2 := State.tileGate_inr (by assumption); simp_all))

@[simp] theorem State.ownWrite_still (s : State) (a : Nat) (bs : Bytes) : (State.ownWrite s a bs).still = s.still := by
  unfold State.ownWrite; simp

@[simp] theorem State.ownSeen_still (s : State) (a n : Nat) : (State.ownSeen s a n).still = s.still := by
  unfold State.ownSeen; simp

end Sys2Proof.Machine
end

