-- ==== Sys2Proof/Laws/StillSteps.lean ====
section
/-! SUPPORT. What the operations of ColOps, Collate, StepRows, Resil, ResilRows leave alone: each keeps `State.still`. -/

namespace Sys2Proof.Machine

theorem State.takeOldest_some {s t : State} {type : Nat} {o : OutPkt} (h : s.takeOldest type = some (o, t)) : t.still = s.still := by
  unfold State.takeOldest at h; exact State.takeArrived_some h

@[simp] theorem State.markOuts_still (s : State) (k bkt : Nat) : (State.markOuts s k bkt).still = s.still := by
  unfold State.markOuts; simp

@[simp] theorem State.staleDrop_still (s : State) : (State.staleDrop s).still = s.still := by
  unfold State.staleDrop; simp

@[simp] theorem State.colErr_still (s : State) (bit code bucket att chip : Nat) : (State.colErr s bit code bucket att chip).still = s.still := by
  unfold State.colErr; simp

@[simp] theorem State.setCol_still (s : State) (f : Col → Col) : (State.setCol s f).still = s.still := by
  unfold State.setCol; simp

@[simp] theorem State.putHalf_still (s : State) (b : Nat) (h : BHalf) : (State.putHalf s b h).still = s.still := by
  unfold State.putHalf; simp

@[simp] theorem State.colOut_still (s : State) (n b bkt : Nat) (p : Packet) : (State.colOut s n b bkt p).still = s.still := by
  unfold State.colOut; simp

@[simp] theorem State.sendDone_still (s : State) (id n a : Nat) (b : Bucket) (h : BHalf) (noTable : Bool) : (State.sendDone s id n a b h noTable).still = s.still := by
  unfold State.sendDone; simp

@[simp] theorem State.ownerChunk_still (s : State) (id n a k : Nat) (c : Chunk) : (State.ownerChunk s id n a k c).still = s.still := by
  unfold State.ownerChunk; (repeat' split) <;> simp

@[simp] theorem State.sumWritten_still (s : State) (id n a k : Nat) : (State.sumWritten s id n a k).still = s.still := by
  unfold State.sumWritten; split <;> simp

@[simp] theorem State.flagWrite_still (s : State) (flag n a : Nat) : (State.flagWrite s flag n a).still = s.still := by
  unfold State.flagWrite; simp

@[simp] theorem State.bcastForward_still (s : State) (chips : List Nat) (i n id : Nat) (p : Packet) (queued : Bool) : (State.bcastForward s chips i n id p queued).still = s.still := by
  unfold State.bcastForward; simp

@[simp] theorem State.takeResult_still (s : State) (p : Packet) : (State.takeResult s p).still = s.still := by
  unfold State.takeResult; dsimp only; (repeat' split) <;> simp

@[simp] theorem State.rootOut_still (s : State) (id n a k : Nat) (b : Bucket) (c : Chunk) : (State.rootOut s id n a k b c).still = s.still := by
  unfold State.rootOut; simp

@[simp] theorem State.nodeInput_still (s : State) (id n a k side m : Nat) (c : Chunk) : (State.nodeInput s id n a k side m c).still = s.still := by
  unfold State.nodeInput; dsimp only; (repeat' split) <;> simp

@[simp] theorem State.closeLeaf_still (s : State) (id n a : Nat) : (State.closeLeaf s id n a).still = s.still := by
  unfold State.closeLeaf; dsimp only; (repeat' split) <;> simp

@[simp] theorem State.closeLeaves_still (s : State) (n a : Nat) : (State.closeLeaves s n a).still = s.still := by
  unfold State.closeLeaves; simp

@[simp] theorem State.sendReady_still (s : State) (n : Nat) (fault : Bool) : (State.sendReady s n fault).still = s.still := by
  unfold State.sendReady; split <;> simp

@[simp] theorem State.telegramIn_still (s : State) (p : Packet) (vals : List Nat) : (State.telegramIn s p vals).still = s.still := by
  unfold State.telegramIn; dsimp only; split <;> simp

@[simp] theorem State.sendOut_still (s : State) : (State.sendOut s).still = s.still := by
  unfold State.sendOut; (repeat' split) <;> simp

@[simp] theorem State.putExch_still (s : State) (e : Exch) : (State.putExch s e).still = s.still := by
  unfold State.putExch; simp

@[simp] theorem State.exchCheck_still (s : State) (n a : Nat) : (State.exchCheck s n a).still = s.still := by
  unfold State.exchCheck; split <;> simp

@[simp] theorem State.exchSend_still (s : State) (n a : Nat) : (State.exchSend s n a).still = s.still := by
  unfold State.exchSend; split <;> simp

@[simp] theorem State.placeSlot_still (s : State) (t row n : Nat) (x : DSlot) (add : Bool) : (State.placeSlot s t row n x add).still = s.still := by
  unfold State.placeSlot; dsimp only; (repeat' split) <;> simp

@[simp] theorem State.exchClear_still (s : State) (n : Nat) : (State.exchClear s n).still = s.still := by
  unfold State.exchClear; refine still_foldl _ _ _ fun _ _ => ?_; simp

@[simp] theorem State.moveDone_still (s : State) (p serial status : Nat) : (State.moveDone s p serial status).still = s.still := by
  unfold State.moveDone; simp

@[simp] theorem State.countContrib_still (s : State) (id n a : Nat) : (State.countContrib s id n a).still = s.still := by
  unfold State.countContrib; simp

@[simp] theorem State.a2aOut_still (s : State) (n a id bkt x : Nat) (b : Bucket) (me : MapEnt) (count start : Nat) (rows : List (List Nat)) : (State.a2aOut s n a id bkt x b me count start rows).still = s.still := by
  unfold State.a2aOut; simp

@[simp] theorem State.retOut_still (s : State) (n a id bkt : Nat) (b : Bucket) (me : MapEnt) (r dst count : Nat) (rows : List (List Nat)) : (State.retOut s n a id bkt b me r dst count rows).still = s.still := by
  unfold State.retOut; simp

@[simp] theorem State.bktRefused_still (s : State) (p serial status : Nat) (r : BktReq) : (State.bktRefused s p serial status r).still = s.still := by
  unfold State.bktRefused; simp

@[simp] theorem State.keepErrs_still (s : State) (p : Nat) (r : BktReq) (errs : List FVal) : (State.keepErrs s p r errs).still = s.still := by
  unfold State.keepErrs; split <;> simp

@[simp] theorem State.bktAccept_still (s : State) (p serial : Nat) (r : BktReq) (b : Bucket) (h : BHalf) (c : Contrib) (errs : List FVal) (bad : Bool) : (State.bktAccept s p serial r b h c errs bad).still = s.still := by
  unfold State.bktAccept; simp

@[simp] theorem State.bktTaken_still (s : State) (p serial : Nat) (r : BktReq) : (State.bktTaken s p serial r).2.still = s.still := by
  unfold State.bktTaken; simp

@[simp] theorem State.bktSegs_still (s : State) (p serial : Nat) (m : Ram) (r : BktReq) (b : Bucket) : (State.bktSegs s p serial m r b).still = s.still := by
  unfold State.bktSegs; simp

@[simp] theorem State.bktReturn_still (s : State) (p serial : Nat) (m : Ram) (r : BktReq) (b : Bucket) : (State.bktReturn s p serial m r b).still = s.still := by
  unfold State.bktReturn; simp

@[simp] theorem State.replDown_still (s : State) (e : Exch) (p : Packet) : (State.replDown s e p).still = s.still := by
  unfold State.replDown; dsimp only; (repeat' split) <;> simp

@[simp] theorem State.placeRows_still (s : State) (base : Nat) (me : MapEnt) (b : Bytes) : (State.placeRows s base me b).still = s.still := by
  unfold State.placeRows; simp

@[simp] theorem State.bktRead_still (s : State) (p serial : Nat) (r : BktReq) : (State.bktRead s p serial r).still = s.still := by
  unfold State.bktRead; dsimp only; (repeat' split) <;> simp

@[simp] theorem State.chunkIn_still (s : State) (p : Packet) : (State.chunkIn s p).still = s.still := by
  unfold State.chunkIn; simp

@[simp] theorem State.segDeliver_still (s : State) (i n a r : Nat) (me : MapEnt) (h : AHalf) (g : Seg) : (State.segDeliver s i n a r me h g).still = s.still := by
  unfold State.segDeliver; simp

@[simp] theorem State.settle_still (s : State) : (State.settle s).still = s.still := by
  unfold State.settle; simp

@[simp] theorem State.slice_still (s : State) (kind : Nat) (own : Packet → State → State) (h_own : ∀ a0 a1, (own a0 a1).still = a1.still) : (State.slice s kind own).still = s.still := by
  unfold State.slice; (repeat' split) <;> (first | (simp; done) | (have h2 := State.takeArrived_some (by assumption); simp_all))

@[simp] theorem State.openHeld_still (s : State) (n : Nat) (r : ReplyTo) : (State.openHeld s n r).still = s.still := by
  unfold State.openHeld; split <;> simp

@[simp] theorem State.tryCommitDone_still (s : State) : (State.tryCommitDone s).still = s.still := by
  unfold State.tryCommitDone; dsimp only; (repeat' split) <;> simp

@[simp] theorem State.reportDecision_still (s : State) (n : Nat) (d : DecMsg) : (State.reportDecision s n d).still = s.still := by
  unfold State.reportDecision; split <;> simp

@[simp] theorem State.decided_still (s : State) (n a : Nat) (d : DecMsg) : (State.decided s n a d).still = s.still := by
  unfold State.decided; simp

@[simp] theorem State.takeCommit_still (s : State) (n a : Nat) (d : DecMsg) : (State.takeCommit s n a d).still = s.still := by
  unfold State.takeCommit; simp

@[simp] theorem State.rollOne_still (s : State) (v : Verdict) (m : Nat) : (State.rollOne s v m).still = s.still := by
  unfold State.rollOne; (try dsimp only); (repeat' split) <;> simp

@[simp] theorem State.rollFrom_still (s : State) (n : Nat) (v : Verdict) : (State.rollFrom s n v).still = s.still := by
  unfold State.rollFrom; simp

@[simp] theorem State.takeRoll_still (s : State) (n a : Nat) (d : DecMsg) : (State.takeRoll s n a d).still = s.still := by
  unfold State.takeRoll; simp

@[simp] theorem State.takeSuspend_still (s : State) (n a : Nat) : (State.takeSuspend s n a).still = s.still := by
  unfold State.takeSuspend; (try dsimp only); (repeat' split) <;> simp

@[simp] theorem State.takeDecision_still (s : State) (n a : Nat) (d : DecMsg) : (State.takeDecision s n a d).still = s.still := by
  unfold State.takeDecision; (repeat' split) <;> simp

@[simp] theorem State.takeRelease_still (s : State) (n a : Nat) : (State.takeRelease s n a).still = s.still := by
  unfold State.takeRelease; split <;> simp

@[simp] theorem State.takeDelta_still (s : State) (p : Packet) : (State.takeDelta s p).1.still = s.still := by
  unfold State.takeDelta; (repeat' split) <;> simp

@[simp] theorem State.sendRes_still (s : State) (dst kind : Nat) (rest : Bytes) (org : Origin) : (State.sendRes s dst kind rest org).still = s.still := by
  unfold State.sendRes; simp

@[simp] theorem State.sendResAll_still (s : State) (dsts : List Nat) (kind : Nat) (rest : Bytes) : (State.sendResAll s dsts kind rest).still = s.still := by
  unfold State.sendResAll; simp

@[simp] theorem State.resChip_still (s : State) (c : Nat) : (State.resChip s c).still = s.still := by
  unfold State.resChip; simp

@[simp] theorem State.parLost_still (s : State) : (State.parLost s).still = s.still := by
  unfold State.parLost; simp

@[simp] theorem State.checkLost_still (s : State) : (State.checkLost s).still = s.still := by
  unfold State.checkLost; simp

@[simp] theorem State.cutPorts_still (s : State) (c : Nat) : (State.cutPorts s c).still = s.still := by
  unfold State.cutPorts; simp

@[simp] theorem State.abandonRebuild_still (s : State) : (State.abandonRebuild s).still = s.still := by
  unfold State.abandonRebuild; simp

@[simp] theorem State.takeover_still (s : State) : (State.takeover s).still = s.still := by
  unfold State.takeover; simp

@[simp] theorem State.chipFenced_still (s : State) (c : Nat) : (State.chipFenced s c).still = s.still := by
  unfold State.chipFenced; simp

@[simp] theorem State.fenceMember_still (s : State) (c : Nat) : (State.fenceMember s c).still = s.still := by
  unfold State.fenceMember; simp

@[simp] theorem State.probe_still (s : State) (c k : Nat) : (State.probe s c k).still = s.still := by
  unfold State.probe; simp

@[simp] theorem State.probeAnswered_still (s : State) (c : Nat) : (State.probeAnswered s c).still = s.still := by
  unfold State.probeAnswered; simp

@[simp] theorem State.askUnit_still (s : State) (k : Nat) (it : WorkItem) (n : Nat × Nat × Nat) : (State.askUnit s k it n).still = s.still := by
  unfold State.askUnit; simp

@[simp] theorem State.setJob_still (s : State) (j : Option Job) : (State.setJob s j).still = s.still := by
  unfold State.setJob; simp

@[simp] theorem State.runJob_still (s : State) (fuel : Nat) : (s.runJob fuel).still = s.still := by
  induction fuel generalizing s with
  | zero => rfl
  | succ n ih =>
    unfold State.runJob
    dsimp only
    (repeat' split) <;> simp [ih]

@[simp] theorem State.startJob_still (s : State) : (State.startJob s).still = s.still := by
  unfold State.startJob; split <;> simp

@[simp] theorem State.unitReply_still (s : State) (k : Nat) (req : Packet) (status : Nat) (data : Bytes) : (State.unitReply s k req status data).still = s.still := by
  unfold State.unitReply; split <;> simp

@[simp] theorem State.askRepairs_still (s : State) : s.askRepairs.still = s.still := by
  unfold State.askRepairs
  split
  · rfl
  · refine still_foldl _ _ _ fun x u => ?_
    generalize x.repairItem u = o
    cases o with
    | none => rfl
    | some it =>
      dsimp only
      split <;> simp only [State.sendRes_still, still_mk, still_fold]

@[simp] theorem State.sendSync_still (s : State) (c : Nat) : (State.sendSync s c).still = s.still := by
  unfold State.sendSync; simp

@[simp] theorem State.startQuiet_still (s : State) (reason chip : Nat) : (State.startQuiet s reason chip).still = s.still := by
  unfold State.startQuiet; simp

@[simp] theorem State.nextRepair_still (s : State) : (State.nextRepair s).still = s.still := by
  unfold State.nextRepair; split <;> simp

@[simp] theorem State.nextRebuild_still (s : State) : (State.nextRebuild s).still = s.still := by
  unfold State.nextRebuild; split <;> simp

@[simp] theorem State.resumeHeld_still (s : State) : (State.resumeHeld s).still = s.still := by
  unfold State.resumeHeld; simp

@[simp] theorem State.takeParDone_still (s : State) (src : Nat) : (State.takeParDone s src).still = s.still := by
  unfold State.takeParDone; split <;> simp

@[simp] theorem State.fenceCommands_still (s : State) : (State.fenceCommands s).still = s.still := by
  unfold State.fenceCommands; simp

@[simp] theorem State.unitBytes_still (s : State) (b : Bytes) : (State.unitBytes s b).2.2.still = s.still := by
  unfold State.unitBytes; dsimp only; (repeat' split) <;> simp

end Sys2Proof.Machine
end

