-- ==== Sys2Proof/Laws/StillImage.lean ====
section
/-! SUPPORT. What the operations of Stage, ImpRows, Tables, InkRows, MigRows leave alone: each keeps `State.still`. -/

namespace Sys2Proof.Machine

@[simp] theorem State.setImp_still (s : State) (f : ImpCtl → ImpCtl) : (State.setImp s f).still = s.still := by
  unfold State.setImp; simp

@[simp] theorem State.sendDrained_still (s : State) : (State.sendDrained s).still = s.still := by
  unfold State.sendDrained; split <;> simp

@[simp] theorem State.resendKept_still (s : State) : (State.resendKept s).still = s.still := by
  unfold State.resendKept; refine still_foldl _ _ _ fun _ _ => ?_; (repeat' split) <;> simp

@[simp] theorem State.deliverPoste_still (s : State) : (State.deliverPoste s).still = s.still := by
  unfold State.deliverPoste; simp

@[simp] theorem State.leaveSlice_still (s : State) (epoch : Nat) : (State.leaveSlice s epoch).still = s.still := by
  unfold State.leaveSlice; dsimp only; split <;> simp

@[simp] theorem State.enterEpoch_still (s0 : State) (m : Impo) : (State.enterEpoch s0 m).still = s0.still := by
  unfold State.enterEpoch; simp

@[simp] theorem State.keepScale_still (s : State) : (State.keepScale s).still = s.still := by
  unfold State.keepScale; (repeat' split) <;> simp

@[simp] theorem State.clearWork_still (s5 : State) (m : Impo) : (State.clearWork s5 m).still = s5.still := by
  unfold State.clearWork; dsimp only; split <;> simp

@[simp] theorem State.startWork_still (s : State) (old : Option Impo) (m : Impo) (leader : Nat) : (State.startWork s old m leader).still = s.still := by
  unfold State.startWork; simp

@[simp] theorem State.activateEpoch_still (s : State) (m : Impo) : (State.activateEpoch s m).still = s.still := by
  unfold State.activateEpoch; simp

@[simp] theorem State.dropForwards_still (s : State) : (State.dropForwards s).still = s.still := by
  unfold State.dropForwards; simp

@[simp] theorem State.initSparse_still (s : State) (t : Table) (ink : Nat) : (State.initSparse s t ink).still = s.still := by
  unfold State.initSparse; simp

@[simp] theorem State.initShard_still (s : State) (t : Table) (x : Shard) : (State.initShard s t x).still = s.still := by
  unfold State.initShard; simp

@[simp] theorem State.cfgTable_still (s : State) (id : Nat) (inks : List Nat) (desc : Bytes) : (State.cfgTable s id inks desc).still = s.still := by
  unfold State.cfgTable; simp

@[simp] theorem State.deleteTable_still (s : State) (d : WaitDelete) : (State.deleteTable s d).still = s.still := by
  unfold State.deleteTable; simp

@[simp] theorem State.loadConfig_still (s : State) : (State.loadConfig s).still = s.still := by
  unfold State.loadConfig; simp

@[simp] theorem State.runOp_still (s : State) (ink : Nat) (kinds : List Nat) (f : RowOp → State → State) (h_f : ∀ a0 a1, (f a0 a1).still = a1.still) : (State.runOp s ink kinds f).still = s.still := by
  unfold State.runOp; split <;> simp_all

@[simp] theorem State.commitStep_still (s : State) (it : Item) : (State.commitStep s it).still = s.still := by
  unfold State.commitStep; simp

@[simp] theorem State.runContrib_still (s : State) (ink : Nat) (o : RowOp) : (State.runContrib s ink o).still = s.still := by
  unfold State.runContrib; (try dsimp only); (repeat' split) <;> simp

@[simp] theorem State.setFetch_still (s : State) (i : Nat) (f : Fetch) : (State.setFetch s i f).still = s.still := by
  unfold State.setFetch; simp

@[simp] theorem State.promoFull_still (s : State) (i : Nat) (f : Fetch) : (State.promoFull s i f).still = s.still := by
  unfold State.promoFull; split <;> simp

@[simp] theorem State.useEnt_still (i : Nat) (f : Fetch) (t : Table) (x : State) (slot : Nat) : (State.useEnt i f t x slot).still = x.still := by
  unfold State.useEnt; split <;> simp

theorem State.reserve_some {s x : State} {i : Nat} {f : Fetch} {t : Table} (h : s.reserve i f t = some x) : x.still = s.still := by
  unfold State.reserve at h
  dsimp only at h
  (repeat' split at h) <;> simp only [Option.some.injEq, reduceCtorEq] at h <;> subst h <;> (try (have h2 := State.takeEnt_some (by assumption))) <;> simp_all

@[simp] theorem State.fetchFailed_still (s : State) (i : Nat) (f : Fetch) : (State.fetchFailed s i f).still = s.still := by
  unfold State.fetchFailed; dsimp only; (repeat' split) <;> simp

@[simp] theorem State.sendFetch_still (s : State) (i : Nat) (t : Table) : (State.sendFetch s i t).still = s.still := by
  unfold State.sendFetch; (try dsimp only); (repeat' split) <;> simp

@[simp] theorem State.fetched_still (s : State) (f : Fetch) (t : Table) (rec_ : Bytes) : (State.fetched s f t rec_).still = s.still := by
  unfold State.fetched; dsimp only; (repeat' split) <;> simp

@[simp] theorem State.stageRow_still (s : State) (t : Table) (row ver at_ : Nat) (keep : Bool) (ready : Option Nat) (img : Bytes) : (State.stageRow s t row ver at_ keep ready img).still = s.still := by
  unfold State.stageRow; dsimp only; split <;> simp

@[simp] theorem State.setMig_still (s : State) (t r : Nat) (f : Mig → Mig) : (State.setMig s t r f).still = s.still := by
  unfold State.setMig; simp

@[simp] theorem State.reserved_still (s : State) (t r status : Nat) : (State.reserved s t r status).still = s.still := by
  unfold State.reserved; dsimp only; (repeat' split) <;> simp

@[simp] theorem State.shipped_still (s : State) (t r status : Nat) : (State.shipped s t r status).still = s.still := by
  unfold State.shipped; dsimp only; (repeat' split) <;> simp

@[simp] theorem State.takeRowOp_still (s : State) (o : OutPkt) (p : Packet) : (State.takeRowOp s o p).still = s.still := by
  unfold State.takeRowOp; dsimp only; split <;> simp

end Sys2Proof.Machine
end

