-- ==== Sys2Proof/Laws/StillTiles.lean ====
section
/-! SUPPORT. What the operations of SortRows, TileOps, SeqRows leave alone: each keeps `State.still`. -/

namespace Sys2Proof.Machine

@[simp] theorem State.modSrt_still (s : State) (q : Nat) (f : Sorter → Sorter) : (State.modSrt s q f).still = s.still := by
  unfold State.modSrt; simp

@[simp] theorem State.modDesc_still (s : State) (q ser : Nat) (f : SDesc → SDesc) : (State.modDesc s q ser f).still = s.still := by
  unfold State.modDesc; simp

@[simp] theorem State.srtRead_still (s : State) (a n : Nat) : (State.srtRead s a n).2.2.still = s.still := by
  unfold State.srtRead; split <;> simp

@[simp] theorem State.offAt_still (s : State) (d : SDesc) (b : Nat) : (State.offAt s d b).2.2.still = s.still := by
  unfold State.offAt; simp

@[simp] theorem State.writeOut_still (s : State) (q : Nat) (d : SDesc) (a : Nat) (codes : List Nat) : (State.writeOut s q d a codes).still = s.still := by
  unfold State.writeOut; simp

@[simp] theorem State.writeBag_still (s : State) (q : Nat) (d : SDesc) (b : OpenBag) : (State.writeBag s q d b).still = s.still := by
  unfold State.writeBag; simp

@[simp] theorem State.flushBags_still (s : State) (q ser fuel : Nat) : (s.flushBags q ser fuel).still = s.still := by
  induction fuel generalizing s with
  | zero => rfl
  | succ n ih =>
    unfold State.flushBags
    (repeat' split) <;> simp [ih]

@[simp] theorem State.flush_still (s : State) (q ser : Nat) : (State.flush s q ser).still = s.still := by
  unfold State.flush; split <;> simp

@[simp] theorem State.passIssued_still (s : State) (q ser : Nat) : (State.passIssued s q ser).still = s.still := by
  unfold State.passIssued; split <;> simp

@[simp] theorem State.skipEmpty_still (s : State) (q ser fuel : Nat) : (s.skipEmpty q ser fuel).still = s.still := by
  induction fuel generalizing s with
  | zero => simp [State.skipEmpty]
  | succ n ih =>
    unfold State.skipEmpty
    dsimp only
    (repeat' split) <;> simp [ih]

@[simp] theorem State.srtSettle_still (s : State) (q ser : Nat) : (State.srtSettle s q ser).still = s.still := by
  unfold State.srtSettle; split <;> simp

@[simp] theorem State.idxAt_still (s : State) (d : SDesc) (e : Nat) : (State.idxAt s d e).2.2.still = s.still := by
  unfold State.idxAt; simp

@[simp] theorem State.dispatchStart_still (s : State) (q : Nat) (d : SDesc) : (State.dispatchStart s q d).still = s.still := by
  unfold State.dispatchStart; simp

@[simp] theorem State.poolRow_still (s : State) (q : Nat) (d : SDesc) (bag pos w : Nat) (vals : List FVal) : (State.poolRow s q d bag pos w vals).still = s.still := by
  unfold State.poolRow; split <;> simp

@[simp] theorem State.pghHalve_still (s : State) (f : Nat) : (State.pghHalve s f).still = s.still := by
  unfold State.pghHalve; simp

@[simp] theorem State.pghAccess_still (s : State) (f : Nat) (t : Table) (r id : Nat) : (State.pghAccess s f t r id).2.still = s.still := by
  unfold State.pghAccess; dsimp only; (repeat' split) <;> simp

@[simp] theorem State.goHome_still (s : State) (q id : Nat) (d : SDesc) (t : Table) (r kind : Nat) (vals : List Nat) : (State.goHome s q id d t r kind vals).still = s.still := by
  unfold State.goHome; simp

@[simp] theorem State.pushLookup_still (s : State) (q : Nat) (u : Lookup) : (State.pushLookup s q u).still = s.still := by
  unfold State.pushLookup; simp

@[simp] theorem State.bypass_still (s : State) (f : Nat) (able : Bool) : (State.bypass s f able).still = s.still := by
  unfold State.bypass; (repeat' split) <;> simp

@[simp] theorem State.dropTagged_still (s : State) (f : Nat) (ways : List Nat) : (State.dropTagged s f ways).still = s.still := by
  unfold State.dropTagged; simp

@[simp] theorem State.srtErrs_still (s : State) (d : SDesc) (errs : List (Fin 136 × CaseErr)) : (State.srtErrs s d errs).still = s.still := by
  unfold State.srtErrs; refine still_foldl _ _ _ fun _ _ => ?_; split <;> simp

theorem State.rowRead_some {s x : State} {q : Nat} {ecc : CacheEcc} {d : SDesc} {t : Table} {u : Lookup} {halve : Bool} (h : s.rowRead q d t u ecc halve = some x) : x.still = s.still := by
  unfold State.rowRead at h
  dsimp only at h
  (repeat' split at h) <;> simp only [Option.some.injEq, reduceCtorEq] at h <;> subst h <;> simp_all

@[simp] theorem State.contribOf_still (s : State) (d : SDesc) (b pos w : Nat) : (State.contribOf s d b pos w).2.2.still = s.still := by
  unfold State.contribOf; dsimp only; (repeat' split) <;> simp

@[simp] theorem State.issued_still (s : State) (q : Nat) (d : SDesc) (len : Nat) : (State.issued s q d len).still = s.still := by
  unfold State.issued; simp

@[simp] theorem State.issueOob_still (s2 : State) (q : Nat) (d : SDesc) (len w : Nat) : (State.issueOob s2 q d len w).still = s2.still := by
  unfold State.issueOob; dsimp only; split <;> simp

@[simp] theorem State.issueHome_still (s2 : State) (q : Nat) (d : SDesc) (len w idx : Nat) (u : Lookup) (t : Table) : (State.issueHome s2 q d len w idx u t).still = s2.still := by
  unfold State.issueHome
  split
  · rename_i h; rw [State.issued_still, ← s2.contribOf_still d d.nextBag d.nextPos w, h]
  · rename_i h; rw [State.modDesc_still, ← s2.contribOf_still d d.nextBag d.nextPos w, h]
  · rename_i h; rw [State.issued_still, State.goHome_still, State.pushLookup_still, State.bypass_still, ← s2.contribOf_still d d.nextBag d.nextPos w, h]

@[simp] theorem State.issueSrc_still (s2 : State) (q : Nat) (d : SDesc) (len e idx : Nat) (u : Lookup) : (State.issueSrc s2 q d len e idx u).still = s2.still := by
  unfold State.issueSrc; simp

theorem State.issueAs_still (s s2 : State) (q : Nat) (d : SDesc) (len e idx w st : Nat) (ecc : CacheEcc) (halve : Bool) (h : s2.still = s.still) : (s.issueAs s2 q d len e idx w st ecc halve).still = s.still := by
  unfold State.issueAs
  dsimp only
  (repeat' split) <;> (first | (simp [h]; done) | (have h2 := State.rowRead_some (by assumption); simp [h, h2]))

@[simp] theorem State.issueOne_still (s : State) (q : Nat) (ecc : CacheEcc) (errs : List (Fin 136 × CaseErr)) (halve : Bool) : (s.issueOne q ecc errs halve).still = s.still := by
  unfold State.issueOne
  split
  · rfl
  · dsimp only
    split
    · simp
    · split
      · split <;> simp
      · rw [State.issueAs_still _ _ _ _ _ _ _ _ _ _ _ (by split <;> simp)]; simp

@[simp] theorem State.fillData_still (s : State) (q : Nat) (u : Lookup) (data : Bytes) : (State.fillData s q u data).still = s.still := by
  unfold State.fillData; dsimp only; (repeat' split) <;> simp

@[simp] theorem State.takeRow_still (s : State) (q : Nat) (d : SDesc) (u : Lookup) (data : Bytes) : (State.takeRow s q d u data).still = s.still := by
  unfold State.takeRow; dsimp only; (repeat' split) <;> simp

@[simp] theorem State.tileFault_still (s : State) (p code lo hi : Nat) : (State.tileFault s p code lo hi).still = s.still := by
  unfold State.tileFault; simp

@[simp] theorem State.caseFault_still (s : State) (p addr : Nat) : (State.caseFault s p addr).still = s.still := by
  unfold State.caseFault; simp

@[simp] theorem State.caseRead_still (s : State) (p : Nat) (ranges : List (Nat × Nat)) (errs : List CaseErr) : (State.caseRead s p ranges errs).1.still = s.still := by
  unfold State.caseRead; simp

@[simp] theorem State.advance_still (s : State) (p : Nat) : (State.advance s p).still = s.still := by
  unfold State.advance; simp

@[simp] theorem State.jump_still (s : State) (p target : Nat) : (State.jump s p target).still = s.still := by
  unfold State.jump; simp

@[simp] theorem State.issueRaw_still (s : State) (p op : Nat) (b : Body) (wait : Tile → Bool) (chk : Tile → List PFault) (eff : Tile → State) (h_eff : ∀ a0, (eff a0).still = s.still) : (State.issueRaw s p op b wait chk eff).still = s.still := by
  unfold State.issueRaw; dsimp only; (repeat' split) <;> simp_all

@[simp] theorem State.goOn_still (s : State) (p : Nat) : (State.goOn s p).still = s.still := by
  unfold State.goOn; simp

@[simp] theorem State.issue_still (s : State) (p op : Nat) (b : Body) (wait : Tile → Bool) (chk : Tile → List PFault) (eff : Tile → State) (h_eff : ∀ a0, (eff a0).still = s.still) : (State.issue s p op b wait chk eff).still = s.still := by
  unfold State.issue; simp_all

@[simp] theorem State.readThen_still (s : State) (p : Nat) (ranges : List (Nat × Nat)) (errs : List CaseErr) (f : Tile → Tile) : (State.readThen s p ranges errs f).still = s.still := by
  unfold State.readThen
  split
  · rename_i h; rw [State.caseFault_still, ← s.caseRead_still p ranges errs, h]
  · rename_i h; rw [State.goOn_still, State.modTile_still, ← s.caseRead_still p ranges errs, h]

end Sys2Proof.Machine
end

