-- ==== Sys2Proof/Laws/Tiles.lean ====
section
/-! SUPPORT. What issuing an instruction does, and which parts of a tile an update leaves alone. -/

namespace Sys2Proof.Machine

/-- Replacing one tile leaves every other. -/
theorem tilesBut_set (s u : State) (p : Nat) (t : Tile) (h : u.tiles = (s.setTile p t).tiles) : tilesBut s u p := by
  intro q hq
  simp [State.tile, h, kvGet_kvSet_ne _ _ _ hq]

/-- A tile that was replaced reads back. -/
@[simp] theorem tile_setTile (s : State) (p : Nat) (t : Tile) : (s.setTile p t).tile p = t := by simp [State.tile]

/-- Another tile reads as before. -/
theorem tile_setTile_ne (s : State) (p q : Nat) (t : Tile) (h : q ≠ p) : (s.setTile p t).tile q = s.tile q := by simp [State.tile, kvGet_kvSet_ne _ _ _ h]

/-- A tile that has an instruction at its PC runs. -/
theorem wordAt_run {s : State} {p : Nat} {w : BitVec 64} (h : s.wordAt p = some w) : (s.tile p).run = .running := by
  unfold State.wordAt at h
  dsimp only at h
  split at h
  · rename_i h2; exact h2.1
  · cases h

/-- A register write leaves the run state. -/
@[simp] theorem setReg_run (t : Tile) (r v : Nat) : (t.setReg r v).run = t.run := by unfold Tile.setReg; split <;> rfl

/-- A descriptor write leaves the run state. -/
@[simp] theorem setDesc_run (t : Tile) (r : Nat) (v : DescWord) : (t.setDesc r v).run = t.run := rfl

/-- A stream write leaves the run state. -/
@[simp] theorem setStream_run (t : Tile) (r v : Nat) : (t.setStream r v).run = t.run := rfl

/-- A bank write leaves the run state. -/
@[simp] theorem setBank_run (t : Tile) (b : Bool) (k : Bank) : (t.setBank b k).run = t.run := by unfold Tile.setBank; split <;> rfl

/-- An instruction at the PC with no failing check that need not wait has its effect (R107). -/
theorem issueRaw_ok {s : State} {p op : Nat} {b : Body} {w : Tile → Bool} {c : Tile → List PFault} {e : Tile → State} (h : atPC s p op b) (hc : c (s.tile p) = []) (hw : w (s.tile p) = false) :
    s.issueRaw p op b w c e = e (s.tile p) := by
  obtain ⟨x, h1, h2⟩ := h
  simp [State.issueRaw, h1, h2, hc, worstFault, hw]

/-- An instruction with a failing check faults the tile with the lowest code (R102). -/
theorem issueRaw_bad {s : State} {p op : Nat} {b : Body} {w : Tile → Bool} {c : Tile → List PFault} {e : Tile → State} {f} (h : atPC s p op b) (hc : worstFault (c (s.tile p)) = some f) :
    s.issueRaw p op b w c e = s.tileFault p f.code (s.tile p).pc f.info := by
  obtain ⟨x, h1, h2⟩ := h
  simp [State.issueRaw, h1, h2, hc]

/-- The same, for an instruction after which the tile goes on. -/
theorem issue_ok {s : State} {p op : Nat} {b : Body} {w : Tile → Bool} {c : Tile → List PFault} {e : Tile → State} (h : atPC s p op b) (hc : c (s.tile p) = []) (hw : w (s.tile p) = false) :
    s.issue p op b w c e = (e (s.tile p)).goOn p := issueRaw_ok h hc hw

/-- A running tile goes on to its next instruction. -/
theorem goOn_ok {s : State} {p : Nat} (h : (s.tile p).run = .running) : s.goOn p = s.advance p := by simp [State.goOn, h]

/-- A tile at an instruction runs. -/
theorem atPC_run {s : State} {p op : Nat} {b : Body} (h : atPC s p op b) : (s.tile p).run = .running := by obtain ⟨w, h, -⟩ := h; exact wordAt_run h

/-- A memory without poison has no bad word. -/
theorem firstBad_nil (m : Ram) (h : m.poison = []) (r) : firstBad m r = none := by simp [firstBad, h]

/-- A read that meets no new Case error looks for poison. -/
theorem caseRead_nil (s : State) (p : Nat) (r) : s.caseRead p r [] = (s, firstBad (s.tile p).mem r) := rfl

/-- A read that meets no poison hands on what it read. -/
theorem readThen_ok {s : State} {p : Nat} {r} {f} (h : firstBad (s.tile p).mem r = none) : s.readThen p r [] f = (s.modTile p f).goOn p := by simp [State.readThen, caseRead_nil, h]

/-- The errors that a Case read meets change registers and letters, and of the tiles the reading one's Case alone (R77). -/
theorem State.caseErrors_shape (s : State) (p : Nat) (errs : List CaseErr) :
    ∃ r l w u x m, s.caseErrors p errs = { s with regs := r, letters := l, withheld := w, subs := u, tiles := x } ∧
      (s.caseErrors p errs).tile p = { s.tile p with mem := m } ∧ ∀ q, q ≠ p → (s.caseErrors p errs).tile q = s.tile q := by
  unfold State.caseErrors
  induction errs generalizing s with
  | nil => exact ⟨_, _, _, _, _, (s.tile p).mem, rfl, rfl, fun _ _ => rfl⟩
  | cons e es ih =>
    rw [List.foldl_cons]
    by_cases he : e.ue = true
    · rw [if_pos he]
      obtain ⟨r, l, w, u, x, m, h, h1, h2⟩ := ih (s.modTile p (fun t => { t with mem := t.mem.taint (e.addr / 8) }))
      refine ⟨r, l, w, u, x, m, by rw [h]; rfl, ?_, fun q hq => ?_⟩
      · rw [h1]; simp [State.modTile]
      · rw [h2 q hq]; exact tile_setTile_ne _ _ _ _ hq
    · rw [if_neg he]
      obtain ⟨r0, l0, w0, u0, h0⟩ := State.latchAt_shape (s.bump (pgPRS p) 0x060 1) (pgPRS p) 3 (s.tile p).step
      obtain ⟨r, l, w, u, x, m, h, h1, h2⟩ := ih ((s.bump (pgPRS p) 0x060 1).latchAt (pgPRS p) 3 (s.tile p).step)
      have ht : ∀ q, ((s.bump (pgPRS p) 0x060 1).latchAt (pgPRS p) 3 (s.tile p).step).tile q = s.tile q := by intro q; rw [h0]; rfl
      refine ⟨r, l, w, u, x, m, by rw [h, h0]; rfl, by rw [h1, ht], fun q hq => by rw [h2 q hq, ht]⟩

/-- What a Case read does to the machine (R77): the same, whatever it meets. -/
theorem State.caseRead_shape (s : State) (p : Nat) (ranges : List (Nat × Nat)) (errs : List CaseErr) :
    ∃ r l w u x m, (s.caseRead p ranges errs).1 = { s with regs := r, letters := l, withheld := w, subs := u, tiles := x } ∧
      ((s.caseRead p ranges errs).1).tile p = { s.tile p with mem := m } ∧ ∀ q, q ≠ p → ((s.caseRead p ranges errs).1).tile q = s.tile q := by
  unfold State.caseRead; exact State.caseErrors_shape s p _

/-- A read that meets no poison leaves the tile running. -/
theorem State.caseRead_run {s x : State} {p : Nat} {ranges : List (Nat × Nat)} {errs : List CaseErr} {o : Option Nat} (h : s.caseRead p ranges errs = (x, o)) :
    (x.tile p).run = (s.tile p).run := by
  obtain ⟨r, l, w, u, y, m, -, h1, -⟩ := State.caseRead_shape s p ranges errs
  rw [h] at h1
  simp only at h1
  rw [h1]

/-- A read that meets no poison hands on what it read, whatever errors it corrected. -/
theorem readThen_none {s x : State} {p : Nat} {r} {errs : List CaseErr} {f} (h : s.caseRead p r errs = (x, none)) : s.readThen p r errs f = (x.modTile p f).goOn p := by simp [State.readThen, h]

/-- A fold of updates that each leave the run state leaves it. -/
theorem foldl_run {α : Type} (f : Tile → α → Tile) (hf : ∀ t a, (f t a).run = t.run) (l : List α) (t : Tile) : (l.foldl f t).run = t.run := by
  induction l generalizing t with
  | nil => rfl
  | cons a r ih => rw [List.foldl_cons, ih, hf]

/-- A write of the sequencer area leaves the run state. -/
@[simp] theorem setSeqWord_run (t : Tile) (v : Nat) : (t.setSeqWord v).run = t.run := by
  unfold Tile.setSeqWord
  rw [foldl_run]
  intro _ _
  rfl

/-- A write of a piece of the state block leaves the run state. -/
@[simp] theorem sbPut_run (t : Tile) (b v : Nat) : (t.sbPut b v).run = t.run := by
  unfold Tile.sbPut
  (repeat' split) <;> simp

/-- A write of a byte of the state block leaves the run state. -/
@[simp] theorem setStateByte_run (t : Tile) (off : Nat) (v : Byte) : (t.setStateByte off v).run = t.run := by
  unfold Tile.setStateByte
  cases sbPiece off with
  | mk b n =>
    dsimp only
    split <;> simp

/-- A write into the Case or the views leaves the run state. -/
theorem setByteAt_run (t : Tile) (a : Nat) (v : Byte) : (t.setByteAt a v).run = t.run := by
  unfold Tile.setByteAt
  cases regionOf a <;> simp

/-- The same for several bytes. -/
@[simp] theorem writeAt_run (t : Tile) (a : Nat) (bs : Bytes) : (t.writeAt a bs).run = t.run := by
  unfold Tile.writeAt
  split
  · rfl
  · exact foldl_run _ (fun u q => setByteAt_run u _ _) _ _

end Sys2Proof.Machine
end

