-- ==== Sys2Proof/Laws/Commands.lean ====
section
/-! SUPPORT. What taking a command, a slice message, a row operation or a frame does, before its own effect. -/

namespace Sys2Proof.Machine

/-- A command that starts and is not refused has its own effect (R408, R412). -/
theorem cmd_ok {s : State} {q op : Nat} {c : Cmd} {f} (h : starts s q op c) : s.command q op f = f c.body (c.ret q) (s.started q c) := by
  obtain ⟨h1, h2⟩ := h
  simp [State.command, h1, h2, Cmd.ret]

/-- A delivered SLICE packet of the kind has its effect and is answered OK (R313). -/
theorem slice_ok {s x : State} {k : Nat} {o : OutPkt} {f} (h : s.sliceIn k = some (o, x)) : s.slice k f = (f o.pkt x).reply o stOK [] := by
  unfold State.sliceIn at h
  split at h
  · cases h
  · simp_all [State.slice]

/-- A management command that finds the mailbox free, at its start or after waiting for it, has its own effect (R36, R455). -/
theorem mail_ok {s : State} {q op : Nat} {c : Cmd} {f} (h : mails s q op c) : s.mgmtCommand q op f = f c.body (c.ret q) (s.mailed q c) := by
  obtain ⟨h1, h2⟩ := h
  unfold State.mgmtCommand State.mailed
  cases hm : s.spv.mwait with
  | nil =>
    rw [hm] at h2
    obtain ⟨h3, h4⟩ : starts s q op c := by simpa using h2
    have e1 : (s.started q c).spv.mbox = none := by
      unfold State.started; dsimp only; split <;> exact h1
    simp only [h1, h3, h4, e1]
    rfl
  | cons a r =>
    rw [hm] at h2
    obtain ⟨h3, h4, h5⟩ : a = (q, c) ∧ c.op = op ∧ s.spv.paused = false := by simpa using h2
    subst h3
    simp only [h1, h4, h5]
    rfl

/-- The next operation of an Inker is taken from its queue, where no commit or restore of an older step comes first (R38, R209). -/
theorem runOp_ok {s : State} {ink i : Nat} {o : RowOp} {ks f} (h : s.nextOp ink = some (i, o)) (hk : ks.contains o.kind = true) (hi : s.itemFirst ink o.step = false) : s.runOp ink ks f = f o (s.takeOp ink i) := by
  simp only [State.runOp, h, hk, hi]; rfl

/-- A sound frame for a live queue pair has its effect (R401). -/
theorem onQp_ok {s x : State} {qp : Nat} {f : FrameInfo} {k : Qp} {g} (h : s.qp? qp = some k) (h1 : k.live = true) (h2 : s.frameIn f k.prio = (x, true)) : s.onQp qp f g = g k x := by
  simp [State.onQp, h, h1, h2]

end Sys2Proof.Machine
end

