-- ==== Sys2Proof/Laws/Lines.lean ====
section
/-! SUPPORT. What line operations change: the bytes and tags of DRAM and the channels, never what else State holds (R243 to R249), nor which controllers are shut (R255). -/

namespace Sys2Proof.Machine

/-- Only DRAM and its channels differ. -/
def linesOnly (s u : State) : Prop := u = { s with dram := u.dram, mem := { s.mem with chans := u.mem.chans } }

theorem linesOnly.refl (s : State) : linesOnly s s := rfl

theorem linesOnly.trans {s t u : State} (h : linesOnly s t) (k : linesOnly t u) : linesOnly s u := by
  unfold linesOnly at *
  rw [k, h]

theorem linesOnly.foldl {α : Type} {g : State → α → State} (l : List α) (h : ∀ x a, linesOnly x (g x a)) (s : State) : linesOnly s (l.foldl g s) := by
  induction l generalizing s with
  | nil => exact .refl s
  | cons a l ih => exact (h s a).trans (ih _)

theorem State.lineRead_lines (s : State) (off : Nat) : linesOnly s (s.lineRead off) := rfl

theorem State.linePoison_lines (s : State) (off : Nat) : linesOnly s (s.linePoison off) := rfl

theorem State.lineLoad_lines (s : State) (off : Nat) : linesOnly s (s.lineLoad off) := by
  unfold State.lineLoad
  split
  · exact .refl s
  · split
    · exact (s.lineRead_lines off).trans (State.linePoison_lines _ off)
    · exact s.lineRead_lines off

/-- A read of a range counts in its channels, and changes no byte. -/
theorem State.dramLoad_lines (s : State) (off n : Nat) : linesOnly s (s.dramLoad off n).2.2 := by
  unfold State.dramLoad
  exact linesOnly.foldl (lineParts off n) (fun x p => State.lineLoad_lines x p.1) s

theorem State.linePut_lines (s : State) (off : Nat) (bs : Bytes) : linesOnly s (s.linePut off bs).1 := by
  unfold State.linePut
  split <;> rfl

theorem State.lineWrite_lines (s : State) (off : Nat) (bs : Bytes) : linesOnly s (s.lineWrite off bs).1 := by
  unfold State.lineWrite
  split
  · exact .refl s
  · split
    · exact s.linePut_lines off bs
    · exact (s.lineLoad_lines off).trans (State.linePut_lines _ off bs)

/-- A write of a range changes DRAM and its channels alone. -/
theorem State.dramStore_lines (s : State) (off : Nat) (bs : Bytes) : linesOnly s (s.dramStore off bs).1 := by
  unfold State.dramStore
  generalize lineParts off bs.length = l
  suffices h : ∀ (l : List (Nat × Nat)) (a : State × Bool), linesOnly a.1 (l.foldl (fun (a : State × Bool) p =>
      let (t, b) := a.1.lineWrite p.1 ((bs.drop (p.1 - off)).take p.2)
      (t, a.2 || b)) a).1 from h l (s, false)
  intro l
  induction l with
  | nil => exact fun a => .refl a.1
  | cons p l ih => exact fun a => (a.1.lineWrite_lines p.1 _).trans (ih _)

theorem State.lineLoad_dram (s : State) (off : Nat) : (s.lineLoad off).dram = s.dram := by
  unfold State.lineLoad
  split
  · rfl
  · split <;> rfl

theorem Ram.write_poison (m : Ram) (a : Nat) (bs : Bytes) : (m.write a bs).poison = m.poison := by
  induction bs generalizing m a with
  | nil => rfl
  | cons b r ih => exact ih _ _

theorem State.linePut_poison (s : State) (off : Nat) (bs : Bytes) {k : Nat} (h : k ∈ (s.linePut off bs).1.dram.poison) : k ∈ s.dram.poison := by
  unfold State.linePut at h
  split at h
  · exact h
  · have h : k ∈ (s.dram.writeClean 64 off bs).poison := h
    rw [Ram.writeClean] at h
    exact Ram.write_poison s.dram off bs ▸ (List.mem_filter.mp h).1

theorem State.lineWrite_poison (s : State) (off : Nat) (bs : Bytes) {k : Nat} (h : k ∈ (s.lineWrite off bs).1.dram.poison) : k ∈ s.dram.poison := by
  unfold State.lineWrite at h
  split at h
  · exact h
  · have h := State.linePut_poison _ off bs h
    split at h
    · exact h
    · exact s.lineLoad_dram off ▸ h

/-- A write poisons no line. -/
theorem State.dramStore_poison (s : State) (off : Nat) (bs : Bytes) {k : Nat} (h : k ∈ (s.dramStore off bs).1.dram.poison) : k ∈ s.dram.poison := by
  unfold State.dramStore at h
  suffices g : ∀ (l : List (Nat × Nat)) (a : State × Bool), k ∈ (l.foldl (fun (a : State × Bool) p =>
      let (t, b) := a.1.lineWrite p.1 ((bs.drop (p.1 - off)).take p.2)
      (t, a.2 || b)) a).1.dram.poison → k ∈ a.1.dram.poison from g _ (s, false) h
  intro l
  induction l with
  | nil => exact fun _ h => h
  | cons p l ih =>
    intro a h
    have h := ih _ h
    exact a.1.lineWrite_poison p.1 _ h

end Sys2Proof.Machine
end

