-- ==== Sys2Proof/Laws/Pages.lean ====
section
/-! SUPPORT. Which block and instance each page is (R437, R461). -/

namespace Sys2Proof.Machine

@[simp] theorem pageBlk_pgGLB : pageBlk pgGLB = some (.glb, 0) := rfl
@[simp] theorem pageBlk_pgSPN : pageBlk pgSPN = some (.spn, 0) := rfl
@[simp] theorem pageBlk_pgRTE : pageBlk pgRTE = some (.rte, 0) := rfl
@[simp] theorem pageBlk_pgCOL : pageBlk pgCOL = some (.col, 0) := rfl
@[simp] theorem pageBlk_pgETH : pageBlk pgETH = some (.eth, 0) := rfl
@[simp] theorem pageBlk_pgSPV : pageBlk pgSPV = some (.spv, 0) := rfl
@[simp] theorem pageBlk_pgPMS : pageBlk pgPMS = some (.pms, 0) := rfl
@[simp] theorem pageBlk_pgSEL : pageBlk pgSEL = some (.sel, 0) := rfl
@[simp] theorem pageBlk_pgLDG : pageBlk pgLDG = some (.ldg, 0) := rfl
@[simp] theorem pageBlk_pgDTL : pageBlk pgDTL = some (.dtl, 0) := rfl
@[simp] theorem pageBlk_pgPWR : pageBlk pgPWR = some (.pwr, 0) := rfl
@[simp] theorem pageBlk_pgFMN : pageBlk pgFMN = some (.fmn, 0) := rfl
@[simp] theorem pageBlk_pgIMP : pageBlk pgIMP = some (.imp, 0) := rfl
@[simp] theorem pageBlk_pgNUM : pageBlk pgNUM = some (.num, 0) := rfl
@[simp] theorem pageBlk_pgPRS (t : Fin 136) : pageBlk (pgPRS t.val) = some (.prs, t.val) := by revert t; decide +kernel
@[simp] theorem pageBlk_pgSRT (i : Fin 8) : pageBlk (pgSRT i.val) = some (.srt, i.val) := by revert i; decide +kernel
@[simp] theorem pageBlk_pgINK (i : Fin 128) : pageBlk (pgINK i.val) = some (.ink, i.val) := by revert i; decide +kernel
@[simp] theorem pageBlk_pgMEM (i : Fin 16) : pageBlk (pgMEM i.val) = some (.mem, i.val) := by revert i; decide +kernel
@[simp] theorem pageBlk_pgPGH (i : Fin 2) : pageBlk (pgPGH i.val) = some (.pgh, i.val) := by revert i; decide +kernel
@[simp] theorem pageBlk_pgPPT (i : Fin 12) : pageBlk (pgPPT i.val) = some (.ppt, i.val) := by revert i; decide +kernel
@[simp] theorem pageBlk_pgPRF (i : Fin 13) : pageBlk (pgPRF i.val) = some (.prf, i.val) := by revert i; decide +kernel
@[simp] theorem pageBlk_pgPMK (i : Fin 16) : pageBlk (pgPMK i.val) = some (.pmk, i.val) := by revert i; decide +kernel

end Sys2Proof.Machine
end

