-- ==== Sys2Proof/Laws/Ram.lean ====
section
/-! SUPPORT. Laws of byte memories: a read after a write, every other byte, and the canonical form that every operation keeps. -/

namespace Sys2Proof.Machine

theorem cellGet_filter (m : List Host.Cell) (f : Nat → Bool) (a : Nat) (h : f a = true) : cellGet (m.filter (fun c => f c.1)) a = cellGet m a := by
  induction m with
  | nil => rfl
  | cons p r ih =>
    obtain ⟨k, v⟩ := p
    by_cases hk : a = k
    · subst hk; simp [h, cellGet]
    · by_cases hf : f k = true
      · simp [hf, cellGet, hk, ih]
      · simp [hf, cellGet, hk, ih]

theorem cellGet_filter_out (m : List Host.Cell) (f : Nat → Bool) (a : Nat) (h : f a = false) : cellGet (m.filter (fun c => f c.1)) a = unwritten := by
  induction m with
  | nil => rfl
  | cons p r ih =>
    obtain ⟨k, v⟩ := p
    by_cases hf : f k = true
    · have : a ≠ k := by rintro rfl; simp_all
      simp [hf, cellGet, this, ih]
    · simp [hf, ih]

theorem cellGet_cellPut (m : List Host.Cell) (a j : Nat) (b : Byte) : cellGet (cellPut m a b) j = if j = a then b else cellGet m j := by
  induction m with
  | nil => simp [cellPut, cellGet]
  | cons p r ih =>
    obtain ⟨k, v⟩ := p
    simp only [cellPut]
    split
    · simp only [cellGet]
    · split
      · simp only [cellGet]; split <;> simp_all
      · simp only [cellGet, ih]
        by_cases hk : j = k
        · have : j ≠ a := by omega
          simp [hk, Ne.symm ‹¬a = k›]
        · simp [hk]

/-- A byte after a write: the one written is the new one, every other is as before. -/
theorem cellGet_cellSet (m : List Host.Cell) (a j : Nat) (b : Byte) : cellGet (cellSet m a b) j = if j = a then b else cellGet m j := by
  unfold cellSet
  split
  · rename_i hb
    by_cases h : j = a
    · subst h
      have := cellGet_filter_out m (fun k => k != j) j (by simp)
      simpa [hb] using this
    · have := cellGet_filter m (fun k => k != a) j (by simpa using h)
      simpa [h] using this
  · exact cellGet_cellPut m a j b

@[simp] theorem Ram.get_set_self (m : Ram) (a : Nat) (b : Byte) : (m.set a b).get a = b := by simp [Ram.get, Ram.set, cellGet_cellSet]
theorem Ram.get_set_ne (m : Ram) {a j : Nat} (b : Byte) (h : j ≠ a) : (m.set a b).get j = m.get j := by simp [Ram.get, Ram.set, cellGet_cellSet, h]

/-- Every byte outside the written range reads as before. -/
theorem Ram.get_write_out (m : Ram) (a : Nat) (bs : Bytes) (j : Nat) (h : j < a ∨ a + bs.length ≤ j) : (m.write a bs).get j = m.get j := by
  induction bs generalizing m a with
  | nil => rfl
  | cons b r ih =>
    simp only [List.length_cons] at h
    simp only [Ram.write]
    rw [ih (m.set a b) (a + 1) (by omega), Ram.get_set_ne _ _ (by omega)]

theorem Ram.read_length (m : Ram) (a n : Nat) : (m.read a n).length = n := by
  induction n generalizing a with
  | zero => rfl
  | succ n ih => simp [Ram.read, ih]

/-- A read after a write to the same bytes gives what was written. -/
theorem Ram.read_write (m : Ram) (a : Nat) (bs : Bytes) : (m.write a bs).read a bs.length = bs := by
  induction bs generalizing m a with
  | nil => rfl
  | cons b r ih =>
    simp only [Ram.write, List.length_cons, Ram.read, ih (m.set a b) (a + 1), List.cons.injEq, and_true]
    rw [Ram.get_write_out _ _ _ _ (by omega), Ram.get_set_self]

theorem cellsOk_cons (lo : Option Nat) (k : Nat) (v : Byte) (r : List Host.Cell) :
    cellsOk lo ((k, v) :: r) = true ↔ (∀ l, lo = some l → l < k) ∧ v ≠ unwritten ∧ cellsOk (some k) r = true := by
  cases lo <;> simp [cellsOk, and_assoc]

theorem cellsOk_loosen (m : List Host.Cell) (lo hi : Option Nat) (h : ∀ l, lo = some l → ∃ u, hi = some u ∧ l ≤ u) (hm : cellsOk hi m = true) : cellsOk lo m = true := by
  cases m with
  | nil => rfl
  | cons p r =>
    obtain ⟨k, v⟩ := p
    rw [cellsOk_cons] at *
    refine ⟨fun l hl => ?_, hm.2⟩
    obtain ⟨u, hu, hlu⟩ := h l hl
    have := hm.1 u hu
    omega

theorem cellsOk_filter (lo : Option Nat) (m : List Host.Cell) (f : Host.Cell → Bool) (h : cellsOk lo m = true) : cellsOk lo (m.filter f) = true := by
  induction m generalizing lo with
  | nil => exact h
  | cons p r ih =>
    obtain ⟨k, v⟩ := p
    rw [cellsOk_cons] at h
    rw [List.filter_cons]
    split
    · rw [cellsOk_cons]; exact ⟨h.1, h.2.1, ih _ h.2.2⟩
    · exact ih _ (cellsOk_loosen r lo (some k) (fun l hl => ⟨k, rfl, Nat.le_of_lt (h.1 l hl)⟩) h.2.2)

theorem cellsOk_put (lo : Option Nat) (m : List Host.Cell) (a : Nat) (b : Byte) (hb : b ≠ unwritten) (hlo : ∀ l, lo = some l → l < a)
    (h : cellsOk lo m = true) : cellsOk lo (cellPut m a b) = true := by
  induction m generalizing lo with
  | nil => exact (cellsOk_cons lo a b []).2 ⟨hlo, hb, rfl⟩
  | cons p r ih =>
    obtain ⟨k, v⟩ := p
    rw [cellsOk_cons] at h
    simp only [cellPut]
    split
    · rw [cellsOk_cons, cellsOk_cons]
      exact ⟨hlo, hb, by rintro l ⟨⟩; assumption, h.2⟩
    · split
      · subst_vars; rw [cellsOk_cons]; exact ⟨hlo, hb, h.2.2⟩
      · rw [cellsOk_cons]; exact ⟨h.1, h.2.1, ih (some k) (by rintro l ⟨⟩; omega) h.2.2⟩

theorem rising_cons (lo : Option Nat) (k : Nat) (r : List Nat) : rising lo (k :: r) = true ↔ (∀ l, lo = some l → l < k) ∧ rising (some k) r = true := by
  cases lo <;> simp [rising]

theorem rising_loosen (m : List Nat) (lo hi : Option Nat) (h : ∀ l, lo = some l → ∃ u, hi = some u ∧ l ≤ u) (hm : rising hi m = true) : rising lo m = true := by
  cases m with
  | nil => rfl
  | cons k r =>
    rw [rising_cons] at *
    refine ⟨fun l hl => ?_, hm.2⟩
    obtain ⟨u, hu, hlu⟩ := h l hl
    have := hm.1 u hu
    omega

theorem rising_filter (lo : Option Nat) (m : List Nat) (f : Nat → Bool) (h : rising lo m = true) : rising lo (m.filter f) = true := by
  induction m generalizing lo with
  | nil => exact h
  | cons k r ih =>
    rw [rising_cons] at h
    rw [List.filter_cons]
    split
    · rw [rising_cons]; exact ⟨h.1, ih _ h.2⟩
    · exact ih _ (rising_loosen r lo (some k) (fun l hl => ⟨k, rfl, Nat.le_of_lt (h.1 l hl)⟩) h.2)

theorem rising_setIns (lo : Option Nat) (m : List Nat) (a : Nat) (hlo : ∀ l, lo = some l → l < a) (h : rising lo m = true) : rising lo (setIns m a) = true := by
  induction m generalizing lo with
  | nil => exact (rising_cons lo a []).2 ⟨hlo, rfl⟩
  | cons k r ih =>
    have h0 := h
    rw [rising_cons] at h
    simp only [setIns]
    split
    · rw [rising_cons, rising_cons]; exact ⟨hlo, by rintro l ⟨⟩; assumption, h.2⟩
    · split
      · exact h0
      · rw [rising_cons]; exact ⟨h.1, ih (some k) (by rintro l ⟨⟩; omega) h.2⟩

theorem Ram.wf_iff (m : Ram) : m.wf = true ↔ cellsOk none m.cells = true ∧ rising none m.poison = true := by simp [Ram.wf]

@[simp] theorem Ram.wf_wiped : Ram.wiped.wf = true := rfl

theorem Ram.wf_set (m : Ram) (a : Nat) (b : Byte) (h : m.wf = true) : (m.set a b).wf = true := by
  rw [Ram.wf_iff] at *
  refine ⟨?_, h.2⟩
  simp only [Ram.set, cellSet]
  split
  · exact cellsOk_filter _ _ _ h.1
  · exact cellsOk_put _ _ _ _ (by assumption) (by simp) h.1

theorem Ram.wf_write (m : Ram) (a : Nat) (bs : Bytes) (h : m.wf = true) : (m.write a bs).wf = true := by
  induction bs generalizing m a with
  | nil => exact h
  | cons b r ih => exact ih _ _ (Ram.wf_set m a b h)

theorem Ram.wf_writeLE (m : Ram) (a n v : Nat) (h : m.wf = true) : (m.writeLE a n v).wf = true := Ram.wf_write m a _ h

theorem Ram.wf_taint (m : Ram) (u : Nat) (h : m.wf = true) : (m.taint u).wf = true := by
  rw [Ram.wf_iff] at *; exact ⟨h.1, rising_setIns _ _ _ (by simp) h.2⟩

theorem Ram.wf_clean (m : Ram) (u : Nat) (h : m.wf = true) : (m.clean u).wf = true := by
  rw [Ram.wf_iff] at *; exact ⟨h.1, rising_filter _ _ _ h.2⟩

theorem Ram.wf_writeClean (m : Ram) (g a : Nat) (bs : Bytes) (h : m.wf = true) : (m.writeClean g a bs).wf = true := by
  have h2 := Ram.wf_write m a bs h
  rw [Ram.wf_iff] at *; exact ⟨h2.1, rising_filter _ _ _ h2.2⟩

theorem Ram.wf_zero (m : Ram) (g a n : Nat) (h : m.wf = true) : (m.zero g a n).wf = true := by
  rw [Ram.wf_iff] at *; exact ⟨cellsOk_filter _ _ _ h.1, rising_filter _ _ _ h.2⟩

/-- The DRAM of the reset state is in canonical form. -/
theorem reset_dram_wf : State.reset.dram.wf = true := rfl

end Sys2Proof.Machine
end

