-- ==== Sys2Proof/Laws/RegWrites.lean ====
section
/-! SUPPORT. Everything a register write from outside can do. -/

namespace Sys2Proof.Machine

/-- Storing the RW bits of a write replaces those bits of the register; beside it only the values held for the boundary can change. -/
theorem storeRw_shape (s : State) (p : Nat) (b : Blk) (i o v : Nat) : ∃ h, s.storeRw p b i o v = { s.setReg p o (writtenBits (s.regN p o) v (rwMask b i o)) with heldOld := h } := by
  unfold State.storeRw
  dsimp only
  split
  · exact ⟨_, rfl⟩
  · split <;> exact ⟨_, rfl⟩

/-- Where no bit waits for the boundary, only the register changes. -/
theorem storeRw_plain (s : State) (p : Nat) (b : Blk) (i o v : Nat) (h : boundMask b o = 0) : s.storeRw p b i o v = s.setReg p o (writtenBits (s.regN p o) v (rwMask b i o)) := by
  unfold State.storeRw
  simp [h, writtenBits, State.setN]

/-- A write that nothing refuses is made, and answers 0. -/
theorem softWrite_ok (s : State) (p o v : Nat) (h : s.regCheck p o v true = 0) : s.softWrite p o v = { s.regApply p o v true with answer := 0 } := by
  simp [State.softWrite, State.regWrite, h]

/-- A refused write changes nothing but the answer. -/
theorem softWrite_no (s : State) (p o v : Nat) (h : s.regCheck p o v true ≠ 0) : s.softWrite p o v = { s with answer := s.regCheck p o v true } := by
  simp [State.softWrite, State.regWrite, h]

/-- Writing one register leaves every other. -/
theorem regsBut_setReg (s u : State) (p o : Nat) (v : Word) (h : u.regs = (s.setReg p o v).regs) : regsBut s u [(p, o)] := by
  intro q k hk
  simp at hk
  have := State.reg_setReg_ne s v hk
  simpa [State.reg, h] using this

end Sys2Proof.Machine
end

