-- ==== Sys2Proof/Laws/StillPlates.lean ====
section
/-! SUPPORT. What the operations of PlatenRows, StickRows, MoveRows leave alone: each keeps `State.still`. -/

namespace Sys2Proof.Machine

@[simp] theorem State.readVecs_still (s : State) (p st n : Nat) (u : Tile) (errs : List CaseErr) (f : List (List Nat) → Tile → Tile) : (State.readVecs s p st n u errs f).still = s.still := by
  unfold State.readVecs; simp

@[simp] theorem State.stallOnce_still (s : State) (p bit : Nat) (f : State → State) (h_f : ∀ a0, (f a0).still = a0.still) : (State.stallOnce s p bit f).still = s.still := by
  unfold State.stallOnce; simp_all

@[simp] theorem State.pushMove_still (s : State) (p grp : Nat) (kind : MoveKind) (parts : Nat) (ready : Bool) : (State.pushMove s p grp kind parts ready).still = s.still := by
  unfold State.pushMove; simp

@[simp] theorem State.moveIssue_still (s : State) (p : Nat) (remote : Bool) (f : State → State) (h_f : ∀ a0, (f a0).still = a0.still) : (State.moveIssue s p remote f).still = s.still := by
  unfold State.moveIssue; simp_all

@[simp] theorem State.moveLine_still (s : State) (p : Nat) (out : Bool) (errs : List CaseErr) (gl ga st : Nat) : (State.moveLine s p out errs gl ga st).1.still = s.still := by
  unfold State.moveLine; dsimp only; (repeat' split) <;> simp

@[simp] theorem State.performMove_still (s : State) (p : Nat) (errs : List CaseErr) (m : Move) : (State.performMove s p errs m).1.still = s.still := by
  unfold State.performMove
  split
  · split
    · rfl
    · split <;> (rename_i h; have h1 := congrArg (fun a => a.1.still) h; dsimp only at h1; simp only [apply_ite Prod.fst, still_ite, State.caseRead_still, ite_self] at h1; simp [← h1])
  · split <;> simp
  · rfl

@[simp] theorem State.holdOn_still (s : State) (p : Nat) (w : Wait) : (State.holdOn s p w).still = s.still := by
  unfold State.holdOn; simp

@[simp] theorem State.saveFault_still (s : State) (p area n : Nat) : (State.saveFault s p area n).still = s.still := by
  unfold State.saveFault; split <;> simp

end Sys2Proof.Machine
end

