-- ==== Sys2Proof/Laws/StillSheets.lean ====
section
/-! SUPPORT. What the operations of SheetRows, RegView, RegOps, NetRows leave alone: each keeps `State.still`. -/

namespace Sys2Proof.Machine

@[simp] theorem State.imageChecked_still (s : State) (crc : Nat) (good : Bool) : (State.imageChecked s crc good).still = s.still := by
  unfold State.imageChecked; simp

@[simp] theorem State.regRead_still (s : State) (page off : Nat) : (State.regRead s page off).2.still = s.still := by
  unfold State.regRead; dsimp only; (repeat' split) <;> simp

@[simp] theorem State.setPower_still (s : State) (f : Power → Power) (h : (f s.power).good = s.power.good) (h2 : (f s.power).strap = s.power.strap) (h3 : (f s.power).thermN = s.power.thermN) : (s.setPower f).still = s.still := by
  simp [State.setPower, h, h2, h3]

@[simp] theorem State.setMgmt_still (s : State) (f : Mgmt → Mgmt) : (State.setMgmt s f).still = s.still := by
  unfold State.setMgmt; simp

@[simp] theorem State.setEth_still (s : State) (f : Eth → Eth) : (State.setEth s f).still = s.still := by
  unfold State.setEth; simp

@[simp] theorem State.dropQp_still (s : State) (qp : Nat) : (State.dropQp s qp).still = s.still := by
  unfold State.dropQp; split <;> simp

@[simp] theorem State.dropAllQps_still (s : State) : (State.dropAllQps s).still = s.still := by
  unfold State.dropAllQps; simp

@[simp] theorem State.ethLeave_still (s : State) (link : Nat) : (State.ethLeave s link).still = s.still := by
  unfold State.ethLeave; simp

@[simp] theorem State.storeRw_still (s : State) (page : Nat) (b : Blk) (i off v : Nat) : (State.storeRw s page b i off v).still = s.still := by
  unfold State.storeRw; simp

@[simp] theorem State.followReq_still (s : State) (b : Blk) (i : Nat) : (State.followReq s b i).still = s.still := by
  unfold State.followReq; simp

@[simp] theorem State.tileStop_still (s : State) (p : Nat) (stop : Bool) : (State.tileStop s p stop).still = s.still := by
  unfold State.tileStop; simp

@[simp] theorem State.setPmk_still (s : State) (u v : Nat) : (State.setPmk s u v).still = s.still := by
  unfold State.setPmk; simp

@[simp] theorem State.pmkCompare_still (s : State) (u : Nat) : (State.pmkCompare s u).still = s.still := by
  unfold State.pmkCompare; simp

@[simp] theorem State.pmkCtrl_still (s : State) (u v : Nat) : (State.pmkCtrl s u v).still = s.still := by
  unfold State.pmkCtrl; simp

@[simp] theorem State.pmkSet_still (s : State) (u off v : Nat) : (State.pmkSet s u off v).still = s.still := by
  unfold State.pmkSet; simp

@[simp] theorem State.prfCtrl_still (s : State) (i v : Nat) : (State.prfCtrl s i v).still = s.still := by
  unfold State.prfCtrl; simp

@[simp] theorem State.cfgStage_still (s : State) (v : Nat) : (State.cfgStage s v).still = s.still := by
  unfold State.cfgStage; simp

@[simp] theorem State.ldgCtrl_still (s : State) (v : Nat) : (State.ldgCtrl s v).still = s.still := by
  unfold State.ldgCtrl; simp

@[simp] theorem State.regEffect_still (s : State) (b : Blk) (i off v : Nat) : (State.regEffect s b i off v).still = s.still := by
  unfold State.regEffect; split <;> simp

@[simp] theorem State.regApply_still (s : State) (page off v : Nat) (host : Bool) : (State.regApply s page off v host).still = s.still := by
  unfold State.regApply; (repeat' split) <;> simp

@[simp] theorem State.regWrite_still (s : State) (page off v : Nat) (host : Bool) : (State.regWrite s page off v host).2.still = s.still := by
  unfold State.regWrite; dsimp only; split <;> simp

@[simp] theorem State.softWrite_still (s : State) (page off v : Nat) : (State.softWrite s page off v).still = s.still := by
  unfold State.softWrite; simp

@[simp] theorem State.aliveFail_still (s : State) (u : Nat) : (State.aliveFail s u).still = s.still := by
  unfold State.aliveFail; simp

@[simp] theorem State.byPostmaster_still (s : State) (path : Fin 4) (w : State → State) (h_w : ∀ a0, (w a0).still = a0.still) : (State.byPostmaster s path w).still = s.still := by
  unfold State.byPostmaster; split <;> simp_all

@[simp] theorem State.softRead_still (s : State) (page off : Nat) : (State.softRead s page off).still = s.still := by
  unfold State.softRead; simp

@[simp] theorem State.diagRefused_still (s : State) (off st : Nat) : (State.diagRefused s off st).2.2.still = s.still := by
  unfold State.diagRefused; simp

@[simp] theorem State.diagRead_still (s : State) (off n : Nat) : (State.diagRead s off n).2.2.still = s.still := by
  unfold State.diagRead; dsimp only; split <;> simp

@[simp] theorem State.replyPath_still (s : State) (sorter id chip : Nat) : (State.replyPath s sorter id chip).2.still = s.still := by
  unfold State.replyPath; (try dsimp only); (repeat' split) <;> simp

@[simp] theorem State.serveRead_still (s : State) (p : Packet) (errs : List CaseErr) : (State.serveRead s p errs).2.2.still = s.still := by
  unfold State.serveRead; (try dsimp only); (repeat' split) <;> simp

@[simp] theorem State.dramLines_still (s : State) (off : Nat) (bs : Bytes) (src : Nat) : (State.dramLines s off bs src).2.still = s.still := by
  unfold State.dramLines
  split
  · simp
  · refine still_foldl_snd _ _ _ fun _ _ => ?_
    split <;> simp

@[simp] theorem State.serveWrite_still (s : State) (p : Packet) : (State.serveWrite s p).2.still = s.still := by
  unfold State.serveWrite; dsimp only; (repeat' split) <;> simp

@[simp] theorem State.moveAnswer_still (s : State) (p serial off status : Nat) (good : Bool) (data : Bytes) : (State.moveAnswer s p serial off status good data).still = s.still := by
  unfold State.moveAnswer; (repeat' split) <;> simp

@[simp] theorem State.ackOne_still (s : State) (serial : Nat) : (State.ackOne s serial).still = s.still := by
  unfold State.ackOne; split <;> simp

@[simp] theorem State.parityAnswer_still (s : State) (serial : Nat) (req : Packet) (good : Bool) : (State.parityAnswer s serial req good).still = s.still := by
  unfold State.parityAnswer; (repeat' split) <;> simp

@[simp] theorem State.sliceAnswer_still (s : State) (kind n a src : Nat) (good : Bool) : (State.sliceAnswer s kind n a src good).still = s.still := by
  unfold State.sliceAnswer; simp

@[simp] theorem State.answered_still (s : State) (org : Origin) (req : Packet) (status : Nat) (data : Bytes) : (State.answered s org req status data).still = s.still := by
  unfold State.answered; split <;> simp

@[simp] theorem State.qpError_still (s : State) (qp code : Nat) : (State.qpError s qp code).still = s.still := by
  unfold State.qpError; split <;> simp

@[simp] theorem State.nak_still (s : State) (qp code : Nat) : (State.nak s qp code).still = s.still := by
  unfold State.nak; simp

@[simp] theorem State.hostWrite_still (s : State) (qp off : Nat) (bs : Bytes) : (State.hostWrite s qp off bs).still = s.still := by
  unfold State.hostWrite; simp

@[simp] theorem State.sheetsSeen_still (s : State) (es : List InstEntry) : (State.sheetsSeen s es).still = s.still := by
  unfold State.sheetsSeen; refine still_foldl _ _ _ fun _ _ => ?_; split <;> simp

@[simp] theorem State.takeShards_still (s : State) (id : Nat) : (State.takeShards s id).still = s.still := by
  unfold State.takeShards; split <;> simp

end Sys2Proof.Machine
end

