-- ==== Sys2Proof/Laws/StillSeal.lean ====
section
/-! SUPPORT. What the operations of SealOps, MemRows, HostRows, SprinovRows, SealRows leave alone: each keeps `State.still`. -/

namespace Sys2Proof.Machine

@[simp] theorem State.ledgerPut_still (s : State) (writer fails : Nat) (edit : Ram → Ram) (en : Option Endorse → Option Endorse) : (State.ledgerPut s writer fails edit en).1.still = s.still := by
  unfold State.ledgerPut; dsimp only; (repeat' split) <;> simp [State.setSel]

@[simp] theorem State.makeAlias_still (s : State) (f0 f1 : Nat) : (State.makeAlias s f0 f1).still = s.still := by
  unfold State.makeAlias; simp

@[simp] theorem State.fwReject_still (s : State) (code slot : Nat) : (State.fwReject s code slot).still = s.still := by
  unfold State.fwReject; simp

@[simp] theorem State.wipeDram_still (s : State) : (State.wipeDram s).still = s.still := by
  unfold State.wipeDram; simp

@[simp] theorem State.wipeAll_still (s : State) : (State.wipeAll s).still = s.still := by
  unfold State.wipeAll; simp

@[simp] theorem State.resetTo_still (s : State) (m : ModState) (k : Option Nat) : (State.resetTo s m k).still = s.still := by
  unfold State.resetTo; split <;> simp

@[simp] theorem State.setPhase_still (s : State) (m v : Nat) : (State.setPhase s m v).still = s.still := by
  unfold State.setPhase; simp

@[simp] theorem State.repairRow_still (s : State) (m k row : Nat) (lacking : Bool) : (State.repairRow s m k row lacking).still = s.still := by
  unfold State.repairRow; simp

@[simp] theorem State.bootDone_still (s : State) : (State.bootDone s).still = s.still := by
  unfold State.bootDone; simp

@[simp] theorem State.wipeEnds_still (s : State) (f0 f1 : Nat) : (State.wipeEnds s f0 f1).still = s.still := by
  unfold State.wipeEnds; (repeat' split) <;> simp

@[simp] theorem State.frameIn_still (s : State) (f : FrameInfo) (prio : Nat) : (State.frameIn s f prio).1.still = s.still := by
  unfold State.frameIn; dsimp only; (repeat' split) <;> simp

@[simp] theorem State.onQp_still (s : State) (qp : Nat) (f : FrameInfo) (own : Qp → State → State) (h_own : ∀ a0 a1, (own a0 a1).still = a1.still) : (State.onQp s qp f own).still = s.still := by
  unfold State.onQp; split <;> simp_all

@[simp] theorem State.sprinovDrop_still (s : State) (q op seq : Nat) : (State.sprinovDrop s q op seq).still = s.still := by
  unfold State.sprinovDrop; simp

@[simp] theorem State.sequenced_still (s : State) (q : Nat) (c : Cmd) : (State.sequenced s q c).still = s.still := by
  unfold State.sequenced; dsimp only; (repeat' split) <;> simp

@[simp] theorem State.sendLetter_still (s : State) : (State.sendLetter s).still = s.still := by
  unfold State.sendLetter; split <;> simp

@[simp] theorem State.summaries_still (s : State) : (State.summaries s).still = s.still := by
  unfold State.summaries; simp

@[simp] theorem State.setMode_still (s : State) (m : Nat) : (State.setMode s m).still = s.still := by
  unfold State.setMode; simp

@[simp] theorem State.align_still (s : State) (t : Int) (m : Nat) : (State.align s t m).still = s.still := by
  unfold State.align; simp

@[simp] theorem State.sealCall_still (s : State) : (State.sealCall s).still = s.still := by
  unfold State.sealCall; simp

@[simp] theorem State.unstage_still (s : State) (fails : Nat) : (State.unstage s fails).still = s.still := by
  unfold State.unstage; simp

@[simp] theorem State.groupDecode_still (s : State) (off : Nat) (grp : List (Fin 15 × List (Nat × Byte))) : (State.groupDecode s off grp).still = s.still := by
  unfold State.groupDecode; dsimp only; split
  · rfl
  · refine still_foldl _ _ _ fun _ _ => ?_; split <;> simp

@[simp] theorem State.openMem_still (s : State) (m : Nat) : (State.openMem s m).still = s.still := by
  unfold State.openMem; simp

end Sys2Proof.Machine
end

