-- ==== Sys2Proof/Laws/StillStart.lean ====
section
/-! SUPPORT. What the operations of PouchRows, StartRows, PowRows leave alone: each keeps `State.still`. -/

namespace Sys2Proof.Machine

@[simp] theorem State.setPouch_still (s : State) (page index : Nat) (ws : Pouch) : (State.setPouch s page index ws).still = s.still := by
  unfold State.setPouch; simp

@[simp] theorem State.sealHalt_still (s : State) : (State.sealHalt s).still = s.still := by
  unfold State.sealHalt; simp

@[simp] theorem State.runSlot_still (s : State) (slot f0 f1 : Nat) : (State.runSlot s slot f0 f1).still = s.still := by
  unfold State.runSlot; simp

@[simp] theorem State.fallBack_still (s : State) (bad fails f0 f1 : Nat) : (State.fallBack s bad fails f0 f1).still = s.still := by
  unfold State.fallBack; simp

@[simp] theorem State.settleLc_still (s : State) (fails : Nat) : (State.settleLc s fails).still = s.still := by
  unfold State.settleLc; simp

@[simp] theorem State.tileOn_still (s : State) (p : Nat) : (State.tileOn s p).still = s.still := by
  unfold State.tileOn; simp

@[simp] theorem State.loadTiles_still (s : State) : (State.loadTiles s).still = s.still := by
  unfold State.loadTiles; simp

@[simp] theorem State.loadRepairs_still (s : State) : (State.loadRepairs s).still = s.still := by
  unfold State.loadRepairs; simp

@[simp] theorem State.retireSpare_still (s : State) (p : Nat) : (State.retireSpare s p).still = s.still := by
  unfold State.retireSpare; simp

@[simp] theorem State.replaceTile_still (s : State) (p : Nat) : (State.replaceTile s p).still = s.still := by
  unfold State.replaceTile; split <;> simp

@[simp] theorem State.pauseEnds_still (s : State) (us st bit : Nat) : (State.pauseEnds s us st bit).still = s.still := by
  unfold State.pauseEnds; dsimp only; split <;> simp

@[simp] theorem State.sense_still (s : State) (temps : List (Fin 56 × Nat)) : (State.sense s temps).still = s.still := by
  unfold State.sense; simp

end Sys2Proof.Machine
end

