-- ==== Sys2Proof/WellFormed.lean ====
section
/-! DEFINITION. Which commands are well-formed: the operands that their types leave too wide stay in the ranges of the spec. `exec` gives a meaning to every command, well-formed or not. -/

namespace Sys2Proof

/-- The number of a queue pair (24 bits, R397). -/
def qpOk (qp : Nat) : Bool := decide (qp < 2 ^ 24)

/-- Case errors name 64-bit words inside the 8 MiB Case (R77). -/
def caseErrsOk (errs : List CaseErr) : Bool := errs.all (fun e => decide (e.addr % 8 = 0) && decide (e.addr < 0x800000))

/-- The operands of the command are in range (R77, R238, R298, R305, R397 to R400, R406, R478, R512). -/
def Instr.wf : Instr → Bool
  | .nop _ _ => true
  | .loop _ _ => true
  | .br _ _ => true
  | .yield _ _ => true
  | .contextSwitch _ errs => caseErrsOk errs
  | .endSheet _ _ => true
  | .trap _ _ => true
  | .alu _ _ => true
  | .alui _ _ => true
  | .movi _ _ => true
  | .ldg _ _ errs => caseErrsOk errs
  | .stg _ _ => true
  | .sysr _ _ => true
  | .dld _ _ errs => caseErrsOk errs
  | .dset _ _ => true
  | .sld _ _ errs => caseErrsOk errs
  | .sset _ _ => true
  | .mma _ _ errs => caseErrsOk errs
  | .productEntry _ _ => true
  | .zero _ _ => true
  | .drain _ _ => true
  | .drainComplete _ _ => true
  | .merge _ _ errs => caseErrsOk errs
  | .hold _ _ => true
  | .vop _ _ errs => caseErrsOk errs
  | .vred _ _ errs => caseErrsOk errs
  | .topk _ _ errs => caseErrsOk errs
  | .draw _ _ => true
  | .sample _ _ errs => caseErrsOk errs
  | .cvt _ _ errs => caseErrsOk errs
  | .tlyAssign _ _ => true
  | .tlyCount _ _ errs => caseErrsOk errs
  | .mov _ _ errs => caseErrsOk errs
  | .gath _ _ => true
  | .signal _ _ => true
  | .bkt _ _ errs => caseErrsOk errs
  | .spost _ _ errs => caseErrsOk errs
  | .moveComplete _ _ errs => caseErrsOk errs
  | .waitGroups _ _ => true
  | .waitFlag _ _ errs => caseErrsOk errs
  | .fence _ _ => true
  | .waitSatisfied _ errs => caseErrsOk errs
  | .bar _ _ => true
  | .barrierRelease _ => true
  | .phaseBegin _ _ => true
  | .phaseEnd _ _ => true
  | .layoutSwitchDone _ => true
  | .tileStop _ _ => true
  | .tileRetireRequest _ _ => true
  | .spareReady _ => true
  | .sheetLoad _ => true
  | .sheetInstall _ => true
  | .sheetInstallApply => true
  | .scaleRecordWrite => true
  | .lsCfgLoad _ => true
  | .ttIndexWrite _ => true
  | .ttCommit => true
  | .tableCreate _ _ => true
  | .tableCreateApply => true
  | .tableDelete _ => true
  | .tableDeleteApply => true
  | .sorterPostAccept _ => true
  | .passStart _ errs => caseErrsOk (errs.map (·.2))
  | .lookupIssue _ _ errs => caseErrsOk (errs.map (·.2))
  | .lookupReply _ _ => true
  | .descriptorComplete _ => true
  | .pghHalving _ _ errs => caseErrsOk (errs.map (·.2))
  | .pghFillComplete _ => true
  | .tierFetchIssue _ => true
  | .tierFetchComplete _ _ _ => true
  | .putEntryGrant _ => true
  | .inkerRead _ => true
  | .inkerContrib _ => true
  | .inkerGather _ => true
  | .denseSum _ => true
  | .inkerCommit _ => true
  | .commitBufferResume _ => true
  | .rowLockResume _ => true
  | .inkerRestore _ => true
  | .stepReopen => true
  | .tierWritebackComplete _ _ => true
  | .tierWritebackRetry _ => true
  | .rowReplace _ => true
  | .tableMigrate _ => true
  | .migReserve => true
  | .ship => true
  | .forward => true
  | .stepOpen _ => true
  | .mbSubmit _ => true
  | .stepAbort _ => true
  | .stepOpening => true
  | .stepMicroBatchesEnded => true
  | .ready => true
  | .collationDeadline _ => true
  | .allIn => true
  | .normPartialSend => true
  | .cNorm => true
  | .normDeadline _ => true
  | .decision => true
  | .commitDone => true
  | .release => true
  | .resume => true
  | .abortReq => true
  | .rptTailWrite _ => true
  | .stepNextWrite _ _ => true
  | .impositionStage _ => true
  | .impositionActivate _ => true
  | .epochDrainComplete => true
  | .drained => true
  | .activate => true
  | .epochActivation => true
  | .confirm => true
  | .confirmed => true
  | .flitTransmit _ => true
  | .flitReceive _ f _ _ => f.data.length == (if f.null then 0 else 112) && decide (f.lseq < 65536) && decide (f.lack < 65536) && decide (f.lane < 8) && decide (f.dclass < 2) && decide (f.crc < 2 ^ 32)
  | .replayTimeout _ => true
  | .laneFault _ => true
  | .portRetrainRequest _ => true
  | .trainingDone _ r => decide (r.lanes < 16) && decide (r.chip < 2 ^ 14) && decide (r.port < 12) && decide (r.lack < 65536)
  | .packetInject _ => true
  | .packetForward => true
  | .packetEject => true
  | .read errs => caseErrsOk errs
  | .write => true
  | .add32 errs => caseErrsOk errs
  | .rowRead => true
  | .contrib => true
  | .gather => true
  | .response => true
  | .e2eResend chip lane => decide (chip < 2 ^ 14) && decide (lane < 8)
  | .e2eFail chip lane => decide (chip < 2 ^ 14) && decide (lane < 8)
  | .winDataWrite _ => true
  | .rteSelfWrite _ => true
  | .rteShapeWrite _ => true
  | .prbsInject _ => true
  | .prbsClear _ => true
  | .bktCollatorRead _ _ errs => caseErrsOk errs
  | .cUp => true
  | .cTopkTg => true
  | .cSignTg => true
  | .collationOutputSend => true
  | .cDeliver => true
  | .cDone => true
  | .cRepl => true
  | .cReplDown => true
  | .cResult => true
  | .a2aCount => true
  | .a2aData => true
  | .a2aRet => true
  | .parityDelta => true
  | .heartbeatPeriod => true
  | .heartbeat => true
  | .heartbeatTimeout chip => decide (chip < 2 ^ 14)
  | .isolationTimeout => true
  | .suspect => true
  | .probe => true
  | .probeRetry chip => decide (chip < 2 ^ 14)
  | .probeTimeout chip => decide (chip < 2 ^ 14)
  | .fenceOrder => true
  | .fencedNotice => true
  | .moduleFence => true
  | .spineLineReplay _ => true
  | .spineSublinkFailure _ _ => true
  | .parBusy => true
  | .sliceQuietReached => true
  | .quiet => true
  | .parityWorkDone _ => true
  | .parDone => true
  | .parReady => true
  | .stateSync => true
  | .unitRead => true
  | .repairReq => true
  | .lineOperation wr off n data errs grp => decide (1 ≤ n) && decide (off % 64 + n ≤ 64) && (!wr || data.length == n) && errs.all (fun e => decide (e.1 < 68)) && grp.all (fun g => g.2.all (fun e => decide (e.1 < 68)))
  | .mr4Poll _ _ _ _ => true
  | .refresh => true
  | .rfm _ => true
  | .scrubRead _ errs => errs.all (fun e => decide (e.1 < 68))
  | .scrubPeriodEnd _ _ => true
  | .wck2dqAdjust => true
  | .memoryTraining _ _ _ avail => avail.length == 8
  | .hardRepair _ lacking => lacking.all (fun p => decide (p.1 < 8))
  | .dramWipe => true
  | .wipeComplete _ _ _ _ => true
  | .rdmaWrite qp rkey off data _ => qpOk qp && decide (rkey < 2 ^ 32) && decide (off < 2 ^ 64) && !data.isEmpty
  | .rdmaRead qp rkey off len _ => qpOk qp && decide (rkey < 2 ^ 32) && decide (off < 2 ^ 64) && decide (1 ≤ len)
  | .commandSend qp msg _ => qpOk qp && decide (16 ≤ msg.length) && decide (msg.length ≤ 4096)
  | .cmReq qp role pad slot mtu _ => qpOk qp && decide (role < 256) && decide (pad < 256) && decide (slot < 65536) && [1024, 2048, 4096].contains mtu
  | .cmRtu qp _ => qpOk qp
  | .cmDreq qp _ => qpOk qp
  | .arpRequest ip _ => ip.length == 4
  | .neighbourSolicitation ip _ => ip.length == 16
  | .icmpEcho ip _ _ => ip.length == 4 || ip.length == 16
  | .pfcPauseReceive times => times.all (fun p => decide (p.2 < 65536))
  | .macPauseReceive => true
  | .cnpReceive qp _ => qpOk qp
  | .cnpRateRecovery qp => qpOk qp
  | .ackTimeout qp _ _ => qpOk qp
  | .ptpEventMessage _ => true
  | .ptpOffsetMeasurement _ => true
  | .ethAutoneg _ => true
  | .ethLinkDown => true
  | .ethTestEnter => true
  | .ethTestEnd => true
  | .ethRestart => true
  | .heartbeatLetter => true
  | .summaryLetter _ => true
  | .sessionHello _ => true
  | .sessionAuth _ => true
  | .sessionClose _ => true
  | .stateQuery _ => true
  | .regRead _ => true
  | .regWrite _ => true
  | .eventSubscribe _ => true
  | .memMap _ => true
  | .memUnmap _ => true
  | .fenceSelf _ => true
  | .firmwareStage _ _ _ => true
  | .firmwareActivate _ _ => true
  | .attestQuote _ _ _ _ => true
  | .lifecycleSet _ _ _ => true
  | .wipe _ => true
  | .timeArm _ => true
  | .moduleReset _ => true
  | .registerWrite _ _ _ _ => true
  | .evtSetInject _ _ => true
  | .errCodeRead _ => true
  | .loHalfRead _ _ => true
  | .domainPowerRequest _ _ => true
  | .pmkInit _ => true
  | .pmkCompare _ => true
  | .pmkData _ _ => true
  | .pmkDataTail _ _ => true
  | .pmkValueWrite _ _ _ => true
  | .ldgSync => true
  | .ldgCfgCommit => true
  | .ledgerUpdateRequest off data => decide (off.val + data.length ≤ 0x3FC8)
  | .ledgerWrite _ => true
  | .ledgerHourlyRecord _ => true
  | .pouchWrite _ _ data _ _ => !data.isEmpty
  | .pouchRead _ _ _ => true
  | .pouchIdleTimeout _ _ => true
  | .powerGoodRise _ _ => true
  | .powerGoodFall => true
  | .resetPin => true
  | .sealBoot _ _ _ _ _ _ => true
  | .otaraquaStart => true
  | .otaraquaRunTimeout _ _ _ => true
  | .tileSelfTest _ => true
  | .wipeToIdle => true
  | .clockLoss _ => true
  | .domainPowerOnDone _ => true
  | .domainFault _ => true
  | .oppChange _ => true
  | .throttleRise _ temps _ => temps.all (fun p => decide (p.2 < 65536))
  | .throttleFall _ temps _ => temps.all (fun p => decide (p.2 < 65536))
  | .temperatureTrip _ temp _ => decide (temp < 65536)
  | .persistTrip _ _ => true
  | .railTrip _ => true
  | .datelineTick => true
  | .ppsEdge => true
  | .ppsServoSecond _ => true
  | .ppsLoss => true
  | .ptpLoss => true
  | .handoverPauseStart => true
  | .handoverComplete _ _ _ => true
  | .handoverTimeout _ _ => true
  | .watchdogMiss => true
  | .tapReset => true
  | .tapInstruction _ => true
  | .opcodeFault _ => true
  | .unknownOpcode => true
  | .checkerLock _ _ => true
  | .pwrHot temps => temps.all (fun p => decide (p.2 < 65536))
  | .frameDiscard _ => true
  | .mkaFrame _ => true

end Sys2Proof
end

