-- ==== Sys2Proof/Tests/Slice0.lean ====
section
/-! SUPPORT. The package's own tests: a term that each well-formedness check refuses; values that the spec works out; and for each statement with hypotheses, states and operands that meet all of them. -/

namespace Sys2Proof.Tests

set_option Elab.async false

open Sys2Proof Sys2Proof.Machine

/-- The machine after reset with every power domain on. -/
def onAll : State := { State.reset with power := { Power.reset with dom := (List.range 184).map (fun d => (d, 1)) } }

/-- The same, with the Foreman in a state of its own. -/
def onIn (m : ModState) : State := { onAll with fmn := { Foreman.reset with state := m } }

/-- The word of an instruction. -/
def word (op b : Nat) : BitVec 64 := BitVec.ofNat 64 (op * 2 ^ 56 + b)

/-- A context of sheet 1. -/
def ctx1 : Ctx := { sheet := 1, extent := 0x10000, save := 0, started := true, ended := false, bar := none, passed := false }

/-- Sheet 1, with this first instruction. -/
def sheet1 (w : BitVec 64) : Sheet :=
  { id := 1, kind := 0, next := 0xFFFF, tiles := 0, entry := 0, extent := 0x10000, place := 0, length := 64, crc := 0, code := [w, 0, 0, 0], inits := [], bars := [(2, 1)] }

/-- Tile 0, changed by `f`, runs sheet 1, whose first instruction is this. -/
def runAt (op b : Nat) (f : Tile → Tile) : State :=
  let s := onIn .joined
  { s with fmn := { s.fmn with installed := [(1, sheet1 (word op b))] },
           tiles := kvSet s.tiles 0 (f { s.tile 0 with run := .running, sheet := 1, slices := [ctx1] }) }

theorem at_pc {s : State} {p op : Nat} {b : Body} (w : BitVec 64) (h : s.wordAt p = some w ∧ w.toNat = op * 2 ^ 56 + b.toNat) : atPC s p op b := ⟨w, h⟩

theorem starts_of {s : State} {q op : Nat} {c : Cmd} (h : s.startable q op = some c ∧ (s.started q c).precheck q c = none) : starts s q op c := h

theorem mails_of {s : State} {q op : Nat} {c : Cmd} (h : s.spv.mbox = none ∧ s.spv.mwait.isEmpty = true ∧ s.startable q op = some c ∧ (s.started q c).precheck q c = none) : mails s q op c :=
  ⟨h.1, (if_pos h.2.1).mpr ⟨h.2.2.1, h.2.2.2⟩⟩

theorem fst_of {α β : Type} {e : α × β} {y : β} (h : e.2 = y) : e = (e.1, y) := by subst h; rfl

theorem mid_of {α β γ : Type} {e : α × β × γ} {y : β} (h : e.2.1 = y) : e = (e.1, y, e.2.2) := by subst h; rfl

theorem trip_of {α β γ : Type} {e : α × β × γ} {x : α} {y : β} (h : e.1 = x ∧ e.2.1 = y) : e = (x, y, e.2.2) := by obtain ⟨h, g⟩ := h; subst h g; rfl

/-- A record kept where no parity window is active changes DRAM and its channels alone. -/
theorem kept {s : State} {off : Nat} {bs : Bytes} (h : s.layers = 0) : linesOnly s (s.dramKeep off bs).1 := by
  unfold State.dramKeep
  rw [if_pos h]
  exact s.dramStore_lines off bs

theorem kept_sheet {s : State} {off id : Nat} {bs : Bytes} {sh : Sheet} (h : s.layers = 0 ∧ s.sheet? id = some sh) : (s.dramKeep off bs).1.sheet? id = some sh := by
  rw [kept h.1]
  exact h.2

theorem kept_open {s : State} {off a n : Nat} {bs : Bytes} (h : s.layers = 0 ∧ s.memOpen a n = true) : (s.dramKeep off bs).1.memOpen a n = true := by
  rw [kept h.1]
  exact h.2

theorem kept_good {s : State} {off a n : Nat} {bs : Bytes} (h : s.layers = 0 ∧ s.dram.poison = [] ∧ s.memOpen a n = true) : ((s.dramKeep off bs).1.dramLoad a n).2.1 = false := by
  have o : (s.dramKeep off bs).1.memOpen a n = true := kept_open ⟨h.1, h.2.2⟩
  have p : (s.dramKeep off bs).1.dram.badIn 64 a n = false := by
    unfold Ram.badIn State.dramKeep
    rw [if_pos h.1]
    exact List.any_eq_false.mpr fun k hk => absurd (h.2.1 ▸ s.dramStore_poison off bs hk) List.not_mem_nil
  show ((s.dramKeep off bs).1.dram.badIn 64 a n || !(s.dramKeep off bs).1.memOpen a n) = false
  rw [o, p]
  rfl

/-- A descriptor at `base` with these rows, columns and format code. -/
def desc (base rows cols fmt : Nat) (stride : Nat := 64) : DescWord := BitVec.ofNat 512 (base + stride * 2 ^ 32 + rows * 2 ^ 64 + cols * 2 ^ 96 + fmt * 2 ^ 128)

/-- A bucket request. -/
def bkt0 : BktReq := { form := 0, bucket := 0, param := 0, rows := 1, cols := 1, ds := desc 0 1 1 12, een := false, de := 0, step := 0, attempt := 0, slot := 0, phase := false }

/-- A command of version 1 with number 0. -/
def cmd (op : Nat) (body : Bytes) : Cmd := { ver := 1, op := op, seq := 0, body := body, started := false, dup := false }

/-- The module is in state `m`, and queue 0 has an authenticated session whose only command is this. -/
def cmdAt (m : ModState) (op : Nat) (body : Bytes) (f : State → State) : State :=
  f { onIn m with spv := { Spv.reset with queues := [(0, { CmdQueue.reset with session := true, auth := true, entries := [cmd op body] })] } }

/-- A packet from chip 1. -/
def pk (type addr arg : Nat) (payload : Bytes) : Packet :=
  { type := type, lane := 2, dclass := 0, slot := 0, resend := false, epoch := 0, dst := 0, src := 1, tag := 0, layout := 0, addr := addr, arg := arg, payload := payload, good := true }

/-- It has been delivered. -/
def got (p : Packet) (s : State) : State := { s with fab := { s.fab with arrived := [OutPkt.mk p .none none false false] } }

/-- A SLICE packet (R313). -/
def slicePk (kind step att : Nat) (rest : Bytes) : Packet := pk 0x50 0 kind (sliceHead step att ++ rest)

/-- A collation packet: step, attempt 0, the word of flags, and the count of items (R348). -/
def colBody (step flags n : Nat) : Bytes := toLE 8 step ++ toLE 2 0 ++ toLE 2 0 ++ toLE 1 flags ++ toLE 1 0 ++ toLE 2 n ++ toLE 16 0

/-- Section 4 with one tree of rank 0, one bucket of this kind with one element, and one map entry. -/
def colSec0 (kind : Nat) : Bytes :=
  toLE 2 1 ++ toLE 2 0 ++ toLE 4 1 ++ toLE 4 1 ++ toLE 4 0x20 ++ toLE 4 0x30 ++ toLE 4 0x50 ++ toLE 8 0
  ++ (toLE 2 1 ++ toLE 14 0) ++ (toLE 1 kind ++ toLE 1 4 ++ toLE 6 0 ++ toLE 4 1 ++ toLE 20 0) ++ (toLE 2 0 ++ toLE 2 1 ++ toLE 2 0 ++ toLE 2 8 ++ toLE 24 0)

/-- A slice of these chips, led by chip 0. -/
def slice (chips : List Nat) (kind : Nat) (s : State) : State :=
  { s with imp := { ImpCtl.reset with active := some { epoch := 0, staleness := 0, layouts := 15, seed := 0, members := chips, secs := [[], [0, 0], [], [], colSec0 kind, [], [], []] } } }

/-- The state of a step. -/
def stepRec (n : Nat) (st : StepState) : StepRec :=
  { n := n, attempt := 0, state := st, mask := 1, mbs := [], pin := 0, epoch := 0, tOpen := 0, scale := { n := n, epoch := 0, k := 16, efRd := 0, efWr := 1, ents := [] },
    after := none, rolled := false, await := false, dec := none, faulted := false, ovf := 0, counts := [], hist := [], mseSum := [], mseCnt := [], lossSum := 0, ovfSum := 0,
    direct := [], late := [], slow := false, normSent := false, failed := false, cause := 0, aborters := [], tAllIn := none }

/-- These steps are unreleased. -/
def steps (rs : List StepRec) (s : State) : State := { s with fmn := { s.fmn with state := .stepping, steps := rs } }

/-- A step forms. -/
def forming (f : Forming) (s : State) : State := { s with fmn := { s.fmn with forming := some f } }

/-- The step that forms. -/
def form0 (sc : Option ScaleRec) : Forming := { n := 0, reply := { queue := 0, seq := 7 }, waited := false, scale := sc, recWaited := false }

/-- Every enabled tile is idle. -/
def idle (s : State) : State := { s with tiles := s.tiles.map (fun p => (p.1, { p.2 with run := .idle })) }

/-- The cells of bytes from an address on. -/
def cellsOf (off : Nat) (bs : Bytes) : List Host.Cell := (bs.zipIdx.filter (fun p => p.1 != 0)).map (fun p => (off + p.2, p.1))

/-- DRAM holds these bytes. -/
def holds (off : Nat) (bs : Bytes) (s : State) : State := { s with dram := { cells := s.dram.cells ++ cellsOf off bs, poison := [] } }

/-- An image with the check value of its other bytes. -/
def sealed4 (at_ : Nat) (img : Bytes) : Bytes := patchB img at_ (toLE 4 (crc32c img))

/-- The image of sheet 1 for tile 0: one NOP (R134). -/
def sheetImg : Bytes :=
  sealed4 0x3C (toLE 4 0x4C4D5348 ++ toLE 2 1 ++ toLE 2 0 ++ toLE 2 1 ++ toLE 2 0xFFFF ++ toLE 4 1 ++ toLE 16 1 ++ toLE 4 0 ++ toLE 4 0 ++ toLE 4 0x10000
    ++ toLE 4 64 ++ toLE 4 64 ++ toLE 4 64 ++ toLE 4 0 ++ toLE 4 0 ++ toLE 8 0)

/-- The first 32 bytes of an install record for tile 0 (R136), with this check value. -/
def instHead (crc : Nat) : Bytes :=
  toLE 4 0x4C4D5349 ++ toLE 2 1 ++ toLE 2 1 ++ toLE 4 280 ++ toLE 4 crc ++ toLE 1 0 ++ toLE 1 1 ++ toLE 6 0 ++ toLE 4 1 ++ toLE 4 0x10000

/-- The record. -/
def instImg : Bytes := instHead 0x4DB5C27B ++ toLE 62 0 ++ toLE 62 0 ++ toLE 62 0 ++ toLE 62 0

theorem crc_of {bs : Bytes} {v : Nat} (h : bs.foldl (pmByte 0) (algStart 0) = v) : crc32c bs = v ^^^ algXor 0 := by subst h; rfl

theorem inst_crc : crc32c (instHead 0 ++ toLE 62 0 ++ toLE 62 0 ++ toLE 62 0 ++ toLE 62 0) = 0x4DB5C27B := by
  have e0 : (instHead 0).foldl (pmByte 0) (algStart 0) = 0xEF3B3C0F := by decide +kernel
  have e1 : (toLE 62 0).foldl (pmByte 0) 0xEF3B3C0F = 0xDE646FF1 := by decide +kernel
  have e2 : (toLE 62 0).foldl (pmByte 0) 0xDE646FF1 = 0xED65927A := by decide +kernel
  have e3 : (toLE 62 0).foldl (pmByte 0) 0xED65927A = 0xF4ED13F := by decide +kernel
  have e4 : (toLE 62 0).foldl (pmByte 0) 0xF4ED13F = 0xB24A3D84 := by decide +kernel
  have e : (instHead 0 ++ toLE 62 0 ++ toLE 62 0 ++ toLE 62 0 ++ toLE 62 0).foldl (pmByte 0) (algStart 0) = 0xB24A3D84 := by
    rw [List.foldl_append, List.foldl_append, List.foldl_append, List.foldl_append, e0, e1, e2, e3, e4]
  exact (crc_of e).trans (by decide +kernel)

theorem inst_patch : patchB instImg 0xC [0, 0, 0, 0] = instHead 0 ++ toLE 62 0 ++ toLE 62 0 ++ toLE 62 0 ++ toLE 62 0 := by decide +kernel

theorem inst_field : (0x4DB5C27B : Nat) = leAt instImg 0xC 4 := by decide +kernel

theorem inst_crc_ok : crcField0 instImg 0xC = leAt instImg 0xC 4 := ((congrArg crc32c inst_patch).trans inst_crc).trans inst_field

theorem inst_entries : (entries (instImg.drop 16) 264).all (fun e =>
      let c := leAt e 1 1
      decide (leAt e 0 1 < 128) && decide (1 ≤ c) && decide (c ≤ 8) && allZero (sliceB e 2 6)
      && (List.range 8).all (fun i => if i < c then allZero (sliceB e (10 + 32 * i) 2) && allZero (sliceB e (24 + 32 * i) 16) else allZero (sliceB e (8 + 32 * i) 32))) = true := by decide +kernel

theorem inst_ok : instOk instImg = true := by
  unfold instOk
  simp only [inst_crc_ok, inst_entries, beq_self_eq_true, Bool.and_true]
  decide +kernel

/-- An accepted install record. -/
def install0 : Install := { reply := { queue := 0, seq := 0 }, tiles := [(0, [(1, 0x10000, 0)])], sheets := [(1, sheet1 0)] }

/-- A table of 16 rows of one MXFP8 column, DRAM tier. -/
def table0 : Table :=
  { id := 0, flags := 0, fmt := 12, width := 1, eT := 0, rows := 16, img := 4, blk := 0, nhomes := 1, hlBase := 0, dense := false, opt := 0, mfmt := 0, place := 1, lsb := 0, tierQp := 0,
    dslots := 4, mslots := 4, pslots := 4, pfreq := 0, ldram := 16, tierBase := 0, tierKey := 0, recB := 64, seg := 0, delta := 0x1000, jrn := 0x2000, mig := 0x3000, promo := 0x4000, res := 0 }

/-- These tables exist. -/
def tables (ts : List Table) (s : State) : State := { s with par := { s.par with tables := ts.map (fun t => (t.id, t)) } }

/-- The address of this module's DRAM byte `off` (R9). -/
def dramAddr (off : Nat) : Nat := off + 0x3FFF * 2 ^ 50

/-- A POOL_SUM descriptor of one bag of one index, row 0 of table 0 (R171). -/
def sraw : Bytes := toLE 8 0 ++ toLE 8 1 ++ toLE 8 1 ++ toLE 8 (dramAddr 0) ++ toLE 8 (dramAddr 0x100) ++ toLE 8 0 ++ toLE 8 (dramAddr 0x1000) ++ toLE 8 64 ++ toLE 40 0 ++ toLE 8 (dramAddr (0x2000 + 2 ^ 47)) ++ toLE 16 0

/-- It, in a queue. -/
def desc0 : SDesc :=
  { serial := 1, raw := sraw, tile := 0, move := 0, step := 0, slot := 0, running := false, held := false, nextBag := 0, nextPos := 0, passEnd := 0, passes := 0, fail := none, bags := [], indices := 0, hits := 0, loc := 0, remote := 0, tier := 0, oob := 0, loss := 0, ovf := 0, tvMin := 0, tvMax := 0, nonFin := 0, starts := [] }

/-- A flit whose data is zero; its number is 1. -/
def flit1 : Flit := { data := List.replicate 112 0, lseq := 1, lack := 0, lane := 0, dclass := 0, null := false, nak := false, crvl := 0, crcnt := 0, crc := 0xE66A0754 }

/-- state.query of queue 0 as a message (R410). -/
def msg0 : Bytes := toLE 4 0x100101 ++ toLE 8 0 ++ toLE 4 0x85DA9340

theorem flit1_crc (c : Nat) : crc32c (flitBody { flit1 with crc := c }) = 0xE66A0754 := by
  have e0 : (List.replicate 62 (0 : Byte)).foldl (pmByte 0) (algStart 0) = 0x68834CCE := by decide +kernel
  have e1 : (List.replicate 50 (0 : Byte) ++ (1 :: List.replicate 11 0)).foldl (pmByte 0) 0x68834CCE = 0x1995F8AB := by decide +kernel
  have e : flitBody { flit1 with crc := c } = List.replicate 62 (0 : Byte) ++ (List.replicate 50 (0 : Byte) ++ (1 :: List.replicate 11 0)) := by
    show flitBody { flit1 with crc := 0 } = _
    decide +kernel
  rw [e]
  have f : (List.replicate 62 (0 : Byte) ++ (List.replicate 50 (0 : Byte) ++ (1 :: List.replicate 11 0))).foldl (pmByte 0) (algStart 0) = 0x1995F8AB := by
    rw [List.foldl_append, e0, e1]
  exact (crc_of f).trans (by decide +kernel)

theorem flit1_good : flitGood flit1 = true := by
  unfold flitGood
  exact beq_iff_eq.mpr (flit1_crc _)

theorem flit1_bad : flitGood { flit1 with crc := 0 } = false := by
  unfold flitGood
  exact beq_eq_false_iff_ne.mpr (by rw [flit1_crc]; decide)

/-- A null flit whose data is zero. -/
def flit0 : Flit := flitSeal { flit1 with null := true }

theorem good_seal (f : Flit) : flitGood (flitSeal f) = true := by
  unfold flitGood flitSeal
  exact beq_self_eq_true _

theorem flit0_good : flitGood flit0 = true := good_seal _

/-- No codeword needed correction. -/
def fec0 : FecCount := { corrected := 0, failed := 0 }

/-- A word of a Pouch. -/
def pw0 : PouchWord := { data := [1], last := false, poison := false }

/-- Pouch 0 of page 0 is full, whatever its depth. -/
def fullPouch : State := { onAll with pouches := [(0, { words := List.replicate (pouchSlots 0 0) pw0, begun := false })] }

theorem full_pouch : pouchSlots (0 : Fin 512).val (0 : Fin 256).val ≤ (fullPouch.pouch (0 : Fin 512).val (0 : Fin 256).val).words.length := by
  show pouchSlots 0 0 ≤ (List.replicate (pouchSlots 0 0) pw0).length
  exact Nat.le_of_eq List.length_replicate.symm

/-- The fuses of a module in FIELD that no key is burnt into. -/
def keyless : Fuses := { uds := [], eHash := [], lHash := [], eRevoke := 0, lRevoke := 0, svnMin := 0, lc := 7, serial := 0 }

/-- A firmware image of one segment, signed with the keys of this slot (R463). -/
def fwImg (slot : Nat) : Bytes :=
  toLE 4 0x4C4D4657 ++ toLE 2 1 ++ toLE 1 0 ++ toLE 1 0 ++ toLE 1 slot ++ toLE 1 slot ++ toLE 2 0 ++ toLE 4 4096 ++ toLE 8 0 ++ toLE 1 1 ++ toLE 7 0 ++ toLE 1 1 ++ List.replicate 6367 0

/-- An imposition image of epoch 1 with the one member 0 and every layout (R281, R322), with this check value. -/
def impoBytes (crc : Nat) : Bytes :=
  toLE 4 0x4C4D494D ++ toLE 2 1 ++ toLE 1 0 ++ toLE 1 15 ++ toLE 4 1 ++ toLE 2 1 ++ toLE 2 0 ++ toLE 8 0 ++ toLE 8 0
  ++ (toLE 4 128 ++ toLE 4 2) ++ (toLE 4 130 ++ toLE 4 0) ++ (toLE 4 130 ++ toLE 4 0) ++ (toLE 4 130 ++ toLE 4 0) ++ (toLE 4 130 ++ toLE 4 0) ++ (toLE 4 130 ++ toLE 4 0)
  ++ (toLE 4 130 ++ toLE 4 16) ++ (toLE 4 146 ++ toLE 4 0) ++ toLE 4 146 ++ toLE 4 crc ++ toLE 24 0 ++ toLE 2 0 ++ toLE 16 0

/-- The image. -/
def impoImg : Bytes := impoBytes 0x5DDE80F3

theorem impo_patch : patchB impoImg 0x64 [0, 0, 0, 0] = (impoBytes 0).take 62 ++ (((impoBytes 0).drop 62).take 62 ++ (impoBytes 0).drop 124) := by decide +kernel

theorem impo_check : imageCrc impoImg = true := by
  have e0 : ((impoBytes 0).take 62).foldl (pmByte 0) (algStart 0) = 0xECFBA032 := by decide +kernel
  have e1 : (((impoBytes 0).drop 62).take 62).foldl (pmByte 0) 0xECFBA032 = 0x5A62E11 := by decide +kernel
  have e2 : ((impoBytes 0).drop 124).foldl (pmByte 0) 0x5A62E11 = 0xA2217F0C := by decide +kernel
  have e : ((impoBytes 0).take 62 ++ (((impoBytes 0).drop 62).take 62 ++ (impoBytes 0).drop 124)).foldl (pmByte 0) (algStart 0) = 0xA2217F0C := by
    rw [List.foldl_append, List.foldl_append, e0, e1, e2]
  have f : crc32c (patchB impoImg 0x64 [0, 0, 0, 0]) = 0x5DDE80F3 := (congrArg crc32c impo_patch).trans ((crc_of e).trans (by decide +kernel))
  have g : leAt impoImg 0x64 4 = 0x5DDE80F3 := by decide +kernel
  exact beq_iff_eq.mpr (f.trans g.symm)

/-- A fetch of a later step. -/
def late1 : Fetch := { ink := 0, table := 0, row := 20, step := 1, op := none, commit := false, issued := false, put := none, promote := false, counted := 0 }

/-- An entry of another table. -/
def ent1 : PutEnt := { table := 1, row := 0, ink := 0, step0 := none, step1 := none, has0 := false, has1 := false, image := false, state := .open, old := none }

/-- Folio 0's PUT is full while step 0 is open. -/
def fullPut : State :=
  let s := steps [stepRec 0 .opened] onAll
  { s with par := { Params.reset with tables := [(0, table0)], fetches := [late1], put0 := { base := none, ents := List.replicate putEntries (0, ent1) } } }

theorem no_reserve {s : State} {i : Nat} {f : Fetch} {t : Table} (h : ¬(f.put.isSome = true ∨ f.promote = true)) (p : s.putFind f.ink f.table f.row = none)
    (e : s.takeEnt f.ink f.table f.row f.step = none) (o : s.oldestStep f.step = false) : s.reserve i f t = none := by
  unfold State.reserve
  rw [if_neg h, p, e, o]
  rfl

theorem no_entry : fullPut.reserve 0 late1 table0 = none := by
  refine no_reserve (by decide) (List.find?_eq_none.mpr fun p hp => by rw [List.eq_of_mem_replicate hp]; decide) ?_ (by decide +kernel)
  unfold State.takeEnt
  exact if_pos (Nat.le_of_eq List.length_replicate.symm)

/-- R64 (example): 448 * 448, 2^-18 and -448 * 448 in FP8 E4M3 with anchor 11 leave 2^-18, in either order. -/
theorem test_accumulator_cancels :
    let v := fun c => e4m3.number c
    let ps := [(v 0x7E).mul (v 0x7E), (v 0x01).mul (v 0x01), (v 0xFE).mul (v 0x7E)]
    (enterAll 11 Acc.clear (ps.take 1)).1.image = 0x0000006200000000000000000000 ∧ (enterAll 11 Acc.clear ps).1.image = 0x0000000000000008000000000000
      ∧ (enterAll 11 Acc.clear (ps.reverse.take 1)).1.image = 0xFFFFFF9E00000000000000000000 ∧ (enterAll 11 Acc.clear ps.reverse).1.image = 0x0000000000000008000000000000 := by decide +kernel

/-- R64 (example): the drain of 2^-18 to FP32. -/
theorem test_drain_to_fp32 : f32enc (((enterAll 11 Acc.clear [.fin false 1 (-18)]).1.result).value (11 - 80)) = 0x36800000 := by decide +kernel

/-- R64 (example): the row of BF16 products, in either order. -/
theorem test_accumulator_transposes :
    let ps := [0x3F80, 0x3380, 0x3380].map (fun c => (bfdec c).mul (bfdec 0x3F80))
    (enterAll (-5) Acc.clear ps).1.image = 0x0000002000004000000000000000 ∧ (enterAll (-5) Acc.clear ps.reverse).1.image = 0x0000002000004000000000000000 := by decide +kernel

/-- R66: 1,000 truncated to E4M3 is 448. -/
theorem test_truncates_to_max : e4m3.encode .rtz false 0 (.fin false 1000 0) = 0x7E := by decide +kernel

/-- R125 (example): the fields of the word 0x2229_2800_00CA_4000. -/
theorem test_drain_word :
    [55, 45, 44].map (bbit (0x29280000CA4000 : Body)) = [false, true, false] ∧ [(51, 4), (48, 3), (42, 2), (18, 4), (22, 4)].map (fun p => bfld (0x29280000CA4000 : Body) p.1 p.2) = [5, 1, 2, 2, 3] := by decide +kernel

/-- R142 (example): the scale of index 17 in the record of step 104, and the history values of bins 37 and 36. -/
theorem test_history_scale :
    ({ TensorEnt.clear with word := 2 ^ 31 + 2 ^ 30 + 2 ^ 26, hist := [-3, -1, -4, -2] } : TensorEnt).scaleFor 16 true = 8 ∧ histValue 37 8 16 true = -3 ∧ histValue 36 8 16 true = -4 := by decide +kernel

/-- R206 (example): a record of an FP8 row of 64 elements under Adam with E4M3 moments. -/
theorem test_record_bytes : imgBytesOf 0 64 = 128 ∧ recBytesOf 0 64 4 0 = 320 := by decide +kernel

/-- R241 (example): the channel of 0x78_0123_4567, and back. -/
theorem test_dram_channel : dramLocate 0x7801234567 = (90, 0x48D67) ∧ dramOffset 90 0x48D67 = 0x7801234567 := by decide +kernel

/-- R337 (example): the splits of five leaves, and which leaves are right children. -/
theorem test_tree_of_five : splitOf 0 5 = 4 ∧ splitOf 0 4 = 2 ∧ rootIndex 5 = 3 ∧ [0, 1, 2, 3, 4].map (fun i => (leafParent 5 i).map (·.2)) = [some false, some true, some false, some true, some true] := by decide +kernel

/-- R376 (example): units 37 and 38 of position 5 in a group of 16. -/
theorem test_parity_stripe : unitToStripe 16 5 37 = (40, 8, 2) ∧ unitToStripe 16 5 38 = (41, 9, 2) := by decide +kernel

/-- R452: the check values of "123456789". -/
theorem test_check_values :
    let b : Bytes := [0x31, 0x32, 0x33, 0x34, 0x35, 0x36, 0x37, 0x38, 0x39]
    [0, 1, 2, 3].map (fun a => checkValue a b) = [0xE3069283, 0xCBF43926, 0x6C40DF5F0B497347, 0x29B1] := by decide +kernel

/-- R458 (example): the last byte enters general unit 12. -/
theorem test_data_tail :
    ∃ u, exec (.pmkDataTail 12 0x01000039) ((onAll.setN (pgPMK 12) 0x040 (pmBytes 0 (algStart 0) [0x31, 0x32, 0x33, 0x34, 0x35, 0x36, 0x37, 0x38])).setField (pgPMK 12) 0x008 24 2 0) = .next u
      ∧ u.regN (pgPMK 12) 0x040 = 0x1CF96D7C := ⟨_, rfl, by decide +kernel⟩

/-- R481 (example): the slots of records 76,351 and 76,352. -/
theorem test_record_slots : recSlot 76351 = 1024 + 287 ∧ recSlot 76352 = 288 := by decide +kernel

/-- Nothing happens without a command (DESIGN CHOICE, log entry 1). -/
theorem test_idle : step State.reset = .next State.reset := rfl

/-- A frame that MACsec protects. -/
def frame0 : FrameInfo := { prot := true, cnp := false, pfc := 0 }

/-- Each check of WellFormed.lean refuses a command. -/
theorem test_ill_formed :
    [Instr.ldg 0 0 [{ addr := 4, ue := false }], .contextSwitch 0 [{ addr := 0x800000, ue := false }], .read [{ addr := 4, ue := true }], .passStart 0 [(0, { addr := 4, ue := false })],
   .trainingDone 0 { lanes := 16, versions := 4, chip := 0, port := 0, precode := false, lack := 0, micros := 0 }, .flitReceive 0 { flit1 with data := [] } false fec0,
   .flitReceive 0 flit0 false fec0, .e2eResend 0 8, .e2eFail 0x4000 0, .heartbeatTimeout 0x4000, .probeRetry 0x4000, .probeTimeout 0x4000,
   .lineOperation true 0 64 [] [] [], .lineOperation false 63 2 [] [] [], .lineOperation false 0 64 [] [] [(0, [(68, 1)])], .scrubRead 0 [(68, 0)], .memoryTraining 0 0 0 [], .hardRepair 0 [(8, 0)],
   .rdmaWrite (2 ^ 24) 0 0 [0] frame0, .rdmaRead 0 0 0 0 frame0, .commandSend 0 [] frame0, .cmReq 0 0 0 0 512 frame0, .cmRtu (2 ^ 24) frame0, .cmDreq (2 ^ 24) frame0, .cnpReceive (2 ^ 24) false,
   .cnpRateRecovery (2 ^ 24), .ackTimeout (2 ^ 24) 0 false, .arpRequest [] frame0, .neighbourSolicitation [] frame0, .icmpEcho [] [] frame0, .pfcPauseReceive [(0, 65536)],
   .ledgerUpdateRequest 0x3FC8 [0], .pouchWrite 0 0 [] true false, .throttleRise 0 [(0, 65536)] 0, .throttleFall 0 [(0, 65536)] 0, .temperatureTrip 0 65536 0, .pwrHot [(0, 65536)]].all (fun i => !i.wf) = true := by decide +kernel

/-- The command table gives no row any bits, so no word spells a command. -/
theorem test_no_word : decodeTableWord 0 0 = none ∧ State.reset.withFetchWord 0 0 = State.reset := ⟨rfl, rfl⟩

/-- What the clauses of StepTakesFrontCommand assume can be met. -/
theorem meets_StepTakesFrontCommand :
    (∃ (s : State) (c : Instr) (r : List Instr), s.pending = c :: r) ∧
    (∃ (s : State), s.pending = []) :=
  ⟨⟨{ onAll with pending := [.resetPin] }, (.resetPin), [], by decide +kernel⟩,
   ⟨onAll, by decide +kernel⟩⟩

/-- What QueueShortens assumes can be met. -/
theorem meets_QueueShortens :
    ∃ (s t : State), step s = .next t :=
  ⟨onAll, onAll, rfl⟩

/-- What the clauses of NopAndScalarInstructions assume can be met. -/
theorem meets_NopAndScalarInstructions :
    (∃ (t : Fin 136) (s : State), atPC s t.val 0 0) ∧
    (∃ (p : Nat) (s : State), ((s.tile p).loopEnd (s.tile p).depth).pc < (s.code p).length) ∧
    (∃ (u : Tile) (d : Nat), kvGet u.lend d 0 ≠ u.pc) ∧
    (∃ (u : Tile) (d : Nat), kvGet u.lend d 0 = u.pc ∧
      kvGet u.lcount d 0 ≤ 1) ∧
    (∃ (t : Fin 136) (s : State), atPC s t.val 0 0 ∧
      (s.tile t.val).depth = 0 ∧
      (s.tile t.val).pc + 1 < (s.code t.val).length ∧
      s.regN (pgPRS t.val) 0x008 % 2 = 0) ∧
    (∃ (t : Fin 136) (s : State) (d : Nat), atPC s t.val 0 0 ∧
      (s.tile t.val).depth = d + 1 ∧
      kvGet (s.tile t.val).lend d 0 = (s.tile t.val).pc ∧
      1 < kvGet (s.tile t.val).lcount d 0 ∧
      kvGet (s.tile t.val).lstart d 0 < (s.code t.val).length ∧
      s.regN (pgPRS t.val) 0x008 % 2 = 0) ∧
    (∃ (t : Fin 136) (b : Body) (s : State), atPC s t.val 0x08 b ∧
      reservedChk b (ones 55 35) [(decide (0x0C < bfld b 50 6), 50)] = []) ∧
    (∃ (t : Fin 136) (b : Body) (s : State), atPC s t.val 0x09 b ∧
      reservedChk b (ones 55 40 + ones 31 0) [(decide (0x0C < bfld b 50 6), 50)] = []) ∧
    (∃ (t : Fin 136) (b : Body) (s : State), atPC s t.val 0x0A b ∧
      reservedChk b (ones 55 50 + ones 31 0) [] = []) ∧
    (∃ (t : Fin 136) (b : Body) (s : State), atPC s t.val 0x0D b ∧
      reservedChk b (ones 55 47) [(decide (10 < bfld b 47 4), 47)] = []) ∧
    (∃ (t : Fin 136) (b : Body) (s : State), atPC s t.val 0x11 b ∧
      reservedChk b (ones 55 43) [] = []) ∧
    (∃ (t : Fin 136) (b : Body) (s : State), atPC s t.val 0x13 b ∧
      reservedChk b (ones 55 45) [] = []) ∧
    (∃ (t : Fin 136) (b : Body) (s : State), atPC s t.val 0x33 b ∧
      reservedChk b (ones 55 36) [] = []) ∧
    (∃ (t : Fin 136) (b : Body) (s : State), atPC s t.val 0x48 b ∧
      bbit b 55 = false ∧
      reservedChk b (ones 55 47) [] = []) :=
  ⟨⟨0, (runAt 0x00 (0) id), (at_pc (word 0x00 (0)) (by decide +kernel))⟩,
   ⟨0, (runAt 0 0 id), by decide +kernel⟩,
   ⟨{ onAll.tile 0 with pc := 5 }, 3, by decide +kernel⟩,
   ⟨{ onAll.tile 0 with lcount := [(0, 1)] }, 0, by decide +kernel⟩,
   ⟨0, (runAt 0x00 (0) id), (at_pc (word 0x00 (0)) (by decide +kernel)), by decide +kernel⟩,
   ⟨0, (runAt 0x00 (0) (fun t => { t with depth := 1, lend := [(0, 0)], lcount := [(0, 2)], lstart := [(0, 3)] })), 0, (at_pc (word 0x00 (0)) (by decide +kernel)), by decide +kernel⟩,
   ⟨0, (BitVec.ofNat 56 (0x0C * 2 ^ 50 + 2 ^ 45)), (runAt 0x08 (0x0C * 2 ^ 50 + 2 ^ 45) id), (at_pc (word 0x08 (0x0C * 2 ^ 50 + 2 ^ 45)) (by decide +kernel)), by decide +kernel⟩,
   ⟨0, (BitVec.ofNat 56 (0x0C * 2 ^ 50 + (2 ^ 32 - 1))), (runAt 0x09 (0x0C * 2 ^ 50 + (2 ^ 32 - 1)) id), (at_pc (word 0x09 (0x0C * 2 ^ 50 + (2 ^ 32 - 1))) (by decide +kernel)), by decide +kernel⟩,
   ⟨0, (BitVec.ofNat 56 (2 ^ 50 + 7)), (runAt 0x0A (2 ^ 50 + 7) id), (at_pc (word 0x0A (2 ^ 50 + 7)) (by decide +kernel)), by decide +kernel⟩,
   ⟨0, (BitVec.ofNat 56 (10 * 2 ^ 47)), (runAt 0x0D (10 * 2 ^ 47) id), (at_pc (word 0x0D (10 * 2 ^ 47)) (by decide +kernel)), by decide +kernel⟩,
   ⟨0, (BitVec.ofNat 56 (15 * 2 ^ 48)), (runAt 0x11 (15 * 2 ^ 48) id), (at_pc (word 0x11 (15 * 2 ^ 48)) (by decide +kernel)), by decide +kernel⟩,
   ⟨0, (BitVec.ofNat 56 (7 * 2 ^ 50)), (runAt 0x13 (7 * 2 ^ 50) id), (at_pc (word 0x13 (7 * 2 ^ 50)) (by decide +kernel)), by decide +kernel⟩,
   ⟨0, (BitVec.ofNat 56 (0)), (runAt 0x33 (0) id), (at_pc (word 0x33 (0)) (by decide +kernel)), by decide +kernel⟩,
   ⟨0, (BitVec.ofNat 56 (7 * 2 ^ 52 + 2 ^ 47)), (runAt 0x48 (7 * 2 ^ 52 + 2 ^ 47) (fun t => t.setReg 1 5)), (at_pc (word 0x48 (7 * 2 ^ 52 + 2 ^ 47)) (by decide +kernel)), by decide +kernel⟩⟩

/-- What the clauses of CaseMemoryAccesses assume can be met. -/
theorem meets_CaseMemoryAccesses :
    (∃ (t : Fin 136) (b : Body) (errs : List CaseErr) (s x : State), atPC s t.val 0x0B b ∧
      s.caseRead t.val [(addrOff ((s.tile t.val).reg (bfld b 46 5)) (bfld b 30 16), 8)] errs = (x, none) ∧
      reservedChk b (ones 55 30) [] ++ scalarChk (s.tile t.val) (addrOff ((s.tile t.val).reg (bfld b 46 5)) (bfld b 30 16)) 8 (bfld b 46 5) = []) ∧
    (∃ (t : Fin 136) (b : Body) (s : State), atPC s t.val 0x0C b ∧
      reservedChk b (ones 55 30) [] ++ scalarChk (s.tile t.val) (addrOff ((s.tile t.val).reg (bfld b 46 5)) (bfld b 30 16)) 8 (bfld b 46 5) = []) ∧
    (∃ (t : Fin 136) (b : Body) (errs : List CaseErr) (s x : State), atPC s t.val 0x10 b ∧
      s.caseRead t.val [((s.tile t.val).reg (bfld b 47 5), 64)] errs = (x, none) ∧
      reservedChk b (ones 55 47) [] ++ scalarChk (s.tile t.val) ((s.tile t.val).reg (bfld b 47 5)) 64 (bfld b 47 5) = []) ∧
    (∃ (t : Fin 136) (b : Body) (errs : List CaseErr) (s x : State), atPC s t.val 0x12 b ∧
      s.caseRead t.val [((s.tile t.val).reg (bfld b 48 5), 32)] errs = (x, none) ∧
      reservedChk b (ones 55 48) [] ++ scalarChk (s.tile t.val) ((s.tile t.val).reg (bfld b 48 5)) 32 (bfld b 48 5) = []) ∧
    (∃ (t : Fin 136) (b : Body) (s : State), atPC s t.val 0x0B b ∧
      reservedChk b (ones 55 30) [] = [] ∧
      addrOff ((s.tile t.val).reg (bfld b 46 5)) (bfld b 30 16) % 8 ≠ 0 ∧
      addrOff ((s.tile t.val).reg (bfld b 46 5)) (bfld b 30 16) + 8 ≤ (s.tile t.val).extent) ∧
    (∃ (t : Fin 136) (b : Body) (errs : List CaseErr) (a : Nat) (s x : State), atPC s t.val 0x0B b ∧
      s.caseRead t.val [(addrOff ((s.tile t.val).reg (bfld b 46 5)) (bfld b 30 16), 8)] errs = (x, some a) ∧
      reservedChk b (ones 55 30) [] ++ scalarChk (s.tile t.val) (addrOff ((s.tile t.val).reg (bfld b 46 5)) (bfld b 30 16)) 8 (bfld b 46 5) = []) :=
  ⟨⟨0, (BitVec.ofNat 56 (2 ^ 46)), [], (runAt 0x0B (2 ^ 46) (fun t => t.setReg 1 0x7FFFF8)), _, (at_pc (word 0x0B (2 ^ 46)) (by decide +kernel)), (fst_of (by decide +kernel)), by decide +kernel⟩,
   ⟨0, (BitVec.ofNat 56 (2 ^ 46)), (runAt 0x0C (2 ^ 46) (fun t => t.setReg 1 0x7FFFF8)), (at_pc (word 0x0C (2 ^ 46)) (by decide +kernel)), by decide +kernel⟩,
   ⟨0, (BitVec.ofNat 56 (2 ^ 47)), [], (runAt 0x10 (2 ^ 47) (fun t => t.setReg 1 0x7FFFC0)), _, (at_pc (word 0x10 (2 ^ 47)) (by decide +kernel)), (fst_of (by decide +kernel)), by decide +kernel⟩,
   ⟨0, (BitVec.ofNat 56 (2 ^ 48)), [], (runAt 0x12 (2 ^ 48) (fun t => t.setReg 1 0x7FFFE0)), _, (at_pc (word 0x12 (2 ^ 48)) (by decide +kernel)), (fst_of (by decide +kernel)), by decide +kernel⟩,
   ⟨0, (BitVec.ofNat 56 (2 ^ 46)), (runAt 0x0B (2 ^ 46) (fun t => t.setReg 1 0x7FFFF1)), (at_pc (word 0x0B (2 ^ 46)) (by decide +kernel)), by decide +kernel⟩,
   ⟨0, (BitVec.ofNat 56 (2 ^ 46)), [], 64, (runAt 0x0B (2 ^ 46) (fun t => { t.setReg 1 64 with mem := { t.mem with poison := [8] } })), _, (at_pc (word 0x0B (2 ^ 46)) (by decide +kernel)), (fst_of (by decide +kernel)), by decide +kernel⟩⟩

/-- What the clauses of TileFaultRegisters assume can be met. -/
theorem meets_TileFaultRegisters :
    (∃ (t : Fin 136) (b : Body) (s : State), atPC s t.val 0x05 b ∧
      reservedChk b (ones 15 0) [] = []) ∧
    (∃ (n : Nat) (s : State), (∀ r, s.step? n = some r → r.state ≠ .opened)) :=
  ⟨⟨0, (BitVec.ofNat 56 (0xFFFF)), (runAt 0x05 (0xFFFF) id), (at_pc (word 0x05 (0xFFFF)) (by decide +kernel)), by decide +kernel⟩,
   ⟨0, onAll, (fun _ h => nomatch (show (none : Option StepRec) = some _ from h))⟩⟩

/-- What the clauses of ControlAndContexts assume can be met. -/
theorem meets_ControlAndContexts :
    (∃ (t : Fin 136) (b : Body) (s : State) (c : Nat), atPC s t.val 0x01 b ∧
      c = (if bbit b 55 then (s.tile t.val).reg (bfld b 34 5) % 2 ^ 32 else bfld b 39 16) ∧
      reservedChk b (ones 55 55 + (if bbit b 55 then ones 38 34 else ones 54 39) + ones 33 21) [] = [] ∧
      (s.tile t.val).depth < 4 ∧
      rangeChk (s.tile t.val) (s.code t.val).length (((s.tile t.val).pc + bfld b 21 13 + 1 : Nat) : Int) = [] ∧
      c ≠ 0) ∧
    (∃ (t : Fin 136) (b : Body) (s : State), atPC s t.val 0x01 b ∧
      reservedChk b (ones 55 55 + (if bbit b 55 then ones 38 34 else ones 54 39) + ones 33 21) [] = [] ∧
      (s.tile t.val).depth < 4 ∧
      rangeChk (s.tile t.val) (s.code t.val).length (((s.tile t.val).pc + bfld b 21 13 + 1 : Nat) : Int) = [] ∧
      (if bbit b 55 then (s.tile t.val).reg (bfld b 34 5) % 2 ^ 32 else bfld b 39 16) = 0) ∧
    (∃ (t : Fin 136) (b : Body) (s : State) (n : Nat), atPC s t.val 0x02 b ∧
      reservedChk b (ones 55 28) [(decide (6 < bfld b 52 4), 52)] = [] ∧
      ((s.tile t.val).pc : Int) + sext 14 (bfld b 28 14) = (n : Int) ∧
      rangeChk (s.tile t.val) (s.code t.val).length (n : Int) = []) ∧
    (∃ (p n : Nat) (s : State), n < (s.code p).length) ∧
    (∃ (t : Fin 136) (s : State), atPC s t.val 0x03 0 ∧
      2 ≤ (s.tile t.val).slices.length ∧
      ((s.tile t.val).loopEnd (s.tile t.val).depth).pc < (s.code t.val).length) ∧
    (∃ (t : Fin 136) (s : State) (nx : Sheet), atPC s t.val 0x04 0 ∧
      bitOf (s.tile t.val).phase 4 = false ∧
      s.nextSheet (s.tile t.val) = some nx) ∧
    (∃ (t : Fin 136) (s : State) (v : Tile), atPC s t.val 0x04 0 ∧
      v = { (s.tile t.val).modCtx (s.tile t.val).ctx (fun c => { c with ended := true }) with depth := 0, stalled := 0 } ∧
      bitOf (s.tile t.val).phase 4 = false ∧
      s.nextSheet (s.tile t.val) = none) ∧
    (∃ (t : Fin 136) (s : State) (c : Ctx), atPC s t.val 0x04 0 ∧
      bitOf (s.tile t.val).phase 4 = false ∧
      s.nextSheet (s.tile t.val) = none ∧
      (s.tile t.val).slices = [c] ∧
      (s.tile t.val).ctx = 0) ∧
    (∃ (t : Fin 136) (b : Body) (s : State), atPC s t.val 0x05 b ∧
      reservedChk b (ones 15 0) [] = []) ∧
    (∃ (t : Fin 136) (w : BitVec 64) (s : State), s.wordAt t.val = some w ∧
      knownOpcode (w.toNat / 2 ^ 56) = false) ∧
    (∃ (t : Fin 136) (errs : List CaseErr) (s x : State) (out inc : Ctx) (c : Nat) (sh : Sheet), s.caseRead t.val [(0, min out.extent 0x800000)] errs = (x, none) ∧
      (x.dramKeep out.save ((s.tile t.val).saveRecord (min out.extent 0x800000))).1.sheet? inc.sheet = some sh ∧
      (s.tile t.val).run = .yielding ∧
      (s.tile t.val).platen = [] ∧
      (s.tile t.val).bankA.drain = none ∧
      (s.tile t.val).bankB.drain = none ∧
      (s.tile t.val).moves = [] ∧
      (s.tile t.val).nextCtx = some c ∧
      (s.tile t.val).slices[(s.tile t.val).ctx]? = some out ∧
      (s.tile t.val).slices[c]? = some inc ∧
      dramMapped out.save (saveHead + min out.extent 0x800000) = true ∧
      s.memOpen out.save (saveHead + min out.extent 0x800000) = true ∧
      inc.started = false) ∧
    (∃ (t : Fin 136) (errs : List CaseErr) (s x y z : State) (out inc : Ctx) (c : Nat) (bs : Bytes), s.caseRead t.val [(0, min out.extent 0x800000)] errs = (x, none) ∧
      y = (x.dramKeep out.save ((s.tile t.val).saveRecord (min out.extent 0x800000))).1 ∧
      y.memOpen inc.save (saveHead + min inc.extent 0x800000) = true ∧
      y.dramLoad inc.save (saveHead + min inc.extent 0x800000) = (bs, false, z) ∧
      (s.tile t.val).run = .yielding ∧
      (s.tile t.val).platen = [] ∧
      (s.tile t.val).bankA.drain = none ∧
      (s.tile t.val).bankB.drain = none ∧
      (s.tile t.val).moves = [] ∧
      (s.tile t.val).nextCtx = some c ∧
      (s.tile t.val).slices[(s.tile t.val).ctx]? = some out ∧
      (s.tile t.val).slices[c]? = some inc ∧
      dramMapped out.save (saveHead + min out.extent 0x800000) = true ∧
      s.memOpen out.save (saveHead + min out.extent 0x800000) = true ∧
      inc.started = true ∧
      dramMapped inc.save (saveHead + min inc.extent 0x800000) = true) ∧
    (∃ (p : Nat) (s : State), s.regN (pgPRS p) 0x008 % 2 = 0) :=
  ⟨⟨0, (BitVec.ofNat 56 (3 * 2 ^ 39 + 2 * 2 ^ 21)), (runAt 0x01 (3 * 2 ^ 39 + 2 * 2 ^ 21) id), _, (at_pc (word 0x01 (3 * 2 ^ 39 + 2 * 2 ^ 21)) (by decide +kernel)), rfl, by decide +kernel⟩,
   ⟨0, (BitVec.ofNat 56 (2 ^ 21)), (runAt 0x01 (2 ^ 21) id), (at_pc (word 0x01 (2 ^ 21)) (by decide +kernel)), by decide +kernel⟩,
   ⟨0, (BitVec.ofNat 56 (3 * 2 ^ 28)), (runAt 0x02 (3 * 2 ^ 28) id), 3, (at_pc (word 0x02 (3 * 2 ^ 28)) (by decide +kernel)), by decide +kernel⟩,
   ⟨0, 3, (runAt 0 0 id), by decide +kernel⟩,
   ⟨0, (runAt 0x03 (0) (fun t => { t with slices := [ctx1, ctx1] })), (at_pc (word 0x03 (0)) (by decide +kernel)), by decide +kernel⟩,
   ⟨0, { (runAt 0x04 (0) id) with fmn := { Foreman.reset with installed := [(1, { sheet1 (word 4 0) with next := 1 })] } }, { sheet1 (word 4 0) with next := 1 }, (at_pc (word 0x04 (0)) (by decide +kernel)), by decide +kernel⟩,
   ⟨0, (runAt 0x04 (0) id), _, (at_pc (word 0x04 (0)) (by decide +kernel)), rfl, by decide +kernel⟩,
   ⟨0, (runAt 0x04 (0) id), ctx1, (at_pc (word 0x04 (0)) (by decide +kernel)), by decide +kernel⟩,
   ⟨0, (BitVec.ofNat 56 (1)), (runAt 0x05 (1) id), (at_pc (word 0x05 (1)) (by decide +kernel)), by decide +kernel⟩,
   ⟨0, (word 0xFF 0), (runAt 0xFF 0 id), by decide +kernel⟩,
   ⟨0, [], (runAt 0 0 (fun t => { t with run := .yielding, slices := [{ ctx1 with extent := 64 }, { ctx1 with extent := 64, started := false }] })), _, { ctx1 with extent := 64 }, { ctx1 with extent := 64, started := false }, 1, (sheet1 (word 0 0)), (fst_of (by decide +kernel)), (kept_sheet (by decide +kernel)), by decide +kernel⟩,
   ⟨0, [], (runAt 0 0 (fun t => { t with run := .yielding, slices := [{ ctx1 with extent := 64 }, { ctx1 with extent := 64, started := true }] })), _, _, _, { ctx1 with extent := 64 }, { ctx1 with extent := 64, started := true }, 1, _, (fst_of (by decide +kernel)), rfl, (kept_open (by decide +kernel)), (mid_of (kept_good (by decide +kernel))), by decide +kernel⟩,
   ⟨0, (runAt 0 0 id), by decide +kernel⟩⟩

/-- What the clauses of GalleyAndDrains assume can be met. -/
theorem meets_GalleyAndDrains :
    (∃ (t : Fin 136) (b : Body) (errs : List CaseErr) (s x : State) (da db : DescWord) (v : Tile) (fs : List PFault), atPC s t.val 0x20 b ∧
      mmaOperands (s.tile t.val) b = (da, db, v, fs) ∧
      ({ (s.setTile t.val v) with serial := s.serial + 1 } : State).caseRead t.val (descRanges da (dFmt da) (dT da) false ++ descRanges db (dFmt db) (dT db) true) errs = (x, none) ∧
      mmaChk (s.tile t.val) b = [] ∧
      (s.tile t.val).platenFull = false ∧
      (s.tile t.val).galleyMove = false) ∧
    (∃ (t : Fin 136) (k : KSlice) (r : List KSlice) (s : State), (s.tile t.val).platen = k :: r ∧
      ((s.tile t.val).bank k.bankB).drain = none ∧
      (s.tile t.val).galleyMove = false) ∧
    (∃ (t : Fin 136) (k : KSlice) (r : List KSlice) (s : State), (s.tile t.val).platen = k :: r ∧
      ((s.tile t.val).bank k.bankB).drain = none ∧
      (s.tile t.val).galleyMove = false) ∧
    (∃ (t : Fin 136) (b : Body) (s : State), atPC s t.val 0x21 b ∧
      bfld b 53 2 = 0 ∧
      reservedChk b (ones 55 53 + ones 44 29) [] = [] ∧
      (s.tile t.val).galleyWait (bbit b 55) = false ∧
      ((s.tile t.val).bank (bbit b 55)).held = false) ∧
    (∃ (t : Fin 136) (b : Body) (s : State), atPC s t.val 0x21 b ∧
      bfld b 53 2 = 1 ∧
      reservedChk b (ones 55 53 + ones 52 45) [] = [] ∧
      anchorChk (s.tile t.val) (bfld b 49 4) (bfld b 45 4) = [] ∧
      (s.tile t.val).galleyWait (bbit b 55) = false ∧
      ((s.tile t.val).bank (bbit b 55)).held = false) ∧
    (∃ (t : Fin 136) (b : Body) (s : State), atPC s t.val 0x24 b ∧
      reservedChk b (ones 55 55) [] = [] ∧
      ((s.tile t.val).bank (bbit b 55)).drain = none ∧
      (s.tile t.val).galleyMove = false) ∧
    (∃ (t : Fin 136) (b : Body) (s : State), atPC s t.val 0x23 b ∧
      bbit b 54 = false ∧
      mergeChk (s.tile t.val) b = [] ∧
      (s.tile t.val).galleyWait (bbit b 55) = false ∧
      (s.tile t.val).bankBusy (!bbit b 55) = false) ∧
    (∃ (t : Fin 136) (b : Body) (errs : List CaseErr) (s x : State) (a : Nat), atPC s t.val 0x23 b ∧
      a = (s.tile t.val).reg (bfld b 49 5) ∧
      s.caseRead t.val [(a, 65536)] errs = (x, none) ∧
      bbit b 54 = true ∧
      mergeChk (s.tile t.val) b = [] ∧
      (s.tile t.val).galleyWait (bbit b 55) = false) ∧
    (∃ (t : Fin 136) (b : Body) (s : State) (k : Bank), atPC s t.val 0x22 b ∧
      k = (s.tile t.val).bank (bbit b 55) ∧
      drainChk (s.tile t.val) b = [] ∧
      (s.tile t.val).galleyWait (bbit b 55) = false) ∧
    (∃ (t : Fin 136) (bank : Bool) (e : DrainEnd) (s : State), ((s.tile t.val).bank bank).drain = some e ∧
      e.ovf = false ∧
      e.nonFin = false ∧
      ((s.tile t.val).bank bank).loss = 0 ∧
      e.zero = none) ∧
    (∃ (t : Fin 136) (bank : Bool) (e : DrainEnd) (s : State) (k : Bank), k = { (s.tile t.val).bank bank with ovf := ((s.tile t.val).bank bank).ovf || e.ovf, drain := none } ∧
      ((s.tile t.val).bank bank).drain = some e) :=
  ⟨⟨0, (BitVec.ofNat 56 (0)), [], (runAt 0x20 (0) (fun t => t.setDesc 0 (desc 0 1 1 10))), _, _, _, _, _, (at_pc (word 0x20 (0)) (by decide +kernel)), rfl, (fst_of (by decide +kernel)), by decide +kernel⟩,
   ⟨0, { bankB := true, mma := 0, pc := 0, m1 := 1, a := [FVal.fin false 1 0], b := [FVal.fin false 3 0] }, [], (runAt 0 0 (fun t => { t with platen := [{ bankB := true, mma := 0, pc := 0, m1 := 1, a := [FVal.fin false 1 0], b := [FVal.fin false 3 0] }] })), by decide +kernel⟩,
   ⟨0, { bankB := true, mma := 0, pc := 0, m1 := 1, a := [FVal.fin false 1 0], b := [FVal.fin false 3 0] }, [], (runAt 0 0 (fun t => { t with platen := [{ bankB := true, mma := 0, pc := 0, m1 := 1, a := [FVal.fin false 1 0], b := [FVal.fin false 3 0] }] })), by decide +kernel⟩,
   ⟨0, (BitVec.ofNat 56 (0x8000 * 2 ^ 29)), (runAt 0x21 (0x8000 * 2 ^ 29) id), (at_pc (word 0x21 (0x8000 * 2 ^ 29)) (by decide +kernel)), by decide +kernel⟩,
   ⟨0, (BitVec.ofNat 56 (2 ^ 53)), (runAt 0x21 (2 ^ 53) (fun t => t.setDesc 0 (desc 0 1 1 10))), (at_pc (word 0x21 (2 ^ 53)) (by decide +kernel)), by decide +kernel⟩,
   ⟨0, (BitVec.ofNat 56 (2 ^ 55)), (runAt 0x24 (2 ^ 55) id), (at_pc (word 0x24 (2 ^ 55)) (by decide +kernel)), by decide +kernel⟩,
   ⟨0, (BitVec.ofNat 56 (0)), (runAt 0x23 (0) id), (at_pc (word 0x23 (0)) (by decide +kernel)), by decide +kernel⟩,
   ⟨0, (BitVec.ofNat 56 (2 ^ 54)), [], (runAt 0x23 (2 ^ 54) id), _, _, (at_pc (word 0x23 (2 ^ 54)) (by decide +kernel)), rfl, (fst_of (by decide +kernel)), by decide +kernel⟩,
   ⟨0, (BitVec.ofNat 56 (5 * 2 ^ 48)), (runAt 0x22 (5 * 2 ^ 48) (fun t => t.setDesc 0 (desc 0 64 64 12 256))), _, (at_pc (word 0x22 (5 * 2 ^ 48)) (by decide +kernel)), rfl, by decide +kernel⟩,
   ⟨0, false, { ovf := false, nonFin := false, phase := false, zero := none }, (runAt 0 0 (fun t => { t with bankA := { Bank.reset with drain := some { ovf := false, nonFin := false, phase := false, zero := none } } })), by decide +kernel⟩,
   ⟨0, true, { ovf := true, nonFin := false, phase := false, zero := none }, (runAt 0 0 (fun t => { t with bankB := { Bank.reset with drain := some { ovf := true, nonFin := false, phase := false, zero := none } } })), _, rfl, by decide +kernel⟩⟩

/-- What EntryOrderFree assumes can be met. -/
theorem meets_EntryOrderFree :
    ∃ (l m : List FVal), l.Perm m :=
  ⟨[.nan, .inf false], [.inf false, .nan], (List.Perm.swap _ _ _)⟩

/-- What the clauses of VectorInstructions assume can be met. -/
theorem meets_VectorInstructions :
    (∃ (t : Fin 136) (b : Body) (errs : List CaseErr) (s x : State) (rounds : List (List Int)) (v w : Tile) (o : Option Nat), atPC s t.val 0x30 b ∧
      takeRounds (vopStreams b) (bfld b 14 12 + 1) (s.tile t.val) = (rounds, v) ∧
      (s.setTile t.val v).caseRead t.val (vopRanges rounds) errs = (x, o) ∧
      vopRun b rounds (x.tile t.val) = (w, none) ∧
      vopChk (s.tile t.val) b = []) ∧
    (∃ (t : Fin 136) (b : Body) (errs : List CaseErr) (s x : State) (as : List Int) (v : Tile), atPC s t.val 0x31 b ∧
      takeUses (bfld b 32 12 + 1) (bfld b 49 3) (s.tile t.val) = (as, v) ∧
      (s.setTile t.val v).caseRead t.val (as.map (fun a => (a.toNat, 256))) errs = (x, none) ∧
      reservedChk b (ones 55 32) [(decide (4 < bfld b 52 4), 52)] ++ useChk (s.tile t.val) [bfld b 49 3] (takeRounds [bfld b 49 3] (bfld b 32 12 + 1) (s.tile t.val)).1 256 = []) ∧
    (∃ (t : Fin 136) (b : Body) (errs : List CaseErr) (s x : State) (as ds : List Int) (v v1 : Tile), atPC s t.val 0x32 b ∧
      takeUses (bfld b 29 12 + 1) (bfld b 49 3) (s.tile t.val) = (as, v) ∧
      takeUses 1 (bfld b 46 3) v = (ds, v1) ∧
      (s.setTile t.val v1).caseRead t.val (as.map (fun a => (a.toNat, 256))) errs = (x, none) ∧
      reservedChk b (ones 55 29) [] = [] ∧
      useChk (s.tile t.val) [bfld b 49 3] (takeRounds [bfld b 49 3] (bfld b 29 12 + 1) (s.tile t.val)).1 256 = [] ∧
      useChk (s.tile t.val) [bfld b 46 3] (takeRounds [bfld b 46 3] 1 v).1 128 = []) ∧
    (∃ (t : Fin 136) (b : Body) (errs : List CaseErr) (s x : State) (as : List Int) (v : Tile) (n : Nat), n = bfld b 27 16 + 1 ∧
      atPC s t.val 0x34 b ∧
      takeUses (ceilDiv n 64) (bfld b 53 3) (s.tile t.val) = (as, v) ∧
      (s.setTile t.val v).caseRead t.val (sampleRanges as n) errs = (x, none) ∧
      reservedChk b (ones 55 27) [] = [] ∧
      useChk (s.tile t.val) [bfld b 53 3] (takeRounds [bfld b 53 3] (ceilDiv n 64) (s.tile t.val)).1 256 = []) ∧
    (∃ (t : Fin 136) (b : Body) (errs : List CaseErr) (s x : State) (w : Tile) (nf : Bool), atPC s t.val 0x40 b ∧
      s.caseRead t.val (cvtRanges (s.tile t.val) b) errs = (x, none) ∧
      x.cvtAll b (x.tile t.val) = (w, nf) ∧
      cvtChk (s.tile t.val) b = []) ∧
    (∃ (t : Fin 136) (b : Body) (errs : List CaseErr) (s x : State) (as : List Int) (v : Tile), atPC s t.val 0x48 b ∧
      takeUses (bfld b 32 12 + 1) (bfld b 44 3) (s.tile t.val) = (as, v) ∧
      (s.setTile t.val v).caseRead t.val (as.map (fun a => (a.toNat, 256))) errs = (x, none) ∧
      bbit b 55 = true ∧
      reservedChk b (ones 55 52 + ones 46 32) [] ++ useChk (s.tile t.val) [bfld b 44 3] (takeRounds [bfld b 44 3] (bfld b 32 12 + 1) (s.tile t.val)).1 256 = [] ∧
      (s.tile t.val).tag (bfld b 52 3) ≠ 0xFFFFFFFF) :=
  ⟨⟨0, (BitVec.ofNat 56 (0)), [], (runAt 0x30 (0) id), _, _, _, _, _, (at_pc (word 0x30 (0)) (by decide +kernel)), rfl, rfl, (fst_of (by decide +kernel)), by decide +kernel⟩,
   ⟨0, (BitVec.ofNat 56 (4 * 2 ^ 52)), [], (runAt 0x31 (4 * 2 ^ 52) id), _, _, _, (at_pc (word 0x31 (4 * 2 ^ 52)) (by decide +kernel)), rfl, (fst_of (by decide +kernel)), by decide +kernel⟩,
   ⟨0, (BitVec.ofNat 56 (0)), [], (runAt 0x32 (0) id), _, _, _, _, _, (at_pc (word 0x32 (0)) (by decide +kernel)), rfl, rfl, (fst_of (by decide +kernel)), by decide +kernel⟩,
   ⟨0, (BitVec.ofNat 56 (0)), [], (runAt 0x34 (0) (fun t => t.writeAt 0 (toLE 4 0x3F800000))), _, _, _, _, rfl, (at_pc (word 0x34 (0)) (by decide +kernel)), rfl, (fst_of (by decide +kernel)), by decide +kernel⟩,
   ⟨0, (BitVec.ofNat 56 (0)), [], (runAt 0x40 (0) (fun t => t.setDesc 0 (desc 0 1 1 12))), _, _, _, (at_pc (word 0x40 (0)) (by decide +kernel)), (fst_of (by decide +kernel)), rfl, by decide +kernel⟩,
   ⟨0, (BitVec.ofNat 56 (2 ^ 55)), [], (runAt 0x48 (2 ^ 55) (fun t => { t with tlyTag := [(0, 1)] })), _, _, _, (at_pc (word 0x48 (2 ^ 55)) (by decide +kernel)), rfl, (fst_of (by decide +kernel)), by decide +kernel⟩⟩

/-- What the clauses of MovementAndCompletion assume can be met. -/
theorem meets_MovementAndCompletion :
    (∃ (t : Fin 136) (b : Body) (s : State) (u : Tile) (gl ga n : Nat), u = s.tile t.val ∧
      gl = u.reg (bfld b 50 5) ∧
      ga = u.reg (bfld b 45 5) ∧
      n = 64 * (bfld b 29 16 + 1) ∧
      atPC s t.val 0x50 b ∧
      reservedChk b (ones 55 26) [] = [] ∧
      localChk u gl n (bfld b 50 5) = [] ∧
      ga % 64 = 0 ∧
      gaSpace ga ≤ 1 ∧
      u.viewWait gl n = false ∧
      s.ownViewWait u ga n = false ∧
      u.requests < 64 ∧
      s.gaHere ga = true) ∧
    (∃ (t : Fin 136) (b : Body) (errs : List CaseErr) (s x : State) (u : Tile) (gl ga n : Nat), u = s.tile t.val ∧
      gl = u.reg (bfld b 50 5) ∧
      ga = u.reg (bfld b 45 5) ∧
      n = 64 * (bfld b 29 16 + 1) ∧
      atPC s t.val 0x50 b ∧
      (if bbit b 55 = true ∧ gl < 0x800000 then s.caseRead t.val [(gl, n)] errs else (s, none)) = (x, none) ∧
      reservedChk b (ones 55 26) [] = [] ∧
      localChk u gl n (bfld b 50 5) = [] ∧
      ga % 64 = 0 ∧
      gaSpace ga ≤ 1 ∧
      u.viewWait gl n = false ∧
      s.ownViewWait u ga n = false ∧
      u.requests < 64 ∧
      s.gaHere ga = false ∧
      u.layoutSw = none) ∧
    (∃ (t : Fin 136) (b : Body) (s : State) (u : Tile) (gl ga n : Nat), u = s.tile t.val ∧
      gl = u.reg (bfld b 50 5) ∧
      ga = u.reg (bfld b 45 5) ∧
      n = 64 * (bfld b 24 16 + 1) ∧
      atPC s t.val 0x51 b ∧
      reservedChk b (ones 54 21) [] = [] ∧
      localChk u gl n (bfld b 50 5) = [] ∧
      ga % 64 = 0 ∧
      gaSpace ga = 0 ∧
      u.viewWait gl n = false ∧
      u.requests < 64 ∧
      s.gaHere ga = false ∧
      u.layoutSw = none) ∧
    (∃ (t : Fin 136) (b : Body) (s : State) (u : Tile) (gl ga n : Nat), u = s.tile t.val ∧
      gl = u.reg (bfld b 50 5) ∧
      ga = u.reg (bfld b 45 5) ∧
      n = 64 * (bfld b 24 16 + 1) ∧
      atPC s t.val 0x51 b ∧
      reservedChk b (ones 54 21) [] = [] ∧
      localChk u gl n (bfld b 50 5) = [] ∧
      ga % 64 = 0 ∧
      gaSpace ga = 0 ∧
      u.viewWait gl n = false ∧
      u.requests < 64 ∧
      s.gaHere ga = true ∧
      dramMapped (gaOff ga) n = true) ∧
    (∃ (t : Fin 136) (b : Body) (s : State) (u : Tile) (ga : Nat), u = s.tile t.val ∧
      ga = u.reg (bfld b 50 5) ∧
      atPC s t.val 0x52 b ∧
      reservedChk b (ones 54 31) [] = [] ∧
      ga % 4 = 0 ∧
      gaSpace ga = 1 ∧
      s.ownViewWait u ga 4 = false ∧
      u.requests < 64 ∧
      s.gaHere ga = true) ∧
    (∃ (t : Fin 136) (b : Body) (s : State) (u : Tile) (ga : Nat), u = s.tile t.val ∧
      ga = u.reg (bfld b 50 5) ∧
      atPC s t.val 0x52 b ∧
      reservedChk b (ones 54 31) [] = [] ∧
      ga % 4 = 0 ∧
      gaSpace ga = 1 ∧
      s.ownViewWait u ga 4 = false ∧
      u.requests < 64 ∧
      s.gaHere ga = false ∧
      u.layoutSw = none) ∧
    (∃ (t : Fin 136) (b : Body) (s : State), atPC s t.val 0x53 b ∧
      bktChk (s.tile t.val) b = [] ∧
      s.bktCredit < 1024 ∧
      (s.tile t.val).requests < 64) ∧
    (∃ (t : Fin 136) (b : Body) (errs : List CaseErr) (s x : State) (u : Tile) (ra : Nat), u = s.tile t.val ∧
      ra = u.reg (bfld b 48 5) ∧
      atPC s t.val 0x58 b ∧
      s.caseRead t.val [(ra, 128)] errs = (x, none) ∧
      reservedChk b (ones 55 45) [] = [] ∧
      ra % 64 = 0 ∧
      ra + 128 ≤ u.extent ∧
      bfld b 53 3 / 4 = tileFolio t.val ∧
      s.domOn (136 + bfld b 53 3) = true ∧
      (s.srt (bfld b 53 3)).queue.length + (s.srt (bfld b 53 3)).posts.length < 256) ∧
    (∃ (t : Fin 136) (b : Body) (s : State) (u : Tile) (ra : Nat), u = s.tile t.val ∧
      ra = u.reg (bfld b 48 5) ∧
      atPC s t.val 0x58 b ∧
      reservedChk b (ones 55 45) [] = [] ∧
      ra % 64 = 0 ∧
      ra + 128 ≤ u.extent ∧
      bfld b 53 3 / 4 = tileFolio t.val ∧
      s.domOn (136 + bfld b 53 3) = false) ∧
    (∃ (t : Fin 136) (n : Nat) (errs : List CaseErr) (m : Move) (s x : State), s.performMove t.val errs m = (x, some 0) ∧
      (s.tile t.val).moves.find? (fun y => y.serial == n && y.ready) = some m) ∧
    (∃ (t : Fin 136) (n : Nat) (errs : List CaseErr) (m : Move) (s x y : State) (c : Nat), s.performMove t.val errs m = (x, some c) ∧
      (c ≠ stRETIRED ∨ ∀ gl ga ed k, m.kind ≠ .gath gl ga ed k) ∧
      y = x.modTile t.val (fun u => { u with moves := u.moves.filter (fun y => y.serial != n) }) ∧
      (s.tile t.val).moves.find? (fun y => y.serial == n && y.ready) = some m ∧
      c ≠ 0) ∧
    (∃ (t : Fin 136) (n gl ga ed k : Nat) (errs : List CaseErr) (m : Move) (s x y : State), s.performMove t.val errs m = (x, some stRETIRED) ∧
      y = x.modTile t.val (fun u => { u with moves := u.moves.filter (fun y => y.serial != n) }) ∧
      (s.tile t.val).moves.find? (fun y => y.serial == n && y.ready) = some m ∧
      m.kind = .gath gl ga ed k) ∧
    (∃ (m : Move) (q : BktReq), m.kind = .bkt q) :=
  ⟨⟨0, (BitVec.ofNat 56 (2 ^ 45)), (runAt 0x50 (2 ^ 45) (fun t => t.setReg 1 (dramAddr 0))), _, _, _, _, rfl, rfl, rfl, rfl, (at_pc (word 0x50 (2 ^ 45)) (by decide +kernel)), by decide +kernel⟩,
   ⟨0, (BitVec.ofNat 56 (2 ^ 45 + 0xFFFF * 2 ^ 29)), [], (runAt 0x50 (2 ^ 45 + 0xFFFF * 2 ^ 29) (fun t => t.setReg 1 (5 * 2 ^ 50))), _, _, _, _, _, rfl, rfl, rfl, rfl, (at_pc (word 0x50 (2 ^ 45 + 0xFFFF * 2 ^ 29)) (by decide +kernel)), (fst_of (by decide +kernel)), by decide +kernel⟩,
   ⟨0, (BitVec.ofNat 56 (2 ^ 45)), (runAt 0x51 (2 ^ 45) (fun t => t.setReg 1 (5 * 2 ^ 50))), _, _, _, _, rfl, rfl, rfl, rfl, (at_pc (word 0x51 (2 ^ 45)) (by decide +kernel)), by decide +kernel⟩,
   ⟨0, (BitVec.ofNat 56 (2 ^ 45)), (runAt 0x51 (2 ^ 45) (fun t => t.setReg 1 (dramAddr 0))), _, _, _, _, rfl, rfl, rfl, rfl, (at_pc (word 0x51 (2 ^ 45)) (by decide +kernel)), by decide +kernel⟩,
   ⟨0, (BitVec.ofNat 56 (2 ^ 50)), (runAt 0x52 (2 ^ 50) (fun t => t.setReg 1 (dramAddr (2 ^ 47)))), _, _, rfl, rfl, (at_pc (word 0x52 (2 ^ 50)) (by decide +kernel)), by decide +kernel⟩,
   ⟨0, (BitVec.ofNat 56 (2 ^ 50)), (runAt 0x52 (2 ^ 50) (fun t => t.setReg 1 (5 * 2 ^ 50 + 2 ^ 47))), _, _, rfl, rfl, (at_pc (word 0x52 (2 ^ 50)) (by decide +kernel)), by decide +kernel⟩,
   ⟨0, (BitVec.ofNat 56 (2 * 2 ^ 54)), (runAt 0x53 (2 * 2 ^ 54) (fun t => t.setDesc 0 (desc 0 1 1 12))), (at_pc (word 0x53 (2 * 2 ^ 54)) (by decide +kernel)), by decide +kernel⟩,
   ⟨0, (BitVec.ofNat 56 (3 * 2 ^ 53 + 2 ^ 48)), [], (runAt 0x58 (3 * 2 ^ 53 + 2 ^ 48) (fun t => t.setReg 1 0x7FFF80)), _, _, _, rfl, rfl, (at_pc (word 0x58 (3 * 2 ^ 53 + 2 ^ 48)) (by decide +kernel)), (fst_of (by decide +kernel)), by decide +kernel⟩,
   ⟨0, (BitVec.ofNat 56 (3 * 2 ^ 53 + 2 ^ 48)), ((runAt 0x58 (3 * 2 ^ 53 + 2 ^ 48) (fun t => t.setReg 1 0x7FFF80)).setDom 139 0), _, _, rfl, rfl, (at_pc (word 0x58 (3 * 2 ^ 53 + 2 ^ 48)) (by decide +kernel)), by decide +kernel⟩,
   ⟨0, 3, [], { serial := 3, grp := 2, pc := 0, kind := .bkt bkt0, parts := 0, status := 0, ready := true, view := false }, (runAt 0 0 (fun t => { t with moves := [{ serial := 3, grp := 2, pc := 0, kind := .bkt bkt0, parts := 0, status := 0, ready := true, view := false }] })), _, (fst_of (by decide +kernel)), by decide +kernel⟩,
   ⟨0, 3, [], { serial := 3, grp := 2, pc := 0, kind := .bkt bkt0, parts := 0, status := 4, ready := true, view := false }, (runAt 0 0 (fun t => { t with moves := [{ serial := 3, grp := 2, pc := 0, kind := .bkt bkt0, parts := 0, status := 4, ready := true, view := false }] })), _, _, 4, (fst_of (by decide +kernel)), Or.inl (by decide), rfl, by decide +kernel⟩,
   ⟨0, 3, 0, 0, 0, 0, [], { serial := 3, grp := 2, pc := 0, kind := .gath 0 0 0 0, parts := 0, status := stRETIRED, ready := true, view := false }, (runAt 0 0 (fun t => { t with moves := [{ serial := 3, grp := 2, pc := 0, kind := .gath 0 0 0 0, parts := 0, status := stRETIRED, ready := true, view := false }] })), _, _, (fst_of (by decide +kernel)), rfl, by decide +kernel⟩,
   ⟨{ serial := 3, grp := 2, pc := 0, kind := .bkt bkt0, parts := 0, status := 0, ready := true, view := false }, bkt0, by decide +kernel⟩⟩

/-- What the clauses of WaitsAndBarriers assume can be met. -/
theorem meets_WaitsAndBarriers :
    (∃ (t : Fin 136) (b : Body) (s : State), atPC s t.val 0x60 b ∧
      bfld b 54 2 = 0 ∧
      reservedChk b (ones 55 46) [] = []) ∧
    (∃ (t : Fin 136) (b : Body) (errs : List CaseErr) (s x : State), atPC s t.val 0x60 b ∧
      s.caseRead t.val [((s.tile t.val).reg (bfld b 41 5), 4)] errs = (x, none) ∧
      (bfld b 54 2 = 1 ∨ bfld b 54 2 = 2) ∧
      reservedChk b (ones 55 54 + ones 45 36) [] = [] ∧
      (s.tile t.val).reg (bfld b 41 5) % 4 = 0 ∧
      (s.tile t.val).reg (bfld b 41 5) + 4 ≤ (s.tile t.val).extent) ∧
    (∃ (t : Fin 136) (b : Body) (s : State), atPC s t.val 0x61 b ∧
      reservedChk b (ones 55 51) [] = []) ∧
    (∃ (t : Fin 136) (w : Wait) (s : State), (∀ e a v, w ≠ .flag e a v) ∧
      (s.tile t.val).run = .waiting ∧
      (s.tile t.val).wait = some w) ∧
    (∃ (t : Fin 136) (errs : List CaseErr) (e : Bool) (a v : Nat) (s x : State), s.caseRead t.val [(a, 4)] errs = (x, none) ∧
      (s.tile t.val).run = .waiting ∧
      (s.tile t.val).wait = some (.flag e a v)) ∧
    (∃ (t : Fin 136) (b : Body) (s : State) (m : Nat) (v : Tile), atPC s t.val 0x62 b ∧
      v = (s.tile t.val).modCtx (s.tile t.val).ctx (fun c => { c with bar := some (bfld b 52 4), passed := false }) ∧
      (s.tile t.val).fenced 0x1F = true ∧
      s.barChk (s.tile t.val) b = [] ∧
      (s.tile t.val).barPassed (bfld b 52 4) = false ∧
      s.barMembers (s.tile t.val) (bfld b 52 4) = some m) ∧
    (∃ (t : Fin 136) (b : Body) (s : State), atPC s t.val 0x62 b ∧
      (s.tile t.val).fenced 0x1F = true ∧
      s.barChk (s.tile t.val) b = [] ∧
      (s.tile t.val).barPassed (bfld b 52 4) = true) ∧
    (∃ (t : Fin 136) (s : State) (id m : Nat), (s.tile t.val).run = .waiting ∧
      (s.tile t.val).wait = some (.barrier id) ∧
      s.barMembers (s.tile t.val) id = some m ∧
      s.barReached m id = true) ∧
    (∃ (t : Fin 136) (s : State) (id l : Nat) (c : Ctx), (s.tile t.val).run = .waiting ∧
      (s.tile t.val).wait = some (.barrier id) ∧
      l < 128 ∧
      s.barMembers (s.tile t.val) id = some (2 ^ (8 * l)) ∧
      s.physical l = some t.val ∧
      (s.tile t.val).ctx = 0 ∧
      (s.tile t.val).slices = [c] ∧
      c.bar = some id ∧
      c.passed = false) :=
  ⟨⟨0, (BitVec.ofNat 56 (0xFF * 2 ^ 46)), (runAt 0x60 (0xFF * 2 ^ 46) id), (at_pc (word 0x60 (0xFF * 2 ^ 46)) (by decide +kernel)), by decide +kernel⟩,
   ⟨0, (BitVec.ofNat 56 (2 * 2 ^ 54 + 2 ^ 41)), [], (runAt 0x60 (2 * 2 ^ 54 + 2 ^ 41) (fun t => t.setReg 1 0x7FFFFC)), _, (at_pc (word 0x60 (2 * 2 ^ 54 + 2 ^ 41)) (by decide +kernel)), (fst_of (by decide +kernel)), by decide +kernel⟩,
   ⟨0, (BitVec.ofNat 56 (0x1F * 2 ^ 51)), (runAt 0x61 (0x1F * 2 ^ 51) id), (at_pc (word 0x61 (0x1F * 2 ^ 51)) (by decide +kernel)), by decide +kernel⟩,
   ⟨0, (.groups 255), (runAt 0 0 (fun t => { t with run := .waiting, wait := some (.groups 255) })), (fun _ _ _ h => nomatch h), by decide +kernel⟩,
   ⟨0, [], true, 0x7FFFFC, 1, (runAt 0 0 (fun t => { t with run := .waiting, wait := some (.flag true 0x7FFFFC 1) })), _, (fst_of (by decide +kernel)), by decide +kernel⟩,
   ⟨0, (BitVec.ofNat 56 (2 * 2 ^ 52)), (runAt 0x62 (2 * 2 ^ 52) id), 1, _, (at_pc (word 0x62 (2 * 2 ^ 52)) (by decide +kernel)), rfl, by decide +kernel⟩,
   ⟨0, (BitVec.ofNat 56 (2 * 2 ^ 52)), (runAt 0x62 (2 * 2 ^ 52) (fun t => { t with slices := [{ ctx1 with bar := some 2, passed := true }] })), (at_pc (word 0x62 (2 * 2 ^ 52)) (by decide +kernel)), by decide +kernel⟩,
   ⟨0, (runAt 0 0 (fun t => { t with run := .waiting, wait := some (.barrier 2), slices := [{ ctx1 with bar := some 2 }] })), 2, 1, by decide +kernel⟩,
   ⟨0, (runAt 0 0 (fun t => { t with run := .waiting, wait := some (.barrier 2), slices := [{ ctx1 with bar := some 2 }] })), 2, 0, { ctx1 with bar := some 2 }, by decide +kernel⟩⟩

/-- What the clauses of PhaseInstructionsAndHeldBanks assume can be met. -/
theorem meets_PhaseInstructionsAndHeldBanks :
    (∃ (t : Fin 136) (b : Body) (s : State), atPC s t.val 0x68 b ∧
      bbit b 51 = false ∧
      reservedChk b (phaseNamed b) [] = [] ∧
      bitOf (s.tile t.val).phase 4 = false) ∧
    (∃ (t : Fin 136) (b : Body) (s : State), atPC s t.val 0x68 b ∧
      bbit b 51 = true ∧
      reservedChk b (phaseNamed b) [] = [] ∧
      (s.tile t.val).phase = bfld b 54 2 + bfld b 52 2 * 4 + 16 ∧
      (bfld b 54 2 = 2 → (s.tile t.val).bankA.held = false ∧ (s.tile t.val).bankB.held = false)) ∧
    (∃ (t : Fin 136) (l : Nat) (s : State), (s.tile t.val).layoutSw = some l) ∧
    (∃ (t : Fin 136) (b : Body) (s : State), atPC s t.val 0x68 b ∧
      bbit b 51 = true ∧
      reservedChk b (phaseNamed b) [] = [] ∧
      (s.tile t.val).phase = bfld b 54 2 + bfld b 52 2 * 4 + 16 ∧
      bfld b 54 2 = 2 ∧
      ((s.tile t.val).bankA.held = true ∨ (s.tile t.val).bankB.held = true)) ∧
    (∃ (t : Fin 136) (b : Body) (s : State), atPC s t.val 0x68 b ∧
      bbit b 51 = true ∧
      reservedChk b (phaseNamed b) [] = [] ∧
      (s.tile t.val).phase = bfld b 54 2 + bfld b 52 2 * 4 + 16 ∧
      bfld b 54 2 = 2 ∧
      (s.tile t.val).bankA.held = true ∧
      s.step? (s.tile t.val).step = none) :=
  ⟨⟨0, (BitVec.ofNat 56 (2 * 2 ^ 54 + 3 * 2 ^ 52)), (runAt 0x68 (2 * 2 ^ 54 + 3 * 2 ^ 52) id), (at_pc (word 0x68 (2 * 2 ^ 54 + 3 * 2 ^ 52)) (by decide +kernel)), by decide +kernel⟩,
   ⟨0, (BitVec.ofNat 56 (2 * 2 ^ 54 + 2 ^ 51)), (runAt 0x68 (2 * 2 ^ 54 + 2 ^ 51) (fun t => { t with phase := 18 })), (at_pc (word 0x68 (2 * 2 ^ 54 + 2 ^ 51)) (by decide +kernel)), by decide +kernel⟩,
   ⟨0, 2, (runAt 0 0 (fun t => { t with layoutSw := some 2 })), by decide +kernel⟩,
   ⟨0, (BitVec.ofNat 56 (2 * 2 ^ 54 + 2 ^ 51)), (runAt 0x68 (2 * 2 ^ 54 + 2 ^ 51) (fun t => { t with phase := 18, bankA := { Bank.reset with held := true } })), (at_pc (word 0x68 (2 * 2 ^ 54 + 2 ^ 51)) (by decide +kernel)), by decide +kernel⟩,
   ⟨0, (BitVec.ofNat 56 (2 * 2 ^ 54 + 2 ^ 51)), (runAt 0x68 (2 * 2 ^ 54 + 2 ^ 51) (fun t => { t with phase := 18, bankA := { Bank.reset with held := true } })), (at_pc (word 0x68 (2 * 2 ^ 54 + 2 ^ 51)) (by decide +kernel)), by decide +kernel⟩⟩

/-- What the clauses of TileControlWrites assume can be met. -/
theorem meets_TileControlWrites :
    (∃ (t : Fin 136) (s : State), s.fmn.state ≠ .stepping ∧
      (s.tile t.val).run = .running) ∧
    (∃ (t : Fin 136) (s : State), s.fmn.state ≠ .stepping ∧
      (s.tile t.val).run = .stopped) ∧
    (∃ (t : Fin 136) (s : State), s.fmn.state ≠ .stepping ∧
      s.regN (pgPRS t.val) 0x008 = 0 ∧
      (s.tile t.val).run ≠ .stopped) ∧
    (∃ (t : Fin 136) (b : Bool) (v : Nat) (s : State), v = (s.regN (pgPRS t.val) 0x008 &&& 2 ||| b2n b) ∧
      (s.fmn.state = .stepping → s.changesNow (pgPRS t.val) .prs t.val 0x008 v = false)) ∧
    (∃ (t : Fin 136) (b : Bool) (v : Nat) (s : State), v = (s.regN (pgPRS t.val) 0x008 &&& 1 ||| 2 * b2n b)) ∧
    (∃ (t : Fin 136) (s : State), (s.tile t.val).run = .idle) ∧
    (∃ (t : Fin 136) (b : Bool) (v : Nat) (s : State), v = (s.regN (pgPRS t.val) 0x008 &&& 2 ||| b2n b) ∧
      s.fmn.state = .stepping ∧
      s.changesNow (pgPRS t.val) .prs t.val 0x008 v = true) :=
  ⟨⟨0, (runAt 0 0 id), by decide +kernel⟩,
   ⟨0, (runAt 0 0 (fun t => { t with run := .stopped })), by decide +kernel⟩,
   ⟨0, (runAt 0 0 id), by decide +kernel⟩,
   ⟨135, true, _, onAll, rfl, (fun h => nomatch h)⟩,
   ⟨135, true, _, onAll, rfl⟩,
   ⟨0, (idle onAll), by decide +kernel⟩,
   ⟨0, true, _, (onIn .stepping), rfl, by decide +kernel⟩⟩

/-- What the clauses of SheetCommands assume can be met. -/
theorem meets_SheetCommands :
    (∃ (q : Fin 64) (c : Cmd) (s x y z : State) (img : Bytes) (bad : Bool), starts s q.val 0x30 c ∧
      x = s.started q.val c ∧
      x.dramLoad (leAt c.body 0 8) (leAt c.body 8 4) = (img, bad, y) ∧
      z = y.imageChecked (crcField0 img 0x3C) true ∧
      x.extentOk (leAt c.body 0 8) (leAt c.body 8 4) = true ∧
      sheetOk img = true ∧
      leAt img 0x22 2 ≤ 1 ∧
      (z.fmn.sheets.length < 256 ∨ kvHas z.fmn.sheets (leAt img 8 2) = true)) ∧
    (∃ (q : Fin 64) (c : Cmd) (s x y z : State) (img : Bytes) (bad : Bool), starts s q.val 0x33 c ∧
      x = s.started q.val c ∧
      x.dramLoad (leAt c.body 0 8) (leAt c.body 8 4) = (img, bad, y) ∧
      instOk img = true ∧
      z = (y.sheetsSeen (instEntries img)).imageChecked (crcField0 img 0xC) true ∧
      x.extentOk (leAt c.body 0 8) (leAt c.body 8 4) = true ∧
      z.instFits (instEntries img) = true ∧
      (instEntries img).any (fun e => decide (8192 < tileCode z.fmn.sheets e)) = false ∧
      z.fmn.install = none) ∧
    (∃ (s : State), s.fmn.install.isSome = true ∧
      s.allIdle = true) ∧
    (∃ (s : State) (i : Install), s.fmn.install = some i ∧
      s.allIdle = true) ∧
    (∃ (t : Fin 136) (s : State), (s.tile t.val).wiping = true) :=
  ⟨⟨0, (cmd 0x30 (toLE 8 0 ++ toLE 4 72 ++ toLE 4 0)), (cmdAt .joined 0x30 (toLE 8 0 ++ toLE 4 72 ++ toLE 4 0) (holds 0 sheetImg)), _, _, _, _, false, (starts_of (by decide +kernel)), rfl, (mid_of (by decide +kernel)), rfl, by decide +kernel⟩,
   ⟨0, (cmd 0x33 (toLE 8 0x10000 ++ toLE 4 280 ++ toLE 4 0)), (cmdAt .joined 0x33 (toLE 8 0x10000 ++ toLE 4 280 ++ toLE 4 0) (fun s => holds 0x10000 instImg (holds 0 sheetImg { s with fmn := { s.fmn with sheets := [(1, sheetOf sheetImg 0)] } }))), _, _, _, instImg, false, (starts_of (by decide +kernel)), rfl, (trip_of (by decide +kernel)), inst_ok, rfl, by decide +kernel⟩,
   ⟨(idle { onIn .joined with fmn := { Foreman.reset with state := .joined, install := some install0 } }), by decide +kernel⟩,
   ⟨(idle { onIn .joined with fmn := { Foreman.reset with state := .joined, install := some install0 } }), install0, by decide +kernel⟩,
   ⟨64, { onAll with tiles := kvSet onAll.tiles 64 { onAll.tile 64 with wiping := true } }, by decide +kernel⟩⟩

/-- What the clauses of StepCommandsAndOpening assume can be met. -/
theorem meets_StepCommandsAndOpening :
    (∃ (q : Fin 64) (c : Cmd) (s x : State), starts s q.val 0x50 c ∧
      x = s.started q.val c ∧
      x.fmn.takeover = false ∧
      x.fmn.forming = none ∧
      leAt c.body 0 8 = x.stepNext ∧
      x.fmn.staged ≠ []) ∧
    (∃ (q : Fin 64) (c : Cmd) (s x : State) (n a : Nat) (r : List (Nat × Nat)), starts s q.val 0x50 c ∧
      x = s.started q.val c ∧
      x.fmn.takeover = true ∧
      x.fmn.held = (n, a) :: r ∧
      leAt c.body 0 8 = n ∧
      n = x.stepNext ∧
      x.fmn.staged ≠ []) ∧
    (∃ (q : Fin 64) (c : Cmd) (s x : State), starts s q.val 0x51 c ∧
      x = s.started q.val c ∧
      leAt c.body 0 1 ≤ 3 ∧
      leAt (c.body.drop 8) 0 4 ≠ 0 ∧
      leAt (c.body.drop 8) 4 1 ≤ 1 ∧
      allZero (sliceB (c.body.drop 8) 5 3) = true ∧
      leAt (c.body.drop 8) 8 8 + leAt (c.body.drop 8) 0x10 8 ≤ dramSize ∧
      kvHas x.fmn.staged (leAt c.body 0 1) = false ∧
      (x.fmn.takeover = true ∨ bitOf x.busySlots (leAt c.body 0 1) = false)) ∧
    (∃ (q : Fin 64) (c : Cmd) (s x : State), starts s q.val 0x52 c ∧
      x = s.started q.val c ∧
      x.fmn.forming = none ∧
      x.step? (leAt c.body 0 8) = none ∧
      leAt c.body 0 8 = x.stepNext) ∧
    (∃ (q : Fin 64) (c : Cmd) (s x : State) (f : Forming), starts s q.val 0x52 c ∧
      x = s.started q.val c ∧
      x.fmn.forming = some f ∧
      leAt c.body 0 8 = f.n) ∧
    (∃ (q : Fin 64) (c : Cmd) (s x : State), starts s q.val 0x52 c ∧
      x = s.started q.val c ∧
      (∀ f, x.fmn.forming = some f → leAt c.body 0 8 ≠ f.n) ∧
      (x.step? (leAt c.body 0 8)).isSome = true) ∧
    (∃ (s : State) (f : Forming) (ef : Nat), s.fmn.forming = some f ∧
      f.scale = none ∧
      s.recordOf f.n = none ∧
      s.slotFree f.n = true ∧
      s.freeEf = some ef) ∧
    (∃ (s : State) (f : Forming) (r : ScaleRec), s.fmn.forming = some f ∧
      f.scale = none ∧
      s.recordOf f.n = some r) ∧
    (∃ (s : State) (f : Forming) (r : ScaleRec), s.fmn.forming = some f ∧
      (s.fmn.state = .joined ∨ s.fmn.state = .stepping) ∧
      s.canOpen f = true ∧
      f.scale = some r ∧
      s.boundary.spareWait = false) ∧
    (∃ (s : State) (r : StepRec), s.fmn.steps.find? (fun r => r.state == .opened) = some r ∧
      s.allIdle = true ∧
      s.stepMoves = false) ∧
    (∃ (s : State) (n : Nat), lowest ((s.fmn.steps.filter (fun r => s.canReopen r)).map (·.n)) = some n ∧
      s.boundary.spareWait = false) :=
  ⟨⟨0, (cmd 0x50 (toLE 8 0)), (cmdAt .joined 0x50 (toLE 8 0) (fun s => { s with fmn := { s.fmn with staged := [(0, [])] } })), _, (starts_of (by decide +kernel)), rfl, by decide +kernel⟩,
   ⟨0, (cmd 0x50 (toLE 8 0)), (cmdAt .joined 0x50 (toLE 8 0) (fun s => { s with fmn := { s.fmn with takeover := true, held := [(0, 0)], staged := [(0, [])] } })), _, 0, 0, [], (starts_of (by decide +kernel)), rfl, by decide +kernel⟩,
   ⟨0, (cmd 0x51 (toLE 1 3 ++ toLE 7 0 ++ toLE 4 1 ++ toLE 4 0 ++ toLE 8 0 ++ toLE 8 64 ++ toLE 24 0)), (cmdAt .joined 0x51 (toLE 1 3 ++ toLE 7 0 ++ toLE 4 1 ++ toLE 4 0 ++ toLE 8 0 ++ toLE 8 64 ++ toLE 24 0) id), _, (starts_of (by decide +kernel)), rfl, by decide +kernel⟩,
   ⟨0, (cmd 0x52 (toLE 8 0)), (cmdAt .joined 0x52 (toLE 8 0) id), _, (starts_of (by decide +kernel)), rfl, by decide +kernel⟩,
   ⟨0, (cmd 0x52 (toLE 8 0)), (cmdAt .joined 0x52 (toLE 8 0) (forming (form0 none))), _, (form0 none), (starts_of (by decide +kernel)), rfl, by decide +kernel⟩,
   ⟨0, (cmd 0x52 (toLE 8 0)), (cmdAt .joined 0x52 (toLE 8 0) (steps [stepRec 0 .opened])), _, (starts_of (by decide +kernel)), rfl, (fun _ h => nomatch h), by decide +kernel⟩,
   ⟨(forming (form0 none) (onIn .joined)), (form0 none), 1, by decide +kernel⟩,
   ⟨(forming (form0 none) { onIn .joined with num := { Num.reset with recs := [(0, { n := 0, epoch := 0, k := 16, efRd := 0, efWr := 1, ents := [] })], undecided := [0] } }), (form0 none), { n := 0, epoch := 0, k := 16, efRd := 0, efWr := 1, ents := [] }, by decide +kernel⟩,
   ⟨(forming (form0 (some { n := 0, epoch := 0, k := 16, efRd := 0, efWr := 1, ents := [] })) (onIn .joined)), (form0 (some { n := 0, epoch := 0, k := 16, efRd := 0, efWr := 1, ents := [] })), { n := 0, epoch := 0, k := 16, efRd := 0, efWr := 1, ents := [] }, by decide +kernel⟩,
   ⟨(steps [stepRec 0 .opened] (idle (onIn .joined))), (stepRec 0 .opened), by decide +kernel⟩,
   ⟨(steps [{ stepRec 0 .rollingBack with rolled := true, after := some .repeat }] (onIn .joined)), 0, by decide +kernel⟩⟩

/-- What the clauses of SliceMessages assume can be met. -/
theorem meets_SliceMessages :
    (∃ (s x : State) (o : OutPkt), s.sliceIn 1 = some (o, x)) ∧
    (∃ (s x : State) (o : OutPkt) (r : StepRec), s.sliceIn 2 = some (o, x) ∧
      x.step? (sliceStep o.pkt) = some r ∧
      r.attempt = sliceAttempt o.pkt ∧
      r.state = .collating ∧
      x.firstAct 2 (sliceStep o.pkt) (sliceAttempt o.pkt) = true) ∧
    (∃ (s x y : State) (o : OutPkt) (d : DecMsg), s.sliceIn 3 = some (o, x) ∧
      decOf (sliceRest o.pkt) = some d ∧
      y = (if x.self = x.deputy then (x.leadFor (sliceStep o.pkt) (sliceAttempt o.pkt)).modLead (sliceStep o.pkt) (fun l => if l.attempt = sliceAttempt o.pkt then { l with decided := some d } else l) else x)) ∧
    (∃ (s : State) (n a : Nat) (d : DecMsg) (r : StepRec), s.step? n = some r ∧
      r.attempt = a ∧
      s.firstAct (32 + d.verdict.code) n a = true ∧
      r.state = .deciding) ∧
    (∃ (s : State) (n a : Nat) (d : DecMsg) (r : StepRec), s.step? n = some r ∧
      r.attempt = a ∧
      s.firstAct (32 + d.verdict.code) n a = true ∧
      r.state ≠ .rollingBack ∧
      (d.verdict = .repeat ∨ d.verdict = .suspend ∨ d.verdict = .abort)) ∧
    (∃ (s x : State) (o : OutPkt) (l : LeadRec), s.sliceIn 4 = some (o, x) ∧
      x.lead? (sliceStep o.pkt) = some l ∧
      l.attempt = sliceAttempt o.pkt ∧
      bitOf (leAt (sliceRest o.pkt) 0 1) 0 = false) ∧
    (∃ (s x : State) (o : OutPkt) (l : LeadRec), s.sliceIn 4 = some (o, x) ∧
      x.lead? (sliceStep o.pkt) = some l ∧
      l.attempt = sliceAttempt o.pkt ∧
      bitOf (leAt (sliceRest o.pkt) 0 1) 0 = true) ∧
    (∃ (s x y : State) (o : OutPkt), s.sliceIn 5 = some (o, x) ∧
      y = (if x.self = x.deputy then (x.leadFor (sliceStep o.pkt) (sliceAttempt o.pkt)).modLead (sliceStep o.pkt) (fun l => if l.attempt = sliceAttempt o.pkt then { l with released := true } else l) else x)) ∧
    (∃ (s x y : State) (o : OutPkt), s.sliceIn 6 = some (o, x) ∧
      y = { x with fmn := { x.fmn with takeover := !x.fmn.held.isEmpty, resumed := !x.fmn.held.isEmpty, steps := x.fmn.steps.map (fun (r : StepRec) => if r.await then { r with await := false, after := some Verdict.repeat } else r) } }) ∧
    (∃ (s x : State) (o : OutPkt) (k : Nat), s.sliceIn 0x0B = some (o, x) ∧
      k = (if o.pkt.src = x.self then ((x.step? (sliceStep o.pkt)).map (fun r => if r.cause = 0 then 6 else r.cause)).getD 6 else 6) ∧
      x.isLeader = true) :=
  ⟨⟨(got (slicePk 1 0 0 ([])) (onIn .joined)), (onIn .joined), (OutPkt.mk (slicePk 1 0 0 ([])) .none none false false), rfl⟩,
   ⟨(got (slicePk 2 0 0 ([])) (steps [stepRec 0 .collating] (onIn .joined))), (steps [stepRec 0 .collating] (onIn .joined)), (OutPkt.mk (slicePk 2 0 0 ([])) .none none false false), (stepRec 0 .collating), rfl, by decide +kernel⟩,
   ⟨(got (slicePk 3 0 0 (toLE 40 0)) ((steps [stepRec 0 .deciding] (onIn .joined)).setN pgFMN 0x050 (5 * 2 ^ 16))), ((steps [stepRec 0 .deciding] (onIn .joined)).setN pgFMN 0x050 (5 * 2 ^ 16)), _, (OutPkt.mk (slicePk 3 0 0 (toLE 40 0)) .none none false false), _, rfl, rfl, rfl⟩,
   ⟨((steps [stepRec 0 .deciding] (onIn .joined)).setN pgFMN 0x050 (5 * 2 ^ 16)), 0, 0, { verdict := .commit, negK := 0, clip := 0, ovfSrc := 0, g2 := 0, parts := 0, total := 0, nparts := 0, samples := 0, cause := 0 }, (stepRec 0 .deciding), by decide +kernel⟩,
   ⟨((steps [stepRec 0 .deciding] (onIn .joined)).setN pgFMN 0x050 (5 * 2 ^ 16)), 0, 0, { verdict := .repeat, negK := 0, clip := 0, ovfSrc := 0, g2 := 0, parts := 0, total := 0, nparts := 0, samples := 0, cause := 0 }, (stepRec 0 .deciding), by decide +kernel⟩,
   ⟨(got (slicePk 4 0 0 (toLE 16 0)) { onIn .stepping with fmn := { Foreman.reset with state := .stepping, leaders := [(LeadRec.fresh 0 0 [])] } }), { onIn .stepping with fmn := { Foreman.reset with state := .stepping, leaders := [(LeadRec.fresh 0 0 [])] } }, (OutPkt.mk (slicePk 4 0 0 (toLE 16 0)) .none none false false), (LeadRec.fresh 0 0 []), rfl, by decide +kernel⟩,
   ⟨(got (slicePk 4 0 0 (toLE 1 1 ++ toLE 15 0)) { onIn .stepping with fmn := { Foreman.reset with state := .stepping, leaders := [(LeadRec.fresh 0 0 [])] } }), { onIn .stepping with fmn := { Foreman.reset with state := .stepping, leaders := [(LeadRec.fresh 0 0 [])] } }, (OutPkt.mk (slicePk 4 0 0 (toLE 1 1 ++ toLE 15 0)) .none none false false), (LeadRec.fresh 0 0 []), rfl, by decide +kernel⟩,
   ⟨(got (slicePk 5 0 0 ([])) ((steps [stepRec 0 .deciding] (onIn .joined)).setN pgFMN 0x050 (5 * 2 ^ 16))), ((steps [stepRec 0 .deciding] (onIn .joined)).setN pgFMN 0x050 (5 * 2 ^ 16)), _, (OutPkt.mk (slicePk 5 0 0 ([])) .none none false false), rfl, rfl⟩,
   ⟨(got (slicePk 6 0 0 ([])) (onIn .stepping)), (onIn .stepping), _, (OutPkt.mk (slicePk 6 0 0 ([])) .none none false false), rfl, rfl⟩,
   ⟨(got (slicePk 0x0B 0 0 ([])) (slice [0, 1] 0 (onIn .stepping))), (slice [0, 1] 0 (onIn .stepping)), (OutPkt.mk (slicePk 0x0B 0 0 ([])) .none none false false), _, rfl, rfl, by decide +kernel⟩⟩

/-- What ReleaseEndsStep assumes can be met. -/
theorem meets_ReleaseEndsStep :
    ∃ (s : State) (n a : Nat) (r : StepRec), s.step? n = some r ∧
      r.attempt = a ∧
      r.state = .committed :=
  ⟨(steps [stepRec 3 .committed] onAll), 3, 0, (stepRec 3 .committed), by decide +kernel⟩

/-- What the clauses of LeaderEvents assume can be met. -/
theorem meets_LeaderEvents :
    (∃ (s : State) (n : Nat) (l : LeadRec) (late : List Nat), late = s.members.filter (fun c => !l.readyChips.contains c) ∧
      s.lead? n = some l ∧
      s.isLeader = true ∧
      l.armed = true ∧
      l.allIn = false ∧
      l.decided = none) ∧
    (∃ (s x : State) (e : Exch), x = (s.putExch { e with normSent := true }).modStep e.step (fun r => { r with normSent := true }) ∧
      s.normReady = some e) ∧
    (∃ (s x : State) (o : OutPkt) (l : LeadRec) (k : Nat), s.takeOldest 0x35 = some (o, x) ∧
      x.lead? (colStep o.pkt.payload) = some l ∧
      x.rankOf o.pkt.src = some k ∧
      l.attempt = colAtt o.pkt.payload) ∧
    (∃ (s : State) (n : Nat) (l : LeadRec) (missing : List Nat), missing = s.members.filter (fun c => match s.rankOf c with | some r => !kvHas l.norms r | none => false) ∧
      s.lead? n = some l ∧
      s.isLeader = true ∧
      l.allIn = true ∧
      l.decided = none) :=
  ⟨⟨(slice [0, 1] 0 { onIn .stepping with fmn := { Foreman.reset with state := .stepping, leaders := [{ LeadRec.fresh 4 0 [] with armed := true }] } }), 4, { LeadRec.fresh 4 0 [] with armed := true }, _, rfl, by decide +kernel⟩,
   ⟨{ steps [stepRec 0 .deciding] onAll with col := { Col.reset with exch := [(0, { Exch.fresh 0 0 with done := true })] } }, _, { Exch.fresh 0 0 with done := true }, rfl, by decide +kernel⟩,
   ⟨(got (pk 0x35 (0) (0) (colBody 0 0 0)) (slice [0, 1] 0 { onIn .stepping with fmn := { Foreman.reset with state := .stepping, leaders := [(LeadRec.fresh 0 0 [])] } })), (slice [0, 1] 0 { onIn .stepping with fmn := { Foreman.reset with state := .stepping, leaders := [(LeadRec.fresh 0 0 [])] } }), (OutPkt.mk (pk 0x35 (0) (0) (colBody 0 0 0)) .none none false false), (LeadRec.fresh 0 0 []), 1, rfl, by decide +kernel⟩,
   ⟨(slice [0, 1] 0 { onIn .stepping with fmn := { Foreman.reset with state := .stepping, leaders := [{ LeadRec.fresh 4 0 [] with allIn := true }] } }), 4, { LeadRec.fresh 4 0 [] with allIn := true }, _, rfl, by decide +kernel⟩⟩

/-- What the clauses of TrainingRegisterWrites assume can be met. -/
theorem meets_TrainingRegisterWrites :
    (∃ (v : Word) (s : State), s.domOn 183 = true ∧
      lsCfgOk (v.toNat ||| 1) = true) ∧
    (∃ (v : Word) (s : State), s.domOn 183 = true ∧
      lsCfgOk (v.toNat ||| 1) = false) ∧
    (∃ (s : State), s.domOn 183 = false) ∧
    (∃ (s : State), s.domOn 183 = true) ∧
    (∃ (s : State) (e : TensorEnt), e = { TensorEnt.clear with word := s.regN pgNUM 0x09C } ∧
      s.domOn 183 = true ∧
      e.mode ≠ 3 ∧
      (e.mode = 1 → (histTf e.fmt).isSome = true)) ∧
    (∃ (s : State) (e : TensorEnt), e = { TensorEnt.clear with word := s.regN pgNUM 0x09C } ∧
      s.domOn 183 = true ∧
      (e.mode = 3 ∨ (e.mode = 1 ∧ histTf e.fmt = none))) ∧
    (∃ (s : State), s.domOn 183 = true) ∧
    (∃ (s : State), s.domOn 183 = true ∧
      s.fmn.state = .joined ∧
      s.fmn.forming = none ∧
      s.fmn.steps = []) ∧
    (∃ (s : State), s.domOn 183 = true ∧
      (s.fmn.state ≠ .joined ∨ s.fmn.forming ≠ none ∨ s.fmn.steps ≠ [])) ∧
    (∃ (s : State), s.domOn 179 = true ∧
      s.fmn.state = .idle ∧
      s.imp.active = none) ∧
    (∃ (v : Word) (s : State), s.domOn 179 = true ∧
      s.fmn.state = .idle ∧
      s.imp.active = none ∧
      (s.regN pgRTE 0x044 = 0 ∨ s.chipExists (v.toNat % 16384) = true)) ∧
    (∃ (v : Word) (s : State), s.domOn 179 = true ∧
      s.fmn.state = .idle ∧
      s.imp.active = none ∧
      shapeOk (v.toNat % 2 ^ 24) = true) ∧
    (∃ (v : Word) (s : State), s.domOn 179 = true ∧
      s.fmn.state = .idle ∧
      s.imp.active = none ∧
      s.regN pgRTE 0x044 ≠ 0 ∧
      s.chipExists (v.toNat % 16384) = false) ∧
    (∃ (v : Word) (s : State), s.domOn 179 = true ∧
      s.fmn.state = .idle ∧
      s.imp.active = none ∧
      shapeOk (v.toNat % 2 ^ 24) = false) ∧
    (∃ (s : State), (s.domOn 179 = false ∨ s.fmn.state ≠ .idle ∨ s.imp.active ≠ none)) :=
  ⟨⟨0x10200100, onAll, by decide +kernel⟩,
   ⟨0x100, onAll, by decide +kernel⟩,
   ⟨State.reset, by decide +kernel⟩,
   ⟨onAll, by decide +kernel⟩,
   ⟨onAll, _, rfl, by decide +kernel⟩,
   ⟨(onAll.setN pgNUM 0x09C (3 * 2 ^ 26)), _, rfl, by decide +kernel⟩,
   ⟨onAll, by decide +kernel⟩,
   ⟨(onIn .joined), by decide +kernel⟩,
   ⟨(steps [stepRec 0 .opened] (onIn .joined)), by decide +kernel⟩,
   ⟨(onIn .idle), by decide +kernel⟩,
   ⟨0x3FFF, (onIn .idle), by decide +kernel⟩,
   ⟨0x281010, (onIn .idle), by decide +kernel⟩,
   ⟨0x3FFF, ((onIn .idle).setN pgRTE 0x044 0x040404), by decide +kernel⟩,
   ⟨0, (onIn .idle), by decide +kernel⟩,
   ⟨State.reset, by decide +kernel⟩⟩

/-- What the clauses of CollationContributions assume can be met. -/
theorem meets_CollationContributions :
    (∃ (t : Fin 136) (serial : Nat) (errs : List CaseErr) (s x : State) (m : Move) (r : BktReq) (b : Bucket) (h : BHalf), x = s.caseErrors t.val errs ∧
      (s.tile t.val).moves.find? (fun m => m.serial == serial && !m.ready) = some m ∧
      m.kind = .bkt r ∧
      firstBad (x.tile t.val).mem (bktEnds r) = none ∧
      x.bucket? r.bucket = some b ∧
      x.bhalf r.bucket r.step r.attempt = some h ∧
      x.bktFits r b h = true) ∧
    (∃ (s : State) (r : BktReq) (b : Bucket) (h : BHalf), s.bktFits r b h = true) ∧
    (∃ (t : Fin 136) (serial : Nat) (errs : List CaseErr) (s x : State) (m : Move) (r : BktReq) (b : Bucket), x = s.caseErrors t.val errs ∧
      (s.tile t.val).moves.find? (fun m => m.serial == serial && !m.ready) = some m ∧
      m.kind = .bkt r ∧
      firstBad (x.tile t.val).mem (bktEnds r) = none ∧
      x.bucket? r.bucket = some b ∧
      x.bhalf r.bucket r.step r.attempt = none) ∧
    (∃ (s x : State) (o : OutPkt) (b : Bucket), s.takeOldest 0x30 = some (o, x) ∧
      x.bucket? (colBucket o.pkt.addr) = some b) ∧
    (∃ (s x : State) (o : OutPkt) (b : Bucket) (h : BHalf), s.takeOldest 0x31 = some (o, x) ∧
      x.bucket? (colBucket o.pkt.addr) = some b ∧
      x.bhalf (colBucket o.pkt.addr) (colStep o.pkt.payload) (colAtt o.pkt.payload) = some h) ∧
    (∃ (s x : State) (o : OutPkt) (b : Bucket), s.takeOldest 0x32 = some (o, x) ∧
      x.bucket? (colBucket o.pkt.addr) = some b ∧
      (x.bhalf (colBucket o.pkt.addr) (colStep o.pkt.payload) (colAtt o.pkt.payload)).isSome = true) ∧
    (∃ (s : State), s.nextOut = none) ∧
    (∃ (s x y : State) (i : Nat) (o : COut), x = s.setCol (fun c => { c with outs := dropNth c.outs i }) ∧
      (y = (if (o.pkt.type = 0x30 ∨ o.pkt.type = 0x38 ∨ o.pkt.type = 0x39) ∧ o.pkt.dst ≠ s.self then x.bump pgCOL 0x068 1 else x)) ∧
      s.nextOut = some i ∧
      s.col.outs[i]? = some o) ∧
    (∃ (s x : State) (o : OutPkt), s.takeOldest 0x38 = some (o, x)) :=
  ⟨⟨0, 3, [], (slice [0, 1] 0 (runAt 0 0 (fun t => { t with moves := [{ serial := 3, grp := 2, pc := 0, kind := .bkt bkt0, parts := 0, status := 0, ready := false, view := false }] }))), _, { serial := 3, grp := 2, pc := 0, kind := .bkt bkt0, parts := 0, status := 0, ready := false, view := false }, bkt0, (bucketAt (colSec0 0) 0), (BHalf.fresh 0 0), rfl, by decide +kernel⟩,
   ⟨(slice [0, 1] 0 (runAt 0 0 (fun t => { t with moves := [{ serial := 3, grp := 2, pc := 0, kind := .bkt bkt0, parts := 0, status := 0, ready := false, view := false }] }))), bkt0, (bucketAt (colSec0 0) 0), (BHalf.fresh 0 0), by decide +kernel⟩,
   ⟨0, 3, [], { slice [0, 1] 0 (runAt 0 0 (fun t => { t with moves := [{ serial := 3, grp := 2, pc := 0, kind := .bkt bkt0, parts := 0, status := 0, ready := false, view := false }] })) with col := { Col.reset with halves := [(0, BHalf.fresh 2 0)] } }, _, { serial := 3, grp := 2, pc := 0, kind := .bkt bkt0, parts := 0, status := 0, ready := false, view := false }, bkt0, (bucketAt (colSec0 0) 0), rfl, by decide +kernel⟩,
   ⟨(got (pk 0x30 (0) (0) (colBody 0 0 0)) (slice [0, 1] 0 (onIn .joined))), (slice [0, 1] 0 (onIn .joined)), (OutPkt.mk (pk 0x30 (0) (0) (colBody 0 0 0)) .none none false false), (bucketAt (colSec0 0) 0), rfl, by decide +kernel⟩,
   ⟨(got (pk 0x31 (0) (0) (colBody 0 0 1)) (slice [0, 1] 0 (onIn .joined))), (slice [0, 1] 0 (onIn .joined)), (OutPkt.mk (pk 0x31 (0) (0) (colBody 0 0 1)) .none none false false), (bucketAt (colSec0 0) 0), (BHalf.fresh 0 0), rfl, by decide +kernel⟩,
   ⟨(got (pk 0x32 (0) (0) (colBody 0 0 0)) (slice [0, 1] 0 (onIn .joined))), (slice [0, 1] 0 (onIn .joined)), (OutPkt.mk (pk 0x32 (0) (0) (colBody 0 0 0)) .none none false false), (bucketAt (colSec0 0) 0), rfl, by decide +kernel⟩,
   ⟨onAll, by decide +kernel⟩,
   ⟨{ onAll with col := { Col.reset with outs := [{ step := 0, bucket := 0, bkt := 0, pkt := pk 0x31 0 0 (colBody 0 0 0) }] } }, _, _, 0, { step := 0, bucket := 0, bkt := 0, pkt := pk 0x31 0 0 (colBody 0 0 0) }, rfl, rfl, by decide +kernel⟩,
   ⟨(got (pk 0x38 (0) (0) (colBody 0 0 0)) (slice [0, 1] 0 (onIn .joined))), (slice [0, 1] 0 (onIn .joined)), (OutPkt.mk (pk 0x38 (0) (0) (colBody 0 0 0)) .none none false false), rfl⟩⟩

/-- What the clauses of CollationResults assume can be met. -/
theorem meets_CollationResults :
    (∃ (s x : State) (o : OutPkt) (l : LeadRec), s.takeOldest 0x33 = some (o, x) ∧
      x.isLeader = true ∧
      (x.leadFor (colStep o.pkt.payload) (colAtt o.pkt.payload)).lead? (colStep o.pkt.payload) = some l ∧
      l.attempt ≤ colAtt o.pkt.payload) ∧
    (∃ (s x : State) (o : OutPkt), s.takeOldest 0x33 = some (o, x) ∧
      x.isLeader = false) ∧
    (∃ (s x : State) (o : OutPkt) (e : Exch), s.takeOldest 0x34 = some (o, x) ∧
      x.exch? (colStep o.pkt.payload) (colAtt o.pkt.payload) = some e ∧
      colN o.pkt.payload = 0) ∧
    (∃ (s x : State) (o : OutPkt) (e : Exch) (tb : Table), s.takeOldest 0x34 = some (o, x) ∧
      x.exch? (colStep o.pkt.payload) (colAtt o.pkt.payload) = some e ∧
      colN o.pkt.payload ≠ 0 ∧
      x.table? (fld o.pkt.addr 40 12) = some tb) ∧
    (∃ (s x : State) (o : OutPkt), s.takeOldest 0x34 = some (o, x) ∧
      x.exch? (colStep o.pkt.payload) (colAtt o.pkt.payload) = none) ∧
    (∃ (s x y : State) (o : OutPkt) (e : Exch), s.takeOldest 0x3A = some (o, x) ∧
      y = x.replDown e o.pkt ∧
      x.exch? (colStep o.pkt.payload) (colAtt o.pkt.payload) = some e) ∧
    (∃ (s x : State) (o : OutPkt), s.takeOldest 0x39 = some (o, x)) ∧
    (∃ (s x y : State) (o : OutPkt) (i r : Nat) (me : MapEnt) (h : AHalf) (g : Seg), s.takeOldest 0x3B = some (o, x) ∧
      y = x.ownWrite (me.region + 4 * r) (toLE 4 (colCount o.pkt.payload)) ∧
      x.segOf o.pkt = some (i, me, r, some (h, g))) ∧
    (∃ (s x : State) (o : OutPkt) (i r : Nat) (me : MapEnt) (h : AHalf) (g : Seg), s.takeOldest 0x3C = some (o, x) ∧
      x.segOf o.pkt = some (i, me, r, some (h, g))) ∧
    (∃ (s x y : State) (o : OutPkt) (b : Bucket) (h : BHalf), s.takeOldest 0x3D = some (o, x) ∧
      y = ((x.placeRows (b.deliv + o.pkt.arg * (mapAt x.colSec b.offset).rs) (mapAt x.colSec b.offset) o.pkt.payload).bump pgCOL 0x07C (colN o.pkt.payload)).putHalf (colBucket o.pkt.addr) { h with closed := h.closed || colLast o.pkt.payload } ∧
      x.bucket? (colBucket o.pkt.addr) = some b ∧
      x.bhalf (colBucket o.pkt.addr) (colStep o.pkt.payload) (colAtt o.pkt.payload) = some h) ∧
    (∃ (b : Bytes), colN b = 1) :=
  ⟨⟨(got (pk 0x33 (0) (0) (colBody 0 0 0)) (slice [0, 1] 0 (onIn .joined))), (slice [0, 1] 0 (onIn .joined)), (OutPkt.mk (pk 0x33 (0) (0) (colBody 0 0 0)) .none none false false), (LeadRec.fresh 0 0 []), rfl, by decide +kernel⟩,
   ⟨(got (pk 0x33 (0) (0) (colBody 0 0 0)) (onIn .joined)), (onIn .joined), (OutPkt.mk (pk 0x33 (0) (0) (colBody 0 0 0)) .none none false false), rfl, by decide +kernel⟩,
   ⟨(got (pk 0x34 (0) (0) (colBody 0 0 0)) (slice [0, 1] 0 (onIn .joined))), (slice [0, 1] 0 (onIn .joined)), (OutPkt.mk (pk 0x34 (0) (0) (colBody 0 0 0)) .none none false false), (Exch.fresh 0 0), rfl, by decide +kernel⟩,
   ⟨(got (pk 0x34 (0) (0) (colBody 0 0 1)) (tables [table0] (slice [0, 1] 0 (onIn .joined)))), (tables [table0] (slice [0, 1] 0 (onIn .joined))), (OutPkt.mk (pk 0x34 (0) (0) (colBody 0 0 1)) .none none false false), (Exch.fresh 0 0), table0, rfl, by decide +kernel⟩,
   ⟨(got (pk 0x34 (0) (0) (colBody 0 0 0)) { slice [0, 1] 0 (onIn .joined) with col := { Col.reset with exch := [(0, Exch.fresh 2 0)] } }), { slice [0, 1] 0 (onIn .joined) with col := { Col.reset with exch := [(0, Exch.fresh 2 0)] } }, (OutPkt.mk (pk 0x34 (0) (0) (colBody 0 0 0)) .none none false false), rfl, by decide +kernel⟩,
   ⟨(got (pk 0x3A (0) (0) (colBody 0 0 0)) { onIn .joined with col := { Col.reset with exch := [(0, { Exch.fresh 0 0 with downGot := 1 })] } }), { onIn .joined with col := { Col.reset with exch := [(0, { Exch.fresh 0 0 with downGot := 1 })] } }, _, (OutPkt.mk (pk 0x3A (0) (0) (colBody 0 0 0)) .none none false false), { Exch.fresh 0 0 with downGot := 1 }, rfl, rfl, by decide +kernel⟩,
   ⟨(got (pk 0x39 (0) (0) (colBody 0 0 0)) (slice [0, 1] 0 (onIn .joined))), (slice [0, 1] 0 (onIn .joined)), (OutPkt.mk (pk 0x39 (0) (0) (colBody 0 0 0)) .none none false false), rfl⟩,
   ⟨(got (pk 0x3B (0) (0) (colBody 0 0 0)) (slice [0, 1] 0 (onIn .joined))), (slice [0, 1] 0 (onIn .joined)), _, (OutPkt.mk (pk 0x3B (0) (0) (colBody 0 0 0)) .none none false false), 0, 1, (mapAt (colSec0 0) 0), { step := 0, attempt := 0, segs := [] }, { count := none, slots := 0, got := 0, done := false }, rfl, rfl, by decide +kernel⟩,
   ⟨(got (pk 0x3C (0) (0) (colBody 0 0 1)) (slice [0, 1] 0 (onIn .joined))), (slice [0, 1] 0 (onIn .joined)), (OutPkt.mk (pk 0x3C (0) (0) (colBody 0 0 1)) .none none false false), 0, 1, (mapAt (colSec0 0) 0), { step := 0, attempt := 0, segs := [] }, { count := none, slots := 0, got := 0, done := false }, rfl, by decide +kernel⟩,
   ⟨(got (pk 0x3D (0) (0) (colBody 0 2 0)) (slice [0, 1] 0 (onIn .joined))), (slice [0, 1] 0 (onIn .joined)), _, (OutPkt.mk (pk 0x3D (0) (0) (colBody 0 2 0)) .none none false false), (bucketAt (colSec0 0) 0), (BHalf.fresh 0 0), rfl, rfl, by decide +kernel⟩,
   ⟨(colBody 0 0 1), by decide +kernel⟩⟩

/-- What the clauses of HeartbeatsFencesAndSpine assume can be met. -/
theorem meets_HeartbeatsFencesAndSpine :
    (∃ (s : State), s.beating = true) ∧
    (∃ (s x : State) (o : OutPkt), s.sliceIn 0x10 = some (o, x)) ∧
    (∃ (chip : Nat) (s : State), s.beating = true ∧
      (s.neighboursOf s.self).contains chip = true ∧
      s.members.contains chip = true ∧
      s.fmn.fencedMembers.contains chip = false) ∧
    (∃ (s x : State) (o : OutPkt) (c : Nat) (y : State), s.sliceIn 0x11 = some (o, x) ∧
      y = (x.resChip c).latch pgPMS 1 ∧
      c = leAt (sliceRest o.pkt) 0 2) ∧
    (∃ (s x : State) (o : OutPkt), s.sliceIn 0x12 = some (o, x)) ∧
    (∃ (chip : Nat) (s : State), kvFind s.res.suspects chip = some 1) ∧
    (∃ (chip : Nat) (s : State), kvFind s.res.suspects chip = some 2 ∧
      s.judges chip = true) ∧
    (∃ (s x y : State) (o : OutPkt) (c : Nat), s.sliceIn 0x13 = some (o, x) ∧
      y = ((x.bump pgPMS 0x078 1).resChip c).latch pgPMS 2 ∧
      c = leAt (sliceRest o.pkt) 0 2) ∧
    (∃ (s x : State) (o : OutPkt) (c : Nat), s.sliceIn 0x14 = some (o, x) ∧
      c = o.pkt.src ∧
      c ≠ x.self ∧
      c ∈ x.members ∧
      c = x.leader ∧
      x.deputy = x.self ∧
      c ∉ x.fmn.fencedMembers) ∧
    (∃ (s x y : State) (o : OutPkt) (c : Nat), s.sliceIn 0x14 = some (o, x) ∧
      y = ((x.resChip c).cutPorts c).abandonRebuild ∧
      c = o.pkt.src ∧
      c ≠ x.self ∧
      (c ≠ x.leader ∨ x.deputy ≠ x.self ∨ c ∉ x.members ∨ c ∈ x.fmn.fencedMembers)) ∧
    (∃ (s : State), s.beating = true) ∧
    (∃ (s : State) (cause : Nat), s.fencing = some cause) ∧
    (∃ (seg : Fin 4) (us n : Nat) (s x y : State), x = ((s.setField pgSPN 0x00C (spnLo seg.val) 5 (n - 1)).setN pgSPN 0x050 (min us 0xFFFFFFFF)).latch pgSPN 1 ∧
      y = (x.setField pgSPN 0x00C (28 + seg.val) 1 0).latch pgSPN 2 ∧
      n = s.field pgSPN 0x00C (spnLo seg.val) 5 ∧
      0 < n ∧
      s.field pgSPN 0x00C (28 + seg.val) 1 ≠ 0) ∧
    (∃ (seg : Fin 4) (s : State), s.field pgSPN 0x00C (28 + seg.val) 1 = 0) :=
  ⟨⟨(onIn .joined), by decide +kernel⟩,
   ⟨(got (slicePk 0x10 0 0 ([])) (onIn .joined)), (onIn .joined), (OutPkt.mk (slicePk 0x10 0 0 ([])) .none none false false), rfl⟩,
   ⟨1, ((slice [0, 1] 0 (onIn .joined)).setN pgRTE 0x044 0x040404), by decide +kernel⟩,
   ⟨(got (slicePk 0x11 0 0 (toLE 2 1 ++ toLE 14 0)) (slice [0, 1] 0 (onIn .joined))), (slice [0, 1] 0 (onIn .joined)), (OutPkt.mk (slicePk 0x11 0 0 (toLE 2 1 ++ toLE 14 0)) .none none false false), 1, _, rfl, rfl, by decide +kernel⟩,
   ⟨(got (slicePk 0x12 0 0 ([])) (onIn .joined)), (onIn .joined), (OutPkt.mk (slicePk 0x12 0 0 ([])) .none none false false), rfl⟩,
   ⟨1, { slice [0, 1] 0 (onIn .joined) with res := { Resil.reset with suspects := [(1, 1)] } }, by decide +kernel⟩,
   ⟨1, { slice [0, 1] 0 (onIn .joined) with res := { Resil.reset with suspects := [(1, 2)] } }, by decide +kernel⟩,
   ⟨(got (slicePk 0x13 0 0 (toLE 2 1 ++ toLE 14 0)) (slice [0, 1] 0 (onIn .joined))), (slice [0, 1] 0 (onIn .joined)), _, (OutPkt.mk (slicePk 0x13 0 0 (toLE 2 1 ++ toLE 14 0)) .none none false false), 1, rfl, rfl, by decide +kernel⟩,
   ⟨(got (slicePk 0x14 0 0 ([])) ((slice [1, 0] 0 (onIn .joined)).setN pgFMN 0x050 1)), ((slice [1, 0] 0 (onIn .joined)).setN pgFMN 0x050 1), (OutPkt.mk (slicePk 0x14 0 0 ([])) .none none false false), 1, rfl, by decide +kernel⟩,
   ⟨(got (slicePk 0x14 0 0 ([])) (slice [0, 1] 0 (onIn .joined))), (slice [0, 1] 0 (onIn .joined)), _, (OutPkt.mk (slicePk 0x14 0 0 ([])) .none none false false), 1, rfl, rfl, by decide +kernel⟩,
   ⟨(onIn .joined), by decide +kernel⟩,
   ⟨{ onAll with fencing := some 1 }, 1, by decide +kernel⟩,
   ⟨0, 1, 9, ((onAll.setField pgSPN 0x00C 15 5 9).setField pgSPN 0x00C 28 1 1), _, _, rfl, rfl, by decide +kernel⟩,
   ⟨3, (onAll.setN pgSPN 0x00C 0), by decide +kernel⟩⟩

/-- What the clauses of FenceSelfCommand assume can be met. -/
theorem meets_FenceSelfCommand :
    (∃ (q : Fin 64) (c : Cmd) (s x : State), starts s q.val 0x60 c ∧
      x = s.started q.val c ∧
      leAt c.body 0 2 = x.self) ∧
    (∃ (q : Fin 64) (c : Cmd) (s x : State), starts s q.val 0x60 c ∧
      x = s.started q.val c ∧
      leAt c.body 0 2 ≠ x.self ∧
      x.isLeader = true ∧
      leAt c.body 0 2 ∈ x.members) ∧
    (∃ (q : Fin 64) (c : Cmd) (s x : State), starts s q.val 0x60 c ∧
      x = s.started q.val c ∧
      leAt c.body 0 2 ≠ x.self ∧
      (x.isLeader = false ∨ leAt c.body 0 2 ∉ x.members)) ∧
    (∃ (s : State), s.fmn.state ≠ .fenced ∧
      s.fencing = none) :=
  ⟨⟨0, (cmd 0x60 (toLE 4 0)), (cmdAt .joined 0x60 (toLE 4 0) id), _, (starts_of (by decide +kernel)), rfl, by decide +kernel⟩,
   ⟨0, (cmd 0x60 (toLE 2 1 ++ toLE 2 0)), (cmdAt .joined 0x60 (toLE 2 1 ++ toLE 2 0) (slice [0, 1] 0)), _, (starts_of (by decide +kernel)), rfl, by decide +kernel⟩,
   ⟨0, (cmd 0x60 (toLE 2 2 ++ toLE 2 0)), (cmdAt .joined 0x60 (toLE 2 2 ++ toLE 2 0) (slice [0, 1] 0)), _, (starts_of (by decide +kernel)), rfl, by decide +kernel⟩,
   ⟨onAll, by decide +kernel⟩⟩

/-- What the clauses of ParityMessages assume can be met. -/
theorem meets_ParityMessages :
    (∃ (s x : State) (o : OutPkt), s.takeArrived (fun p => p.type == 0x40) = some (o, x)) ∧
    (∃ (s x : State) (o : OutPkt), s.sliceIn 0x15 = some (o, x) ∧
      1 ≤ leAt (sliceRest o.pkt) 0 1 ∧
      leAt (sliceRest o.pkt) 0 1 ≤ 3) ∧
    (∃ (s : State), s.res.busy.isSome = true ∧
      s.res.quietSent = false ∧
      s.fmn.steps.all (fun r => r.await) = true) ∧
    (∃ (s x : State) (o : OutPkt), s.sliceIn 0x16 = some (o, x)) ∧
    (∃ (s x : State) (o : OutPkt), s.sliceIn 0x17 = some (o, x)) ∧
    (∃ (s x y : State) (o : OutPkt) (b : Bytes) (k : Nat), s.sliceIn 0x19 = some (o, x) ∧
      b = sliceRest o.pkt ∧
      y = x.setFmn (fun f => { f with takeover := k != 0, resumed := false, held := (List.range k).map (fun i => (leAt b 0 8 + i, leAt b (16 + 2 * i) 2)) }) ∧
      k = min (leAt b 12 1) 2) ∧
    (∃ (s : State), s.mgmt.handover = .paused) ∧
    (∃ (s x : State) (o : OutPkt), s.sliceIn 0x1A = some (o, x) ∧
      x.res.quietSent = false) ∧
    (∃ (s x : State) (o : OutPkt), s.sliceIn 0x1A = some (o, x)) ∧
    (∃ (s x : State) (o : OutPkt), s.sliceIn 0x1B = some (o, x) ∧
      x.isLeader = true ∧
      o.pkt.src ∉ x.res.repairs) :=
  ⟨⟨(got (pk 0x40 (0) (0) (toLE 64 0)) (onIn .joined)), (onIn .joined), (OutPkt.mk (pk 0x40 (0) (0) (toLE 64 0)) .none none false false), rfl⟩,
   ⟨(got (slicePk 0x15 0 0 (toLE 1 3 ++ toLE 15 0)) (onIn .joined)), (onIn .joined), (OutPkt.mk (slicePk 0x15 0 0 (toLE 1 3 ++ toLE 15 0)) .none none false false), rfl, by decide +kernel⟩,
   ⟨{ onAll with res := { Resil.reset with busy := some 1 } }, by decide +kernel⟩,
   ⟨(got (slicePk 0x16 0 0 ([])) (onIn .joined)), (onIn .joined), (OutPkt.mk (slicePk 0x16 0 0 ([])) .none none false false), rfl⟩,
   ⟨(got (slicePk 0x17 0 0 ([])) (onIn .joined)), (onIn .joined), (OutPkt.mk (slicePk 0x17 0 0 ([])) .none none false false), rfl⟩,
   ⟨(got (slicePk 0x19 0 0 (toLE 32 0)) (onIn .joined)), (onIn .joined), _, (OutPkt.mk (slicePk 0x19 0 0 (toLE 32 0)) .none none false false), _, 0, rfl, rfl, rfl, by decide +kernel⟩,
   ⟨{ onIn .joined with mgmt := { Mgmt.reset with handover := .paused } }, by decide +kernel⟩,
   ⟨(got (slicePk 0x1A 0 0 ([])) (onIn .joined)), (onIn .joined), (OutPkt.mk (slicePk 0x1A 0 0 ([])) .none none false false), rfl, by decide +kernel⟩,
   ⟨(got (slicePk 0x1A 0 0 ([])) (onIn .joined)), (onIn .joined), (OutPkt.mk (slicePk 0x1A 0 0 ([])) .none none false false), rfl⟩,
   ⟨(got (slicePk 0x1B 0 0 ([])) (slice [0, 1] 0 (onIn .joined))), (slice [0, 1] 0 (onIn .joined)), (OutPkt.mk (slicePk 0x1B 0 0 ([])) .none none false false), rfl, by decide +kernel⟩⟩

/-- What the clauses of EpochChanges assume can be met. -/
theorem meets_EpochChanges :
    (∃ (q : Fin 64) (c : Cmd) (s x v y z w : State) (img : Bytes) (bad : Bool) (m : Impo), starts s q.val 0x31 c ∧
      x = s.started q.val c ∧
      x.dramLoad (leAt c.body 0 8) (leAt c.body 8 4) = (img, bad, v) ∧
      y = v.pmkCheck 4 (crc32c (patchB img 0x64 [0, 0, 0, 0])) (imageCrc img) 0 ∧
      y.stageCheck img (leAt c.body 8 4) = stOK ∧
      m = impoOf img ∧
      z = (y.replyAll y.imp.replies stEPOCH).setImp (fun i => { i with staged := some m, accepted := false, replies := [], drainSent := false, activateRx := false, confirms := [] }) ∧
      w = (((z.setN pgIMP 0x044 m.epoch).set64 pgCOL 0x050 (areaNeed m z.self)).latch pgIMP 0).ok (c.ret q.val) [] ∧
      x.extentOk (leAt c.body 0 8) (leAt c.body 8 4) = true) ∧
    (∃ (q : Fin 64) (c : Cmd) (s x : State) (m : Impo), starts s q.val 0x32 c ∧
      x = s.started q.val c ∧
      x.imp.staged = some m ∧
      m.epoch = leAt c.body 0 4 ∧
      x.someReqOff = false) ∧
    (∃ (q : Fin 64) (c : Cmd) (s x : State) (m : Impo), starts s q.val 0x32 c ∧
      x = s.started q.val c ∧
      x.imp.staged = some m ∧
      m.epoch ≠ leAt c.body 0 4) ∧
    (∃ (s : State), s.imp.drainSent = false ∧
      s.imp.staged.isSome = true ∧
      (s.fmn.state = .idle ∨ (s.imp.accepted = true ∧ s.drainedOut = true))) ∧
    (∃ (s x y : State) (o : OutPkt) (e : Nat), s.sliceIn 7 = some (o, x) ∧
      e = leAt (sliceRest o.pkt) 0 4 ∧
      y = x.setImp (fun i => { i with drained := i.drained.filter (fun d => d.1 != o.pkt.src) ++ [(o.pkt.src, e)] })) ∧
    (∃ (s x : State) (o : OutPkt), s.sliceIn 8 = some (o, x) ∧
      x.namesStaged o.pkt = true) ∧
    (∃ (s : State) (m : Impo), s.imp.staged = some m ∧
      s.self ∈ m.members ∧
      s.imp.activateRx = true) ∧
    (∃ (s : State) (m : Impo), s.imp.staged = some m ∧
      s.self ∉ m.members ∧
      s.imp.accepted = true ∧
      s.imp.drainSent = true ∧
      s.drainedOut = true) ∧
    (∃ (s x y z : State) (o : OutPkt) (e : Nat), s.sliceIn 9 = some (o, x) ∧
      e = leAt (sliceRest o.pkt) 0 4 ∧
      (y = (if e = x.epoch ∨ x.namesStaged o.pkt = true then x.setImp (fun i => { i with confirms := setIns i.confirms o.pkt.src }) else x)) ∧
      z = (y.setImp (fun i => { i with confirms := [] })).sendSliceAll y.members 0x0A 0 0 (toLE 4 e ++ toLE 12 0)) ∧
    (∃ (s x : State) (o : OutPkt), s.sliceIn 0x0A = some (o, x) ∧
      leAt (sliceRest o.pkt) 0 4 = x.epoch ∧
      x.imp.active.isSome = true) :=
  ⟨⟨0, (cmd 0x31 (toLE 8 0 ++ toLE 4 146 ++ toLE 4 0)), (cmdAt .joined 0x31 (toLE 8 0 ++ toLE 4 146 ++ toLE 4 0) (holds 0 impoImg)), _, _, _, _, _, impoImg, false, _, (starts_of (by decide +kernel)), rfl, (trip_of (by decide +kernel)), rfl, (by unfold State.stageCheck; rw [impo_check]; decide +kernel), rfl, rfl, rfl, by decide +kernel⟩,
   ⟨0, (cmd 0x32 (toLE 4 1)), (cmdAt .joined 0x32 (toLE 4 1) (fun s => { s with imp := { ImpCtl.reset with staged := some { epoch := 1, staleness := 0, layouts := 15, seed := 0, members := [0], secs := [] } } })), _, { epoch := 1, staleness := 0, layouts := 15, seed := 0, members := [0], secs := [] }, (starts_of (by decide +kernel)), rfl, by decide +kernel⟩,
   ⟨0, (cmd 0x32 (toLE 4 2)), (cmdAt .joined 0x32 (toLE 4 2) (fun s => { s with imp := { ImpCtl.reset with staged := some { epoch := 1, staleness := 0, layouts := 15, seed := 0, members := [0], secs := [] } } })), _, { epoch := 1, staleness := 0, layouts := 15, seed := 0, members := [0], secs := [] }, (starts_of (by decide +kernel)), rfl, by decide +kernel⟩,
   ⟨{ onIn .joined with imp := { ImpCtl.reset with staged := some { epoch := 1, staleness := 0, layouts := 15, seed := 0, members := [0], secs := [] }, accepted := true } }, by decide +kernel⟩,
   ⟨(got (slicePk 7 0 0 (toLE 4 1 ++ toLE 12 0)) { onIn .joined with imp := { ImpCtl.reset with staged := some { epoch := 1, staleness := 0, layouts := 15, seed := 0, members := [0, 1], secs := [] } } }), { onIn .joined with imp := { ImpCtl.reset with staged := some { epoch := 1, staleness := 0, layouts := 15, seed := 0, members := [0, 1], secs := [] } } }, _, (OutPkt.mk (slicePk 7 0 0 (toLE 4 1 ++ toLE 12 0)) .none none false false), _, rfl, rfl, rfl⟩,
   ⟨(got (slicePk 8 0 0 (toLE 4 1 ++ toLE 12 0)) { onIn .joined with imp := { ImpCtl.reset with staged := some { epoch := 1, staleness := 0, layouts := 15, seed := 0, members := [0], secs := [] } } }), { onIn .joined with imp := { ImpCtl.reset with staged := some { epoch := 1, staleness := 0, layouts := 15, seed := 0, members := [0], secs := [] } } }, (OutPkt.mk (slicePk 8 0 0 (toLE 4 1 ++ toLE 12 0)) .none none false false), rfl, by decide +kernel⟩,
   ⟨{ onIn .joined with imp := { ImpCtl.reset with staged := some { epoch := 1, staleness := 0, layouts := 15, seed := 0, members := [0], secs := [] }, activateRx := true } }, { epoch := 1, staleness := 0, layouts := 15, seed := 0, members := [0], secs := [] }, by decide +kernel⟩,
   ⟨{ onIn .joined with imp := { ImpCtl.reset with staged := some { epoch := 1, staleness := 0, layouts := 15, seed := 0, members := [1], secs := [] }, accepted := true, drainSent := true } }, { epoch := 1, staleness := 0, layouts := 15, seed := 0, members := [1], secs := [] }, by decide +kernel⟩,
   ⟨(got (slicePk 9 0 0 (toLE 16 0)) (onIn .joined)), (onIn .joined), _, _, (OutPkt.mk (slicePk 9 0 0 (toLE 16 0)) .none none false false), _, rfl, rfl, rfl, rfl⟩,
   ⟨(got (slicePk 0x0A 0 0 (toLE 16 0)) (slice [0, 1] 0 (onIn .joined))), (slice [0, 1] 0 (onIn .joined)), (OutPkt.mk (slicePk 0x0A 0 0 (toLE 16 0)) .none none false false), rfl, by decide +kernel⟩⟩

/-- What the clauses of InkerOperations assume can be met. -/
theorem meets_InkerOperations :
    (∃ (ink : Fin 128) (s x : State) (i : Nat) (o : RowOp), x = s.takeOp ink.val i ∧
      s.nextOp ink.val = some (i, o) ∧
      s.itemFirst ink.val o.step = false) ∧
    (∃ (ink : Fin 128) (s : State) (i : Nat) (o : RowOp), s.nextOp ink.val = some (i, o) ∧
      o.kind ≠ 0) ∧
    (∃ (ink : Fin 128) (s : State) (i : Nat) (o : RowOp), s.nextOp ink.val = some (i, o) ∧
      s.itemFirst ink.val o.step = true) ∧
    (∃ (s : State) (o : RowOp), (∀ t, s.table? o.table = some t → t.direct = false)) ∧
    (∃ (ink : Fin 128) (s : State) (it : Item), s.nextItem ink.val = some it) ∧
    (∃ (ink : Fin 128) (s : State) (it : Item) (x : Shard), s.nextItem ink.val = some it ∧
      it.kind = .shard ∧
      it.waited = true ∧
      s.par.shards.find? (fun x => x.table == it.table && x.index == it.idx) = some x ∧
      x.freeBuf.isSome = true) ∧
    (∃ (ink : Fin 128) (s x y : State) (n : Nat), x = (s.restoreInk ink.val n).1 ∧
      y = x.setPar (fun p => { p with restoring := setDel x.par.restoring ink.val }) ∧
      s.par.restoreStep = some n ∧
      ink.val ∈ s.par.restoring) :=
  ⟨⟨0, { (steps [stepRec 0 .committing] onAll) with par := { Params.reset with inks := [(0, { queue := [{ kind := 0, table := 0, row := 0, step := 0, slot := 0, vals := [], addr := 0, len := 0, req := .gath 0 0 0 }], held := [] })] } }, _, 0, { kind := 0, table := 0, row := 0, step := 0, slot := 0, vals := [], addr := 0, len := 0, req := .gath 0 0 0 }, rfl, by decide +kernel⟩,
   ⟨0, { onAll with par := { Params.reset with inks := [(0, { queue := [{ kind := 1, table := 0, row := 0, step := 0, slot := 0, vals := [], addr := 0, len := 0, req := .gath 0 0 0 }], held := [] })] } }, 0, { kind := 1, table := 0, row := 0, step := 0, slot := 0, vals := [], addr := 0, len := 0, req := .gath 0 0 0 }, by decide +kernel⟩,
   ⟨0, { (steps [stepRec 0 .committing] onAll) with par := { Params.reset with inks := [(0, { queue := [{ kind := 0, table := 0, row := 0, step := 1, slot := 0, vals := [], addr := 0, len := 0, req := .gath 0 0 0 }], held := [] })], items := [{ serial := 0, step := 0, ink := 0, table := 0, kind := .row, idx := 0, row := 0, done := false, deltas := 0, failed := false, waited := false }] } }, 0, { kind := 0, table := 0, row := 0, step := 1, slot := 0, vals := [], addr := 0, len := 0, req := .gath 0 0 0 }, by decide +kernel⟩,
   ⟨onAll, { kind := 1, table := 0, row := 0, step := 0, slot := 0, vals := [], addr := 0, len := 0, req := .gath 0 0 0 }, (fun _ h => nomatch (show (none : Option Table) = some _ from h))⟩,
   ⟨0, { steps [stepRec 0 .committing] onAll with par := { Params.reset with items := [{ serial := 0, step := 0, ink := 0, table := 0, kind := .row, idx := 0, row := 0, done := false, deltas := 0, failed := false, waited := false }] } }, { serial := 0, step := 0, ink := 0, table := 0, kind := .row, idx := 0, row := 0, done := false, deltas := 0, failed := false, waited := false }, by decide +kernel⟩,
   ⟨0, { steps [stepRec 0 .committing] onAll with par := { Params.reset with items := [{ serial := 0, step := 0, ink := 0, table := 0, kind := .shard, idx := 0, row := 0, done := false, deltas := 0, failed := false, waited := true }], shards := [{ table := 0, index := 0, ink := 0, coff := 0, elems := 64, states := [] }] } }, { serial := 0, step := 0, ink := 0, table := 0, kind := .shard, idx := 0, row := 0, done := false, deltas := 0, failed := false, waited := true }, { table := 0, index := 0, ink := 0, coff := 0, elems := 64, states := [] }, by decide +kernel⟩,
   ⟨0, { onAll with par := { Params.reset with restoreStep := some 3, restoring := [0, 1] } }, _, _, 3, rfl, rfl, by decide +kernel⟩⟩

/-- What the clauses of TierTransfers assume can be met. -/
theorem meets_TierTransfers :
    (∃ (i : Nat) (s x : State) (f : Fetch) (t : Table), s.reserve i f t = some x ∧
      s.par.fetches[i]? = some f ∧
      s.table? f.table = some t ∧
      f.issued = false) ∧
    (∃ (i : Nat) (s : State) (f : Fetch) (t : Table), s.reserve i f t = none ∧
      s.par.fetches[i]? = some f ∧
      s.table? f.table = some t ∧
      f.issued = false) ∧
    (∃ (i : Nat) (s : State) (f : Fetch) (t : Table), s.par.fetches[i]? = some f ∧
      f.issued = false ∧
      (f.put.isSome = true ∨ f.promote = true) ∧
      f.table = t.id) ∧
    (∃ (folio : Fin 2) (s x : State) (i : Nat) (f : Fetch) (t : Table), s.reserve i f t = some x ∧
      firstIdx (fun (f : Fetch) => !f.issued && f.put.isNone && !f.promote && inkFolio f.ink == folio.val) s.par.fetches = some i ∧
      s.par.fetches[i]? = some f ∧
      s.table? f.table = some t ∧
      s.putUsed folio.val < putEntries) ∧
    (∃ (i : Nat) (s : State) (f : Fetch) (t : Table), s.par.fetches[i]? = some f ∧
      s.table? f.table = some t ∧
      f.issued = true) ∧
    (∃ (i : Nat) (s : State) (f : Fetch) (t : Table), s.par.fetches[i]? = some f ∧
      s.table? f.table = some t ∧
      f.issued = true) ∧
    (∃ (i : Nat) (err : Bool) (s : State) (b : Writeback), s.par.backs[i]? = some b ∧
      b.failed = false ∧
      (err = true ∨ s.backDown b = true)) ∧
    (∃ (i : Nat) (s x : State) (b : Writeback), x = (({ s with par := { s.par with backs := dropNth s.par.backs i } } : State).bump (pgINK b.ink) 0x090 1).bump64 (pgINK b.ink) 0x040 1 ∧
      s.par.backs[i]? = some b ∧
      b.failed = false ∧
      s.backDown b = false) ∧
    (∃ (i : Nat) (s x : State) (b : Writeback) (t : Table), x = ({ s with par := { s.par with backs := setNth s.par.backs i { b with failed := false } } } : State).bump (pgINK b.ink) 0x094 1 ∧
      s.par.backs[i]? = some b ∧
      b.failed = true ∧
      x.table? b.table = some t) :=
  ⟨⟨0, { onAll with par := { Params.reset with tables := [(0, table0)], fetches := [{ ink := 0, table := 0, row := 20, step := 0, op := none, commit := false, issued := false, put := some 0, promote := false, counted := 0 }] }, eth := { onAll.eth with qps := [(0, { role := 2, slot := 0, prio := 0, mtu := 1024, live := true, err := false, rate := 2 ^ 64 })] } }, _, { ink := 0, table := 0, row := 20, step := 0, op := none, commit := false, issued := false, put := some 0, promote := false, counted := 0 }, table0, rfl, by decide +kernel⟩,
   ⟨0, fullPut, late1, table0, no_entry, by decide +kernel⟩,
   ⟨0, { onAll with par := { Params.reset with tables := [(0, table0)], fetches := [{ ink := 0, table := 0, row := 20, step := 0, op := none, commit := false, issued := false, put := some 0, promote := false, counted := 0 }] }, eth := { onAll.eth with qps := [(0, { role := 2, slot := 0, prio := 0, mtu := 1024, live := true, err := false, rate := 2 ^ 64 })] } }, { ink := 0, table := 0, row := 20, step := 0, op := none, commit := false, issued := false, put := some 0, promote := false, counted := 0 }, table0, by decide +kernel⟩,
   ⟨0, { onAll with par := { Params.reset with tables := [(0, table0)], fetches := [{ ink := 0, table := 0, row := 20, step := 0, op := none, commit := false, issued := false, put := none, promote := false, counted := 0 }] }, eth := { onAll.eth with qps := [(0, { role := 2, slot := 0, prio := 0, mtu := 1024, live := true, err := false, rate := 2 ^ 64 })] } }, _, 0, { ink := 0, table := 0, row := 20, step := 0, op := none, commit := false, issued := false, put := none, promote := false, counted := 0 }, table0, rfl, by decide +kernel⟩,
   ⟨0, { onAll with par := { Params.reset with tables := [(0, table0)], fetches := [{ ink := 0, table := 0, row := 20, step := 0, op := none, commit := false, issued := true, put := some 0, promote := false, counted := 0 }] }, eth := { onAll.eth with qps := [(0, { role := 2, slot := 0, prio := 0, mtu := 1024, live := true, err := false, rate := 2 ^ 64 })] } }, { ink := 0, table := 0, row := 20, step := 0, op := none, commit := false, issued := true, put := some 0, promote := false, counted := 0 }, table0, by decide +kernel⟩,
   ⟨0, { onAll with par := { Params.reset with tables := [(0, table0)], fetches := [{ ink := 0, table := 0, row := 20, step := 0, op := none, commit := false, issued := true, put := some 0, promote := false, counted := 0 }] }, eth := { onAll.eth with qps := [(0, { role := 2, slot := 0, prio := 0, mtu := 1024, live := true, err := false, rate := 2 ^ 64 })] } }, { ink := 0, table := 0, row := 20, step := 0, op := none, commit := false, issued := true, put := some 0, promote := false, counted := 0 }, table0, by decide +kernel⟩,
   ⟨0, true, { onAll with par := { Params.reset with tables := [(0, table0)], backs := [{ ink := 0, table := 0, row := 0, put := none, step := 0, failed := false, addr := 0, data := [] }] }, eth := { onAll.eth with qps := [(0, { role := 2, slot := 0, prio := 0, mtu := 1024, live := true, err := false, rate := 2 ^ 64 })] } }, { ink := 0, table := 0, row := 0, put := none, step := 0, failed := false, addr := 0, data := [] }, by decide +kernel⟩,
   ⟨0, { onAll with par := { Params.reset with tables := [(0, table0)], backs := [{ ink := 0, table := 0, row := 0, put := none, step := 0, failed := false, addr := 0, data := [] }] }, eth := { onAll.eth with qps := [(0, { role := 2, slot := 0, prio := 0, mtu := 1024, live := true, err := false, rate := 2 ^ 64 })] } }, _, { ink := 0, table := 0, row := 0, put := none, step := 0, failed := false, addr := 0, data := [] }, rfl, by decide +kernel⟩,
   ⟨0, { onAll with par := { Params.reset with tables := [(0, table0)], backs := [{ ink := 0, table := 0, row := 0, put := none, step := 0, failed := true, addr := 0, data := [] }] }, eth := { onAll.eth with qps := [(0, { role := 2, slot := 0, prio := 0, mtu := 1024, live := true, err := false, rate := 2 ^ 64 })] } }, _, { ink := 0, table := 0, row := 0, put := none, step := 0, failed := true, addr := 0, data := [] }, table0, rfl, by decide +kernel⟩⟩

/-- What the clauses of TableCommands assume can be met. -/
theorem meets_TableCommands :
    (∃ (q : Fin 64) (c : Cmd) (s x v : State) (p : Placement) (t : Table), starts s q.val 0x40 c ∧
      x = s.started q.val c ∧
      v = (if leAt c.body 0x40 1 = 1 then x.takeShards (leAt c.body 0 2) else x) ∧
      t = tableOf c.body (x.sec 7) p ∧
      x.imp.active.isSome = true ∧
      leAt c.body 0 2 < 4096 ∧
      x.tableArgsOk c.body = true ∧
      kvHas x.par.tables (leAt c.body 0 2) = false ∧
      x.par.creating.any (fun t => t.id == leAt c.body 0 2) = false ∧
      v.placeWindow t p = true ∧
      v.pastChannel t = false) ∧
    (∃ (q : Fin 64) (c : Cmd) (s x : State), starts s q.val 0x40 c ∧
      x = s.started q.val c ∧
      x.imp.active.isSome = true ∧
      4096 ≤ leAt c.body 0 2) ∧
    (∃ (q : Fin 64) (c : Cmd) (s x : State), starts s q.val 0x40 c ∧
      x = s.started q.val c ∧
      x.imp.active = none) ∧
    (∃ (s x : State), x = s.boundary ∧
      s.par.creating ≠ [] ∧
      s.res.busy = none) ∧
    (∃ (s y z : State) (t : Table), y = s.setPar (fun p => { p with tables := kvSet p.tables t.id t }) ∧
      z = (y.inksOf t).foldl (fun (w : State) i => w.initSparse t i) y ∧
      t.dense = false) ∧
    (∃ (q : Fin 64) (c : Cmd) (s x : State) (t : Table), starts s q.val 0x41 c ∧
      x = s.started q.val c ∧
      x.table? (leAt c.body 0 2) = some t ∧
      x.par.repls.any (fun u => u.table == leAt c.body 0 2) = false ∧
      x.par.migs.any (fun m => m.table == leAt c.body 0 2) = false ∧
      (t.dense = false ∨ x.gradTable (leAt c.body 0 2) = false) ∧
      x.par.deleting.any (fun d => d.id == leAt c.body 0 2) = false) ∧
    (∃ (s x : State), x = s.boundary ∧
      s.par.deleting ≠ [] ∧
      s.fmn.steps = [] ∧
      s.fmn.forming = none ∧
      s.res.busy = none) ∧
    (∃ (ms : Nat) (s x : State) (j : Job), x = s.workEnded j ms ∧
      s.res.job = some j ∧
      j.total ≤ j.next) ∧
    (∃ (ms : Nat) (s x : State), x = (s.setJob none).setN pgPMS 0x058 ms ∧
      ms < 2 ^ 32) :=
  ⟨⟨0, (cmd 0x40 (toLE 2 1 ++ toLE 1 2 ++ toLE 1 10 ++ toLE 2 8 ++ toLE 2 0 ++ toLE 8 64 ++ toLE 48 0 ++ (toLE 1 0 ++ toLE 1 0 ++ toLE 1 10 ++ toLE 1 1 ++ toLE 4 0 ++ toLE 4 4 ++ toLE 4 0 ++ toLE 4 0 ++ toLE 4 0 ++ toLE 8 1 ++ toLE 32 0))), (cmdAt .joined 0x40 (toLE 2 1 ++ toLE 1 2 ++ toLE 1 10 ++ toLE 2 8 ++ toLE 2 0 ++ toLE 8 64 ++ toLE 48 0 ++ (toLE 1 0 ++ toLE 1 0 ++ toLE 1 10 ++ toLE 1 1 ++ toLE 4 0 ++ toLE 4 4 ++ toLE 4 0 ++ toLE 4 0 ++ toLE 4 0 ++ toLE 8 1 ++ toLE 32 0)) (slice [0, 1] 0)), _, _, { seg := 0x980000, delta := 0x990000, jrn := 0x9A0000, mig := 0x9B0000, promo := 0x9C0000, res := 0x9D0000, put0 := 0, put1 := 0 }, _, (starts_of (by decide +kernel)), rfl, rfl, rfl, by decide +kernel⟩,
   ⟨0, (cmd 0x40 (toLE 2 4096 ++ toLE 126 0)), (cmdAt .joined 0x40 (toLE 2 4096 ++ toLE 126 0) (slice [0, 1] 0)), _, (starts_of (by decide +kernel)), rfl, by decide +kernel⟩,
   ⟨0, (cmd 0x40 (toLE 2 1 ++ toLE 1 2 ++ toLE 1 10 ++ toLE 2 8 ++ toLE 2 0 ++ toLE 8 64 ++ toLE 48 0 ++ (toLE 1 0 ++ toLE 1 0 ++ toLE 1 10 ++ toLE 1 1 ++ toLE 4 0 ++ toLE 4 4 ++ toLE 4 0 ++ toLE 4 0 ++ toLE 4 0 ++ toLE 8 1 ++ toLE 32 0))), (cmdAt .joined 0x40 (toLE 2 1 ++ toLE 1 2 ++ toLE 1 10 ++ toLE 2 8 ++ toLE 2 0 ++ toLE 8 64 ++ toLE 48 0 ++ (toLE 1 0 ++ toLE 1 0 ++ toLE 1 10 ++ toLE 1 1 ++ toLE 4 0 ++ toLE 4 4 ++ toLE 4 0 ++ toLE 4 0 ++ toLE 4 0 ++ toLE 8 1 ++ toLE 32 0)) id), _, (starts_of (by decide +kernel)), rfl, by decide +kernel⟩,
   ⟨{ onIn .joined with par := { Params.reset with creating := [{ table0 with id := 3 }] } }, _, rfl, by decide +kernel⟩,
   ⟨(onIn .joined), _, _, table0, rfl, rfl, by decide +kernel⟩,
   ⟨0, (cmd 0x41 (toLE 4 0)), (cmdAt .joined 0x41 (toLE 4 0) (tables [table0])), _, table0, (starts_of (by decide +kernel)), rfl, by decide +kernel⟩,
   ⟨{ tables [table0] (onIn .joined) with par := { (tables [table0] (onIn .joined)).par with deleting := [{ id := 0, reply := { queue := 0, seq := 0 } }] } }, _, rfl, by decide +kernel⟩,
   ⟨5, { onIn .joined with res := { Resil.reset with job := some { reason := 1, next := 0, total := 0, items := [], wait := 0, acc := [], bad := false, failed := 0 } } }, _, { reason := 1, next := 0, total := 0, items := [], wait := 0, acc := [], bad := false, failed := 0 }, rfl, by decide +kernel⟩,
   ⟨5, (onIn .joined), _, rfl, by decide +kernel⟩⟩

/-- What the clauses of RowMovement assume can be met. -/
theorem meets_RowMovement :
    (∃ (s : State), s.res.busy.isSome = true) ∧
    (∃ (q : Fin 64) (c : Cmd) (s x : State) (t : Table) (rows : List Nat), starts s q.val 0x42 c ∧
      x = s.started q.val c ∧
      rows = x.stagedRows t (leAt c.body 24 8) (leAt c.body 16 4) ∧
      s.res.busy = none ∧
      x.table? (leAt c.body 0 2) = some t ∧
      t.dense = false ∧
      leAt c.body 4 1 ≤ 1 ∧
      x.extentOk (leAt c.body 24 8) (leAt c.body 16 4 * (64 + t.img)) = true ∧
      x.replaceStatus t rows = stOK) ∧
    (∃ (s : State) (b : Bytes), leAt b 16 4 = 1 ∧
      s.fmn.anyDecided = true) ∧
    (∃ (q : Fin 64) (c : Cmd) (s x : State) (t : Table) (row d ink : Nat), starts s q.val 0x43 c ∧
      x = s.started q.val c ∧
      row = leAt c.body 8 8 ∧
      d = leAt c.body 2 2 ∧
      ink = (x.rowKey t row).1 ∧
      s.res.busy = none ∧
      x.table? (leAt c.body 0 2) = some t ∧
      x.canMigrate t row d = true ∧
      (x.par.migs.filter (fun m => m.ink == ink)).length < 4096) ∧
    (∃ (s x : State) (o : OutPkt), s.takeArrived (fun p => p.type == 0x60) = some (o, x) ∧
      x.table? (fld o.pkt.addr 40 12) = none) ∧
    (∃ (s x : State) (o : OutPkt) (t : Table) (id row ink : Nat), s.takeArrived (fun p => p.type == 0x60) = some (o, x) ∧
      id = fld o.pkt.addr 40 12 ∧
      row = fld o.pkt.addr 0 40 ∧
      ink = rowHash id row % 128 ∧
      x.table? id = some t ∧
      reserveForm t o.pkt = true) ∧
    (∃ (s x : State) (o : OutPkt), s.takeArrived (fun p => p.type == 0x61) = some (o, x) ∧
      x.table? (fld o.pkt.addr 40 12) = none) ∧
    (∃ (s x : State) (o : OutPkt) (t : Table) (m : MigIn), s.takeArrived (fun p => p.type == 0x61) = some (o, x) ∧
      x.table? (fld o.pkt.addr 40 12) = some t ∧
      migForm o.pkt = true ∧
      x.par.migIns.find? (fun m => m.table == fld o.pkt.addr 40 12 && m.row == fld o.pkt.addr 0 40 && !m.valid) = some m) ∧
    (∃ (t : Table) (b : Bytes), b.length = t.recB) ∧
    (∃ (s x : State) (o : OutPkt), s.takeArrived (fun p => p.type == 4) = some (o, x)) ∧
    (∃ (s x : State) (o : OutPkt), s.takeArrived (fun p => p.type == 5) = some (o, x)) ∧
    (∃ (s x : State) (o : OutPkt), s.takeArrived (fun p => p.type == 0x62) = some (o, x)) ∧
    (∃ (s : State) (p : Packet) (t : Table), s.table? (p.addr / 2 ^ 40) = some t ∧
      p.addr / 2 ^ 40 < 4096 ∧
      t.dense = false ∧
      fld p.addr 0 40 < t.rows ∧
      s.homedHere t (fld p.addr 0 40) = true ∧
      ((p.type = 4 ∧ p.payload = []) ∨ (p.type = 5 ∧ p.payload.length = 4 * t.width))) :=
  ⟨⟨{ onIn .joined with res := { Resil.reset with busy := some 1 } }, by decide +kernel⟩,
   ⟨0, (cmd 0x42 (toLE 2 0 ++ toLE 2 1 ++ toLE 1 0 ++ toLE 3 0 ++ toLE 8 0 ++ toLE 4 1 ++ toLE 4 0 ++ toLE 8 0)), (cmdAt .joined 0x42 (toLE 2 0 ++ toLE 2 1 ++ toLE 1 0 ++ toLE 3 0 ++ toLE 8 0 ++ toLE 4 1 ++ toLE 4 0 ++ toLE 8 0) (fun s => tables [table0] <| slice [0] 0 { s with fmn := { s.fmn with anyDecided := true } })), _, table0, _, (starts_of (by decide +kernel)), rfl, rfl, by decide +kernel⟩,
   ⟨{ onAll with fmn := { onAll.fmn with anyDecided := true } }, (toLE 2 0 ++ toLE 2 1 ++ toLE 1 0 ++ toLE 3 0 ++ toLE 8 0 ++ toLE 4 1 ++ toLE 4 0 ++ toLE 8 0), by decide +kernel⟩,
   ⟨0, (cmd 0x43 (toLE 2 0 ++ toLE 2 1 ++ toLE 4 0 ++ toLE 8 0)), (cmdAt .joined 0x43 (toLE 2 0 ++ toLE 2 1 ++ toLE 4 0 ++ toLE 8 0) (fun s => tables [table0] (slice [0, 1] 0 s))), _, table0, _, _, _, (starts_of (by decide +kernel)), rfl, rfl, rfl, rfl, by decide +kernel⟩,
   ⟨(got (pk 0x60 (0) (0) ([])) (onIn .joined)), (onIn .joined), (OutPkt.mk (pk 0x60 (0) (0) ([])) .none none false false), rfl, by decide +kernel⟩,
   ⟨(got (pk 0x60 (7) (0) ([])) (tables [{ table0 with place := 0 }] (onIn .joined))), (tables [{ table0 with place := 0 }] (onIn .joined)), (OutPkt.mk (pk 0x60 (7) (0) ([])) .none none false false), { table0 with place := 0 }, _, _, _, rfl, rfl, rfl, rfl, by decide +kernel⟩,
   ⟨(got (pk 0x61 (0) (0) ([])) (onIn .joined)), (onIn .joined), (OutPkt.mk (pk 0x61 (0) (0) ([])) .none none false false), rfl, by decide +kernel⟩,
   ⟨(got (pk 0x61 (7) (0) (toLE 64 0)) { tables [table0] (onIn .joined) with par := { (tables [table0] (onIn .joined)).par with migIns := [{ table := 0, row := 7, ink := 0, slot := 0, valid := false }] } }), { tables [table0] (onIn .joined) with par := { (tables [table0] (onIn .joined)).par with migIns := [{ table := 0, row := 7, ink := 0, slot := 0, valid := false }] } }, (OutPkt.mk (pk 0x61 (7) (0) (toLE 64 0)) .none none false false), table0, { table := 0, row := 7, ink := 0, slot := 0, valid := false }, rfl, by decide +kernel⟩,
   ⟨table0, (toLE 64 0), by decide +kernel⟩,
   ⟨(got (pk 4 (0) (0) ([])) (onIn .joined)), (onIn .joined), (OutPkt.mk (pk 4 (0) (0) ([])) .none none false false), rfl⟩,
   ⟨(got (pk 5 (0) (0) ([])) (onIn .joined)), (onIn .joined), (OutPkt.mk (pk 5 (0) (0) ([])) .none none false false), rfl⟩,
   ⟨(got (pk 0x62 (0) (0) ([])) (onIn .joined)), (onIn .joined), (OutPkt.mk (pk 0x62 (0) (0) ([])) .none none false false), rfl⟩,
   ⟨(tables [table0] (slice [0] 0 (onIn .joined))), (pk 4 3 0 []), table0, by decide +kernel⟩⟩

/-- What the clauses of SorterEvents assume can be met. -/
theorem meets_SorterEvents :
    (∃ (q : Fin 8) (s : State) (d : SDesc) (r : List SDesc), (s.srt q.val).posts = d :: r ∧
      (s.srt q.val).queue.length < 256) ∧
    (∃ (q : Fin 8) (errs : List (Fin 136 × CaseErr)) (s x y z : State) (d e : SDesc), x = s.srtErrs e errs ∧
      y = x.modDesc q.val d.serial (fun u => { u with running := true, passEnd := if d.op = 2 then d.nbags else planPass (fun b => (x.offAt d b).1) d.nbags d.nextBag 65536 d.nextBag, passes := u.passes + 1 }) ∧
      z = (if d.passes = 0 then y else (y.bump (pgSRT q.val) 0x04C 1).latchAt (pgSRT q.val) 6 d.step) ∧
      s.nextPass q.val = some e ∧
      x.nextPass q.val = some d) ∧
    (∃ (q : Fin 8) (errs : List (Fin 136 × CaseErr)) (s x y z : State) (d : SDesc) (b o0 len idx : Nat) (wb : Bytes), x = s.srtErrs d errs ∧
      b = d.nextBag ∧
      o0 = (x.offAt d b).1 ∧
      len = (x.offAt d (b + 1)).1 - o0 ∧
      x.idxAt d (o0 + d.nextPos) = (idx, 0, y) ∧
      (if d.wen then y.srtRead (d.at 0x28 8 + 4 * (o0 + d.nextPos)) 4 else ([], 0, y)) = (wb, 0, z) ∧
      (s.srt q.val).queue.find? (·.running) = some d ∧
      x.stepWaits d = false ∧
      (d.nextPos ≠ 0 ∨ d.op = 1 ∨ x.openBags q.val < 16) ∧
      (x.srt q.val).lookups.length < 8192) ∧
    (∃ (idx w : Nat) (s : State) (d : SDesc) (u : Lookup), u = { id := s.serial, desc := d.serial, bag := d.nextBag, pos := d.nextPos, row := idx, weight := w, fill := none, data := none, status := 0, path := 0 }) ∧
    (∃ (q : Fin 8) (s : State), (s.srt q.val).queue = []) ∧
    (∃ (q : Fin 8) (i : Nat) (s x : State) (u : Lookup) (data : Bytes) (d : SDesc), x = (s.modSrt q.val (fun k => { k with lookups := dropNth k.lookups i })).fillData q.val u data ∧
      (∀ f, d.fail = some f → u.bag < f.1) ∧
      (s.srt q.val).lookups[i]? = some u ∧
      u.data = some data ∧
      x.desc? q.val u.desc = some d) ∧
    (∃ (q : Fin 8) (s x y : State) (d : SDesc) (st : Nat), x = (if s.bufOk d.statAddr 64 = true ∧ gaSpace d.statAddr = 1 then s.ownWrite d.statAddr d.stat else s) ∧
      y = (x.modSrt q.val (fun k => { k with queue := k.queue.filter (fun x => x.serial != d.serial) })).bump (pgSRT q.val) 0x048 1 ∧
      (s.srt q.val).queue.find? (s.descDone q.val) = some d ∧
      st = (match d.fail with | some f => f.2 | none => 0)) ∧
    (∃ (folio : Fin 2) (s : State) (w : Nat) (y : Way), (s.cache folio.val).ways.find? (fun p => p.2.filling && p.2.sectors != 0) = some (w, y)) :=
  ⟨⟨0, { holds 0x100 (toLE 4 0 ++ toLE 4 1) (tables [table0] onAll) with sorters := [(0, { posts := [desc0], queue := [], lookups := [] })] }, desc0, [], by decide +kernel⟩,
   ⟨0, [], { holds 0x100 (toLE 4 0 ++ toLE 4 1) (tables [table0] onAll) with sorters := [(0, { posts := [], queue := [desc0], lookups := [] })] }, _, _, _, desc0, desc0, rfl, rfl, rfl, by decide +kernel⟩,
   ⟨0, [], { holds 0x100 (toLE 4 0 ++ toLE 4 1) (tables [table0] onAll) with sorters := [(0, { posts := [], queue := [{ desc0 with running := true, passEnd := 1, passes := 1 }], lookups := [] })] }, _, _, _, { desc0 with running := true, passEnd := 1, passes := 1 }, _, _, _, _, _, rfl, rfl, rfl, rfl, rfl, rfl, by decide +kernel⟩,
   ⟨0, 0, onAll, desc0, _, rfl⟩,
   ⟨0, onAll, by decide +kernel⟩,
   ⟨0, 0, { holds 0x100 (toLE 4 0 ++ toLE 4 1) (tables [table0] onAll) with sorters := [(0, { posts := [], queue := [{ desc0 with running := true, passEnd := 1, passes := 1 }], lookups := [{ id := 1, desc := 1, bag := 0, pos := 0, row := 0, weight := 0, fill := none, data := some (toLE 36 0), status := 0, path := 0 }] })] }, _, { id := 1, desc := 1, bag := 0, pos := 0, row := 0, weight := 0, fill := none, data := some (toLE 36 0), status := 0, path := 0 }, (toLE 36 0), { desc0 with running := true, passEnd := 1, passes := 1 }, rfl, (fun _ h => nomatch (show (none : Option (Nat × Nat)) = some _ from h)), by decide +kernel⟩,
   ⟨0, { holds 0x100 (toLE 4 0 ++ toLE 4 1) (tables [table0] onAll) with sorters := [(0, { posts := [], queue := [{ desc0 with nextBag := 1, passes := 1 }], lookups := [] })] }, _, _, { desc0 with nextBag := 1, passes := 1 }, 0, rfl, rfl, by decide +kernel⟩,
   ⟨0, { onAll with pgh := [(0, { Pgh.reset with ways := [(5, { table := 0, row := 0, static := false, filling := true, filler := 0, use := 0, sectors := 1, image := [] })] })] }, 5, { table := 0, row := 0, static := false, filling := true, filler := 0, use := 0, sectors := 1, image := [] }, by decide +kernel⟩⟩

/-- What the clauses of FlitTransfers assume can be met. -/
theorem meets_FlitTransfers :
    (∃ (p : Fin 12) (s : State) (f : Flit) (r : List Flit), s.link p.val = 2 ∧
      (s.port p.val).hold = false ∧
      (s.port p.val).resendQ = f :: r) ∧
    (∃ (p : Fin 12) (s x : State), x = s.countShorts p.val ∧
      s.link p.val = 2 ∧
      (s.port p.val).hold = false ∧
      (s.port p.val).resendQ = [] ∧
      (x.port p.val).pick = none) ∧
    (∃ (p : Fin 12) (s x y : State) (k : Nat) (v : Port) (f : Flit), x = s.countShorts p.val ∧
      (x.port p.val).takeFlit k = (v, f) ∧
      y = x.setPort p.val v ∧
      s.link p.val = 2 ∧
      (s.port p.val).hold = false ∧
      (s.port p.val).resendQ = [] ∧
      (x.port p.val).pick = some k ∧
      (x.port p.val).replay.length < 32768) ∧
    (∃ (p : Fin 12) (f : Flit) (fec : FecCount) (s x : State), x = s.countFec p.val fec ∧
      flitGood f = true ∧
      s.link p.val = 2 ∧
      f.null = false ∧
      f.lseq = (x.port p.val).rxNext) ∧
    (∃ (p : Fin 12) (f : Flit) (fec : FecCount) (s x : State), x = s.countFec p.val fec ∧
      flitGood f = true ∧
      s.link p.val = 2 ∧
      f.null = false ∧
      f.lseq ≠ (x.port p.val).rxNext) ∧
    (∃ (p : Fin 12) (f : Flit) (s : State), flitGood f = true ∧
      s.link p.val = 2 ∧
      f.null = true) ∧
    (∃ (p : Fin 12) (f : Flit) (u : Bool) (s : State), s.link p.val = 2 ∧
      (u = true ∨ flitGood f = false)) ∧
    (∃ (p : Fin 12) (s : State), s.link p.val ≠ 2) ∧
    (∃ (p : Fin 12) (s : State), s.link p.val = 2 ∧
      (s.port p.val).replay ≠ []) :=
  ⟨⟨0, ((onAll.setField (pgPPT 0) 0x00C 28 4 2).setPort 0 { Port.reset with resendQ := [flit1] }), flit1, [], by decide +kernel⟩,
   ⟨0, (onAll.setField (pgPPT 0) 0x00C 28 4 2), _, rfl, by decide +kernel⟩,
   ⟨0, ((onAll.setField (pgPPT 0) 0x00C 28 4 2).setPort 0 { Port.reset with txBytes := [(0, List.replicate 112 0)] }), _, _, 0, _, _, rfl, rfl, rfl, by decide +kernel⟩,
   ⟨11, flit1, fec0, ((onAll.setField (pgPPT 11) 0x00C 28 4 2).setPort 11 { Port.reset with rxNext := 1 }), _, rfl, flit1_good, by decide +kernel⟩,
   ⟨0, flit1, fec0, ((onAll.setField (pgPPT 0) 0x00C 28 4 2).setPort 0 { Port.reset with rxNext := 9 }), _, rfl, flit1_good, by decide +kernel⟩,
   ⟨0, flit0, (onAll.setField (pgPPT 0) 0x00C 28 4 2), flit0_good, by decide +kernel⟩,
   ⟨0, flit1, true, (onAll.setField (pgPPT 0) 0x00C 28 4 2), by decide +kernel⟩,
   ⟨0, (onAll.setField (pgPPT 0) 0x00C 28 4 3), by decide +kernel⟩,
   ⟨0, ((onAll.setField (pgPPT 0) 0x00C 28 4 2).setPort 0 { Port.reset with replay := [flit1] }), by decide +kernel⟩⟩

/-- What the clauses of LinkTrainingAndLaneTests assume can be met. -/
theorem meets_LinkTrainingAndLaneTests :
    (∃ (p : Fin 12) (s : State), s.link p.val = 2) ∧
    (∃ (p : Fin 12) (r : TrainResult) (s x y : State) (lanes w : Nat), lanes = (r.lanes % 16 &&& (s.port p.val).lanesOk) ∧
      x = (s.setN (pgPPT p.val) 0x074 r.micros).setField (pgPPT p.val) 0x00C 20 4 lanes ∧
      y = x.setField (pgPPT p.val) 0x00C 0 14 r.chip ∧
      w = widthFor lanes (trainVersion r) (s.field (pgPPT p.val) 0x008 0 2) ∧
      s.link p.val = 1) ∧
    (∃ (p : Fin 12) (s : State), (s.port p.val).hold = false) ∧
    (∃ (p : Fin 12) (s : State), s.link p.val ≠ 1) ∧
    (∃ (i : Fin 12) (s : State), s.link i.val = 3 ∧
      s.regN (pgPRF i.val) 0x008 = 0xF02) ∧
    (∃ (i : Fin 12) (s : State), s.link i.val = 3 ∧
      s.regN (pgPRF i.val) 0x008 = 0xF02) ∧
    (∃ (i : Fin 12) (lane : Fin 4) (s : State), s.link i.val = 3 ∧
      bitOf (s.regN (pgPRF i.val) 0x008) 1 = true ∧
      bitOf (s.regN (pgPRF i.val) 0x008) (8 + lane.val) = true) ∧
    (∃ (s : State), s.fmn.state = .service ∧
      s.eth.qps = [] ∧
      s.ethLink = 0) ∧
    (∃ (s : State), s.fmn.state = .service ∧
      s.eth.qps = [] ∧
      s.ethLink = 0 ∧
      s.regN pgETH 0x008 = 0xFF40) ∧
    (∃ (lane : Fin 8) (s : State), s.ethLink = 3 ∧
      bitOf (s.regN (pgPRF 12) 0x008) 1 = true ∧
      bitOf (s.regN (pgPRF 12) 0x008) (8 + lane.val) = true) ∧
    (∃ (i : Fin 13) (lane : Fin 8) (s : State), ((i.val < 12 ∧ s.link i.val ≠ 3) ∨ (i.val = 12 ∧ s.ethLink ≠ 3) ∨ bitOf (s.regN (pgPRF i.val) 0x008) 1 = false ∨ bitOf (s.regN (pgPRF i.val) 0x008) (8 + lane.val) = false)) ∧
    (∃ (s x : State), x = s.storeRw pgETH .eth 0 0x008 (s.regN pgETH 0x008 ||| 4) ∧
      s.fmn.state = .service ∧
      fld (s.regN pgETH 0x008) 4 2 ≠ 3) ∧
    (∃ (s : State), s.fmn.state ≠ .service ∧
      s.fmn.state ≠ .stepping) ∧
    (∃ (s : State), s.fmn.state = .stepping) ∧
    (∃ (s x : State), x = s.storeRw pgETH .eth 0 0x008 (s.regN pgETH 0x008 &&& 0xFF78 ||| 2) ∧
      s.fmn.state ≠ .stepping ∧
      fld (s.regN pgETH 0x008) 4 2 ≠ 3) ∧
    (∃ (s : State), s.fmn.state = .stepping) :=
  ⟨⟨0, (onAll.setField (pgPPT 0) 0x00C 28 4 2), by decide +kernel⟩,
   ⟨0, { lanes := 15, versions := 4, chip := 1, port := 1, precode := false, lack := 0, micros := 5 }, (onAll.setField (pgPPT 0) 0x00C 28 4 1), _, _, _, _, rfl, rfl, rfl, rfl, by decide +kernel⟩,
   ⟨0, (onAll.setField (pgPPT 0) 0x00C 28 4 1), by decide +kernel⟩,
   ⟨0, (onAll.setField (pgPPT 0) 0x00C 28 4 2), by decide +kernel⟩,
   ⟨0, ((onAll.setField (pgPPT 0) 0x00C 28 4 3).setN (pgPRF 0) 0x008 0xF02), by decide +kernel⟩,
   ⟨0, ((onAll.setField (pgPPT 0) 0x00C 28 4 3).setN (pgPRF 0) 0x008 0xF02), by decide +kernel⟩,
   ⟨0, 3, ((onAll.setField (pgPPT 0) 0x00C 28 4 3).setN (pgPRF 0) 0x008 0xF02), by decide +kernel⟩,
   ⟨((onIn .service).setField pgETH 0x00C 28 4 0), by decide +kernel⟩,
   ⟨(((onIn .service).setField pgETH 0x00C 28 4 0).setN pgETH 0x008 0xFF40), by decide +kernel⟩,
   ⟨3, ((onAll.setField pgETH 0x00C 28 4 3).setN (pgPRF 12) 0x008 0xF02), by decide +kernel⟩,
   ⟨12, 3, onAll, by decide +kernel⟩,
   ⟨((onIn .service).setField pgETH 0x00C 28 4 0), _, rfl, by decide +kernel⟩,
   ⟨(onIn .idle), by decide +kernel⟩,
   ⟨(onIn .stepping), by decide +kernel⟩,
   ⟨((onIn .service).setField pgETH 0x00C 28 4 0), _, rfl, by decide +kernel⟩,
   ⟨(onIn .stepping), by decide +kernel⟩⟩

/-- What the clauses of PacketMovement assume can be met. -/
theorem meets_PacketMovement :
    (∃ (i : Nat) (s x : State) (o : OutPkt), x = { s with fab := { s.fab with out := dropNth s.fab.out i } } ∧
      s.mayIssue i = true ∧
      s.fab.out[i]? = some o ∧
      s.pairBefore i o.pkt = false ∧
      s.mayLeave o.pkt = true) ∧
    (∃ (s : State) (o : OutPkt) (q : Packet), q = { o.pkt with tag := kvGet s.fab.nextTag (pairKey o.pkt.dst o.pkt.lane) 0 }) ∧
    (∃ (i : Nat) (s : State), s.fab.out[i]? = none) ∧
    (∃ (s x : State) (i : Nat) (r : InRouter), x = ({ s with fab := { s.fab with router := dropNth s.fab.router i } } : State).freeCredit r ∧
      firstIdx (fun r => !s.endsHere r.pkt) s.fab.router = some i ∧
      s.fab.router[i]? = some r) ∧
    (∃ (s x : State) (i : Nat) (r : InRouter), x = s.countStall ∧
      firstIdx (fun r => x.endsHere r.pkt && !(x.holdStall.isSome && x.toHold r)) x.fab.router = some i ∧
      x.fab.router[i]? = some r) ∧
    (∃ (s x y : State) (i : Nat) (r : InRouter), x = ({ s with fab := { s.fab with router := dropNth s.fab.router i } } : State).freeCredit r ∧
      y = x.pmkCheck 1 (pktChk r.pkt) r.pkt.good (r.pkt.src % 2 ^ 14)) ∧
    (∃ (chip lane : Nat) (s : State), s.inForce pgRTE 0x008 % 2 ≠ 0 ∧
      s.fab.unreplied.any (s.resendDue chip lane) = true) ∧
    (∃ (chip lane : Nat) (s : State) (u : Unreplied), s.fab.unreplied.find? (fun u => u.pkt.dst == chip && u.pkt.lane == lane && decide (s.regN pgRTE 0x04C ≤ u.resends)) = some u) :=
  ⟨⟨0, { (onAll.setN pgRTE 0x044 0x040404) with fab := { Fabric.reset with out := [(OutPkt.mk (pk 0x20 0 0 []) .none none false false)] } }, _, (OutPkt.mk (pk 0x20 0 0 []) .none none false false), rfl, by decide +kernel⟩,
   ⟨onAll, (OutPkt.mk ({ pk 1 0 4 [] with lane := 0, dst := 1, src := 0 }) .none none false false), _, rfl⟩,
   ⟨7, onAll, by decide +kernel⟩,
   ⟨{ (onAll.setN pgRTE 0x044 0x040404) with fab := { Fabric.reset with router := [({ pkt := { pk 1 0 4 [] with lane := 7, dst := 1, src := 0 }, inPort := 12 } : InRouter)] } }, _, 0, ({ pkt := { pk 1 0 4 [] with lane := 7, dst := 1, src := 0 }, inPort := 12 } : InRouter), rfl, by decide +kernel⟩,
   ⟨{ (onAll.setN pgRTE 0x044 0x040404) with fab := { Fabric.reset with router := [({ pkt := (pk 1 0 4 []), inPort := 12 } : InRouter)] } }, _, 0, ({ pkt := (pk 1 0 4 []), inPort := 12 } : InRouter), rfl, by decide +kernel⟩,
   ⟨{ onAll with fab := { Fabric.reset with router := [({ pkt := (pk 1 0 4 []), inPort := 12 } : InRouter)] } }, _, _, 0, ({ pkt := (pk 1 0 4 []), inPort := 12 } : InRouter), rfl, rfl⟩,
   ⟨1, 4, ((State.setN ({ onAll with fab := { Fabric.reset with unreplied := [{ pkt := { pk 1 0 4 [] with lane := 4, dst := 1, src := 0 }, org := .none, resends := 3 }] } }) pgRTE 0x04C 40).setN pgRTE 0x008 1), by decide +kernel⟩,
   ⟨1, 4, (State.setN ({ onAll with fab := { Fabric.reset with unreplied := [{ pkt := { pk 1 0 4 [] with lane := 4, dst := 1, src := 0 }, org := .none, resends := 40 }] } }) pgRTE 0x04C 40), { pkt := { pk 1 0 4 [] with lane := 4, dst := 1, src := 0 }, org := .none, resends := 40 }, by decide +kernel⟩⟩

/-- What the clauses of FabricRequests assume can be met. -/
theorem meets_FabricRequests :
    (∃ (s x : State) (o : OutPkt), s.takeArrived (fun p => p.type == 1) = some (o, x) ∧
      x.gaHere o.pkt.addr = false) ∧
    (∃ (errs : List CaseErr) (s x y : State) (o : OutPkt) (st : Nat) (bs : Bytes), s.takeArrived (fun p => p.type == 1) = some (o, x) ∧
      x.serveRead o.pkt errs = (st, bs, y)) ∧
    (∃ (s : State) (p : Packet), s.gaHere p.addr = true ∧
      p.payload = [] ∧
      fabricLen (gaSpace p.addr) (p.arg % 8192) = true) ∧
    (∃ (s x : State) (o : OutPkt), s.takeArrived (fun p => p.type == 2) = some (o, x) ∧
      x.gaHere o.pkt.addr = false) ∧
    (∃ (s x y : State) (o : OutPkt) (st : Nat), s.takeArrived (fun p => p.type == 2) = some (o, x) ∧
      x.serveWrite o.pkt = (st, y)) ∧
    (∃ (s : State) (p : Packet) (n : Nat), n = p.arg % 8192 ∧
      s.gaHere p.addr = true ∧
      fabricLen (gaSpace p.addr) n = true ∧
      p.payload.length = (pad16 (List.replicate n (0 : Byte))).length) ∧
    (∃ (s x : State) (o : OutPkt), s.takeArrived (fun p => p.type == 3) = some (o, x) ∧
      x.gaHere o.pkt.addr = true ∧
      gaSpace o.pkt.addr = 1 ∧
      o.pkt.addr % 4 = 0 ∧
      o.pkt.payload = []) ∧
    (∃ (s x : State) (o : OutPkt), s.takeArrived (fun p => p.type == 6) = some (o, x) ∧
      x.gaHere o.pkt.addr = true ∧
      gaSpace o.pkt.addr = 0 ∧
      o.pkt.payload.length = 16 ∧
      allZero (o.pkt.payload.drop 4) = true ∧
      fabricLen 0 (leAt o.pkt.payload 0 4) = true ∧
      dramMapped (gaOff o.pkt.addr) (leAt o.pkt.payload 0 4) = true) ∧
    (∃ (s x : State) (o : OutPkt) (q : Packet), s.takeArrived (fun p => p.type == 0x20) = some (o, x) ∧
      o.req = some q) ∧
    (∃ (s x : State) (o : OutPkt) (u : Unreplied), s.takeArrived (fun p => p.type == 0x20) = some (o, x) ∧
      o.req = none ∧
      x.fab.unreplied.find? (fun u => u.pkt.dst == o.pkt.src && u.pkt.lane == fld o.pkt.arg 8 3 && u.pkt.tag == o.pkt.tag) = some u) ∧
    (∃ (s x : State) (o : OutPkt), s.takeArrived (fun p => p.type == 0x20) = some (o, x) ∧
      o.req = none ∧
      x.fab.unreplied.find? (fun u => u.pkt.dst == o.pkt.src && u.pkt.lane == fld o.pkt.arg 8 3 && u.pkt.tag == o.pkt.tag) = none) ∧
    (∃ (s x : State) (o : OutPkt), s.sliceIn 0x18 = some (o, x)) :=
  ⟨⟨(got (pk 1 (5 * 2 ^ 50) (0) ([])) (onIn .joined)), (onIn .joined), (OutPkt.mk (pk 1 (5 * 2 ^ 50) (0) ([])) .none none false false), rfl, by decide +kernel⟩,
   ⟨[], (got (pk 1 (5 * 2 ^ 50) (0) ([])) (onIn .joined)), (onIn .joined), _, (OutPkt.mk (pk 1 (5 * 2 ^ 50) (0) ([])) .none none false false), _, _, rfl, rfl⟩,
   ⟨onAll, (pk 1 (dramAddr 0) 64 []), by decide +kernel⟩,
   ⟨(got (pk 2 (5 * 2 ^ 50) (0) ([])) (onIn .joined)), (onIn .joined), (OutPkt.mk (pk 2 (5 * 2 ^ 50) (0) ([])) .none none false false), rfl, by decide +kernel⟩,
   ⟨(got (pk 2 (5 * 2 ^ 50) (0) ([])) (onIn .joined)), (onIn .joined), _, (OutPkt.mk (pk 2 (5 * 2 ^ 50) (0) ([])) .none none false false), _, rfl, rfl⟩,
   ⟨onAll, (pk 2 (dramAddr 0) 64 (List.replicate 64 0)), _, rfl, by decide +kernel⟩,
   ⟨(got (pk 3 (dramAddr (2 ^ 47)) (0) ([])) (onIn .joined)), (onIn .joined), (OutPkt.mk (pk 3 (dramAddr (2 ^ 47)) (0) ([])) .none none false false), rfl, by decide +kernel⟩,
   ⟨(got (pk 6 (dramAddr 0) (0) (toLE 4 64 ++ toLE 12 0)) (onIn .joined)), (onIn .joined), (OutPkt.mk (pk 6 (dramAddr 0) (0) (toLE 4 64 ++ toLE 12 0)) .none none false false), rfl, by decide +kernel⟩,
   ⟨{ onAll with fab := { onAll.fab with arrived := [(OutPkt.mk (pk 0x20 0 0 []) .none (some (pk 1 0 4 [])) false false)] } }, onAll, (OutPkt.mk (pk 0x20 0 0 []) .none (some (pk 1 0 4 [])) false false), (pk 1 0 4 []), rfl, by decide +kernel⟩,
   ⟨(got (pk 0x20 (0) (0) ([])) { onAll with fab := { Fabric.reset with unreplied := [{ pkt := { pk 1 0 4 [] with lane := 0, dst := 1, src := 0 }, org := .none, resends := 0 }] } }), { onAll with fab := { Fabric.reset with unreplied := [{ pkt := { pk 1 0 4 [] with lane := 0, dst := 1, src := 0 }, org := .none, resends := 0 }] } }, (OutPkt.mk (pk 0x20 (0) (0) ([])) .none none false false), { pkt := { pk 1 0 4 [] with lane := 0, dst := 1, src := 0 }, org := .none, resends := 0 }, rfl, by decide +kernel⟩,
   ⟨(got (pk 0x20 (0) (0) ([])) (onIn .joined)), (onIn .joined), (OutPkt.mk (pk 0x20 (0) (0) ([])) .none none false false), rfl, by decide +kernel⟩,
   ⟨(got (slicePk 0x18 0 0 ([])) (onIn .joined)), (onIn .joined), (OutPkt.mk (slicePk 0x18 0 0 ([])) .none none false false), rfl⟩⟩

/-- What the clauses of ChannelInterleaving assume can be met. -/
theorem meets_ChannelInterleaving :
    (∃ (o : Nat), o < 0x7800000000) ∧
    (∃ off, off < 2 * 0x7800000000) ∧
    (∃ ch coff, ch < 128 ∧
      coff < 0x1E0000000) :=
  ⟨⟨0x77FFFFFFFF, by decide +kernel⟩,
   ⟨0xEFFFFFFFFF, by decide +kernel⟩,
   ⟨127, 0x1DFFFFFFF, by decide +kernel⟩⟩

/-- What the clauses of MemoryCommands assume can be met. -/
theorem meets_MemoryCommands :
    (∃ (off n : Nat), dramMapped off (min n (64 - off % 64)) = false) ∧
    (∃ (off n : Nat) (s : State), dramMapped off (min n (64 - off % 64)) = true ∧
      s.memOpen off (min n (64 - off % 64)) = false) ∧
    (∃ (off n len : Nat) (data : Bytes) (errs : List (Nat × Byte)) (grp : List (Fin 15 × List (Nat × Byte))) (s x y z : State) (bad : Bool), len = min n (64 - off % 64) ∧
      x = (if wholeLine off (sliceB data 0 len) = true then s else s.lineFetch off errs grp) ∧
      x.linePut off (sliceB data 0 len) = (y, bad) ∧
      z = (if bad = true then y else (y.sendDeltas (dramLocate off).1 (dramLocate off).1 (dramLocate off).2 (x.dram.read off len) (sliceB data 0 len) false 0 0 0).1) ∧
      dramMapped off len = true ∧
      s.memOpen off len = true ∧
      (s.inker (dramLocate off).1).queue.length < 512 ∧
      s.lineLocked off = false) ∧
    (∃ (data : Bytes), data.length = 64) ∧
    (∃ (off n len : Nat) (errs : List (Nat × Byte)) (grp : List (Fin 15 × List (Nat × Byte))) (s x : State), len = min n (64 - off % 64) ∧
      x = s.lineFetch off errs grp ∧
      0 < n ∧
      dramMapped off len = true ∧
      s.memOpen off len = true ∧
      (s.inker (dramLocate off).1).queue.length < 512 ∧
      s.lineLocked off = false) ∧
    (∃ (c : Fin 128) (t : Byte) (m : Fin 3) (hot : Bool) (s x : State), x = s.modChan c.val (fun y => { y with temp := t.toNat, mult := m.val, hot := hot })) ∧
    (∃ (m : Fin 16) (s : State), s.regN (pgMEM m.val) 0x008 % 2 = 0) ∧
    (∃ (m : Fin 16) (s x : State) (pos c off : Nat), pos = kvGet s.mem.scrub m.val 0 ∧
      c = 8 * m.val + pos / linesPerChan ∧
      off = dramOffset c (pos % linesPerChan * 64) ∧
      x = { s with mem := { s.mem with scrub := kvSet s.mem.scrub m.val (pos + 1) } } ∧
      s.regN (pgMEM m.val) 0x008 % 2 ≠ 0 ∧
      s.regN (pgMEM m.val) 0x044 ≠ 0 ∧
      s.phaseOf m.val = 4 ∧
      pos < 8 * linesPerChan ∧
      (∀ k < 8, (s.inker (8 * m.val + k)).queue = [])) ∧
    (∃ (m : Fin 16) (s : State), s.regN (pgMEM m.val) 0x008 % 2 ≠ 0 ∧
      s.regN (pgMEM m.val) 0x044 ≠ 0 ∧
      8 * linesPerChan ≤ kvGet s.mem.scrub m.val 0) ∧
    (∃ (m : Fin 16) (us : Nat) (failed : Byte) (avail : List Nat) (s x : State), x = (List.range 8).foldl (fun (x : State) k => x.modChan (8 * m.val + k) (fun c => { c with avail := avail.getD k 0 })) (((s.setPhase m.val 1).setN (pgMEM m.val) 0x08C (min us 0xFFFFFFFF)).setField (pgMEM m.val) 0x00C 8 8 (0xFF - failed.toNat)) ∧
      s.fmn.state = .boot ∧
      s.domOn (144 + m.val) = true ∧
      s.phaseOf m.val = 0) ∧
    (∃ (m : Fin 16) (s : State), s.fmn.state = .boot ∧
      s.phaseOf m.val = 1) ∧
    (∃ (m k : Nat) (s : State), k < 8 ∧
      0 < (s.chan (8 * m + k)).avail) ∧
    (∃ (s : State), s.fmn.state = .wipe ∧
      (∀ m : Fin 16, s.phaseOf m.val = 2)) ∧
    (∃ (m : Fin 16) (s : State), s.phaseOf m.val = 3 ∧
      m.val ∈ s.mem.shut) ∧
    (∃ (m : Fin 16) (s : State), s.phaseOf m.val = 3 ∧
      m.val ∈ s.mem.shut) :=
  ⟨⟨dramSize, 64, by decide +kernel⟩,
   ⟨0, 64, { onAll with mem := { onAll.mem with shut := [0] } }, by decide +kernel⟩,
   ⟨0, 64, _, (toLE 64 1), [], [], ((List.range 16).foldl (fun (x : State) m => x.setField (pgMEM m) 0x00C 0 4 4) onAll), _, _, _, _, rfl, rfl, (Prod.eta _).symm, rfl, by decide +kernel⟩,
   ⟨(toLE 64 1), by decide +kernel⟩,
   ⟨0, 64, _, [], [], ((List.range 16).foldl (fun (x : State) m => x.setField (pgMEM m) 0x00C 0 4 4) onAll), _, rfl, rfl, by decide +kernel⟩,
   ⟨127, 95, 2, true, onAll, _, rfl⟩,
   ⟨0, (onAll.setN (pgMEM 0) 0x008 0), by decide +kernel⟩,
   ⟨0, (((onAll.setField (pgMEM 0) 0x00C 0 4 4).setN (pgMEM 0) 0x008 1).setN (pgMEM 0) 0x044 1), _, _, _, _, rfl, rfl, rfl, rfl, by decide +kernel⟩,
   ⟨0, { (((onAll.setField (pgMEM 0) 0x00C 0 4 4).setN (pgMEM 0) 0x008 1).setN (pgMEM 0) 0x044 1) with mem := { onAll.mem with scrub := [(0, 8 * linesPerChan)] } }, by decide +kernel⟩,
   ⟨15, 7, 0, [16], ((onIn .boot).setField (pgMEM 15) 0x00C 0 4 0), _, rfl, by decide +kernel⟩,
   ⟨0, ((onIn .boot).setField (pgMEM 0) 0x00C 0 4 1), by decide +kernel⟩,
   ⟨0, 0, (onAll.modChan 0 (fun c => { c with avail := 3 })), by decide +kernel⟩,
   ⟨((List.range 16).foldl (fun (x : State) m => x.setField (pgMEM m) 0x00C 0 4 2) (onIn .wipe)), by decide +kernel⟩,
   ⟨0, { ((onIn .boot).setField (pgMEM 0) 0x00C 0 4 3) with mem := { onAll.mem with shut := [0] } }, by decide +kernel⟩,
   ⟨0, { ((onIn .boot).setField (pgMEM 0) 0x00C 0 4 3) with mem := { onAll.mem with shut := [0] } }, by decide +kernel⟩⟩

/-- What the clauses of RepairListBound assume can be met. -/
theorem meets_RepairListBound :
    (∃ (c row : Nat) (s : State), row ∈ (s.chan c).repair) ∧
    (∃ (c row : Nat) (s : State), row ∉ (s.chan c).repair ∧
      16 ≤ (s.chan c).repair.length) ∧
    (∃ (c row : Nat) (s : State), row ∉ (s.chan c).repair ∧
      (s.chan c).repair.length < 16) :=
  ⟨⟨5, 7, (onAll.modChan 5 (fun y => { y with repair := [7] })), by decide +kernel⟩,
   ⟨5, 99, (onAll.modChan 5 (fun y => { y with repair := List.range 16 })), by decide +kernel⟩,
   ⟨5, 99, (onAll.modChan 5 (fun y => { y with repair := List.range 15 })), by decide +kernel⟩⟩

/-- What the clauses of QueuePairs assume can be met. -/
theorem meets_QueuePairs :
    (∃ (qp rkey off : Nat) (data : Bytes) (f : FrameInfo) (s x : State) (k : Qp), s.frameIn f k.prio = (x, true) ∧
      s.qp? qp = some k ∧
      k.live = true ∧
      k.role = 1 ∧
      data.length ≤ 2 ^ 31 ∧
      x.eth.held.any (fun h => h.qp == qp) = false ∧
      x.regionOk rkey off data.length 1 = true) ∧
    (∃ (qp : Nat) (data : Bytes) (f : FrameInfo) (s x : State) (k : Qp), s.frameIn f k.prio = (x, true) ∧
      s.qp? qp = some k ∧
      k.live = true ∧
      (k.role ≠ 1 ∨ 2 ^ 31 < data.length)) ∧
    (∃ (qp rkey off len : Nat) (f : FrameInfo) (s x y : State) (k : Qp) (bs : Bytes) (bad : Bool), s.frameIn f k.prio = (x, true) ∧
      x.dramLoad off len = (bs, bad, y) ∧
      s.qp? qp = some k ∧
      k.live = true ∧
      k.role = 1 ∧
      len ≤ 2 ^ 31 ∧
      x.eth.held.any (fun h => h.qp == qp) = false ∧
      x.regionOk rkey off len 0 = true) ∧
    (∃ (qp rkey off len : Nat) (f : FrameInfo) (s x : State) (k : Qp), s.frameIn f k.prio = (x, true) ∧
      s.qp? qp = some k ∧
      k.live = true ∧
      k.role = 1 ∧
      len ≤ 2 ^ 31 ∧
      x.eth.held.any (fun h => h.qp == qp) = false ∧
      x.regionOk rkey off len 0 = false) ∧
    (∃ (qp : Nat) (msg : Bytes) (f : FrameInfo) (s x y : State) (k : Qp) (c : Cmd) (crc : Nat), s.frameIn f k.prio = (x, true) ∧
      y = x.pmkCheck 2 crc true k.slot ∧
      c = { ver := leAt msg 0 1, op := leAt msg 2 2, seq := leAt msg 8 4, body := sliceB (msg.drop 16) 0 (leAt msg 6 2), started := false, dup := false } ∧
      s.qp? qp = some k ∧
      k.live = true ∧
      k.role = 0 ∧
      16 ≤ msg.length ∧
      msg.length ≤ 4096 ∧
      (x.queue k.slot).entries.length < 256 ∧
      crc = crc32c (patchB msg 0xC (toLE 4 0)) ∧
      crc = leAt msg 0xC 4 ∧
      leAt msg 1 1 = 1 ∧
      leAt msg 4 1 = k.slot) ∧
    (∃ (s : State) (q : Nat) (c : Cmd), c.seq = (s.queue q).next ∧
      (s.queue q).next < 2 ^ 32) ∧
    (∃ (s : State) (q : Nat) (c : Cmd), c.seq = (s.queue q).next + 1 ∧
      c.seq < 2 ^ 32) ∧
    (∃ (qp : Nat) (f : FrameInfo) (s x : State), s.frameIn f (s.field pgETH 0x084 12 3) = (x, true) ∧
      kvHas x.eth.qps qp = false) ∧
    (∃ (role slot : Nat) (s : State), (role = 0 → slot < 64) ∧
      (role = 2 → slot < 1024) ∧
      role ≤ 2 ∧
      s.slotTaken role slot = false ∧
      s.eth.qps.length < 1024) ∧
    (∃ (qp : Nat) (f : FrameInfo) (s x y : State) (k : Qp), s.frameIn f (s.field pgETH 0x084 12 3) = (x, true) ∧
      y = x.setEth (fun e => { e with qps := kvSet e.qps qp { k with live := true } }) ∧
      s.qp? qp = some k ∧
      k.live = false ∧
      k.err = false) ∧
    (∃ (qp : Nat) (f : FrameInfo) (s x : State) (k : Qp), s.frameIn f (s.field pgETH 0x084 12 3) = (x, true) ∧
      s.qp? qp = some k) ∧
    (∃ (qp : Nat) (s : State) (k : Qp), s.qp? qp = some k) ∧
    (∃ (qp : Nat) (s : State) (k : Qp), s.qp? qp = some k) ∧
    (∃ (qp : Nat) (s : State) (k : Qp), s.qp? qp = some k ∧
      k.live = true ∧
      k.role ≠ 1) :=
  ⟨⟨9, 5, 0, (toLE 64 0), { prot := true, cnp := false, pfc := 0 }, { (onIn .joined).setField pgETH 0x00C 28 4 2 with eth := { Eth.reset with qps := [(9, { role := 1, slot := 0, prio := 0, mtu := 1024, live := true, err := false, rate := 2 ^ 64 })], regions := [(0, { off := 0, len := 4096, access := 3, rkey := 5 })] } }, _, { role := 1, slot := 0, prio := 0, mtu := 1024, live := true, err := false, rate := 2 ^ 64 }, (fst_of (by decide +kernel)), by decide +kernel⟩,
   ⟨9, [], { prot := true, cnp := false, pfc := 0 }, { (onIn .joined).setField pgETH 0x00C 28 4 2 with eth := { Eth.reset with qps := [(9, { role := 0, slot := 0, prio := 0, mtu := 1024, live := true, err := false, rate := 2 ^ 64 })], regions := [(0, { off := 0, len := 4096, access := 3, rkey := 5 })] } }, _, { role := 0, slot := 0, prio := 0, mtu := 1024, live := true, err := false, rate := 2 ^ 64 }, (fst_of (by decide +kernel)), by decide +kernel⟩,
   ⟨9, 5, 0, 64, { prot := true, cnp := false, pfc := 0 }, { (onIn .joined).setField pgETH 0x00C 28 4 2 with eth := { Eth.reset with qps := [(9, { role := 1, slot := 0, prio := 0, mtu := 1024, live := true, err := false, rate := 2 ^ 64 })], regions := [(0, { off := 0, len := 4096, access := 3, rkey := 5 })] } }, _, _, { role := 1, slot := 0, prio := 0, mtu := 1024, live := true, err := false, rate := 2 ^ 64 }, _, _, (fst_of (by decide +kernel)), rfl, by decide +kernel⟩,
   ⟨9, 6, 0, 64, { prot := true, cnp := false, pfc := 0 }, { (onIn .joined).setField pgETH 0x00C 28 4 2 with eth := { Eth.reset with qps := [(9, { role := 1, slot := 0, prio := 0, mtu := 1024, live := true, err := false, rate := 2 ^ 64 })], regions := [(0, { off := 0, len := 4096, access := 3, rkey := 5 })] } }, _, { role := 1, slot := 0, prio := 0, mtu := 1024, live := true, err := false, rate := 2 ^ 64 }, (fst_of (by decide +kernel)), by decide +kernel⟩,
   ⟨9, msg0, { prot := true, cnp := false, pfc := 0 }, { (onIn .joined).setField pgETH 0x00C 28 4 2 with eth := { Eth.reset with qps := [(9, { role := 0, slot := 0, prio := 0, mtu := 1024, live := true, err := false, rate := 2 ^ 64 })], regions := [] } }, _, _, { role := 0, slot := 0, prio := 0, mtu := 1024, live := true, err := false, rate := 2 ^ 64 }, _, 0x85DA9340, (fst_of (by decide +kernel)), rfl, rfl, by decide +kernel⟩,
   ⟨onAll, 0, (cmd 3 []), by decide +kernel⟩,
   ⟨onAll, 0, { cmd 3 [] with seq := 1 }, by decide +kernel⟩,
   ⟨9, { prot := true, cnp := false, pfc := 0 }, { (onIn .joined).setField pgETH 0x00C 28 4 2 with eth := { Eth.reset with qps := [], regions := [] } }, _, (fst_of (by decide +kernel)), by decide +kernel⟩,
   ⟨0, 0, { (onIn .joined).setField pgETH 0x00C 28 4 2 with eth := { Eth.reset with qps := [], regions := [] } }, (by decide), (by decide), by decide +kernel⟩,
   ⟨9, { prot := true, cnp := false, pfc := 0 }, { (onIn .joined).setField pgETH 0x00C 28 4 2 with eth := { Eth.reset with qps := [(9, { role := 1, slot := 0, prio := 0, mtu := 1024, live := false, err := false, rate := 2 ^ 64 })], regions := [] } }, _, _, { role := 1, slot := 0, prio := 0, mtu := 1024, live := false, err := false, rate := 2 ^ 64 }, (fst_of (by decide +kernel)), rfl, by decide +kernel⟩,
   ⟨9, { prot := true, cnp := false, pfc := 0 }, { (onIn .joined).setField pgETH 0x00C 28 4 2 with eth := { Eth.reset with qps := [(9, { role := 0, slot := 0, prio := 0, mtu := 1024, live := true, err := false, rate := 2 ^ 64 })], regions := [] } }, _, { role := 0, slot := 0, prio := 0, mtu := 1024, live := true, err := false, rate := 2 ^ 64 }, (fst_of (by decide +kernel)), by decide +kernel⟩,
   ⟨9, { (onIn .joined).setField pgETH 0x00C 28 4 2 with eth := { Eth.reset with qps := [(9, { role := 0, slot := 0, prio := 0, mtu := 1024, live := true, err := false, rate := 2 ^ 64 })], regions := [] } }, { role := 0, slot := 0, prio := 0, mtu := 1024, live := true, err := false, rate := 2 ^ 64 }, by decide +kernel⟩,
   ⟨9, { (onIn .joined).setField pgETH 0x00C 28 4 2 with eth := { Eth.reset with qps := [(9, { role := 0, slot := 0, prio := 0, mtu := 1024, live := true, err := false, rate := 2 ^ 64 })], regions := [] } }, { role := 0, slot := 0, prio := 0, mtu := 1024, live := true, err := false, rate := 2 ^ 64 }, by decide +kernel⟩,
   ⟨9, { (onIn .joined).setField pgETH 0x00C 28 4 2 with eth := { Eth.reset with qps := [(9, { role := 0, slot := 0, prio := 0, mtu := 1024, live := true, err := false, rate := 2 ^ 64 })], regions := [] } }, { role := 0, slot := 0, prio := 0, mtu := 1024, live := true, err := false, rate := 2 ^ 64 }, by decide +kernel⟩⟩

/-- What the clauses of EthernetFramesAndLetters assume can be met. -/
theorem meets_EthernetFramesAndLetters :
    (∃ (ip : Bytes) (f : FrameInfo) (s x : State), s.frameIn f 0 = (x, true) ∧
      ip = x.config 0x10 4 ∧
      allZero ip = false) ∧
    (∃ (ip : Bytes) (f : FrameInfo) (s x : State), s.frameIn f 0 = (x, true) ∧
      ip ≠ x.config 0x10 4) ∧
    (∃ (ip : Bytes) (f : FrameInfo) (s x : State), s.frameIn f 0 = (x, true) ∧
      x.ownIp6 ip = true) ∧
    (∃ (ip : Bytes) (f : FrameInfo) (s x : State), s.frameIn f 0 = (x, true) ∧
      (x.ownIp6 ip = true ∨ (ip = x.config 0x10 4 ∧ allZero ip = false))) ∧
    (∃ (f : FrameInfo) (s x : State), s.frameIn f 0 = (x, true)) ∧
    (∃ (s : State), s.ethLink = 2) ∧
    (∃ (n : Nat), n ≠ 0) ∧
    (∃ (s : State), s.ethLink = 2) ∧
    (∃ (s : State), s.ethLink = 2) ∧
    (∃ (s x : State), x = s.setEth (fun e => { e with used := true }) ∧
      s.domOn 178 = true ∧
      s.fmn.state ≠ .cold ∧
      s.fmn.state ≠ .boot ∧
      s.ethLink ≤ 1) ∧
    (∃ (s : State), s.ethLink = 2) ∧
    (∃ (s : State), s.ethLink = 3) ∧
    (∃ (s : State), s.ethLink = 2) ∧
    (∃ (s : State) (q : Nat) (u : Sub), s.ethLink = 2 ∧
      s.subs = [(q, u)] ∧
      u.beat = true ∧
      s.connected q = true) ∧
    (∃ (s : State), s.ethLink = 2) ∧
    (∃ (s : State), s.withheld = []) ∧
    (∃ (s : State) (l : Letter) (r : List Letter), s.letters = l :: r ∧
      s.txPaused l.queue = true) ∧
    (∃ (s : State) (l : Letter) (r : List Letter), s.letters = l :: r ∧
      s.txPaused l.queue = false) ∧
    (∃ (s : State), s.ethLink ≠ 2) :=
  ⟨⟨[10, 0, 0, 1], { prot := true, cnp := false, pfc := 0 }, ((fun s => { s with sel := { s.sel with cur := { s.sel.cur with data := (s.sel.cur.data.write 0x910 [10, 0, 0, 1]).write 0x920 (toLE 16 1) } } }) ((onIn .joined).setField pgETH 0x00C 28 4 2)), _, (fst_of (by decide +kernel)), by decide +kernel⟩,
   ⟨[10, 0, 0, 2], { prot := true, cnp := false, pfc := 0 }, ((fun s => { s with sel := { s.sel with cur := { s.sel.cur with data := (s.sel.cur.data.write 0x910 [10, 0, 0, 1]).write 0x920 (toLE 16 1) } } }) ((onIn .joined).setField pgETH 0x00C 28 4 2)), _, (fst_of (by decide +kernel)), by decide +kernel⟩,
   ⟨(toLE 16 1), { prot := true, cnp := false, pfc := 0 }, ((fun s => { s with sel := { s.sel with cur := { s.sel.cur with data := (s.sel.cur.data.write 0x910 [10, 0, 0, 1]).write 0x920 (toLE 16 1) } } }) ((onIn .joined).setField pgETH 0x00C 28 4 2)), _, (fst_of (by decide +kernel)), by decide +kernel⟩,
   ⟨[10, 0, 0, 1], { prot := true, cnp := false, pfc := 0 }, ((fun s => { s with sel := { s.sel with cur := { s.sel.cur with data := (s.sel.cur.data.write 0x910 [10, 0, 0, 1]).write 0x920 (toLE 16 1) } } }) ((onIn .joined).setField pgETH 0x00C 28 4 2)), _, (fst_of (by decide +kernel)), by decide +kernel⟩,
   ⟨{ prot := true, cnp := false, pfc := 0 }, ((onIn .joined).setField pgETH 0x00C 28 4 2), _, (fst_of (by decide +kernel))⟩,
   ⟨((onIn .joined).setField pgETH 0x00C 28 4 2), by decide +kernel⟩,
   ⟨1, by decide +kernel⟩,
   ⟨((onIn .joined).setField pgETH 0x00C 28 4 2), by decide +kernel⟩,
   ⟨((onIn .joined).setField pgETH 0x00C 28 4 2), by decide +kernel⟩,
   ⟨((onIn .idle).setField pgETH 0x00C 28 4 1), _, rfl, by decide +kernel⟩,
   ⟨((onIn .joined).setField pgETH 0x00C 28 4 2), by decide +kernel⟩,
   ⟨((onIn .joined).setField pgETH 0x00C 28 4 3), by decide +kernel⟩,
   ⟨((onIn .joined).setField pgETH 0x00C 28 4 2), by decide +kernel⟩,
   ⟨{ ((onIn .joined).setField pgETH 0x00C 28 4 2) with subs := [(0, { pages := 1, beat := true, next := 0 })], spv := { Spv.reset with queues := [(0, { CmdQueue.reset with qp := some 9 })] } }, 0, { pages := 1, beat := true, next := 0 }, by decide +kernel⟩,
   ⟨((onIn .joined).setField pgETH 0x00C 28 4 2), by decide +kernel⟩,
   ⟨onAll, by decide +kernel⟩,
   ⟨(let b := { ((onIn .joined).setField pgETH 0x00C 28 4 2) with letters := [{ queue := 0, seq := 0, kind := 0, bit := 0, page := 0, count := 1, time := 0, step := 0, err := 0, info := 0 }] }; { b with spv := { b.spv with queues := [(0, { CmdQueue.reset with qp := some 9 })] }, eth := { b.eth with qps := [(9, { role := 0, slot := 0, prio := 6, mtu := 4096, live := true, err := false, rate := 2 ^ 64 })], paused := [(6, 5)] } }), { queue := 0, seq := 0, kind := 0, bit := 0, page := 0, count := 1, time := 0, step := 0, err := 0, info := 0 }, [], by decide +kernel⟩,
   ⟨{ ((onIn .joined).setField pgETH 0x00C 28 4 2) with letters := [{ queue := 0, seq := 0, kind := 0, bit := 0, page := 0, count := 1, time := 0, step := 0, err := 0, info := 0 }] }, { queue := 0, seq := 0, kind := 0, bit := 0, page := 0, count := 1, time := 0, step := 0, err := 0, info := 0 }, [], by decide +kernel⟩,
   ⟨((onIn .joined).setField pgETH 0x00C 28 4 1), by decide +kernel⟩⟩

/-- What the clauses of SprinovCommands assume can be met. -/
theorem meets_SprinovCommands :
    (∃ (q : Fin 64) (c : Cmd) (s x : State), starts s q.val 1 c ∧
      x = s.started q.val c ∧
      leAt c.body 0 2 &&& x.regN pgSPV 0x07C &&& 2 = 0) ∧
    (∃ (q : Fin 64) (c : Cmd) (s x y z : State), starts s q.val 1 c ∧
      x = s.started q.val c ∧
      y = { x with freeCtr := x.freeCtr + 1 } ∧
      z = y.modQueue q.val (fun k => k.opened (toLE 16 ((Config.freeValue x.freeCtr).toNat % 2 ^ 128)) (bitOf (leAt c.body 2 1) 0) (leAt c.body 4 4)) ∧
      leAt c.body 0 2 &&& x.regN pgSPV 0x07C &&& 2 ≠ 0) ∧
    (∃ (q : Fin 64) (c : Cmd) (s x : State), starts s q.val 2 c ∧
      x = s.started q.val c ∧
      x.keySlotOf (sliceB c.body 0 97) = none) ∧
    (∃ (q : Fin 64) (c : Cmd) (s x : State), starts s q.val 3 c ∧
      x = s.started q.val c) ∧
    (∃ (q : Fin 64) (c : Cmd) (s x : State), starts s q.val 0x10 c ∧
      x = s.started q.val c) ∧
    (∃ (q : Fin 64) (c : Cmd) (s x : State) (p : Nat) (offs : List Nat), starts s q.val 0x11 c ∧
      x = s.started q.val c ∧
      regOffsets c.body = some (p, offs)) ∧
    (∃ (q : Fin 64) (c : Cmd) (s x : State) (p : Nat) (offs : List Nat), starts s q.val 0x12 c ∧
      x = s.started q.val c ∧
      regOffsets c.body = some (p, offs)) ∧
    (∃ (q : Fin 64) (c : Cmd) (s x : State), starts s q.val 0x13 c ∧
      x = s.started q.val c) ∧
    (∃ (q : Fin 64) (c : Cmd) (s x : State) (i : Nat), starts s q.val 0x20 c ∧
      x = s.started q.val c ∧
      leAt c.body 0 8 % 4096 = 0 ∧
      leAt c.body 8 8 % 4096 = 0 ∧
      dramMapped (leAt c.body 0 8) (leAt c.body 8 8) = true ∧
      (List.range 4096).find? (fun i => !kvHas x.eth.regions i) = some i) ∧
    (∃ (q : Fin 64) (c : Cmd) (s x : State), starts s q.val 0x21 c ∧
      x = s.started q.val c ∧
      kvHas x.eth.regions (leAt c.body 0 2) = true) ∧
    (∃ (q : Nat) (c : Cmd) (s x : State), x = s.started q c ∧
      s.nextStart = some (q, c) ∧
      knownOp c.op = false ∧
      c.ver = 1 ∧
      (x.queue q).auth = true) ∧
    (∃ (q : Fin 64) (c : Cmd) (s x : State), starts s q.val 0x76 c ∧
      x = s.started q.val c) :=
  ⟨⟨0, (cmd 1 (toLE 2 4 ++ toLE 1 1 ++ toLE 1 0 ++ toLE 4 0)), (cmdAt .joined 1 (toLE 2 4 ++ toLE 1 1 ++ toLE 1 0 ++ toLE 4 0) (fun s => s.setN pgSPV 0x07C 2)), _, (starts_of (by decide +kernel)), rfl, by decide +kernel⟩,
   ⟨0, (cmd 1 (toLE 2 2 ++ toLE 1 1 ++ toLE 1 0 ++ toLE 4 0)), (cmdAt .joined 1 (toLE 2 2 ++ toLE 1 1 ++ toLE 1 0 ++ toLE 4 0) (fun s => s.setN pgSPV 0x07C 2)), _, _, _, (starts_of (by decide +kernel)), rfl, rfl, rfl, by decide +kernel⟩,
   ⟨0, (cmd 2 (List.replicate 196 0)), (cmdAt .joined 2 (List.replicate 196 0) id), _, (starts_of (by decide +kernel)), rfl, by decide +kernel⟩,
   ⟨0, (cmd 3 ([])), (cmdAt .joined 3 ([]) id), _, (starts_of (by decide +kernel)), rfl⟩,
   ⟨0, (cmd 0x10 ([])), (cmdAt .joined 0x10 ([]) id), _, (starts_of (by decide +kernel)), rfl⟩,
   ⟨0, (cmd 0x11 (toLE 2 0x1F0 ++ toLE 2 0 ++ toLE 2 1 ++ toLE 2 0)), (cmdAt .joined 0x11 (toLE 2 0x1F0 ++ toLE 2 0 ++ toLE 2 1 ++ toLE 2 0) id), _, 0x1F0, [0], (starts_of (by decide +kernel)), rfl, by decide +kernel⟩,
   ⟨0, (cmd 0x12 (toLE 2 0x1E0 ++ toLE 2 8 ++ toLE 2 1 ++ toLE 2 0 ++ toLE 4 0)), (cmdAt .joined 0x12 (toLE 2 0x1E0 ++ toLE 2 8 ++ toLE 2 1 ++ toLE 2 0 ++ toLE 4 0) id), _, 0x1E0, [8], (starts_of (by decide +kernel)), rfl, by decide +kernel⟩,
   ⟨0, (cmd 0x13 (toLE 68 1)), (cmdAt .joined 0x13 (toLE 68 1) id), _, (starts_of (by decide +kernel)), rfl⟩,
   ⟨0, (cmd 0x20 (toLE 8 4096 ++ toLE 8 4096 ++ toLE 1 3 ++ toLE 3 0)), (cmdAt .joined 0x20 (toLE 8 4096 ++ toLE 8 4096 ++ toLE 1 3 ++ toLE 3 0) id), _, 0, (starts_of (by decide +kernel)), rfl, by decide +kernel⟩,
   ⟨0, (cmd 0x21 (toLE 4 0)), (cmdAt .joined 0x21 (toLE 4 0) (fun s => { s with eth := { s.eth with regions := [(0, { off := 0, len := 4096, access := 3, rkey := 5 })] } })), _, (starts_of (by decide +kernel)), rfl, by decide +kernel⟩,
   ⟨0, (cmd 0x55 ([])), (cmdAt .joined 0x55 ([]) id), _, rfl, by decide +kernel⟩,
   ⟨0, (cmd 0x76 ([])), (cmdAt .idle 0x76 ([]) id), _, (starts_of (by decide +kernel)), rfl⟩⟩

/-- What the clauses of RegisterAccesses assume can be met. -/
theorem meets_RegisterAccesses :
    (∃ (s : State), s.fmn.state ≠ .stepping) ∧
    (∃ (s : State), kvFind s.captured (regKey pgFMN 0x024) = none) ∧
    (∃ (s : State), s.domOn 181 = true ∧
      kvFind s.captured (regKey pgDTL 0x040) = none) ∧
    (∃ (s : State) (v : Word), kvFind s.captured (regKey pgDTL 0x044) = some v) ∧
    (∃ (page : Fin 512) (off : Fin 1024) (v : Word) (st : Nat) (s : State), st = s.regCheck page.val (4 * off.val) v.toNat true) ∧
    (∃ (page : Fin 512) (off : Fin 1024) (v : Word) (st : Nat) (s x y : State), x = s.aliveTick 6 ∧
      st = x.regCheck page.val (4 * off.val) v.toNat false ∧
      y = (if st = 0 then { x.regApply page.val (4 * off.val) v.toNat false with answer := 0 } else { x with answer := st })) ∧
    (∃ (page : Fin 512) (v : Word) (st : Nat) (s : State), st = s.regCheck page.val 0x01C v.toNat true) ∧
    (∃ (page : Fin 512) (off : Fin 1024) (s x : State) (v : Nat), s.regRead page.val (4 * off.val) = (v, x) ∧
      pageBlk page.val ≠ none) ∧
    (∃ (page : Fin 512), pageBlk page.val = none) :=
  ⟨⟨(onIn .joined), by decide +kernel⟩,
   ⟨onAll, by decide +kernel⟩,
   ⟨onAll, by decide +kernel⟩,
   ⟨{ onAll with captured := [(regKey pgDTL 0x044, 5)] }, 5, by decide +kernel⟩,
   ⟨(Fin.ofNat 512 (pgDTL)), 0, 0, _, onAll, rfl⟩,
   ⟨(Fin.ofNat 512 (pgDTL)), 0, 0, _, onAll, _, _, rfl, rfl, rfl⟩,
   ⟨(Fin.ofNat 512 (pgDTL)), 0, _, onAll, rfl⟩,
   ⟨(Fin.ofNat 512 (pgDTL)), 0, onAll, _, _, (Prod.eta _).symm, by decide +kernel⟩,
   ⟨511, by decide +kernel⟩⟩

/-- What the clauses of EventSetInjects assume can be met. -/
theorem meets_EventSetInjects :
    (∃ (page : Fin 512) (k i : Nat) (b : Blk) (s : State), pageBlk page.val = some (b, i) ∧
      (s.fmn.state ≠ .stepping ∨ dataPlane b i = false) ∧
      k < b.events) ∧
    (∃ (page : Fin 512) (i : Nat) (b : Blk) (s : State), pageBlk page.val = some (b, i) ∧
      (s.fmn.state ≠ .stepping ∨ dataPlane b i = false)) :=
  ⟨⟨(Fin.ofNat 512 (pgFMN)), 0, 0, .fmn, (onIn .stepping), by decide +kernel⟩,
   ⟨(Fin.ofNat 512 (pgFMN)), 0, .fmn, (onIn .stepping), by decide +kernel⟩⟩

/-- What the clauses of DomainOffAccesses assume can be met. -/
theorem meets_DomainOffAccesses :
    (∃ (page : Fin 512) (off : Fin 1024) (i : Nat) (b : Blk) (s : State), pageBlk page.val = some (b, i) ∧
      0x10 ≤ off.val ∧
      s.domOn (domainOf b i) = false) ∧
    (∃ (off : Nat), off < 0x040) :=
  ⟨⟨(Fin.ofNat 512 (pgPRF 0)), 0x10, 0, .prf, State.reset, by decide +kernel⟩,
   ⟨0x03C, by decide +kernel⟩⟩

/-- What the clauses of IdRegisters assume can be met. -/
theorem meets_IdRegisters :
    (∃ (p i : Nat) (b : Blk), pageBlk p = some (b, i)) ∧
    (∃ (page : Fin 512) (i : Nat) (b : Blk), pageBlk page.val = some (b, i)) :=
  ⟨⟨pgFMN, 0, .fmn, by decide +kernel⟩,
   ⟨(Fin.ofNat 512 pgFMN), 0, .fmn, by decide +kernel⟩⟩

/-- What the clauses of SplitRegisterReads assume can be met. -/
theorem meets_SplitRegisterReads :
    (∃ (s u : State) (p o i : Nat) (b : Blk), pageBlk p = some (b, i) ∧
      loHalf b o = true ∧
      o % 4 = 0 ∧
      o < 0x1000 ∧
      s.openPair b i o = false ∧
      s.openPair b i (o - 4) = false ∧
      s.openWord b i o = false ∧
      kvFind s.captured (regKey p o) = none ∧
      u.captured = (s.regRead p o).2.captured) ∧
    (∃ (s : State) (p o i : Nat) (b : Blk), pageBlk p = some (b, i) ∧
      s.openPair b i o = true ∧
      s.domOn (domainOf b i) = true ∧
      kvFind s.captured (regKey p o) = none) ∧
    (∃ (s : State) (p o i : Nat) (b : Blk), pageBlk p = some (b, i) ∧
      s.openPair b i o = false ∧
      s.openPair b i (o - 4) = false ∧
      s.openWord b i o = false ∧
      kvFind s.captured (regKey p o) = none) :=
  ⟨⟨onAll, (onAll.regRead pgFMN 0x054).2, pgFMN, 0x054, 0, .fmn, by decide +kernel⟩,
   ⟨onAll, pgPWR, 0x04C, 0, .pwr, by decide +kernel⟩,
   ⟨onAll, pgFMN, 0x054, 0, .fmn, by decide +kernel⟩⟩

/-- What the clauses of PostmarkAndLedgerControl assume can be met. -/
theorem meets_PostmarkAndLedgerControl :
    (∃ (n : Fin 6) (s : State), s.pmkResult (10 + n.val) = s.reg64 (pgPMK (10 + n.val)) 0x050 % 2 ^ algWidth (s.pmkAlg (10 + n.val))) ∧
    (∃ (n : Fin 6) (s : State), s.pmkResult (10 + n.val) ≠ s.reg64 (pgPMK (10 + n.val)) 0x050 % 2 ^ algWidth (s.pmkAlg (10 + n.val))) ∧
    (∃ (s : State), s.domOn 183 = true) ∧
    (∃ (v : Word) (s : State), s.domOn 183 = true ∧
      fld v.toNat 24 2 ≠ 0) ∧
    (∃ (n : Fin 6) (s : State), s.domOn 183 = true ∧
      s.pmkAlg (10 + n.val) ≠ 2) ∧
    (∃ (n : Fin 6) (s : State), s.domOn 183 = true ∧
      s.pmkAlg (10 + n.val) ≠ 2) ∧
    (∃ (n : Fin 6) (s : State), s.domOn 183 = true ∧
      s.pmkAlg (10 + n.val) = 2) ∧
    (∃ (v : Word) (s : State), s.domOn 183 = true ∧
      fld v.toNat 24 2 = 0) ∧
    (∃ (u : Fin 16) (s : State), u.val < 10 ∧
      (2 ≤ u.val ∨ s.fmn.state ≠ .stepping)) ∧
    (∃ (u : Fin 16) (s : State), u.val < 10 ∧
      s.domOn 183 = true ∧
      (2 ≤ u.val ∨ s.fmn.state ≠ .stepping)) ∧
    (∃ (s : State), s.fmn.state = .stepping) ∧
    (∃ (s : State), s.domOn 183 = false) ∧
    (∃ (s : State), (s.fmn.state = .idle ∨ s.fmn.state = .service)) ∧
    (∃ (s : State), s.fmn.state ≠ .idle ∧
      s.fmn.state ≠ .service) :=
  ⟨⟨5, (onAll.set64 (pgPMK 15) 0x050 (onAll.pmkResult 15)), by decide +kernel⟩,
   ⟨0, (onAll.set64 (pgPMK 10) 0x050 77), by decide +kernel⟩,
   ⟨onAll, by decide +kernel⟩,
   ⟨0x1000000, onAll, by decide +kernel⟩,
   ⟨0, onAll, by decide +kernel⟩,
   ⟨0, onAll, by decide +kernel⟩,
   ⟨0, (onAll.setField (pgPMK 10) 0x008 2 2 2), by decide +kernel⟩,
   ⟨1, onAll, by decide +kernel⟩,
   ⟨0, onAll, by decide +kernel⟩,
   ⟨0, onAll, by decide +kernel⟩,
   ⟨(onIn .stepping), by decide +kernel⟩,
   ⟨State.reset, by decide +kernel⟩,
   ⟨(onIn .idle), by decide +kernel⟩,
   ⟨(onIn .joined), by decide +kernel⟩⟩

/-- What the clauses of PouchTransfers assume can be met. -/
theorem meets_PouchTransfers :
    (∃ (p : Fin 512) (i : Fin 256) (s : State), pouchSlots p.val i.val ≤ (s.pouch p.val i.val).words.length) ∧
    (∃ (p : Nat), smallPouch p = true) ∧
    (∃ (p : Fin 512) (i : Fin 256) (s : State) (w : Pouch), w.words.length < pouchSlots p.val i.val ∧
      w = s.pouch p.val i.val) ∧
    (∃ (p : Fin 512) (i : Fin 256) (s : State), (s.pouch p.val i.val).words = []) ∧
    (∃ (p : Fin 512) (i : Fin 256) (s : State) (w : Pouch), w = s.pouch p.val i.val ∧
      largePouch p.val = true ∧
      w.begun = false ∧
      w.packets = 0 ∧
      w.words.length < 16) ∧
    (∃ (p : Fin 512) (i : Fin 256) (s : State) (c : Pouch) (w : PouchWord) (r : List PouchWord), c = s.pouch p.val i.val ∧
      c.words = w :: r ∧
      (largePouch p.val = true → c.begun = true ∨ 1 ≤ c.packets ∨ 16 ≤ c.words.length)) ∧
    (∃ (p : Fin 512) (i : Fin 256) (s x y : State) (c : Pouch) (w : PouchWord) (r : List PouchWord), c = s.pouch p.val i.val ∧
      x = s.setPouch p.val i.val { words := r, begun := false } ∧
      y = (if w.poison then x else (x.bump pgGLB 0x050 1).latchErr pgGLB 0 1 (p.val * 65536 + i.val) 0) ∧
      c.words = w :: r ∧
      (largePouch p.val = true → c.begun = true ∨ 1 ≤ c.packets ∨ 16 ≤ c.words.length)) ∧
    (∃ (p : Fin 512) (i : Fin 256) (s : State) (c : Pouch), c = s.pouch p.val i.val ∧
      largePouch p.val = true ∧
      c.words ≠ [] ∧
      c.begun = false) ∧
    (∃ (p : Fin 512) (i : Fin 256) (s : State), (largePouch p.val = false ∨ (s.pouch p.val i.val).begun = true)) :=
  ⟨⟨0, 0, fullPouch, full_pouch⟩,
   ⟨0, by decide +kernel⟩,
   ⟨0, 0, onAll, (onAll.pouch 0 0), (show 0 < pouchSlots 0 0 from Nat.two_pow_pos _), by decide +kernel⟩,
   ⟨0, 0, onAll, by decide +kernel⟩,
   ⟨(Fin.ofNat 512 (pgPPT 0)), 0, onAll, _, rfl, by decide +kernel⟩,
   ⟨0, 0, { onAll with pouches := [(0, { words := [pw0], begun := false })] }, _, pw0, [], rfl, by decide +kernel⟩,
   ⟨0, 0, { onAll with pouches := [(0, { words := [pw0], begun := false })] }, _, _, _, pw0, [], rfl, rfl, rfl, by decide +kernel⟩,
   ⟨(Fin.ofNat 512 (pgPPT 0)), 0, { onAll with pouches := [(pgPPT 0 * 256, { words := [pw0], begun := false })] }, _, rfl, by decide +kernel⟩,
   ⟨0, 0, onAll, by decide +kernel⟩⟩

/-- What the clauses of SealCommands assume can be met. -/
theorem meets_SealCommands :
    (∃ (q : Fin 64) (c : Cmd) (s x : State), mails s q.val 0x70 c ∧
      x = s.mailed q.val c ∧
      x.extentOk (leAt c.body 0 8) (leAt c.body 8 4) = false) ∧
    (∃ (q : Fin 64) (c : Cmd) (s x : State), mails s q.val 0x70 c ∧
      x = s.mailed q.val c ∧
      x.extentOk (leAt c.body 0 8) (leAt c.body 8 4) = true ∧
      leAt c.body 8 4 ≠ 256 + leAt (x.dram.read (leAt c.body 0 8) (leAt c.body 8 4)) 0xC 4 + 2048) ∧
    (∃ (q : Fin 64) (code slot : Nat) (c : Cmd) (s x y : State) (img : Bytes), mails s q.val 0x70 c ∧
      x = s.mailed q.val c ∧
      img = x.dram.read (leAt c.body 0 8) (leAt c.body 8 4) ∧
      y = (x.dramSeen (leAt c.body 0 8) (leAt c.body 8 4)).sealCall ∧
      slot = 1 - y.fwActive % 2 ∧
      code = y.sel.fuses.fwCheck img ∧
      x.extentOk (leAt c.body 0 8) (leAt c.body 8 4) = true ∧
      leAt c.body 8 4 = 256 + leAt img 0xC 4 + 2048 ∧
      code ≠ 0) ∧
    (∃ (q : Fin 64) (c : Cmd) (s x : State), mails s q.val 0x71 c ∧
      x = s.mailed q.val c ∧
      x.fwStaged = 0xFF) ∧
    (∃ (q : Fin 64) (code : Nat) (c : Cmd) (s x : State), mails s q.val 0x71 c ∧
      x = s.mailed q.val c ∧
      code = x.sealCall.sel.fuses.fwCheck (x.sealCall.image x.fwStaged) ∧
      x.fwStaged ≠ 0xFF ∧
      code ≠ 0) ∧
    (∃ (q : Fin 64) (c : Cmd) (s x : State), mails s q.val 0x72 c ∧
      x = s.mailed q.val c ∧
      x.sealCall.hasIdentity = false) ∧
    (∃ (q : Fin 64) (f0 f1 : Nat) (c : Cmd) (s x y : State), mails s q.val 0x72 c ∧
      x = s.mailed q.val c ∧
      y = x.sealCall.makeAlias f0 f1 ∧
      x.sealCall.hasIdentity = true ∧
      (y.sel.cur.endorse = none ∨ y.aliasValid = false)) ∧
    (∃ (q : Fin 64) (f0 f1 f2 : Nat) (ok : Bool) (c : Cmd) (s x y z : State) (e : Endorse), mails s q.val 0x72 c ∧
      x = s.mailed q.val c ∧
      y = x.sealCall.makeAlias f0 f1 ∧
      y.ledgerPut 1 f2 (fun m => m.writeLE 0x58 4 (y.aliasQ + 1)) id = (z, ok) ∧
      x.sealCall.hasIdentity = true ∧
      y.aliasValid = true ∧
      y.sel.cur.endorse = some e) ∧
    (∃ (q : Fin 64) (c : Cmd) (s x : State), mails s q.val 0x73 c ∧
      x = s.mailed q.val c ∧
      lcAllowed x.sealCall.lifeCycle (leAt c.body 0 1) = false) ∧
    (∃ (q : Fin 64) (c : Cmd) (s x : State), mails s q.val 0x73 c ∧
      x = s.mailed q.val c ∧
      lcAllowed x.sealCall.lifeCycle (leAt c.body 0 1) = true ∧
      leAt c.body 0 1 ≠ 5 ∧
      x.sealCall.tokenOk c.body = false) ∧
    (∃ (q : Fin 64) (f0 dest : Nat) (c : Cmd) (s x y : State), mails s q.val 0x73 c ∧
      x = s.mailed q.val c ∧
      x.sealCall.ledgerPut 1 f0 (fun m => (setPendingLc dest m).write 0x60 (sliceB c.body 4 48)) id = (y, false) ∧
      dest = leAt c.body 0 1 ∧
      lcAllowed x.sealCall.lifeCycle dest = true ∧
      (dest = 5 ∨ x.sealCall.tokenOk c.body = true) ∧
      (dest = 4 → rmaLeft x.sealCall.sel.fuses.lc ≠ 0)) ∧
    (∃ (q : Fin 64) (f0 f1 dest : Nat) (ok : Bool) (c : Cmd) (s x y z w : State), mails s q.val 0x73 c ∧
      x = s.mailed q.val c ∧
      x.sealCall.ledgerPut 1 f0 (fun m => (setPendingLc dest m).write 0x60 (sliceB c.body 4 48)) id = (y, true) ∧
      (y.blowLc dest).ledgerPut 1 f1 (lcRecord x.sealCall.lifeCycle dest y.lcCount (y.reg64 pgDTL 0x040) (sliceB c.body 4 48)) id = (z, ok) ∧
      w = (z.lifeAdd 5 1).wipeAll.setSel (fun k => { k with target := some dest }) ∧
      dest = leAt c.body 0 1 ∧
      lcAllowed x.sealCall.lifeCycle dest = true ∧
      (dest = 5 ∨ x.sealCall.tokenOk c.body = true) ∧
      (dest = 4 → rmaLeft x.sealCall.sel.fuses.lc ≠ 0)) ∧
    (∃ (q : Fin 64) (c : Cmd) (s x : State), mails s q.val 0x74 c ∧
      x = s.mailed q.val c) ∧
    (∃ (off : Fin 16384) (data : Bytes) (s x : State) (e : Ram), x = s.sealCall ∧
      e = x.mergedData.write off.val data) ∧
    (∃ (s : State), s.sel.updates ≠ [] ∧
      s.mgmt.handover ≠ .paused) ∧
    (∃ (s : State), (s.sel.updates = [] ∨ s.mgmt.handover = .paused)) ∧
    (∃ (s : State), s.sel.ldgPhase = 1) ∧
    (∃ (s : State), s.sel.ldgPhase ≠ 1) :=
  ⟨⟨0, (cmd 0x70 (toLE 8 dramSize ++ toLE 4 64 ++ toLE 4 0)), (cmdAt .idle 0x70 (toLE 8 dramSize ++ toLE 4 64 ++ toLE 4 0) (fun s => { s with sel := { s.sel with ldgPhase := 1, fuses := keyless } })), _, (mails_of (by decide +kernel)), rfl, by decide +kernel⟩,
   ⟨0, (cmd 0x70 (toLE 8 0 ++ toLE 4 64 ++ toLE 4 0)), (cmdAt .idle 0x70 (toLE 8 0 ++ toLE 4 64 ++ toLE 4 0) (fun s => { s with sel := { s.sel with ldgPhase := 1, fuses := keyless } })), _, (mails_of (by decide +kernel)), rfl, by decide +kernel⟩,
   ⟨0, _, _, (cmd 0x70 (toLE 8 0 ++ toLE 4 6400 ++ toLE 4 0)), (cmdAt .idle 0x70 (toLE 8 0 ++ toLE 4 6400 ++ toLE 4 0) (fun s => holds 0 (fwImg 1) { s with sel := { s.sel with ldgPhase := 1, fuses := keyless } })), _, _, _, (mails_of (by decide +kernel)), rfl, rfl, rfl, rfl, rfl, by decide +kernel⟩,
   ⟨0, (cmd 0x71 ([])), (cmdAt .idle 0x71 ([]) (fun s => { s with sel := { s.sel with ldgPhase := 1, fuses := keyless } })), _, (mails_of (by decide +kernel)), rfl, by decide +kernel⟩,
   ⟨0, _, (cmd 0x71 ([])), (cmdAt .idle 0x71 ([]) (fun s => { s with sel := { s.sel with ldgPhase := 1, fuses := keyless, cur := { s.sel.cur with data := s.sel.cur.data.write 0x51 ([1]) }, images := [(1, [])] } })), _, (mails_of (by decide +kernel)), rfl, rfl, by decide +kernel⟩,
   ⟨0, (cmd 0x72 (toLE 32 1)), (cmdAt .idle 0x72 (toLE 32 1) (fun s => { s with sel := { s.sel with ldgPhase := 1, fuses := { keyless with lc := 0 } } })), _, (mails_of (by decide +kernel)), rfl, by decide +kernel⟩,
   ⟨0, 0, 0, (cmd 0x72 (toLE 32 1)), (cmdAt .idle 0x72 (toLE 32 1) (fun s => { s with sel := { s.sel with ldgPhase := 1, fuses := keyless, cur := { s.sel.cur with data := s.sel.cur.data.write 0x5C (toLE 4 1024) } } })), _, _, (mails_of (by decide +kernel)), rfl, rfl, by decide +kernel⟩,
   ⟨0, 0, 0, 0, _, (cmd 0x72 (toLE 32 1)), (cmdAt .idle 0x72 (toLE 32 1) (fun s => { s with sel := { s.sel with ldgPhase := 1, fuses := keyless, cur := { s.sel.cur with endorse := some { meas := [], lc := 3, svn := 0, gen := 0, devQ := 0 } } } })), _, _, _, { meas := [], lc := 3, svn := 0, gen := 0, devQ := 0 }, (mails_of (by decide +kernel)), rfl, rfl, (Prod.eta _).symm, by decide +kernel⟩,
   ⟨0, (cmd 0x73 (toLE 4 2 ++ List.replicate 2072 0)), (cmdAt .idle 0x73 (toLE 4 2 ++ List.replicate 2072 0) (fun s => { s with sel := { s.sel with ldgPhase := 1, fuses := keyless } })), _, (mails_of (by decide +kernel)), rfl, by decide +kernel⟩,
   ⟨0, (cmd 0x73 (toLE 4 4 ++ List.replicate 2072 0)), (cmdAt .idle 0x73 (toLE 4 4 ++ List.replicate 2072 0) (fun s => { s with sel := { s.sel with ldgPhase := 1, fuses := keyless } })), _, (mails_of (by decide +kernel)), rfl, by decide +kernel⟩,
   ⟨0, 3, 5, (cmd 0x73 (toLE 4 5 ++ List.replicate 2072 0)), (cmdAt .idle 0x73 (toLE 4 5 ++ List.replicate 2072 0) (fun s => { s with sel := { s.sel with ldgPhase := 1, fuses := keyless } })), _, _, (mails_of (by decide +kernel)), rfl, (fst_of (by decide +kernel)), by decide +kernel⟩,
   ⟨0, 0, 0, 5, _, (cmd 0x73 (toLE 4 5 ++ List.replicate 2072 0)), (cmdAt .idle 0x73 (toLE 4 5 ++ List.replicate 2072 0) (fun s => { s with sel := { s.sel with ldgPhase := 1, fuses := keyless } })), _, _, _, _, (mails_of (by decide +kernel)), rfl, (fst_of (by decide +kernel)), (Prod.eta _).symm, rfl, by decide +kernel⟩,
   ⟨0, (cmd 0x74 ([])), (cmdAt .idle 0x74 ([]) (fun s => { s with sel := { s.sel with ldgPhase := 1, fuses := keyless } })), _, (mails_of (by decide +kernel)), rfl⟩,
   ⟨0, [9], onAll, _, _, rfl, rfl⟩,
   ⟨{ onAll with sel := { onAll.sel with updates := [(0xA30, [1])] } }, by decide +kernel⟩,
   ⟨onAll, by decide +kernel⟩,
   ⟨{ onAll with sel := { onAll.sel with ldgPhase := 1 } }, by decide +kernel⟩,
   ⟨onAll, by decide +kernel⟩⟩

/-- What FusesOnlyBlow assumes can be met. -/
theorem meets_FusesOnlyBlow :
    ∃ (s t : State), step s = .next t :=
  ⟨onAll, onAll, rfl⟩

/-- What ActiveImageKept assumes can be met. -/
theorem meets_ActiveImageKept :
    ∃ (c : Instr) (s t : State), exec c s = .next t :=
  ⟨(.resetPin), onAll, _, rfl⟩

/-- What the clauses of StartAndHandover assume can be met. -/
theorem meets_StartAndHandover :
    (∃ (s : State), s.fmn.state = .cold) ∧
    (∃ (s : State), s.fmn.state ≠ .cold) ∧
    (∃ (s : State), s.power.good = true) ∧
    (∃ (s : State), s.power.good = false) ∧
    (∃ (s : State), (s.fmn.state ≠ .boot ∨ s.sel.booted = true)) ∧
    (∃ (s : State), s.fmn.state = .boot ∧
      s.sel.booted = false) ∧
    (∃ (s : State), s.fmn.state = .boot ∧
      s.sel.booted = false ∧
      newestRec s.sel.recs = none ∧
      2 ≤ s.lifeCycle) ∧
    (∃ (us : Nat) (s x : State), x = (s.bootScan us).setSel (fun k => { k with ldgPhase := 1, recs := putRec k.recs (emptyRecord s.lifeCycle), cur := emptyRecord s.lifeCycle }) ∧
      s.fmn.state = .boot ∧
      s.sel.booted = false ∧
      newestRec s.sel.recs = none ∧
      s.lifeCycle < 2) ∧
    (∃ (us pf : Nat) (s x : State) (r : LRec), x = ((s.bootScan us).setSel (fun k => { k with ldgPhase := 1, cur := r })).settleLc pf ∧
      s.fmn.state = .boot ∧
      s.sel.booted = false ∧
      newestRec s.sel.recs = some r) ∧
    (∃ (s x : State), x = (s.loadTiles.loadRepairs.loadRegs.domainsOn alwaysOn).domainsOn s.requested ∧
      s.fmn.state = .boot ∧
      s.sel.phase = 3 ∧
      s.domOn 183 = false) ∧
    (∃ (s : State), s.fmn.state = .boot ∧
      s.sel.phase = 3 ∧
      s.domOn 183 = false) ∧
    (∃ (s : State), (s.fmn.state ≠ .boot ∨ s.sel.phase ≠ 3 ∨ s.domOn 183 = true)) ∧
    (∃ (failing : List (Fin 136)) (s x y : State), x = ((failing.map (·.val)).filter (fun p => (s.tile p).role == .spare)).foldl (fun (z : State) p => z.retireSpare p) s ∧
      y = ((failing.map (·.val)).filter (fun p => (s.tile p).role == .enabled)).foldl (fun (z : State) p => if (z.tile p).role == .enabled then z.replaceTile p else z) x ∧
      s.fmn.state = .boot ∧
      s.domOn 183 = true ∧
      s.mgmt.selfTested = false) ∧
    (∃ (s : State), (s.fmn.state ≠ .boot ∨ s.domOn 183 = false ∨ s.mgmt.selfTested = true)) ∧
    (∃ (s : State), s.fmn.state = .wipe ∧
      (∀ m : Fin 16, s.phaseOf m.val = 4) ∧
      (∀ p : Fin 12, s.domOn (166 + p.val) = false ∨ s.link p.val ≠ 1) ∧
      s.ethLink = 2) ∧
    (∃ (s : State), (s.fmn.state ≠ .wipe ∨ (∃ m : Fin 16, s.phaseOf m.val ≠ 4) ∨ (∃ p : Fin 12, s.domOn (166 + p.val) = true ∧ s.link p.val = 1) ∨ s.ethLink ≠ 2)) ∧
    (∃ (s : State), s.mgmt.handover = .waiting ∧
      s.spv.mbox = none) ∧
    (∃ (s : State), (s.mgmt.handover ≠ .waiting ∨ s.spv.mbox ≠ none)) ∧
    (∃ (us : Nat) (s x : State) (img : Bytes), img = s.image (s.fwActive % 2) ∧
      x = (s.pauseEnds us stOK 8).lifeAdd 4 1 ∧
      s.mgmt.handover = .paused) ∧
    (∃ (s : State), s.mgmt.handover = .paused) ∧
    (∃ (s : State), s.mgmt.handover ≠ .paused) ∧
    (∃ (s : State), s.mgmt.handover ≠ .paused ∧
      s.domOn 183 = true) ∧
    (∃ (s : State), (s.mgmt.handover = .paused ∨ s.domOn 183 = false)) :=
  ⟨⟨(onIn .cold), by decide +kernel⟩,
   ⟨(onIn .boot), by decide +kernel⟩,
   ⟨onAll, by decide +kernel⟩,
   ⟨{ onAll with power := { onAll.power with good := false } }, by decide +kernel⟩,
   ⟨(onIn .idle), by decide +kernel⟩,
   ⟨State.reset, by decide +kernel⟩,
   ⟨{ onIn .boot with sel := { onAll.sel with booted := false, recs := [], fuses := keyless } }, by decide +kernel⟩,
   ⟨0, { onIn .boot with sel := { onAll.sel with booted := false, recs := [], fuses := { keyless with lc := 0 } } }, _, rfl, by decide +kernel⟩,
   ⟨0, 0, { onIn .boot with sel := { onAll.sel with booted := false, recs := [(0, factoryRecord)], fuses := keyless } }, _, factoryRecord, rfl, by decide +kernel⟩,
   ⟨{ State.reset with sel := { State.reset.sel with phase := 3 } }, _, rfl, by decide +kernel⟩,
   ⟨{ State.reset with sel := { State.reset.sel with phase := 3 } }, by decide +kernel⟩,
   ⟨onAll, by decide +kernel⟩,
   ⟨[], (onIn .boot), _, _, rfl, rfl, by decide +kernel⟩,
   ⟨(onIn .idle), by decide +kernel⟩,
   ⟨((List.range 16).foldl (fun (x : State) m => x.setField (pgMEM m) 0x00C 0 4 4) ((onIn .wipe).setField pgETH 0x00C 28 4 2)), by decide +kernel⟩,
   ⟨onAll, by decide +kernel⟩,
   ⟨{ onAll with mgmt := { Mgmt.reset with handover := .waiting } }, by decide +kernel⟩,
   ⟨onAll, by decide +kernel⟩,
   ⟨9, { onAll with mgmt := { Mgmt.reset with handover := .paused } }, _, _, rfl, rfl, by decide +kernel⟩,
   ⟨{ onAll with mgmt := { Mgmt.reset with handover := .paused } }, by decide +kernel⟩,
   ⟨onAll, by decide +kernel⟩,
   ⟨onAll, by decide +kernel⟩,
   ⟨State.reset, by decide +kernel⟩⟩

/-- What the clauses of PowerAndHeat assume can be met. -/
theorem meets_PowerAndHeat :
    (∃ (s x : State), x = s.latchErr pgPWR 5 4 0 s.pwrHi ∧
      s.fmn.state ≠ .cold ∧
      s.power.tripped = false) ∧
    (∃ (s : State), s.fmn.state ≠ .cold ∧
      s.power.tripped = true) ∧
    (∃ (s : State), s.fmn.state = .cold) ∧
    (∃ (d : Nat), d ∈ tripDomains) ∧
    (∃ (d : Fin 186) (s : State), s.domStatus d.val = 2 ∧
      d.val < 136) ∧
    (∃ (d : Fin 186) (s : State), s.domStatus d.val = 2 ∧
      136 ≤ d.val) ∧
    (∃ (d : Fin 186) (s : State), s.domStatus d.val ≠ 2) ∧
    (∃ (d : Fin 186), 136 ≤ d.val) ∧
    (∃ (d : Fin 186) (s x : State), x = (s.setDom d.val 3).latchErr pgPWR 4 1 d.val s.pwrHi ∧
      d.val < 136 ∧
      (x.tile d.val).role = .enabled) ∧
    (∃ (d : Fin 186) (s x y : State) (p : Nat), x = (s.setDom d.val 3).latchErr pgPWR 4 1 d.val s.pwrHi ∧
      y = (x.retireSpare d.val).setDom d.val 3 ∧
      d.val < 136 ∧
      (x.tile d.val).role = .spare ∧
      (List.range 136).find? (fun p => tileFolio p == tileFolio d.val && (y.tile p).role == .enabled && (y.tile p).retire) = some p) ∧
    (∃ (d : Fin 186) (s x y : State), x = (s.setDom d.val 3).latchErr pgPWR 4 1 d.val s.pwrHi ∧
      y = (x.retireSpare d.val).setDom d.val 3 ∧
      d.val < 136 ∧
      (x.tile d.val).role = .spare ∧
      (List.range 136).find? (fun p => tileFolio p == tileFolio d.val && (y.tile p).role == .enabled && (y.tile p).retire) = none) ∧
    (∃ (d : Fin 186) (s x : State), x = (s.setDom d.val 3).latchErr pgPWR 4 1 d.val s.pwrHi ∧
      d.val < 136 ∧
      (x.tile d.val).role ≠ .enabled ∧
      (x.tile d.val).role ≠ .spare) ∧
    (∃ (t : Fin 136) (s : State) (k : Nat), (s.tile t.val).role = .enabled ∧
      s.domOn t.val = true ∧
      k = min 7 (kvGet s.power.force (s.tile t.val).logical 0 + s.throttle (tileFolio t.val))) ∧
    (∃ (t : Fin 136) (s : State), ((s.tile t.val).role ≠ .enabled ∨ s.domOn t.val = false)) ∧
    (∃ (f : Fin 2) (temps : List (Fin 56 × Nat)) (w : Nat) (cap hot : Bool) (s x y z : State), x = { s.sense temps with power := { (s.sense temps).power with watts := w } } ∧
      hot = (bitOf (x.regN pgPWR 0x008) 0 && (folioSensors f.val).any (fun i => decide (x.tThrottle ≤ x.temp i))) ∧
      cap = (bitOf (x.regN pgPWR 0x008) 1 && decide (x.regN pgPWR 0x044 ≤ w)) ∧
      y = { x with power := { x.power with level := kvSet x.power.level f.val (x.throttle f.val + 1) } } ∧
      z = (if cap then (y.bump pgPWR 0x06C 1).latch pgPWR 1 else y) ∧
      (hot || cap || x.memTemp f.val) = true ∧
      x.throttle f.val < 7) ∧
    (∃ (f : Fin 2) (temps : List (Fin 56 × Nat)) (w : Nat) (s x : State), x = { s.sense temps with power := { (s.sense temps).power with watts := w } } ∧
      bitOf (x.regN pgPWR 0x008) 0 = true ∧
      bitOf (x.regN pgPWR 0x008) 1 = false ∧
      (∃ i ∈ folioSensors f.val, x.tThrottle ≤ x.temp i) ∧
      1 ≤ x.throttle f.val ∧
      x.throttle f.val < 7) ∧
    (∃ (f : Fin 2) (temps : List (Fin 56 × Nat)) (w : Nat) (s x : State), x = { s.sense temps with power := { (s.sense temps).power with watts := w } } ∧
      (7 ≤ x.throttle f.val ∨ ((bitOf (x.regN pgPWR 0x008) 0 = false ∨ ∀ i ∈ folioSensors f.val, x.temp i < x.tThrottle) ∧ (bitOf (x.regN pgPWR 0x008) 1 = false ∨ w < x.regN pgPWR 0x044) ∧ x.memTemp f.val = false))) ∧
    (∃ (f : Fin 2) (temps : List (Fin 56 × Nat)) (w : Nat) (s x : State), x = { s.sense temps with power := { (s.sense temps).power with watts := w } } ∧
      (∀ i ∈ folioSensors f.val, x.temp i + 40 ≤ x.tThrottle) ∧
      w + 50 ≤ x.regN pgPWR 0x044 ∧
      x.memTemp f.val = false ∧
      0 < x.throttle f.val) ∧
    (∃ (f : Fin 2) (temps : List (Fin 56 × Nat)) (w : Nat) (s x : State), x = { s.sense temps with power := { (s.sense temps).power with watts := w } } ∧
      ((∃ i ∈ folioSensors f.val, x.tThrottle < x.temp i + 40) ∨ x.regN pgPWR 0x044 < w + 50 ∨ x.memTemp f.val = true ∨ x.throttle f.val = 0)) ∧
    (∃ (i : Fin 56) (temp : Nat) (s x : State), x = s.sense [(i, temp)] ∧
      920 ≤ x.temp i.val ∧
      x.power.tripped = false) ∧
    (∃ (i : Fin 56) (temp : Nat) (s x : State), x = s.sense [(i, temp)] ∧
      (x.temp i.val < 920 ∨ x.power.tripped = true)) ∧
    (∃ (f : Fin 2) (o : Option Nat) (s : State), o = (folioSensors f.val).find? (fun i => decide (840 ≤ s.temp i)) ∧
      s.throttle f.val = 7 ∧
      (o ≠ none ∨ s.memTemp f.val = true) ∧
      s.power.tripped = false) ∧
    (∃ (f : Fin 2) (s : State), (s.throttle f.val ≠ 7 ∨ ((∀ i ∈ folioSensors f.val, s.temp i < 840) ∧ s.memTemp f.val = false) ∨ s.power.tripped = true)) ∧
    (∃ (s : State), s.fmn.state ≠ .cold) ∧
    (∃ (s : State), s.fmn.state = .service) ∧
    (∃ (i : Fin 8) (s : State), s.fmn.state = .service ∧
      s.domStatus (136 + i.val) = 0) ∧
    (∃ (s : State), s.fmn.state = .service) ∧
    (∃ (page : Fin 512) (r : Bool) (b : Blk) (i : Nat) (s : State), pageBlk page.val = some (b, i) ∧
      pwrSw b i = true ∧
      (s.fmn.state = .idle ∨ s.fmn.state = .service ∨ (r = true ∧ s.fmn.state ≠ .stepping))) ∧
    (∃ (page : Fin 512) (b : Blk) (i : Nat) (s : State), pageBlk page.val = some (b, i) ∧
      pwrSw b i = true ∧
      s.fmn.state ≠ .idle ∧
      s.fmn.state ≠ .service) ∧
    (∃ (page : Fin 512) (b : Blk) (i : Nat), pageBlk page.val = some (b, i) ∧
      pwrSw b i = false) ∧
    (∃ (page : Fin 512) (b : Blk) (i : Nat) (s : State), pageBlk page.val = some (b, i) ∧
      pwrSw b i = true ∧
      s.fmn.state = .stepping) ∧
    (∃ (page : Fin 512), pageBlk page.val = none) :=
  ⟨⟨onAll, _, rfl, by decide +kernel⟩,
   ⟨{ onIn .idle with power := { onAll.power with tripped := true } }, by decide +kernel⟩,
   ⟨(onIn .cold), by decide +kernel⟩,
   ⟨0, by decide +kernel⟩,
   ⟨135, (onAll.setDom 135 2), by decide +kernel⟩,
   ⟨136, (onAll.setDom 136 2), by decide +kernel⟩,
   ⟨0, onAll, by decide +kernel⟩,
   ⟨136, by decide +kernel⟩,
   ⟨0, onAll, _, rfl, by decide +kernel⟩,
   ⟨0, { onAll with tiles := [(0, { onAll.tile 0 with role := .spare }), (1, { onAll.tile 1 with role := .enabled, retire := true })] }, _, _, 1, rfl, rfl, by decide +kernel⟩,
   ⟨0, { onAll with tiles := [(0, { onAll.tile 0 with role := .spare })] }, _, _, rfl, rfl, by decide +kernel⟩,
   ⟨0, { onAll with tiles := [(0, { onAll.tile 0 with role := .retired })] }, _, rfl, by decide +kernel⟩,
   ⟨0, onAll, 0, by decide +kernel⟩,
   ⟨0, State.reset, by decide +kernel⟩,
   ⟨0, [(0, 700)], 0, _, _, ((State.setN onAll pgPWR 0x008 1).setN pgPWR 0x040 700), _, _, _, rfl, rfl, rfl, rfl, rfl, by decide +kernel⟩,
   ⟨0, [(0, 700)], 0, (State.setN { onAll with power := { onAll.power with level := [(0, 1)] } } pgPWR 0x008 1 |>.setN pgPWR 0x040 700), _, rfl, by decide +kernel⟩,
   ⟨0, [], 0, onAll, _, rfl, by decide +kernel⟩,
   ⟨1, [], 0, ((State.setN { onAll with power := { onAll.power with level := [(1, 1)] } } pgPWR 0x040 700).setN pgPWR 0x044 50), _, rfl, by decide +kernel⟩,
   ⟨0, [], 0, onAll, _, rfl, by decide +kernel⟩,
   ⟨0, 920, onAll, _, rfl, by decide +kernel⟩,
   ⟨0, 0, onAll, _, rfl, by decide +kernel⟩,
   ⟨0, _, { onAll with power := { onAll.power with level := [(0, 7)], sensors := [(3, 840)] } }, rfl, by decide +kernel⟩,
   ⟨0, onAll, by decide +kernel⟩,
   ⟨(onIn .idle), by decide +kernel⟩,
   ⟨(onIn .service), by decide +kernel⟩,
   ⟨0, (State.setDom (onIn .service) 136 0), by decide +kernel⟩,
   ⟨(onIn .service), by decide +kernel⟩,
   ⟨(Fin.ofNat 512 (pgPPT 0)), false, .ppt, 0, (onIn .service), by decide +kernel⟩,
   ⟨(Fin.ofNat 512 (pgPPT 0)), .ppt, 0, (onIn .joined), by decide +kernel⟩,
   ⟨(Fin.ofNat 512 (pgFMN)), .fmn, 0, by decide +kernel⟩,
   ⟨(Fin.ofNat 512 (pgPPT 0)), .ppt, 0, (onIn .stepping), by decide +kernel⟩,
   ⟨511, by decide +kernel⟩⟩

/-- What TripAndStrapsHeld assumes can be met. -/
theorem meets_TripAndStrapsHeld :
    ∃ (c : Instr) (s t : State), exec c s = .next t :=
  ⟨(.resetPin), onAll, _, rfl⟩

/-- What the clauses of TimeAndTap assume can be met. -/
theorem meets_TimeAndTap :
    (∃ (s : State) (f : Int), f = s.dateline.frac + 1000000000 + sext 32 (s.regN pgDTL 0x050) ∧
      s.fmn.state ≠ .cold) ∧
    (∃ (s : State), s.fmn.state = .cold) ∧
    (∃ (s : State), s.fmn.state ≠ .cold ∧
      s.dateline.arm = none ∧
      s.mode ≠ 4) ∧
    (∃ (s x : State), x = (s.set64 pgDTL 0x048 (wrapN 64 ((s.reg64 pgDTL 0x040 : Int) - (s.regN pgDTL 0x058 % 65536 : Nat)))).bump pgDTL 0x064 1 ∧
      s.fmn.state ≠ .cold ∧
      s.dateline.arm = none ∧
      s.mode = 4) ∧
    (∃ (s x : State) (a : Arm), x = (s.set64 pgDTL 0x048 (wrapN 64 ((s.reg64 pgDTL 0x040 : Int) - (s.regN pgDTL 0x058 % 65536 : Nat)))).bump pgDTL 0x064 1 ∧
      s.fmn.state ≠ .cold ∧
      s.dateline.arm = some a ∧
      a.pps = true ∧
      a.ptp = false) ∧
    (∃ (s x : State) (a : Arm) (m t : Int), x = (s.set64 pgDTL 0x048 (wrapN 64 ((s.reg64 pgDTL 0x040 : Int) - (s.regN pgDTL 0x058 % 65536 : Nat)))).bump pgDTL 0x064 1 ∧
      t = nearestSecond ((s.reg64 pgDTL 0x040 : Int) - (s.regN pgDTL 0x058 % 65536 : Nat) + m) ∧
      s.fmn.state ≠ .cold ∧
      s.dateline.arm = some a ∧
      a.pps = true ∧
      a.ptp = true ∧
      s.dateline.master = some m) ∧
    (∃ (s : State) (a : Arm), s.fmn.state ≠ .cold ∧
      s.dateline.arm = some a ∧
      (a.pps = false ∨ (a.ptp = true ∧ s.dateline.master = none))) ∧
    (∃ (mean e : Int) (n : Nat) (s x y : State), e = s.servoOffset mean ∧
      (n = (if 1000000 < e ∨ e < -1000000 then s.dateline.late + 1 else 0)) ∧
      x = ({ s with dateline := { s.dateline with late := n } } : State).setN pgDTL 0x054 (wrapN 32 (clampI e (-2 ^ 31) (2 ^ 31 - 1))) ∧
      y = (if n = 4 then x.latch pgDTL 4 else x) ∧
      (s.mode = 2 ∨ s.mode = 3)) ∧
    (∃ (s : State), s.mode = 3) ∧
    (∃ (s : State), s.mode ≠ 2 ∧
      s.mode ≠ 3) ∧
    (∃ (s : State), (s.mode = 2 ∨ s.mode = 3) ∧
      s.field pgDTL 0x00C 26 1 = 1) ∧
    (∃ (s : State), ((s.mode ≠ 2 ∧ s.mode ≠ 3) ∨ s.field pgDTL 0x00C 26 1 ≠ 1)) ∧
    (∃ (s : State), (s.lifeCycle = 2 ∨ s.lifeCycle = 3)) ∧
    (∃ (c : Fin 6) (s : State), s.lifeCycle ≠ 2 ∧
      s.lifeCycle ≠ 3 ∧
      (c.val ≠ 5 ∨ s.lifeCycle ≠ 0)) ∧
    (∃ (s : State), s.lifeCycle = 0) ∧
    (∃ (q : Fin 64) (c : Cmd) (s x : State), mails s q.val 0x75 c ∧
      x = s.mailed q.val c ∧
      1 ≤ leAt c.body 0 1 ∧
      leAt c.body 0 1 < 4) ∧
    (∃ (q : Fin 64) (c : Cmd) (s x : State), mails s q.val 0x75 c ∧
      x = s.mailed q.val c ∧
      leAt c.body 0 1 = 0) ∧
    (∃ (q : Fin 64) (c : Cmd) (s x : State), mails s q.val 0x75 c ∧
      x = s.mailed q.val c ∧
      4 ≤ leAt c.body 0 1) ∧
    (∃ (s : State) (a : Arm), s.dateline.arm = some a ∧
      a.ptp = true ∧
      a.pps = false) ∧
    (∃ (s : State), s.dateline.arm = none ∧
      s.mode = 4 ∧
      s.field pgDTL 0x00C 26 1 = 1 ∧
      s.field pgDTL 0x00C 27 1 = 0) ∧
    (∃ (s : State), ((∃ a, s.dateline.arm = some a ∧ (a.ptp = false ∨ a.pps = true)) ∨ (s.dateline.arm = none ∧ (s.mode ≠ 4 ∨ s.field pgDTL 0x00C 26 1 ≠ 1 ∨ s.field pgDTL 0x00C 27 1 ≠ 0)))) :=
  ⟨⟨onAll, _, rfl, by decide +kernel⟩,
   ⟨(onIn .cold), by decide +kernel⟩,
   ⟨onAll, by decide +kernel⟩,
   ⟨((onIn .idle).setField pgDTL 0x00C 28 4 4), _, rfl, by decide +kernel⟩,
   ⟨{ onAll with dateline := { Dateline.reset with arm := some { pps := true, ptp := false, seconds := 100 } } }, _, { pps := true, ptp := false, seconds := 100 }, rfl, by decide +kernel⟩,
   ⟨{ onIn .idle with dateline := { Dateline.reset with arm := some { pps := true, ptp := true, seconds := 100 }, master := some 5 } }, _, { pps := true, ptp := true, seconds := 100 }, 5, _, rfl, rfl, by decide +kernel⟩,
   ⟨{ onIn .idle with dateline := { Dateline.reset with arm := some { pps := false, ptp := true, seconds := 100 }, master := none } }, { pps := false, ptp := true, seconds := 100 }, by decide +kernel⟩,
   ⟨0, _, _, ((onIn .idle).setField pgDTL 0x00C 28 4 3), _, _, rfl, rfl, rfl, rfl, by decide +kernel⟩,
   ⟨((onIn .idle).setField pgDTL 0x00C 28 4 3), by decide +kernel⟩,
   ⟨((onIn .idle).setField pgDTL 0x00C 28 4 4), by decide +kernel⟩,
   ⟨(((onIn .idle).setField pgDTL 0x00C 28 4 3).setField pgDTL 0x00C 26 1 1), by decide +kernel⟩,
   ⟨((onIn .idle).setField pgDTL 0x00C 28 4 4), by decide +kernel⟩,
   ⟨{ onAll with sel := { onAll.sel with fuses := { onAll.sel.fuses with lc := 3 } } }, by decide +kernel⟩,
   ⟨0, { onAll with sel := { onAll.sel with fuses := { onAll.sel.fuses with lc := 0 } } }, by decide +kernel⟩,
   ⟨{ onAll with sel := { onAll.sel with fuses := { onAll.sel.fuses with lc := 0 } } }, by decide +kernel⟩,
   ⟨0, (cmd 0x75 (toLE 1 3 ++ toLE 7 0 ++ toLE 8 100)), (cmdAt .idle 0x75 (toLE 1 3 ++ toLE 7 0 ++ toLE 8 100) id), _, (mails_of (by decide +kernel)), rfl, by decide +kernel⟩,
   ⟨0, (cmd 0x75 (toLE 1 0 ++ toLE 7 0 ++ toLE 8 100)), (cmdAt .idle 0x75 (toLE 1 0 ++ toLE 7 0 ++ toLE 8 100) id), _, (mails_of (by decide +kernel)), rfl, by decide +kernel⟩,
   ⟨0, (cmd 0x75 (toLE 1 4 ++ toLE 7 0 ++ toLE 8 100)), (cmdAt .idle 0x75 (toLE 1 4 ++ toLE 7 0 ++ toLE 8 100) id), _, (mails_of (by decide +kernel)), rfl, by decide +kernel⟩,
   ⟨{ onAll with dateline := { Dateline.reset with arm := some { pps := false, ptp := true, seconds := 100 } } }, { pps := false, ptp := true, seconds := 100 }, by decide +kernel⟩,
   ⟨(((onAll.setField pgDTL 0x00C 28 4 4).setField pgDTL 0x00C 26 1 1).setField pgDTL 0x00C 27 1 0), by decide +kernel⟩,
   ⟨{ onIn .idle with dateline := { Dateline.reset with arm := some { pps := true, ptp := false, seconds := 100 }, master := none } }, by decide +kernel⟩⟩

/-- What ClosedAccessKept assumes can be met. -/
theorem meets_ClosedAccessKept :
    ∃ (s t : State), tapSafe s ∧
      step s = .next t :=
  ⟨onAll, _, (fun _ => Or.inr rfl), rfl⟩


/-- Fuses with the hash of the all-zero keys in slot 0. -/
def keyed : Fuses := { keyless with eHash := [(0, Config.sha384 (List.replicate 97 0))], lHash := [(0, Config.sha384 (List.replicate 56 0))] }

/-- `fwImg 0` as DRAM gives it back. -/
def fwRead : Bytes := (holds 0 (fwImg 0) onAll).dram.read 0 6400

/-- What the uninterpreted functions must answer for the module to accept `fwRead` (log entry 8). -/
def accepts : Prop :=
  allZero (Config.sha384 (List.replicate 97 0)) = false ∧ allZero (Config.sha384 (List.replicate 56 0)) = false
  ∧ Config.ecdsaVerify (List.replicate 97 0) (fwMeas fwRead) (List.replicate 96 0) = true ∧ Config.lmsVerify (List.replicate 56 0) (fwMeas fwRead) (List.replicate 1772 0) = true

theorem accepted (h : accepts) : keyed.fwCheck fwRead = 0 := by
  obtain ⟨h0, h1, h2, h3⟩ := h
  have e0 : fwFormat fwRead = true := by decide +kernel
  have e1 : leAt fwRead 0xC 4 = 4096 := by decide +kernel
  have e2 : sliceB fwRead 4352 97 = List.replicate 97 0 := by decide +kernel
  have e3 : sliceB fwRead 4548 56 = List.replicate 56 0 := by decide +kernel
  have e4 : sliceB fwRead 4452 96 = List.replicate 96 0 := by decide +kernel
  have e5 : sliceB fwRead 4604 1772 = List.replicate 1772 0 := by decide +kernel
  have e6 : leAt fwRead 8 1 = 0 ∧ leAt fwRead 9 1 = 0 ∧ leAt fwRead 0xA 1 = 0 := by decide +kernel
  have k0 : keyMatches keyed.eHash 0 (List.replicate 97 0) = true := by
    show (!allZero (Config.sha384 (List.replicate 97 0)) && Config.sha384 (List.replicate 97 0) == Config.sha384 (List.replicate 97 0)) = true
    rw [h0, beq_self_eq_true]; rfl
  have k1 : keyMatches keyed.lHash 0 (List.replicate 56 0) = true := by
    show (!allZero (Config.sha384 (List.replicate 56 0)) && Config.sha384 (List.replicate 56 0) == Config.sha384 (List.replicate 56 0)) = true
    rw [h1, beq_self_eq_true]; rfl
  have e7 : leAt fwRead 7 1 = 0 := by decide +kernel
  generalize fwRead = img at *
  simp only [Fuses.fwCheck, e0, e1, e2, e3, e4, e5, e6.1, e6.2.1, e6.2.2, e7, k0, k1, h2, h3]
  rfl

/-- Such a module, with the image in both firmware slots, and staged. -/
def signed (s : State) : State :=
  { s with sel := { s.sel with ldgPhase := 1, fuses := keyed, images := [(0, fwRead), (1, fwRead)], cur := { s.sel.cur with data := s.sel.cur.data.write 0x51 [1] } } }

theorem sealCall_sel (s : State) : s.sealCall.sel = s.sel := rfl

theorem seen_sel (s : State) (a n : Nat) : (s.dramSeen a n).sealCall.sel = s.sel :=
  have e : s.dramSeen a n = { s with dram := (s.dramSeen a n).dram, mem := { s.mem with chans := (s.dramSeen a n).mem.chans } } := s.dramLoad_lines a n
  by rw [sealCall_sel, e]

/-- firmware.stage of the image. -/
def stageCmd : Cmd := cmd 0x70 (toLE 8 0 ++ toLE 4 6400 ++ toLE 4 0)

/-- It waits. -/
def staging : State := cmdAt .idle 0x70 stageCmd.body (fun s => holds 0 (fwImg 0) (signed s))

theorem stages : mails staging (0 : Fin 64).val 0x70 stageCmd ∧ (staging.mailed (0 : Fin 64).val stageCmd).extentOk (leAt stageCmd.body 0 8) (leAt stageCmd.body 8 4) = true
    ∧ leAt stageCmd.body 8 4 = 256 + leAt ((staging.mailed (0 : Fin 64).val stageCmd).dram.read (leAt stageCmd.body 0 8) (leAt stageCmd.body 8 4)) 0xC 4 + 2048 :=
  ⟨mails_of (by decide +kernel), by decide +kernel⟩

theorem staged_ok (h : accepts) : ((staging.mailed (0 : Fin 64).val stageCmd).dramSeen (leAt stageCmd.body 0 8) (leAt stageCmd.body 8 4)).sealCall.sel.fuses.fwCheck
    ((staging.mailed (0 : Fin 64).val stageCmd).dram.read (leAt stageCmd.body 0 8) (leAt stageCmd.body 8 4)) = 0 := by
  rw [seen_sel]
  have e : (staging.mailed (0 : Fin 64).val stageCmd).dram.read (leAt stageCmd.body 0 8) (leAt stageCmd.body 8 4) = fwRead := rfl
  exact (congrArg keyed.fwCheck e).trans (accepted h)

/-- FIRMWARE_STAGE and FIRMWARE_ACTIVATE of an accepted image: what these clauses of SealCommands assume can be met if an image can be accepted at all. -/
theorem meets_accepted_image (h : accepts) :
    (∃ (q : Fin 64) (slot : Nat) (c : Cmd) (s x y z : State) (img : Bytes), mails s q.val 0x70 c ∧ x = s.mailed q.val c ∧ img = x.dram.read (leAt c.body 0 8) (leAt c.body 8 4) ∧
      x.extentOk (leAt c.body 0 8) (leAt c.body 8 4) = true ∧ leAt c.body 8 4 = 256 + leAt img 0xC 4 + 2048 ∧
      y = (x.dramSeen (leAt c.body 0 8) (leAt c.body 8 4)).sealCall ∧ slot = 1 - y.fwActive % 2 ∧ y.sel.fuses.fwCheck img = 0 ∧
      z = ({ y with freeCtr := y.freeCtr + 1 } : State).setSel (fun k => { k with images := kvSet k.images slot (Config.flashContent y.freeCtr) })) ∧
    (∃ (q : Fin 64) (fails slot : Nat) (ok : Bool) (c : Cmd) (s x y z : State) (img : Bytes), mails s q.val 0x70 c ∧ x = s.mailed q.val c ∧
      img = x.dram.read (leAt c.body 0 8) (leAt c.body 8 4) ∧ x.extentOk (leAt c.body 0 8) (leAt c.body 8 4) = true ∧ leAt c.body 8 4 = 256 + leAt img 0xC 4 + 2048 ∧
      y = (x.dramSeen (leAt c.body 0 8) (leAt c.body 8 4)).sealCall ∧ slot = 1 - y.fwActive % 2 ∧ y.sel.fuses.fwCheck img = 0 ∧
      (y.setSel (fun k => { k with images := kvSet k.images slot img })).ledgerPut 1 fails (setStaged slot) id = (z, ok)) ∧
    (∃ (q : Fin 64) (fails : Nat) (ok : Bool) (c : Cmd) (s x y : State), mails s q.val 0x71 c ∧ x = s.mailed q.val c ∧ x.fwStaged ≠ 0xFF ∧
      x.sealCall.sel.fuses.fwCheck (x.sealCall.image x.fwStaged) = 0 ∧ x.sealCall.ledgerPut 1 fails (fun m => setStaged 0xFF (setActive x.fwStaged m)) id = (y, ok)) :=
  ⟨⟨0, _, stageCmd, staging, _, _, _, _, stages.1, rfl, rfl, stages.2.1, stages.2.2, rfl, rfl, staged_ok h, rfl⟩,
   ⟨0, 0, _, _, stageCmd, staging, _, _, _, _, stages.1, rfl, rfl, stages.2.1, stages.2.2, rfl, rfl, staged_ok h, (Prod.eta _).symm⟩,
   ⟨0, 0, _, cmd 0x71 [], cmdAt .idle 0x71 [] signed, _, _, mails_of (by decide +kernel), rfl, by decide +kernel, accepted h, (Prod.eta _).symm⟩⟩

/-- lifecycle.set to RMA with the all-zero keys and signatures, in a FIELD that entered RMA three times. -/
def spent : State :=
  cmdAt .idle 0x73 (toLE 4 4 ++ List.replicate 2072 0) (fun s => { s with sel := { s.sel with ldgPhase := 1, fuses := { keyed with lc := 511 } } })

/-- Its command. -/
def rmaCmd : Cmd := cmd 0x73 (toLE 4 4 ++ List.replicate 2072 0)

theorem key_in_slot {m : AMap Bytes} {key : Bytes} (h : kvGet m 0 [] = Config.sha384 key) (n : allZero (Config.sha384 key) = false) : keyListed m 0 key = true :=
  List.any_eq_true.mpr ⟨0, by decide, by
    show (!allZero (kvGet m 0 []) && Config.sha384 key == kvGet m 0 [] && !bitOf 0 0) = true
    rw [h, n, beq_self_eq_true]; rfl⟩

theorem token_ok {s : State} {b e l d g r : Bytes} (h : sliceB b 0x34 97 = e ∧ sliceB b 0xF8 56 = l ∧ sliceB b 0x98 96 = g ∧ sliceB b 0x130 1772 = r) (t : s.tokenDigest (leAt b 0 1) (sliceB b 4 48) = d)
    (ke : keyListed s.sel.fuses.eHash s.sel.fuses.eRevoke e = true) (kl : keyListed s.sel.fuses.lHash s.sel.fuses.lRevoke l = true)
    (ve : Config.ecdsaVerify e d g = true) (vl : Config.lmsVerify l d r = true) : s.tokenOk b = true := by
  show (keyListed s.sel.fuses.eHash s.sel.fuses.eRevoke (sliceB b 0x34 97) && keyListed s.sel.fuses.lHash s.sel.fuses.lRevoke (sliceB b 0xF8 56)
    && Config.ecdsaVerify (sliceB b 0x34 97) (s.tokenDigest (leAt b 0 1) (sliceB b 4 48)) (sliceB b 0x98 96)
    && Config.lmsVerify (sliceB b 0xF8 56) (s.tokenDigest (leAt b 0 1) (sliceB b 4 48)) (sliceB b 0x130 1772)) = true
  rw [h.1, h.2.1, h.2.2.1, h.2.2.2, t, ke, kl, ve, vl]
  rfl

/-- LIFECYCLE_SET past the third RMA: what that clause of SealCommands assumes can be met if a token can be valid. -/
theorem meets_spent_token (h0 : allZero (Config.sha384 (List.replicate 97 0)) = false) (h1 : allZero (Config.sha384 (List.replicate 56 0)) = false)
    (h2 : Config.ecdsaVerify (List.replicate 97 0) ((spent.mailed (0 : Fin 64).val rmaCmd).sealCall.tokenDigest (leAt rmaCmd.body 0 1) (sliceB rmaCmd.body 4 48)) (List.replicate 96 0) = true)
    (h3 : Config.lmsVerify (List.replicate 56 0) ((spent.mailed (0 : Fin 64).val rmaCmd).sealCall.tokenDigest (leAt rmaCmd.body 0 1) (sliceB rmaCmd.body 4 48)) (List.replicate 1772 0) = true) :
    ∃ (q : Fin 64) (c : Cmd) (s x : State), mails s q.val 0x73 c ∧ x = s.mailed q.val c ∧ lcAllowed x.sealCall.lifeCycle 4 = true ∧ leAt c.body 0 1 = 4 ∧
      x.sealCall.tokenOk c.body = true ∧ rmaLeft x.sealCall.sel.fuses.lc = 0 :=
  ⟨0, rmaCmd, spent, _, mails_of (by decide +kernel), rfl, by decide +kernel, by decide +kernel,
    token_ok (by decide +kernel) rfl (key_in_slot rfl h0) (key_in_slot rfl h1) h2 h3, by decide +kernel⟩

/-- Operator key slot 0 lists the hash of 48 bytes 1; queue 0 holds session.auth with the all-zero key and signature. -/
def operated : State :=
  cmdAt .joined 2 (List.replicate 196 0) (fun s => { s with sel := { s.sel with cur := { s.sel.cur with data := s.sel.cur.data.write 0x940 (List.replicate 48 1) } } })

theorem key_listed {x : State} {key hash : Bytes} (h0 : Config.sha384 key = hash) (h1 : x.config 0x40 48 = hash) (h2 : allZero hash = false) : x.keySlotOf key = some 0 := by
  unfold State.keySlotOf
  rw [show List.range 4 = [0, 1, 2, 3] from rfl, List.find?_cons_of_pos]
  show (!allZero (x.config 0x40 48) && x.config 0x40 48 == Config.sha384 key) = true
  rw [h0, h1, h2, beq_self_eq_true]; rfl

theorem key_bytes : sliceB (List.replicate 196 (0 : Byte)) 0 97 = List.replicate 97 0 ∧ sliceB (List.replicate 196 (0 : Byte)) 100 96 = List.replicate 96 0 := by decide +kernel

/-- SESSION_AUTH of a listed key: what that clause assumes can be met if the key has the listed hash and the signature holds. -/
theorem meets_listed_key (h0 : Config.sha384 (List.replicate 97 0) = List.replicate 48 1)
    (h1 : Config.ecdsaVerify (List.replicate 97 0) ((operated.started 0 (cmd 2 (List.replicate 196 0))).authDigest 0) (List.replicate 96 0) = true) :
    ∃ (q : Fin 64) (c : Cmd) (s x : State) (i : Nat), starts s q.val 2 c ∧ x = s.started q.val c ∧ x.keySlotOf (sliceB c.body 0 97) = some i ∧ (x.queue q.val).session = true ∧
      Config.ecdsaVerify (sliceB c.body 0 97) (x.authDigest q.val) (sliceB c.body 100 96) = true := by
  refine ⟨0, cmd 2 (List.replicate 196 0), operated, _, 0, starts_of (by decide +kernel), rfl, ?_, by decide +kernel, ?_⟩
  · exact (congrArg (State.keySlotOf _) key_bytes.1).trans (key_listed h0 (by decide +kernel) (by decide +kernel))
  · have e : (cmd 2 (List.replicate 196 0)).body = List.replicate 196 0 := rfl
    rw [e, key_bytes.1, key_bytes.2]
    exact h1

end Sys2Proof.Tests
end

section
/-! PROOFS. Reads of registers with their captures (R17): what one read answers and captures, and that the upper half answered after a read of the lower one is the captured one. -/

namespace Sys2Proof.Machine

/-- A captured value is answered whatever the register shows now, and is given up (R17). -/
theorem State.regRead_of_captured (s : State) (p o : Nat) (w : Word) (h : kvFind s.captured (regKey p o) = some w) :
    s.regRead p o = (w.toNat, { s with captured := kvDel s.captured (regKey p o) }) := by
  simp only [State.regRead, h]

/-- Without a capture an open pair answers the low word of a free value and captures the word above it (log entry 13). -/
theorem State.regRead_of_openPair (s : State) (p o i : Nat) (b : Blk) (hb : pageBlk p = some (b, i)) (ho : s.openPair b i o = true)
    (hd : s.domOn (domainOf b i) = true) (h : kvFind s.captured (regKey p o) = none) :
    s.regRead p o = (s.fresh.1.toNat % 2 ^ 32,
      { s.fresh.2 with captured := kvSet s.captured (regKey p (o + 4)) (BitVec.ofNat 32 (s.fresh.1.toNat / 2 ^ 32)) }) := by
  simp only [State.regRead, h, hb, ho, hd, Bool.and_self, ↓reduceIte]
  rfl

section
variable (s : State) (p o i : Nat) (b : Blk) (hb : pageBlk p = some (b, i)) (ho : s.openPair b i o = false) (hh : s.openPair b i (o - 4) = false)
  (hw : s.openWord b i o = false) (h : kvFind s.captured (regKey p o) = none)
include hb ho hh hw h

/-- A register that holds no open count answers its view. -/
theorem State.regRead_fst_of_not_open : (s.regRead p o).1 = s.regView p o := by
  simp only [State.regRead, h, hb, ho, hh, hw, Bool.or_self, Bool.false_and, Bool.false_eq_true, ↓reduceIte]
  split
  · rfl
  · split <;> rfl

/-- A low half that holds no open count captures the view of its upper half (R17). -/
theorem State.regRead_captured_of_loHalf (hl : loHalf b o = true) :
    (s.regRead p o).2.captured = kvSet s.captured (regKey p (o + 4)) (BitVec.ofNat 32 (s.regView p (o + 4))) := by
  simp only [State.regRead, h, hb, ho, hh, hw, hl, Bool.or_self, Bool.false_and, Bool.false_eq_true, ↓reduceIte]

end

/-- The read that follows a capture answers the captured number and leaves no capture of its register, in every state that holds the capture. -/
theorem State.regRead_after_capture {u : State} {m : AMap Word} {p o n : Nat} (h : u.captured = kvSet m (regKey p o) (BitVec.ofNat 32 n)) :
    (u.regRead p o).1 = n % 2 ^ 32 ∧ kvFind (u.regRead p o).2.captured (regKey p o) = none := by
  have found : kvFind u.captured (regKey p o) = some (BitVec.ofNat 32 n) := by rw [h, kvFind_kvSet_self]
  rw [u.regRead_of_captured p o _ found]
  exact ⟨BitVec.toNat_ofNat n 32, by simp [kvFind_kvDel]⟩

/-- Settles O47: a read of a low half captures the upper one, as its view or as the upper word of the free value, and the next read of the upper half finds that capture. -/
theorem splitRegisterReads : Obligations.SplitRegisterReads := by
  refine ⟨fun _ _ _ => rfl, ?lowHalf, ?openPair, State.regRead_fst_of_not_open⟩
  case lowHalf =>
    intro s u p o i b hb hl _ _ ho hh hw hnone hu
    have hcap := s.regRead_captured_of_loHalf p o i b hb ho hh hw hnone hl
    exact ⟨s.regRead_fst_of_not_open p o i b hb ho hh hw hnone, State.regRead_after_capture (hu.trans hcap)⟩
  case openPair =>
    intro s p o i b hb ho hd hnone
    have hread := s.regRead_of_openPair p o i b hb ho hd hnone
    -- the free value has 512 bits, the pair shows its low 64
    refine ⟨s.fresh.1.toNat % 2 ^ 64, Nat.mod_lt _ (by decide), ?_, fun u hu => ?_⟩
    · rw [hread]
      omega
    · rw [hread] at hu
      have hhi : (u.regRead p (o + 4)).1 = s.fresh.1.toNat / 2 ^ 32 % 2 ^ 32 := (State.regRead_after_capture hu).1
      omega

end Sys2Proof.Machine
end

section
/-! PROOFS. Order of entry (R62): entering a product is merging in what it leaves in a zeroed accumulator, and merges (R86) commute. -/

namespace Sys2Proof.Machine

/-- Merging a zeroed accumulator in changes nothing. -/
@[simp] theorem Acc.merge_clear (c : Acc) : c.merge Acc.clear = c := by
  simp [Acc.merge, Acc.clear]

/-- Two merges into one accumulator commute: the exact sums add and the flags are ORs. -/
theorem Acc.merge_right_comm (c d e : Acc) : (c.merge d).merge e = (c.merge e).merge d := by
  simp only [Acc.merge, add_right_comm, Bool.or_right_comm]

/-- A product is entered as what it alone leaves in a zeroed accumulator is merged; LOSS and OVF are those of the zeroed accumulator (R60). -/
theorem Acc.enter_eq_merge (c : Acc) (a : Int) (v : FVal) :
    c.enter a v = { Acc.clear.enter a v with acc := c.merge (Acc.clear.enter a v).acc } := by
  cases v with
  | nan => simp [Acc.enter, Acc.merge, Acc.clear]
  | inf neg => cases neg <;> simp [Acc.enter, Acc.merge, Acc.clear]
  | fin neg m e =>
    by_cases zero : m = 0
    · simp [Acc.enter, zero]
    · by_cases tooLarge : a + 31 ≤ (m.log2 : Int) + e
      · cases neg <;> simp [Acc.enter, zero, tooLarge, Acc.merge, Acc.clear]
      · simp [Acc.enter, zero, tooLarge, Acc.merge, Acc.clear]

/-- The accumulator that a product leaves is the one that it met, merged with what the product alone leaves in a zeroed one. -/
theorem Acc.enter_acc (c : Acc) (a : Int) (v : FVal) : (c.enter a v).acc = c.merge (Acc.clear.enter a v).acc := by
  rw [c.enter_eq_merge]

/-- Whether a product loses bits depends on the product and the anchor alone. -/
theorem Acc.enter_loss (c : Acc) (a : Int) (v : FVal) : (c.enter a v).loss = (Acc.clear.enter a v).loss := by
  rw [c.enter_eq_merge]

/-- Whether a product overflows depends on the product and the anchor alone. -/
theorem Acc.enter_ovf (c : Acc) (a : Int) (v : FVal) : (c.enter a v).ovf = (Acc.clear.enter a v).ovf := by
  rw [c.enter_eq_merge]

/-- One entry with its counts: the accumulator, the products that lost bits and those that overflowed so far. -/
def enterCounted (a : Int) (r : Acc × Nat × Nat) (v : FVal) : Acc × Nat × Nat :=
  ((r.1.enter a v).acc, r.2.1 + b2n (r.1.enter a v).loss, r.2.2 + b2n (r.1.enter a v).ovf)

/-- The products of a list are entered by `enterCounted`, one after another. -/
theorem enterAll_eq_foldl (a : Int) (c : Acc) (l : List FVal) : enterAll a c l = l.foldl (enterCounted a) (c, 0, 0) := rfl

/-- An entry merges and counts what the product leaves in a zeroed accumulator. -/
theorem enterCounted_eq (a : Int) (r : Acc × Nat × Nat) (v : FVal) :
    enterCounted a r v =
      (r.1.merge (Acc.clear.enter a v).acc, r.2.1 + b2n (Acc.clear.enter a v).loss, r.2.2 + b2n (Acc.clear.enter a v).ovf) := by
  rw [enterCounted, Acc.enter_acc, Acc.enter_loss, Acc.enter_ovf]

/-- Two products leave the same accumulator and counts in either order. -/
theorem enterCounted_right_comm (a : Int) (r : Acc × Nat × Nat) (v w : FVal) :
    enterCounted a (enterCounted a r v) w = enterCounted a (enterCounted a r w) v := by
  simp only [enterCounted_eq, Prod.mk.injEq]
  exact ⟨Acc.merge_right_comm .., Nat.add_right_comm .., Nat.add_right_comm ..⟩

/-- Settles O10: every entry is a merge of what the product and the anchor alone decide, so two neighbours may change places, and with them any two orders of a list. -/
theorem entryOrderFree : Obligations.EntryOrderFree := by
  refine ⟨fun a c d v => ⟨?loss, ?ovf⟩, fun a c l m perm => ?order⟩
  case loss => rw [c.enter_loss, d.enter_loss]
  case ovf => rw [c.enter_ovf, d.enter_ovf]
  case order =>
    rw [enterAll_eq_foldl, enterAll_eq_foldl]
    exact perm.foldl_eq' (fun v _ w _ r => enterCounted_right_comm a r v w) (c, 0, 0)

end Sys2Proof.Machine
end

section
/-! PROOFS. The interleave of DRAM over a half's channels (R241): the maps between half offsets and channel offsets, stated per half, undo each other, because the XOR that mixes the granule number into the channel number cancels. -/

namespace Sys2Proof.Machine

/-- The XOR of R241 is its own inverse: what has the low 6 bits of `x` mixed with `a` and `b` gives back the low 6 bits of `x` when it is mixed with them again. -/
theorem xor_xor_mod_sixtyFour_cancel {x y a b : Nat} (h : y % 64 = (x ^^^ a ^^^ b) % 64) : (y ^^^ a ^^^ b) % 64 = x % 64 := by
  have cancel : x ^^^ a ^^^ b ^^^ a ^^^ b = x := by
    rw [Nat.xor_right_comm x a b, Nat.xor_xor_cancel_right, Nat.xor_xor_cancel_right]
  calc (y ^^^ a ^^^ b) % 2 ^ 6
      _ = y % 2 ^ 6 ^^^ a % 2 ^ 6 ^^^ b % 2 ^ 6 := by rw [Nat.xor_mod_two_pow, Nat.xor_mod_two_pow]
      _ = (x ^^^ a ^^^ b) % 2 ^ 6 ^^^ a % 2 ^ 6 ^^^ b % 2 ^ 6 := congrArg (· ^^^ a % 2 ^ 6 ^^^ b % 2 ^ 6) h
      _ = (x ^^^ a ^^^ b ^^^ a ^^^ b) % 2 ^ 6 := by rw [← Nat.xor_mod_two_pow, ← Nat.xor_mod_two_pow]
      _ = x % 2 ^ 6 := by rw [cancel]

/-- An offset of DRAM is an offset of one of the two halves (R26). -/
theorem exists_half_offset {off : Nat} (h : off < 2 * halfSize) : ∃ f o, f < 2 ∧ o < halfSize ∧ f * halfSize + o = off :=
  ⟨off / halfSize, off % halfSize, Nat.div_lt_of_lt_mul (Nat.mul_comm 2 _ ▸ h), Nat.mod_lt off (Nat.succ_pos _), Nat.div_add_mod' off halfSize⟩

/-- The channel and the channel offset of a half offset (R241). -/
theorem dramLocate_half {f o : Nat} (hf : f < 2) (ho : o < halfSize) :
    dramLocate (f * halfSize + o) =
      (64 * f + (o / 256 ^^^ o / 256 / 64 ^^^ o / 256 / 64 / 64) % 64, o / 256 / 64 * 256 + o % 256) := by
  have half : (if f * halfSize + o < halfSize then 0 else 1) = f := by
    unfold halfSize at ho ⊢
    split <;> omega
  simp only [dramLocate, half, Nat.add_sub_cancel_left, Nat.div_div_eq_div_mul]

/-- The DRAM offset of an offset of a half's channel (R241). -/
theorem dramOffset_half {f c : Nat} (hf : f < 2) (hc : c < 64) (coff : Nat) :
    dramOffset (64 * f + c) coff =
      f * halfSize + ((coff / 256 * 64 + (c ^^^ coff / 256 ^^^ coff / 256 / 64) % 64) * 256 + coff % 256) := by
  have half : (if 64 * f + c < 64 then 0 else halfSize) = f * halfSize := by
    unfold halfSize
    split <;> omega
  have channel : (64 * f + c) % 64 = c := by omega
  simp only [dramOffset, half, channel, Nat.add_assoc]

/-- The offset within its half that a channel offset of R242 leads to lies in that half. -/
theorem half_offset_lt {coff j : Nat} (hcoff : coff < chanSize) (hj : j < 64) :
    (coff / 256 * 64 + j) * 256 + coff % 256 < halfSize := by
  unfold chanSize at hcoff
  unfold halfSize
  omega

/-- The inverse of R241 leads from the place of a half offset back to it. -/
theorem dramOffset_dramLocate_half {f o : Nat} (hf : f < 2) (ho : o < halfSize) :
    dramOffset (dramLocate (f * halfSize + o)).1 (dramLocate (f * halfSize + o)).2 = f * halfSize + o := by
  have quotient : (o / 256 / 64 * 256 + o % 256) / 256 = o / 256 / 64 := by omega
  rw [dramLocate_half hf ho, dramOffset_half hf (Nat.mod_lt _ (by decide)), quotient,
    xor_xor_mod_sixtyFour_cancel (Nat.mod_mod _ _)]
  omega

/-- A channel offset is the place of the half offset that the inverse of R241 gives. -/
theorem dramLocate_dramOffset_half {f c coff : Nat} (hf : f < 2) (hc : c < 64) (hcoff : coff < chanSize) :
    dramLocate (dramOffset (64 * f + c) coff) = (64 * f + c, coff) := by
  have hj : (c ^^^ coff / 256 ^^^ coff / 256 / 64) % 64 < 64 := Nat.mod_lt _ (by decide)
  rw [dramOffset_half hf hc, dramLocate_half hf (half_offset_lt hcoff hj)]
  generalize hmix : (c ^^^ coff / 256 ^^^ coff / 256 / 64) % 64 = j at hj
  have granule : ((coff / 256 * 64 + j) * 256 + coff % 256) / 256 = coff / 256 * 64 + j := by omega
  have quotient : (coff / 256 * 64 + j) / 64 = coff / 256 := by omega
  have channel : (coff / 256 * 64 + j ^^^ coff / 256 ^^^ coff / 256 / 64) % 64 = c % 64 :=
    xor_xor_mod_sixtyFour_cancel (by omega)
  rw [granule, quotient, channel, Prod.mk.injEq]
  omega

/-- The inverse of R241 leads into DRAM. -/
theorem dramOffset_half_lt {f c coff : Nat} (hf : f < 2) (hc : c < 64) (hcoff : coff < chanSize) :
    dramOffset (64 * f + c) coff < 2 * halfSize := by
  rw [dramOffset_half hf hc]
  calc f * halfSize + _
      _ < f * halfSize + halfSize := Nat.add_lt_add_left (half_offset_lt hcoff (Nat.mod_lt _ (by decide))) _
      _ = (f + 1) * halfSize := (Nat.succ_mul f halfSize).symm
      _ ≤ 2 * halfSize := Nat.mul_le_mul_right halfSize hf

/-- Settles O37: per half, each map undoes the other, and every offset and every channel lies in one of the two halves. -/
theorem channelInterleaving : Obligations.ChannelInterleaving := by
  refine ⟨?located, ?offsets, ?channels⟩
  case located =>
    intro f o ho
    have located := dramLocate_half f.isLt ho
    simp only [Nat.div_div_eq_div_mul] at located
    exact located
  case offsets =>
    intro off hoff
    obtain ⟨f, o, hf, ho, rfl⟩ := exists_half_offset hoff
    exact dramOffset_dramLocate_half hf ho
  case channels =>
    intro ch coff hch hcoff
    have hf : ch / 64 < 2 := by omega
    have hc : ch % 64 < 64 := Nat.mod_lt _ (by decide)
    rw [← Nat.div_add_mod ch 64]
    exact ⟨dramLocate_dramOffset_half hf hc hcoff, dramOffset_half_lt hf hc hcoff⟩

end Sys2Proof.Machine
end

section
/-! PROOFS. A bit field of a register after a write of it, and the command fence.self (R416). -/

namespace Sys2Proof.Machine

/-- A field is replaced in place: the bits above it and the bits below it stay. -/
theorem setFld_eq (x lo len v : Nat) : setFld x lo len v = 2 ^ lo * (2 ^ len * (x / 2 ^ lo / 2 ^ len) + v % 2 ^ len) + x % 2 ^ lo := by
  have parts : x = 2 ^ lo * (2 ^ len * (x / 2 ^ lo / 2 ^ len)) + fld x lo len * 2 ^ lo + x % 2 ^ lo := by
    calc x
        _ = 2 ^ lo * (x / 2 ^ lo) + x % 2 ^ lo := (Nat.div_add_mod x _).symm
        _ = 2 ^ lo * (2 ^ len * (x / 2 ^ lo / 2 ^ len) + x / 2 ^ lo % 2 ^ len) + x % 2 ^ lo := by rw [Nat.div_add_mod (x / 2 ^ lo)]
        _ = _ := by rw [fld, Nat.shiftRight_eq_div_pow, Nat.mul_add, Nat.mul_comm (_ % _)]
  rw [setFld, Nat.mul_add, Nat.mul_comm (2 ^ lo) (v % 2 ^ len)]
  omega

/-- A replaced field holds the low bits of the new value. -/
@[simp] theorem fld_setFld_self (x lo len v : Nat) : fld (setFld x lo len v) lo len = v % 2 ^ len := by
  rw [setFld_eq, fld, Nat.shiftRight_eq_div_pow, Nat.mul_add_div (Nat.two_pow_pos lo), Nat.div_eq_of_lt (Nat.mod_lt x (Nat.two_pow_pos lo)),
    Nat.add_zero, Nat.mul_add_mod, Nat.mod_mod]

/-- A field that ends within the low `n` bits does not depend on the bits above them. -/
theorem fld_mod_two_pow {n lo len : Nat} (h : lo + len ≤ n) (x : Nat) : fld (x % 2 ^ n) lo len = fld x lo len := by
  obtain ⟨k, rfl⟩ := Nat.exists_eq_add_of_le (Nat.le_of_add_right_le h)
  have hk : len ≤ k := by omega
  rw [fld, fld, Nat.shiftRight_eq_div_pow, Nat.shiftRight_eq_div_pow, Nat.pow_add, Nat.mod_mul_right_div_self,
    Nat.mod_mod_of_dvd _ (Nat.pow_dvd_pow 2 hk)]

/-- A field of a register reads as the low bits of what was written to it. -/
theorem State.field_setField_self (s : State) (p o : Nat) {lo len : Nat} (h : lo + len ≤ 32) (v : Nat) : (s.setField p o lo len v).field p o lo len = v % 2 ^ len := by
  rw [State.field, State.setField, State.reg_setReg_self, wfld, wset, BitVec.toNat_ofNat, fld_mod_two_pow h, fld_setFld_self]

section
variable {s : State} (hstate : s.fmn.state ≠ .fenced) (hnone : s.fencing = none)
include hstate hnone

/-- The first condition of R370 that arises is recorded, as the condition and as the code in PMS.RES_STATE. -/
theorem State.fenceFor_first (cause : Nat) : s.fenceFor cause = { (s.setField pgPMS 0x044 16 8 cause) with fencing := some cause } := by
  simp [State.fenceFor, hstate, hnone]

/-- The module will fence itself with the first cause. -/
theorem State.fenceFor_fencing (cause : Nat) : (s.fenceFor cause).fencing = some cause := by
  rw [State.fenceFor_first hstate hnone]

/-- The cause field of PMS.RES_STATE shows the first cause's code. -/
theorem State.fenceFor_cause (cause : Nat) : (s.fenceFor cause).field pgPMS 0x044 16 8 = cause % 2 ^ 8 := by
  rw [State.fenceFor_first hstate hnone]
  exact s.field_setField_self pgPMS 0x044 (by decide) cause

end

/-- fence.self that starts and is not refused has the effect that R416 gives to the chip it names. -/
theorem exec_fenceSelf {q : Fin 64} {c : Cmd} {s x : State} (h : starts s q.val 0x60 c) (hx : x = s.started q.val c) :
    exec (.fenceSelf q) s = .next (
      if leAt c.body 0 2 = x.self then (x.ok (c.ret q.val) []).fenceFor 1
      else if x.isLeader = true ∧ leAt c.body 0 2 ∈ x.members then (x.ok (c.ret q.val) []).fenceMember (leAt c.body 0 2)
      else x.replyTo (c.ret q.val) stBAD []) := by
  have effect : exec (.fenceSelf q) s = .next _ := congrArg Host.Outcome.next (cmd_ok h)
  rw [effect, ← hx]
  simp only [Bool.and_eq_true, List.contains_iff_mem]

/-- Settles O25: the chip that the command names is the module, a member that it leads, or neither; a first cause is recorded and shown. -/
theorem fenceSelfCommand : Obligations.FenceSelfCommand := by
  refine ⟨?own, ?member, ?other, fun s hstate hnone => ?recorded⟩
  case own =>
    intro q c s x h hx hself
    rw [exec_fenceSelf h hx, if_pos hself]
  case member =>
    intro q c s x h hx hself hleader hmember
    rw [exec_fenceSelf h hx, if_neg hself, if_pos ⟨hleader, hmember⟩]
  case other =>
    intro q c s x h hx hself hother
    have notLed : ¬ (x.isLeader = true ∧ leAt c.body 0 2 ∈ x.members) := by
      rwa [not_and_or, Bool.not_eq_true]
    rw [exec_fenceSelf h hx, if_neg hself, if_neg notLed]
  case recorded => exact ⟨State.fenceFor_fencing hstate hnone 1, State.fenceFor_cause hstate hnone 1⟩

end Sys2Proof.Machine
end

section
/-! PROOFS. The registers that every page has (R434 to R437): what a read of one shows and when a write to one is refused, which the power domain does not decide, and what the domain decides of all others. -/

namespace Sys2Proof.Machine

/-- A write of the host is refused or made as `softWrite` says (R433). -/
theorem exec_registerWrite_host (page : Fin 512) (off : Fin 1024) (v : Word) (s : State) :
    exec (.registerWrite page off v 0) s = .next (s.softWrite page.val (4 * off.val) v.toNat) := rfl

/-- A write of EVT_SET by the command of its own is a host's write of the register (R443). -/
theorem exec_evtSetInject (page : Fin 512) (v : Word) (s : State) :
    exec (.evtSetInject page v) s = .next (s.softWrite page.val 0x01C v.toNat) := rfl

/-- Of the registers that every page has, STATE alone shows other state than the register file. -/
theorem State.liveView_eq_none (s : State) (b : Blk) (i : Nat) {off : Nat} (ho : off < 0x040) (hstate : off ≠ 0x00C) :
    s.liveView b i off = none := by
  cases b <;> simp (disch := omega) only [State.liveView, State.prsView, State.numView, State.srtView, State.inkView, State.memView, State.rteView, State.ethView,
    State.spvView, State.selView, State.ldgView, State.pmkView, State.pwrView, if_neg]

/-- Of the registers that every page has, CTRL, EVT_MASK and PWR alone have bits that a write can change. -/
theorem rwMask_common (b : Blk) (i : Nat) {off : Nat} (ho : off < 0x040) (hctrl : off ≠ 0x008) (hmask : off ≠ 0x018) (hpwr : off ≠ 0x030) :
    rwMask b i off = 0 := by
  unfold rwMask
  rw [if_neg hmask, if_neg hpwr]
  split <;> simp_all

/-- Of the registers that every page has, CTRL alone has bits that wait for the boundary. -/
theorem boundMask_common (b : Blk) {off : Nat} (ho : off < 0x040) (hctrl : off ≠ 0x008) : boundMask b off = 0 := by
  unfold boundMask
  split <;> simp_all

/-- Of the registers that every page has, CTRL alone has bits that act when written, beside EVT_SET. -/
theorem actMask_common (b : Blk) {off : Nat} (ho : off < 0x040) (hctrl : off ≠ 0x008) : actMask b off = 0 := by
  unfold actMask
  split <;> simp_all

/-- No rule of its own ignores a write to a register that every page has, but CTRL. -/
theorem State.ignores_common (s : State) (b : Blk) (i v : Nat) (host : Bool) {off : Nat} (ho : off < 0x040) (hctrl : off ≠ 0x008) :
    s.ignores b i off v host = false := by
  unfold State.ignores
  split <;> simp_all

/-- A write to a register that every page has, but CTRL, does nothing beyond storing. -/
theorem State.regEffect_common (s : State) (b : Blk) (i v : Nat) {off : Nat} (ho : off < 0x040) (hctrl : off ≠ 0x008) :
    s.regEffect b i off v = s := by
  unfold State.regEffect
  split <;> simp_all

section
variable (s : State) {p i off : Nat} {b : Blk} (hb : pageBlk p = some (b, i))
include hb

/-- A register that every page has shows what is stored, and EVT_SET reads 0; STATE and PWR show more. -/
theorem State.regView_common (ho : off < 0x040) (hstate : off ≠ 0x00C) (hpwr : off ≠ 0x030) :
    s.regView p off = if off = 0x01C then 0 else s.regN p off := by
  simp [State.regView, hb, s.liveView_eq_none b i ho hstate, hpwr, ho]

/-- PWR shows its stored fields and the status of the domain (R438). -/
theorem State.regView_pwr : s.regView p 0x030 = s.regN p 0x030 % 2 ^ 30 + s.domStatus (domainOf b i) % 4 * 2 ^ 30 := by
  simp [State.regView, hb]

/-- A block-specific register shows 0 while the domain is off (R434). -/
theorem State.regView_off (ho : 0x040 ≤ off) (hd : s.domOn (domainOf b i) = false) : s.regView p off = 0 := by
  simp [State.regView, hb, ho, hd]

/-- With the domain off no count runs, so a read without a capture answers the view. -/
theorem State.regRead_fst_off (hd : s.domOn (domainOf b i) = false) (hnone : kvFind s.captured (regKey p off) = none) :
    (s.regRead p off).1 = s.regView p off := by
  simp only [State.regRead, hnone, hb, hd, Bool.and_false, Bool.false_eq_true, ↓reduceIte]
  split
  · rfl
  · split <;> rfl

/-- A write to a block-specific register is refused while the domain is off (R434). -/
theorem State.regCheck_off (ha : off % 4 = 0) (hend : off < 0x1000) (ho : 0x040 ≤ off) (hd : s.domOn (domainOf b i) = false) (v : Nat) (host : Bool) :
    s.regCheck p off v host = stILLEGAL := by
  simp [State.regCheck, hb, ha, hend, ho, hd]

/-- A write to a register that every page has, but CTRL and PWR, is refused only where R34 refuses it. -/
theorem State.regCheck_common (ho : off < 0x040) (ha : off % 4 = 0) (hctrl : off ≠ 0x008) (hpwr : off ≠ 0x030) (v : Nat) (host : Bool)
    (hstep : s.fmn.state ≠ .stepping ∨ dataPlane b i = false ∨ s.changesNow p b i off v = false) :
    s.regCheck p off v host = 0 := by
  have hstep : ¬ (host = true ∧ s.fmn.state = .stepping ∧ dataPlane b i = true ∧ s.changesNow p b i off v = true) := by
    rintro ⟨-, h1, h2, h3⟩
    simp [h1, h2, h3] at hstep
  simp only [State.regCheck, hb]
  rw [if_neg (by omega), if_neg (by omega), if_neg hstep, if_neg (by omega)]
  split <;> simp_all

/-- A write to a register that every page has and that no rule of its own handles stores its RW bits. -/
theorem State.regApply_stored (ho : off < 0x040) (hctrl : off ≠ 0x008) (hpend : off ≠ 0x014) (hset : off ≠ 0x01C) (hcount : off ≠ 0x020) (hpwr : off ≠ 0x030)
    (v : Nat) (host : Bool) : s.regApply p off v host = s.storeRw p b i off v := by
  simp only [State.regApply, hb, s.ignores_common b i v host ho hctrl, hpend, hset, hcount, hpwr, Bool.false_eq_true, ↓reduceIte]
  split <;> simp_all [State.regEffect_common]

end

section
variable (s : State) (d x : Nat) {p off : Nat} (ho : off < 0x040)
include ho

/-- What the registers that every page has show, but STATE and PWR, is not the domain's. -/
theorem State.regView_setDom (hpwr : off ≠ 0x030) (hstate : off ≠ 0x00C) : (s.setDom d x).regView p off = s.regView p off := by
  cases hb : pageBlk p with
  | none => simp only [State.regView, hb]
  | some bi => rw [State.regView_common _ hb ho hstate hpwr, State.regView_common _ hb ho hstate hpwr]; rfl

/-- Whether a write changes a field of such a register is not the domain's: STATE has no field to write, and the domain's status in PWR stands above the request. -/
theorem State.changesNow_setDom {b : Blk} {i : Nat} (hb : pageBlk p = some (b, i)) (v : Nat) :
    (s.setDom d x).changesNow p b i off v = s.changesNow p b i off v := by
  by_cases hstate : off = 0x00C
  · subst hstate
    simp [State.changesNow, rwMask_common]
  by_cases hpwr : off = 0x030
  · subst hpwr
    have hreq : (s.setDom d x).regView p 0x030 % 2 = s.regView p 0x030 % 2 := by
      rw [State.regView_pwr _ hb, State.regView_pwr _ hb]
      change (s.regN p 0x030 % 2 ^ 30 + _) % 2 = _
      omega
    have hrw : rwMask b i 0x030 = b2n (pwrSw b i) := rfl
    cases hsw : pwrSw b i <;> simp [State.changesNow, boundMask_common, hrw, hsw, b2n, Nat.and_one_is_mod, hreq]
  · rw [State.changesNow, State.changesNow, s.regView_setDom d x ho hpwr hstate]

/-- Whether a write to such a register is refused is not the domain's (R434). -/
theorem State.regCheck_setDom (v : Nat) (host : Bool) : (s.setDom d x).regCheck p off v host = s.regCheck p off v host := by
  cases hb : pageBlk p with
  | none => simp only [State.regCheck, hb]
  | some bi =>
    obtain ⟨b, i⟩ := bi
    have below : ¬ 0x040 ≤ off := Nat.not_le.mpr ho
    simp only [State.regCheck, hb, below, false_and, ↓reduceIte]
    rw [s.changesNow_setDom d x ho hb]
    rfl

end

/-- Settles O45: with the domain off the check refuses the write and no count runs, so a read answers the view, 0; below 0x040 neither the check nor a view but STATE and PWR asks for the domain. -/
theorem domainOffAccesses : Obligations.DomainOffAccesses := by
  refine ⟨fun page off v i b s hb ho hd => ⟨fun hnone => ?read, ?write⟩, fun p off d x v host s ho => ⟨?check, ?view⟩⟩
  case read => rw [s.regRead_fst_off hb hd hnone, s.regView_off hb (by omega) hd]
  case write =>
    have refused : s.regCheck page.val (4 * off.val) v.toNat true = stILLEGAL := s.regCheck_off hb (by omega) (by omega) (by omega) hd v.toNat true
    rw [exec_registerWrite_host, softWrite_no s _ _ _ (by rw [refused]; decide), refused]
  case check => exact s.regCheck_setDom d x ho v host
  case view => exact s.regView_setDom d x ho

end Sys2Proof.Machine
end

section
/-! PROOFS. ID (R436): what it shows after reset, and what a host's write of it does. -/

namespace Sys2Proof.Machine

/-- A block's index fits in its byte of ID (R431, R436). -/
theorem pageBlk_index_lt {p i : Nat} {b : Blk} (hb : pageBlk p = some (b, i)) : i < 2 ^ 8 := by
  grind (splits := 24) [pageBlk]

/-- A block's code fits in its byte of ID (R431, R436). -/
theorem Blk.code_lt (b : Blk) : b.code < 2 ^ 8 := by cases b <;> decide

/-- A write with no writable bit keeps the word. -/
theorem writtenBits_mask_zero (w : Word) (v : Nat) : writtenBits w.toNat v 0 = w := by
  simp [writtenBits]

/-- A register stored with the word that it holds leaves every register at an aligned offset of a page as it was. -/
theorem State.reg_setReg_held (s : State) {p o q u : Nat} (ho : o < 0x1000) (ha : o % 4 = 0) (hu : u < 0x1000) (hua : u % 4 = 0) :
    (s.setReg p o (s.reg p o)).reg q u = s.reg q u := by
  by_cases same : regKey q u = regKey p o
  · obtain ⟨rfl, rfl⟩ := regKey_inj hu ho hua ha same
    exact s.reg_setReg_self q u _
  · exact s.reg_setReg_ne _ same

section
variable (s : State) {p i : Nat} {b : Blk} (hb : pageBlk p = some (b, i))
include hb

/-- After reset ID shows the block's code, the block's index and version 2.1 (R436). -/
theorem regView_reset_id : State.reset.regView p 0 = b.code * 2 ^ 24 + i * 2 ^ 16 + 0x0201 := by
  have hi := pageBlk_index_lt hb
  have hc := b.code_lt
  have held : State.reset.reg p 0 = BitVec.ofNat 32 (b.code * 2 ^ 24 + i * 2 ^ 16 + 0x0201) := by
    change resetVal p 0 = _
    simp only [resetVal, hb, ↓reduceIte]
  rw [State.regView_common _ hb (by decide) (by decide) (by decide), if_neg (by decide), State.regN, held, BitVec.toNat_ofNat]
  omega

/-- No rule refuses a write of ID: it changes no field, so that R34 does not either. -/
theorem State.regCheck_id (v : Nat) (host : Bool) : s.regCheck p 0 v host = 0 :=
  s.regCheck_common hb (by decide) rfl (by decide) (by decide) v host
    (.inr (.inr (by simp [State.changesNow, rwMask_common, actMask_common])))

/-- A write of ID stores the word that ID holds. -/
theorem State.regApply_id (v : Nat) (host : Bool) : s.regApply p 0 v host = s.setReg p 0 (s.reg p 0) := by
  have readOnly : rwMask b i 0 = 0 := rwMask_common b i (by decide) (by decide) (by decide) (by decide)
  rw [s.regApply_stored hb (by decide) (by decide) (by decide) (by decide) (by decide) (by decide),
    storeRw_plain s p b i 0 v (boundMask_common b (by decide) (by decide)), readOnly, State.regN, writtenBits_mask_zero]

end

/-- A host's write of ID is answered with 0 and stores the word that ID holds. -/
theorem exec_registerWrite_id (s : State) {page : Fin 512} {i : Nat} {b : Blk} (hb : pageBlk page.val = some (b, i)) (v : Word) :
    exec (.registerWrite page 0 v 0) s = .next { s.setReg page.val 0 (s.reg page.val 0) with answer := 0 } := by
  rw [exec_registerWrite_host, ← s.regApply_id hb v.toNat true]
  exact congrArg _ (softWrite_ok s page.val 0 v.toNat (s.regCheck_id hb v.toNat true))

/-- What R436 says of ID, for every register that the map has: the reset value, and that a host's write changes no register at an aligned offset of a page and
nothing else either. -/
theorem idRegisters_aligned :
    (∀ (p i : Nat) (b : Blk), pageBlk p = some (b, i) → State.reset.regView p 0 = b.code * 2 ^ 24 + i * 2 ^ 16 + 0x0201) ∧
    (∀ (page : Fin 512) (v : Word) (i : Nat) (b : Blk) (s : State), pageBlk page.val = some (b, i) →
      ∃ u, exec (.registerWrite page 0 v 0) s = .next u ∧ u = { s with regs := u.regs, answer := 0 } ∧
        ∀ q o, o < 0x1000 → o % 4 = 0 → u.reg q o = s.reg q o) :=
  ⟨fun _ _ _ hb => regView_reset_id hb, fun _ v _ _ s hb =>
    ⟨_, exec_registerWrite_id s hb v, rfl, fun _ _ ho ha => s.reg_setReg_held (by decide) rfl ho ha⟩⟩

/-- Refutes O46: `regsBut` asks for every number as an offset, and offset 1 has ID's place in the register file but not its reset value. The write of ID on page 0
after reset stores the reset value of ID there, so that offset 1, which no access of 32 bits can name (R15), reads as ID and no longer as 0. At every aligned offset the
claim holds (`idRegisters_aligned`). -/
theorem not_idRegisters : ¬ Obligations.IdRegisters := by
  rintro ⟨-, kept⟩
  obtain ⟨u, hu, -, hregs⟩ := kept ⟨pgGLB, by decide⟩ 0 0 .glb State.reset rfl
  rw [exec_registerWrite_id State.reset (page := ⟨pgGLB, by decide⟩) (i := 0) (b := .glb) rfl] at hu
  obtain rfl := Host.Outcome.next.inj hu
  have before : State.reset.reg pgGLB 1 = 0 := by decide
  have after : ({ State.reset.setReg pgGLB 0 (State.reset.reg pgGLB 0) with answer := 0 } : State).reg pgGLB 1 = 0x01000201 := by decide
  have same := hregs pgGLB 1 List.not_mem_nil
  exact absurd (after.symm.trans (same.trans before)) (by decide)

end Sys2Proof.Machine
end

section
/-! PROOFS. EVT_SET (R443): its write latches one event after another; what a list of latches on a page adds up to (R441, R422). -/

namespace Sys2Proof.Machine

/-- A word with one bit has that bit and no other. -/
theorem getLsbD_single_bit {j k : Nat} (hj : j < 32) : (BitVec.ofNat 32 (2 ^ k)).getLsbD j = decide (j = k) := by
  rw [BitVec.getLsbD_ofNat, Nat.testBit_two_pow, decide_eq_true hj, Bool.true_and, decide_eq_decide, eq_comm]

/-- Of the numbers below `n`, a word with one bit names that bit. -/
theorem filter_range_single_bit {n k : Nat} (hn : n ≤ 32) (hk : k < n) :
    (List.range n).filter (fun j => (BitVec.ofNat 32 (2 ^ k)).getLsbD j) = [k] := by
  have names : ∀ j ∈ List.range n, (BitVec.ofNat 32 (2 ^ k)).getLsbD j = (j == k) := fun j hj =>
    getLsbD_single_bit ((List.mem_range.mp hj).trans_le hn)
  rw [List.filter_congr names, List.filter_beq, List.count_eq_one_of_mem List.nodup_range (List.mem_range.mpr hk), List.replicate_one]

/-- Events of a page latch one after another. -/
def State.latchAll (s : State) (page : Nat) (bits : List Nat) : State := bits.foldl (fun x k => x.latch page k) s

@[simp] theorem State.latchAll_nil (s : State) (p : Nat) : s.latchAll p [] = s := rfl

@[simp] theorem State.latchAll_cons (s : State) (p k : Nat) (ks : List Nat) : s.latchAll p (k :: ks) = (s.latch p k).latchAll p ks := rfl

/-- Latches change registers, letters, withheld counts and subscriptions only. -/
theorem State.latchAll_shape (s : State) (p : Nat) (ks : List Nat) :
    ∃ r l w u, s.latchAll p ks = { s with regs := r, letters := l, withheld := w, subs := u } := by
  induction ks generalizing s with
  | nil => exact ⟨s.regs, s.letters, s.withheld, s.subs, rfl⟩
  | cons k ks ih =>
    obtain ⟨r, l, w, u, hfirst⟩ := s.latchAt_shape p k s.curStep
    obtain ⟨r', l', w', u', hrest⟩ := ih (s.latch p k)
    exact ⟨r', l', w', u', by rw [State.latchAll_cons, hrest, State.latch, hfirst]⟩

/-- Latches on a page keep every register but those of its events and of the letters (R441, R422). -/
theorem State.regsBut_latchAll (s : State) (p : Nat) (ks : List Nat) : regsBut s (s.latchAll p ks) (evtRegs p) := by
  intro q o h
  induction ks generalizing s with
  | nil => rfl
  | cons k ks ih =>
    rw [State.latchAll_cons, ih]
    refine s.reg_latch p k q o ?_
    simp only [evtRegs, List.map_cons, List.map_nil, List.mem_cons, List.not_mem_nil, or_false, not_or] at h ⊢
    obtain ⟨pend, count, spvPend, spvCount, spvHeld⟩ := h
    exact ⟨pend, count, spvHeld, spvPend, spvCount⟩

section
variable (s : State) {p : Nat} (hp : p ≠ pgSPV)
include hp

/-- Letters touch no register of a page but Sprinov's (R422). -/
theorem State.reg_letter {bit step time o : Nat} (ho : o < 0x1000) : (s.letter p bit step time).reg p o = s.reg p o := by
  obtain ⟨r, l, w, u, hshape, hregs⟩ := s.letter_shape p bit step time
  have kept := hregs p o (by unfold regKey; omega) (by unfold regKey; omega) (by unfold regKey; omega)
  rw [hshape]
  simp only [State.reg, kvGet, kept]

/-- A latch counts once, saturating (R441). -/
theorem State.count_latch (k : Nat) : (s.latch p k).regN p 0x020 = min 0xFFFFFFFF (s.regN p 0x020 + 1) := by
  have apart : regKey p 0x020 ≠ regKey p 0x014 := by unfold regKey; omega
  rw [State.latch, State.latchAt, State.regN, State.reg_letter _ hp (by decide), ← State.regN, State.latchRaw, State.regN_bump_self, State.regN,
    State.reg_setReg_ne _ _ apart, satAdd32, Nat.min_comm]
  rfl

/-- Latches count each, saturating (R441). -/
theorem State.count_latchAll (ks : List Nat) : (s.latchAll p ks).regN p 0x020 = min 0xFFFFFFFF (s.regN p 0x020 + ks.length) := by
  induction ks generalizing s with
  | nil =>
    have := s.regN_lt p 0x020
    simp only [State.latchAll_nil, List.length_nil]
    omega
  | cons k ks ih =>
    rw [State.latchAll_cons, ih, s.count_latch hp, List.length_cons]
    omega

/-- Latches set their events' bits of EVT_PEND and no other (R441). -/
theorem State.pend_latchAll (ks : List Nat) {j : Nat} (hj : j < 32) :
    ((s.latchAll p ks).reg p 0x014).getLsbD j = ((s.reg p 0x014).getLsbD j || decide (j ∈ ks)) := by
  induction ks generalizing s with
  | nil => simp
  | cons k ks ih =>
    rw [State.latchAll_cons, ih, State.latch, s.pend_latchAt p k _ hp, BitVec.getLsbD_or, getLsbD_single_bit hj, Bool.or_assoc]
    simp

end

section
variable (s : State) {p i : Nat} {b : Blk} (hb : pageBlk p = some (b, i))
include hb

/-- A write of EVT_SET latches the implemented events of the word in rising order (R443). -/
theorem State.regApply_evtSet (v : Nat) (host : Bool) :
    s.regApply p 0x01C v host = s.latchAll p ((List.range b.events).filter (bitOf v)) := by
  simp only [State.regApply, hb, s.ignores_common b i v host (show 0x01C < 0x040 by decide) (by decide)]
  rw [State.latchAll, List.foldl_filter]
  rfl

end

/-- The command writes EVT_SET: it latches the implemented events of its word (R443), in STEPPING on the pages of the control plane only (R34). -/
theorem exec_evtSetInject_latchAll (s : State) {page : Fin 512} {i : Nat} {b : Blk} (hb : pageBlk page.val = some (b, i))
    (hstep : s.fmn.state ≠ .stepping ∨ dataPlane b i = false) (v : Word) :
    exec (.evtSetInject page v) s = .next { s.latchAll page.val ((List.range b.events).filter (fun k => v.getLsbD k)) with answer := 0 } := by
  have made : s.regCheck page.val 0x01C v.toNat true = 0 :=
    s.regCheck_common hb (by decide) rfl (by decide) (by decide) v.toNat true (hstep.imp_right .inl)
  rw [exec_evtSetInject, softWrite_ok s _ _ _ made, s.regApply_evtSet hb]
  rfl

/-- No page has more events than a word has bits (R437). -/
theorem Blk.events_le (b : Blk) : b.events ≤ 32 := by cases b <;> decide

/-- Settles O44: the command latches the events of its word one after another, and each latch sets its bit and counts once. -/
theorem eventSetInjects : Obligations.EventSetInjects := by
  refine ⟨fun page k i b s hb hstep hk => ?single, fun page v i b s hb hstep => ?word⟩
  case single =>
    rw [exec_evtSetInject_latchAll s hb hstep, filter_range_single_bit b.events_le hk]
    rfl
  case word =>
    refine ⟨_, exec_evtSetInject_latchAll s hb hstep v, ?shape, s.regsBut_latchAll page.val _, fun hp => ⟨s.count_latchAll hp _, fun k => ?pend⟩⟩
    case shape =>
      obtain ⟨r, l, w, u, h⟩ := s.latchAll_shape page.val ((List.range b.events).filter (fun k => v.getLsbD k))
      rw [h]
    case pend =>
      refine (s.pend_latchAll hp _ k.isLt).trans ?_
      simp

end Sys2Proof.Machine
end

section
/-! PROOFS. The pending-repair lists of the channels (R252, R482): a changed channel and the others, and the three things that can happen to a row that is to join a list. -/

namespace Sys2Proof.Machine

/-- A changed channel is the change of what it was. -/
@[simp] theorem State.chan_modChan_self (s : State) (c : Nat) (f : Chan → Chan) : (s.modChan c f).chan c = f (s.chan c) := by
  simp [State.chan, kvMod]

/-- A change of a channel leaves the other channels. -/
theorem State.chan_modChan_ne (s : State) {c k : Nat} (f : Chan → Chan) (h : k ≠ c) : (s.modChan c f).chan k = s.chan k := by
  simp [State.chan, kvMod, kvGet_kvSet_ne _ _ _ h]

/-- A section update for the Ledger leaves the channels. -/
@[simp] theorem State.chan_ledgerUpdate (s : State) (off : Nat) (bs : Bytes) (c : Nat) : (s.ledgerUpdate off bs).chan c = s.chan c := rfl

section
variable (s : State) {c row : Nat}

/-- A listed row is not added twice (R482). -/
theorem State.addRepair_of_listed (listed : row ∈ (s.chan c).repair) : s.addRepair c row = s :=
  if_pos (List.contains_iff_mem.mpr listed)

variable (fresh : row ∉ (s.chan c).repair)
include fresh

/-- A full list takes no row, LDG_REPAIR_FULL latches (R482). -/
theorem State.addRepair_of_full (full : 16 ≤ (s.chan c).repair.length) : s.addRepair c row = s.latch pgLDG 3 := by
  rw [State.addRepair, if_neg (mt List.contains_iff_mem.mp fresh), if_pos full]

/-- A new row joins the end of a list with room, and the list goes to the next Ledger record (R252). -/
theorem State.addRepair_of_room (room : (s.chan c).repair.length < 16) :
    s.addRepair c row =
      (s.modChan c (fun x => { x with repair := x.repair ++ [row] })).ledgerUpdate (0x1400 + 64 * c)
        { s.chan c with repair := (s.chan c).repair ++ [row] }.pending := by
  simp only [State.addRepair, List.contains_iff_mem, if_neg fresh, if_neg (Nat.not_le.mpr room), State.chan_modChan_self]
  rfl

end

/-- Settles O39: the row is listed, or new to a full list, or new to a list with room; in the last case only its channel changes. -/
theorem repairListBound : Obligations.RepairListBound := by
  refine ⟨fun c row s => s.addRepair_of_listed, fun c row s => s.addRepair_of_full, fun c row s fresh room => ?joins⟩
  case joins =>
    rw [s.addRepair_of_room fresh room]
    refine ⟨?own, fun k other => ?others⟩
    case own => rw [State.chan_ledgerUpdate, State.chan_modChan_self]
    case others => rw [State.chan_ledgerUpdate, State.chan_modChan_ne s _ other]

end Sys2Proof.Machine
end

section
/-! PROOFS. Which commands keep the still fields (fuses, images, TAP, queue, PWR_GOOD, straps, THERM_TRIP_N): every command but eleven, each through the operations that it is made of. -/

namespace Sys2Proof.Machine

/-- The outcome is a next state, with the fuses, the images, the TAP, the queue and the three wires of the power side as they were. -/
def StillNext (s : State) (o : Host.Outcome State Fault Refusal) : Prop := ∃ u, o = .next u ∧ u.still = s.still

@[simp] theorem stillNext_next (s u : State) : StillNext s (.next u) ↔ u.still = s.still :=
  ⟨fun ⟨_, h, hu⟩ => Host.Outcome.next.inj h ▸ hu, fun h => ⟨u, rfl, h⟩⟩

@[simp] theorem stillNext_ite (s : State) (c : Prop) [Decidable c] (a b : Host.Outcome State Fault Refusal) :
    StillNext s (if c then a else b) ↔ (c → StillNext s a) ∧ (¬ c → StillNext s b) := by split <;> simp_all

@[simp] theorem State.trainFailed_still (s : State) (p : Nat) (r : TrainResult) : (s.trainFailed p r).still = s.still := by
  simp [State.trainFailed]

@[simp] theorem State.linkUp_still (s : State) (p w version : Nat) (precode : Bool) : (s.linkUp p w version precode).still = s.still := by
  simp [State.linkUp]

@[simp] theorem State.backInService_still (s : State) (p lanes w old : Nat) (r : TrainResult) : (s.backInService p lanes w old r).still = s.still := by
  simp [State.backInService]

@[simp] theorem State.createPending_still (s : State) (t : Table) (p : Placement) : (s.createPending t p).still = s.still := by
  simp [State.createPending]

@[simp] theorem State.enterTable_still (s : State) (t : Table) : (s.enterTable t).still = s.still := by
  simp [State.enterTable]

@[simp] theorem State.workEnded_still (s : State) (j : Job) (ms : Nat) : (s.workEnded j ms).still = s.still := by
  simp [State.workEnded]

@[simp] theorem State.restoredAll_still (s : State) (n : Nat) : (s.restoredAll n).still = s.still := by
  simp [State.restoredAll]

@[simp] theorem State.stageAll_still (s : State) (t : Table) (b : Bytes) (rows : List Nat) : (s.stageAll t b rows).still = s.still := by
  simp [State.stageAll]

@[simp] theorem State.installShip_still (s : State) (tb : Table) (m : MigIn) (b : Bytes) : (s.installShip tb m b).still = s.still := by
  simp [State.installShip]

@[simp] theorem State.barRelease_still (s : State) (id i : Nat) : (s.barRelease id i).still = s.still := by
  unfold State.barRelease; split <;> simp

@[simp] theorem State.quietEnds_still (s : State) : s.quietEnds.still = s.still := by
  simp [State.quietEnds]

@[simp] theorem State.cmAccept_still (s : State) (qp role slot mtu : Nat) : (s.cmAccept qp role slot mtu).still = s.still := by
  simp [State.cmAccept]

@[simp] theorem State.readRegs_still (s : State) (page : Nat) (offs : List Nat) : (s.readRegs page offs).2.still = s.still := by
  simp [State.readRegs]

@[simp] theorem State.bootScan_still (s : State) (us : Nat) : (s.bootScan us).still = s.still := by
  simp [State.bootScan]

@[simp] theorem State.bootSlot_still (s : State) (slot af f0 f1 : Nat) : (s.bootSlot slot af f0 f1).still = s.still := by
  simp [State.bootSlot]

@[simp] theorem State.loadRegs_still (s : State) : s.loadRegs.still = s.still := by
  simp [State.loadRegs]

@[simp] theorem State.domainsOn_still (s : State) (ds : List Nat) : (s.domainsOn ds).still = s.still := by
  simp [State.domainsOn]

@[simp] theorem State.lineFetch_still (s : State) (off : Nat) (errs : List (Nat × Byte)) (grp : List (Fin 15 × List (Nat × Byte))) :
    (s.lineFetch off errs grp).still = s.still := by
  simp [State.lineFetch]

/-- A Case read that ends in a state keeps the still fields. -/
theorem still_of_caseRead {s x : State} {p : Nat} {ranges : List (Nat × Nat)} {errs : List CaseErr} {o : Option Nat}
    (h : s.caseRead p ranges errs = (x, o)) : x.still = s.still := by
  rw [← s.caseRead_still p ranges errs, h]

section
variable (s : State)

@[simp] theorem execFlitReceive_still (port : Fin 12) (f : Flit) (uncorr : Bool) (fec : FecCount) : StillNext s (execFlitReceive port f uncorr fec s) := by
  by_cases up : s.link port.val ≠ 2
  · simp [execFlitReceive, up]
  · simp [execFlitReceive, up]

@[simp] theorem execFlitTransmit_still (port : Fin 12) : StillNext s (execFlitTransmit port s) := by
  unfold execFlitTransmit
  dsimp only
  (repeat' split) <;> simp

@[simp] theorem execReplayTimeout_still (port : Fin 12) : StillNext s (execReplayTimeout port s) := by simp [execReplayTimeout]

@[simp] theorem execLaneFault_still (port : Fin 12) : StillNext s (execLaneFault port s) := by simp [execLaneFault]

@[simp] theorem execTrainingDone_still (port : Fin 12) (r : TrainResult) : StillNext s (execTrainingDone port r s) := by
  unfold execTrainingDone
  (repeat' split) <;> simp [*] -- TODO

@[simp] theorem execPacketInject_still (i : Nat) : StillNext s (execPacketInject i s) := by simp [execPacketInject]

@[simp] theorem execPacketForward_still : StillNext s (execPacketForward s) := by simp [execPacketForward]

@[simp] theorem execPacketEject_still : StillNext s (execPacketEject s) := by simp [execPacketEject]

@[simp] theorem execE2eResend_still (chip lane : Nat) : StillNext s (execE2eResend chip lane s) := by simp [execE2eResend]

@[simp] theorem execE2eFail_still (chip lane : Nat) : StillNext s (execE2eFail chip lane s) := by simp [execE2eFail]

@[simp] theorem execBktCollatorRead_still (t : Fin 136) (serial : Nat) (errs : List CaseErr) : StillNext s (execBktCollatorRead t serial errs s) := by
  unfold execBktCollatorRead
  (repeat' split) <;> simp

@[simp] theorem execCUp_still : StillNext s (execCUp s) := by
  unfold execCUp
  split
  · simp
  · have taken := State.takeOldest_some ‹_›
    simp [taken]

@[simp] theorem execCTopkTg_still : StillNext s (execCTopkTg s) := by
  unfold execCTopkTg
  split
  · simp
  · have taken := State.takeOldest_some ‹_›
    dsimp only
    (repeat' split) <;> simp [taken]

@[simp] theorem execCSignTg_still : StillNext s (execCSignTg s) := by
  unfold execCSignTg
  split
  · simp
  · have taken := State.takeOldest_some ‹_›
    (repeat' split) <;> simp [taken]

@[simp] theorem execCollationOutputSend_still : StillNext s (execCollationOutputSend s) := by simp [execCollationOutputSend]

@[simp] theorem execCDeliver_still : StillNext s (execCDeliver s) := by
  unfold execCDeliver
  split
  · simp
  · have taken := State.takeOldest_some ‹_›
    simp [taken]

@[simp] theorem execCDone_still : StillNext s (execCDone s) := by
  unfold execCDone
  split
  · simp
  · have taken := State.takeOldest_some ‹_›
    dsimp only
    (repeat' split) <;> simp [taken]

@[simp] theorem execCRepl_still : StillNext s (execCRepl s) := by
  unfold execCRepl
  split
  · simp
  · have taken := State.takeOldest_some ‹_›
    dsimp only
    (repeat' split) <;> simp [taken]

@[simp] theorem execCReplDown_still : StillNext s (execCReplDown s) := by
  unfold execCReplDown
  split
  · simp
  · have taken := State.takeOldest_some ‹_›
    dsimp only
    (repeat' split) <;> simp [taken]

@[simp] theorem execCResult_still : StillNext s (execCResult s) := by
  unfold execCResult
  split
  · simp
  · have taken := State.takeOldest_some ‹_›
    simp [taken]

@[simp] theorem execA2aCount_still : StillNext s (execA2aCount s) := by
  unfold execA2aCount
  split
  · simp
  · have taken := State.takeOldest_some ‹_›
    (repeat' split) <;> simp [taken]

@[simp] theorem execA2aData_still : StillNext s (execA2aData s) := by
  unfold execA2aData
  split
  · simp
  · have taken := State.takeOldest_some ‹_›
    (repeat' split) <;> simp [taken]

@[simp] theorem execA2aRet_still : StillNext s (execA2aRet s) := by
  unfold execA2aRet
  split
  · simp
  · have taken := State.takeOldest_some ‹_›
    dsimp only
    (repeat' split) <;> simp [taken]

@[simp] theorem execStepOpen_still (q : Fin 64) : StillNext s (execStepOpen q s) := by simp [execStepOpen]

@[simp] theorem execMbSubmit_still (q : Fin 64) : StillNext s (execMbSubmit q s) := by simp [execMbSubmit]

@[simp] theorem execStepAbort_still (q : Fin 64) : StillNext s (execStepAbort q s) := by
  refine (stillNext_next _ _).mpr (State.command_still _ _ _ _ fun b r x => ?_)
  dsimp only
  (repeat' split) <;> simp

@[simp] theorem execScaleRecordWrite_still : StillNext s (execScaleRecordWrite s) := by
  unfold execScaleRecordWrite
  dsimp only
  (repeat' split) <;> simp

@[simp] theorem execStepOpening_still : StillNext s (execStepOpening s) := by
  unfold execStepOpening
  (repeat' split) <;> simp

@[simp] theorem execStepMicroBatchesEnded_still : StillNext s (execStepMicroBatchesEnded s) := by
  unfold execStepMicroBatchesEnded
  (repeat' split) <;> simp

@[simp] theorem execReady_still : StillNext s (execReady s) := by simp [execReady]

@[simp] theorem execCollationDeadline_still (n : Nat) : StillNext s (execCollationDeadline n s) := by
  unfold execCollationDeadline
  dsimp only
  (repeat' split) <;> simp

@[simp] theorem execAllIn_still : StillNext s (execAllIn s) := by
  refine (stillNext_next _ _).mpr (State.slice_still _ _ _ fun p x => ?_)
  dsimp only
  (repeat' split) <;> simp

@[simp] theorem execNormPartialSend_still : StillNext s (execNormPartialSend s) := by
  unfold execNormPartialSend
  dsimp only
  (repeat' split) <;> simp

@[simp] theorem execCNorm_still : StillNext s (execCNorm s) := by
  unfold execCNorm
  split
  · simp
  · have taken := State.takeOldest_some ‹_›
    dsimp only
    (repeat' split) <;> simp [taken]

@[simp] theorem execNormDeadline_still (n : Nat) : StillNext s (execNormDeadline n s) := by
  unfold execNormDeadline
  dsimp only
  (repeat' split) <;> simp

@[simp] theorem execDecision_still : StillNext s (execDecision s) := by
  refine (stillNext_next _ _).mpr (State.slice_still _ _ _ fun p x => ?_)
  dsimp only
  (repeat' split) <;> simp

@[simp] theorem execCommitDone_still : StillNext s (execCommitDone s) := by simp [execCommitDone]

@[simp] theorem execRelease_still : StillNext s (execRelease s) := by simp [execRelease]

@[simp] theorem execResume_still : StillNext s (execResume s) := by simp [execResume]

@[simp] theorem execStepReopen_still : StillNext s (execStepReopen s) := by
  unfold execStepReopen
  (repeat' split) <;> simp

@[simp] theorem execAbortReq_still : StillNext s (execAbortReq s) := by simp [execAbortReq]

@[simp] theorem execParityDelta_still : StillNext s (execParityDelta s) := by
  unfold execParityDelta
  split
  · simp
  · next o t arrived =>
    have taken := t.takeDelta_still o.pkt
    simp [taken, State.takeArrived_some arrived]

@[simp] theorem execHeartbeatPeriod_still : StillNext s (execHeartbeatPeriod s) := by simp [execHeartbeatPeriod]

@[simp] theorem execHeartbeat_still : StillNext s (execHeartbeat s) := by simp [execHeartbeat]

@[simp] theorem execHeartbeatTimeout_still (chip : Nat) : StillNext s (execHeartbeatTimeout chip s) := by simp [execHeartbeatTimeout]

@[simp] theorem execIsolationTimeout_still : StillNext s (execIsolationTimeout s) := by simp [execIsolationTimeout]

@[simp] theorem execSuspect_still : StillNext s (execSuspect s) := by simp [execSuspect]

@[simp] theorem execProbe_still : StillNext s (execProbe s) := by simp [execProbe]

@[simp] theorem execProbeRetry_still (chip : Nat) : StillNext s (execProbeRetry chip s) := by simp [execProbeRetry]

@[simp] theorem execProbeTimeout_still (chip : Nat) : StillNext s (execProbeTimeout chip s) := by simp [execProbeTimeout]

@[simp] theorem execFenceOrder_still : StillNext s (execFenceOrder s) := by simp [execFenceOrder]

@[simp] theorem execFencedNotice_still : StillNext s (execFencedNotice s) := by simp [execFencedNotice]

@[simp] theorem execModuleFence_still : StillNext s (execModuleFence s) := by
  unfold execModuleFence
  dsimp only
  (repeat' split) <;> simp

@[simp] theorem execSpineLineReplay_still (seg : Fin 4) : StillNext s (execSpineLineReplay seg s) := by simp [execSpineLineReplay]

@[simp] theorem execSpineSublinkFailure_still (seg : Fin 4) (us : Nat) : StillNext s (execSpineSublinkFailure seg us s) := by simp [execSpineSublinkFailure]

@[simp] theorem execParBusy_still : StillNext s (execParBusy s) := by simp [execParBusy]

@[simp] theorem execSliceQuietReached_still : StillNext s (execSliceQuietReached s) := by simp [execSliceQuietReached]

@[simp] theorem execQuiet_still : StillNext s (execQuiet s) := by simp [execQuiet]

@[simp] theorem execParDone_still : StillNext s (execParDone s) := by simp [execParDone]

@[simp] theorem execStateSync_still : StillNext s (execStateSync s) := by simp [execStateSync]

@[simp] theorem execUnitRead_still : StillNext s (execUnitRead s) := by
  unfold execUnitRead
  split
  · simp
  · split
    · simp
    · simp [State.takeArrived_some ‹_›]

@[simp] theorem execRepairReq_still : StillNext s (execRepairReq s) := by simp [execRepairReq]

@[simp] theorem execImpositionStage_still (q : Fin 64) : StillNext s (execImpositionStage q s) := by simp [execImpositionStage]

@[simp] theorem execImpositionActivate_still (q : Fin 64) : StillNext s (execImpositionActivate q s) := by
  refine (stillNext_next _ _).mpr (State.command_still _ _ _ _ fun b r x => ?_)
  (repeat' split) <;> simp

@[simp] theorem execEpochDrainComplete_still : StillNext s (execEpochDrainComplete s) := by simp [execEpochDrainComplete]

@[simp] theorem execDrained_still : StillNext s (execDrained s) := by
  refine (stillNext_next _ _).mpr (State.slice_still _ _ _ fun p x => ?_)
  dsimp only
  (repeat' split) <;> simp

@[simp] theorem execActivate_still : StillNext s (execActivate s) := by simp [execActivate]

@[simp] theorem execEpochActivation_still : StillNext s (execEpochActivation s) := by
  unfold execEpochActivation
  (repeat' split) <;> simp

@[simp] theorem execConfirm_still : StillNext s (execConfirm s) := by simp [execConfirm]

@[simp] theorem execConfirmed_still : StillNext s (execConfirmed s) := by simp [execConfirmed]

@[simp] theorem execTableCreate_still (q : Fin 64) (place : Option Placement) : StillNext s (execTableCreate q place s) := by
  unfold execTableCreate
  (repeat' split) <;> simp [*] -- TODO

@[simp] theorem execTableCreateApply_still : StillNext s (execTableCreateApply s) := by
  unfold execTableCreateApply
  (repeat' split) <;> simp [*] -- TODO

@[simp] theorem execTableDelete_still (q : Fin 64) : StillNext s (execTableDelete q s) := by
  refine (stillNext_next _ _).mpr (State.command_still _ _ _ _ fun b r x => ?_)
  dsimp only
  (repeat' split) <;> simp

@[simp] theorem execTableDeleteApply_still : StillNext s (execTableDeleteApply s) := by simp [execTableDeleteApply]

@[simp] theorem execParityWorkDone_still (ms : Nat) : StillNext s (execParityWorkDone ms s) := by
  unfold execParityWorkDone
  (repeat' split) <;> simp [*] -- TODO

@[simp] theorem execInkerRead_still (ink : Fin 128) : StillNext s (execInkerRead ink s) := by simp [execInkerRead]

@[simp] theorem execInkerContrib_still (ink : Fin 128) : StillNext s (execInkerContrib ink s) := by simp [execInkerContrib]

@[simp] theorem execInkerGather_still (ink : Fin 128) : StillNext s (execInkerGather ink s) := by simp [execInkerGather]

@[simp] theorem execDenseSum_still (ink : Fin 128) : StillNext s (execDenseSum ink s) := by
  refine (stillNext_next _ _).mpr (State.runOp_still _ _ _ _ fun o x => ?_)
  dsimp only
  (repeat' split) <;> simp

@[simp] theorem execRowLockResume_still (ink : Fin 128) : StillNext s (execRowLockResume ink s) := by simp [execRowLockResume]

@[simp] theorem execInkerCommit_still (ink : Fin 128) : StillNext s (execInkerCommit ink s) := by
  unfold execInkerCommit
  (repeat' split) <;> simp

@[simp] theorem execCommitBufferResume_still (ink : Fin 128) : StillNext s (execCommitBufferResume ink s) := by
  unfold execCommitBufferResume
  dsimp only
  (repeat' split) <;> simp

@[simp] theorem execInkerRestore_still (ink : Fin 128) : StillNext s (execInkerRestore ink s) := by
  unfold execInkerRestore
  split
  · simp
  · split <;> simp

@[simp] theorem execTierFetchIssue_still (i : Nat) : StillNext s (execTierFetchIssue i s) := by
  unfold execTierFetchIssue
  split
  · simp
  · split
    · simp
    · split
      · simp
      · split
        · have taken := State.reserve_some ‹_›
          split <;> simp [taken]
        · split <;> simp

@[simp] theorem execPutEntryGrant_still (folio : Fin 2) : StillNext s (execPutEntryGrant folio s) := by
  unfold execPutEntryGrant
  repeat' split
  all_goals try simp
  all_goals simp [State.reserve_some ‹_›]

@[simp] theorem execTierFetchComplete_still (i : Nat) (data : Bytes) (err : Bool) : StillNext s (execTierFetchComplete i data err s) := by
  unfold execTierFetchComplete
  (repeat' split) <;> simp

@[simp] theorem execTierWritebackComplete_still (i : Nat) (err : Bool) : StillNext s (execTierWritebackComplete i err s) := by
  unfold execTierWritebackComplete
  dsimp only
  (repeat' split) <;> simp

@[simp] theorem execTierWritebackRetry_still (i : Nat) : StillNext s (execTierWritebackRetry i s) := by
  unfold execTierWritebackRetry
  dsimp only
  (repeat' split) <;> simp

@[simp] theorem execRowReplace_still (q : Fin 64) : StillNext s (execRowReplace q s) := by
  unfold execRowReplace
  split
  · simp
  · refine (stillNext_next _ _).mpr (State.command_still _ _ _ _ fun b r x => ?_)
    dsimp only
    (repeat' split) <;> simp

@[simp] theorem execTableMigrate_still (q : Fin 64) : StillNext s (execTableMigrate q s) := by
  unfold execTableMigrate
  split
  · simp
  · refine (stillNext_next _ _).mpr (State.command_still _ _ _ _ fun b r x => ?_)
    dsimp only
    (repeat' split) <;> simp

@[simp] theorem execMigReserve_still : StillNext s (execMigReserve s) := by
  unfold execMigReserve
  split
  · simp
  · have taken := State.takeArrived_some ‹_›
    dsimp only
    (repeat' split) <;> simp [taken]

@[simp] theorem execShip_still : StillNext s (execShip s) := by
  unfold execShip
  split
  · simp
  · have taken := State.takeArrived_some ‹_›
    dsimp only
    (repeat' split) <;> simp [taken]

@[simp] theorem execRowRead_still : StillNext s (execRowRead s) := by
  unfold execRowRead
  split
  · simp
  · have taken := State.takeArrived_some ‹_›
    simp [taken]

@[simp] theorem execContrib_still : StillNext s (execContrib s) := by
  unfold execContrib
  split
  · simp
  · have taken := State.takeArrived_some ‹_›
    simp [taken]

@[simp] theorem execForward_still : StillNext s (execForward s) := by
  unfold execForward
  split
  · simp
  · have taken := State.takeArrived_some ‹_›
    (repeat' split) <;> simp [taken]

@[simp] theorem execSorterPostAccept_still (sorter : Fin 8) : StillNext s (execSorterPostAccept sorter s) := by
  unfold execSorterPostAccept
  dsimp only
  (repeat' split) <;> simp

@[simp] theorem execPassStart_still (sorter : Fin 8) (errs : List (Fin 136 × CaseErr)) : StillNext s (execPassStart sorter errs s) := by
  cases hp : s.nextPass sorter.val with
  | none => simp [execPassStart, hp]
  | some d =>
    simp only [execPassStart, hp]
    split <;> simp

@[simp] theorem execLookupIssue_still (sorter : Fin 8) (ecc : CacheEcc) (errs : List (Fin 136 × CaseErr)) : StillNext s (execLookupIssue sorter ecc errs s) := by
  simp [execLookupIssue]

@[simp] theorem execPghHalving_still (sorter : Fin 8) (ecc : CacheEcc) (errs : List (Fin 136 × CaseErr)) : StillNext s (execPghHalving sorter ecc errs s) := by
  simp [execPghHalving]

@[simp] theorem execPghFillComplete_still (folio : Fin 2) : StillNext s (execPghFillComplete folio s) := by
  unfold execPghFillComplete
  dsimp only
  (repeat' split) <;> simp

@[simp] theorem execLookupReply_still (sorter : Fin 8) (i : Nat) : StillNext s (execLookupReply sorter i s) := by
  unfold execLookupReply
  dsimp only
  (repeat' split) <;> simp

@[simp] theorem execDescriptorComplete_still (sorter : Fin 8) : StillNext s (execDescriptorComplete sorter s) := by
  unfold execDescriptorComplete
  dsimp only
  (repeat' split) <;> simp

@[simp] theorem execNop_still (t : Fin 136) (b : Body) : StillNext s (execNop t b s) := by simp [execNop]

@[simp] theorem execLoop_still (t : Fin 136) (b : Body) : StillNext s (execLoop t b s) := by simp [execLoop]

@[simp] theorem execBr_still (t : Fin 136) (b : Body) : StillNext s (execBr t b s) := by simp [execBr]

@[simp] theorem execYield_still (t : Fin 136) (b : Body) : StillNext s (execYield t b s) := by simp [execYield]

@[simp] theorem execContextSwitch_still (t : Fin 136) (errs : List CaseErr) : StillNext s (execContextSwitch t errs s) := by
  unfold execContextSwitch
  dsimp only
  (repeat' split) <;> simp

@[simp] theorem execEndSheet_still (t : Fin 136) (b : Body) : StillNext s (execEndSheet t b s) := by
  refine (stillNext_next _ _).mpr (State.issueRaw_still _ _ _ _ _ _ _ fun u => ?_)
  dsimp only
  (repeat' split) <;> simp

@[simp] theorem execTrap_still (t : Fin 136) (b : Body) : StillNext s (execTrap t b s) := by simp [execTrap]

@[simp] theorem execAlu_still (t : Fin 136) (b : Body) : StillNext s (execAlu t b s) := by simp [execAlu]

@[simp] theorem execAlui_still (t : Fin 136) (b : Body) : StillNext s (execAlui t b s) := by simp [execAlui]

@[simp] theorem execMovi_still (t : Fin 136) (b : Body) : StillNext s (execMovi t b s) := by simp [execMovi]

@[simp] theorem execLdg_still (t : Fin 136) (b : Body) (errs : List CaseErr) : StillNext s (execLdg t b errs s) := by simp [execLdg]

@[simp] theorem execStg_still (t : Fin 136) (b : Body) : StillNext s (execStg t b s) := by simp [execStg]

@[simp] theorem execSysr_still (t : Fin 136) (b : Body) : StillNext s (execSysr t b s) := by simp [execSysr]

@[simp] theorem execDld_still (t : Fin 136) (b : Body) (errs : List CaseErr) : StillNext s (execDld t b errs s) := by simp [execDld]

@[simp] theorem execDset_still (t : Fin 136) (b : Body) : StillNext s (execDset t b s) := by simp [execDset]

@[simp] theorem execSld_still (t : Fin 136) (b : Body) (errs : List CaseErr) : StillNext s (execSld t b errs s) := by simp [execSld]

@[simp] theorem execSset_still (t : Fin 136) (b : Body) : StillNext s (execSset t b s) := by simp [execSset]

@[simp] theorem execOpcodeFault_still (t : Fin 136) : StillNext s (execOpcodeFault t s) := by
  unfold execOpcodeFault
  dsimp only
  (repeat' split) <;> simp

@[simp] theorem execMma_still (t : Fin 136) (b : Body) (errs : List CaseErr) : StillNext s (execMma t b errs s) := by simp [execMma]

@[simp] theorem execProductEntry_still (t : Fin 136) (residue : Bool) : StillNext s (execProductEntry t residue s) := by
  unfold execProductEntry
  dsimp only
  (repeat' split) <;> simp

@[simp] theorem execZero_still (t : Fin 136) (b : Body) : StillNext s (execZero t b s) := by simp [execZero]

@[simp] theorem execDrain_still (t : Fin 136) (b : Body) : StillNext s (execDrain t b s) := by simp [execDrain]

@[simp] theorem execDrainComplete_still (t : Fin 136) (bank : Bool) : StillNext s (execDrainComplete t bank s) := by
  unfold execDrainComplete
  dsimp only
  (repeat' split) <;> simp

@[simp] theorem execMerge_still (t : Fin 136) (b : Body) (errs : List CaseErr) : StillNext s (execMerge t b errs s) := by simp [execMerge]

@[simp] theorem execHold_still (t : Fin 136) (b : Body) : StillNext s (execHold t b s) := by simp [execHold]

@[simp] theorem execVop_still (t : Fin 136) (b : Body) (errs : List CaseErr) : StillNext s (execVop t b errs s) := by
  refine (stillNext_next _ _).mpr (State.issueRaw_still _ _ _ _ _ _ _ fun u => ?_)
  dsimp only
  (repeat' split) <;> simp

@[simp] theorem execVred_still (t : Fin 136) (b : Body) (errs : List CaseErr) : StillNext s (execVred t b errs s) := by simp [execVred]

@[simp] theorem execTopk_still (t : Fin 136) (b : Body) (errs : List CaseErr) : StillNext s (execTopk t b errs s) := by simp [execTopk]

@[simp] theorem execDraw_still (t : Fin 136) (b : Body) : StillNext s (execDraw t b s) := by simp [execDraw]

@[simp] theorem execSample_still (t : Fin 136) (b : Body) (errs : List CaseErr) : StillNext s (execSample t b errs s) := by
  refine (stillNext_next _ _).mpr (State.issueRaw_still _ _ _ _ _ _ _ fun u => ?_)
  dsimp only
  split
  · simp [still_of_caseRead ‹_›]
  · split <;> simp [still_of_caseRead ‹_›]

@[simp] theorem execCvt_still (t : Fin 136) (b : Body) (errs : List CaseErr) : StillNext s (execCvt t b errs s) := by
  refine (stillNext_next _ _).mpr (State.issueRaw_still _ _ _ _ _ _ _ fun u => ?_)
  dsimp only
  split <;> rename_i heq <;> simp [still_of_caseRead heq]

@[simp] theorem execTlyAssign_still (t : Fin 136) (b : Body) : StillNext s (execTlyAssign t b s) := by simp [execTlyAssign]

@[simp] theorem execTlyCount_still (t : Fin 136) (b : Body) (errs : List CaseErr) : StillNext s (execTlyCount t b errs s) := by simp [execTlyCount]

@[simp] theorem execMov_still (t : Fin 136) (b : Body) (errs : List CaseErr) : StillNext s (execMov t b errs s) := by
  refine (stillNext_next _ _).mpr (State.issueRaw_still _ _ _ _ _ _ _ fun u => State.moveIssue_still _ _ _ _ fun x => ?_)
  dsimp only
  split
  · simp
  · have kept : (if bbit b 55 = true ∧ u.reg (bfld b 50 5) < 0x800000 then x.caseRead t.val [(u.reg (bfld b 50 5), 64 * (bfld b 29 16 + 1))] errs else (x, none)).1.still = x.still := by
      split <;> simp
    split <;> rename_i heq <;> rw [heq] at kept <;> simp [kept]

@[simp] theorem execGath_still (t : Fin 136) (b : Body) : StillNext s (execGath t b s) := by
  refine (stillNext_next _ _).mpr (State.issueRaw_still _ _ _ _ _ _ _ fun u => ?_)
  dsimp only
  (repeat' split) <;> simp

@[simp] theorem execSignal_still (t : Fin 136) (b : Body) : StillNext s (execSignal t b s) := by simp [execSignal]

@[simp] theorem execBkt_still (t : Fin 136) (b : Body) (errs : List CaseErr) : StillNext s (execBkt t b errs s) := by simp [execBkt]

@[simp] theorem execSpost_still (t : Fin 136) (b : Body) (errs : List CaseErr) : StillNext s (execSpost t b errs s) := by
  refine (stillNext_next _ _).mpr (State.issueRaw_still _ _ _ _ _ _ _ fun u => ?_)
  dsimp only
  split
  · simp
  · split
    · simp
    · split <;> simp [still_of_caseRead ‹_›]

@[simp] theorem execMoveComplete_still (t : Fin 136) (serial : Nat) (errs : List CaseErr) : StillNext s (execMoveComplete t serial errs s) := by
  unfold execMoveComplete
  dsimp only
  (repeat' split) <;> simp

@[simp] theorem execWaitGroups_still (t : Fin 136) (b : Body) : StillNext s (execWaitGroups t b s) := by simp [execWaitGroups]

@[simp] theorem execWaitFlag_still (t : Fin 136) (b : Body) (errs : List CaseErr) : StillNext s (execWaitFlag t b errs s) := by
  unfold execWaitFlag
  dsimp only
  split
  · simp
  · refine (stillNext_next _ _).mpr (State.issueRaw_still _ _ _ _ _ _ _ fun u => ?_)
    split <;> rename_i heq <;> simp [still_of_caseRead heq]

@[simp] theorem execFence_still (t : Fin 136) (b : Body) : StillNext s (execFence t b s) := by simp [execFence]

@[simp] theorem execWaitSatisfied_still (t : Fin 136) (errs : List CaseErr) : StillNext s (execWaitSatisfied t errs s) := by
  unfold execWaitSatisfied
  dsimp only
  split
  · simp
  · next w _ =>
    split
    · simp
    · cases w with
      | flag e a v =>
        dsimp only
        split
        · simp [still_of_caseRead ‹_›]
        · split <;> simp [still_of_caseRead ‹_›]
      | _ => dsimp only; split <;> simp

@[simp] theorem execBar_still (t : Fin 136) (b : Body) : StillNext s (execBar t b s) := by simp [execBar]

@[simp] theorem execBarrierRelease_still (t : Fin 136) : StillNext s (execBarrierRelease t s) := by
  unfold execBarrierRelease
  dsimp only
  split
  · split <;> simp
  · simp

@[simp] theorem execPhaseBegin_still (t : Fin 136) (b : Body) : StillNext s (execPhaseBegin t b s) := by simp [execPhaseBegin]

@[simp] theorem execPhaseEnd_still (t : Fin 136) (b : Body) : StillNext s (execPhaseEnd t b s) := by simp [execPhaseEnd]

@[simp] theorem execLayoutSwitchDone_still (t : Fin 136) : StillNext s (execLayoutSwitchDone t s) := by
  unfold execLayoutSwitchDone
  dsimp only
  (repeat' split) <;> simp

@[simp] theorem execSheetLoad_still (q : Fin 64) : StillNext s (execSheetLoad q s) := by simp [execSheetLoad]

@[simp] theorem execSheetInstall_still (q : Fin 64) : StillNext s (execSheetInstall q s) := by simp [execSheetInstall]

@[simp] theorem execSheetInstallApply_still : StillNext s (execSheetInstallApply s) := by simp [execSheetInstallApply]

@[simp] theorem execSpareReady_still (t : Fin 136) : StillNext s (execSpareReady t s) := by simp [execSpareReady]

@[simp] theorem execTileStop_still (t : Fin 136) (stop : Bool) : StillNext s (execTileStop t stop s) := by simp [execTileStop]

@[simp] theorem execTileRetireRequest_still (t : Fin 136) (retire : Bool) : StillNext s (execTileRetireRequest t retire s) := by simp [execTileRetireRequest]

@[simp] theorem execLsCfgLoad_still (v : Word) : StillNext s (execLsCfgLoad v s) := by simp [execLsCfgLoad]

@[simp] theorem execTtIndexWrite_still (v : Word) : StillNext s (execTtIndexWrite v s) := by simp [execTtIndexWrite]

@[simp] theorem execTtCommit_still : StillNext s (execTtCommit s) := by simp [execTtCommit]

@[simp] theorem execRptTailWrite_still (v : Word) : StillNext s (execRptTailWrite v s) := by simp [execRptTailWrite]

@[simp] theorem execStepNextWrite_still (hi : Bool) (v : Word) : StillNext s (execStepNextWrite hi v s) := by simp [execStepNextWrite]

@[simp] theorem execPortRetrainRequest_still (port : Fin 12) : StillNext s (execPortRetrainRequest port s) := by simp [execPortRetrainRequest]

@[simp] theorem execWinDataWrite_still (v : Word) : StillNext s (execWinDataWrite v s) := by simp [execWinDataWrite]

@[simp] theorem execRteSelfWrite_still (v : Word) : StillNext s (execRteSelfWrite v s) := by simp [execRteSelfWrite]

@[simp] theorem execRteShapeWrite_still (v : Word) : StillNext s (execRteShapeWrite v s) := by simp [execRteShapeWrite]

@[simp] theorem execPrbsInject_still (i : Fin 13) : StillNext s (execPrbsInject i s) := by simp [execPrbsInject]

@[simp] theorem execPrbsClear_still (i : Fin 13) : StillNext s (execPrbsClear i s) := by simp [execPrbsClear]

@[simp] theorem execCheckerLock_still (i : Fin 13) (lane : Fin 8) : StillNext s (execCheckerLock i lane s) := by simp [execCheckerLock]

@[simp] theorem execEthTestEnter_still : StillNext s (execEthTestEnter s) := by simp [execEthTestEnter]

@[simp] theorem execEthRestart_still : StillNext s (execEthRestart s) := by simp [execEthRestart]

@[simp] theorem execDomainPowerRequest_still (page : Fin 512) (req : Bool) : StillNext s (execDomainPowerRequest page req s) := by simp [execDomainPowerRequest]

@[simp] theorem execPmkInit_still (u : Fin 16) : StillNext s (execPmkInit u s) := by simp [execPmkInit]

@[simp] theorem execPmkCompare_still (u : Fin 16) : StillNext s (execPmkCompare u s) := by simp [execPmkCompare]

@[simp] theorem execPmkData_still (u : Fin 16) (v : Word) : StillNext s (execPmkData u v s) := by simp [execPmkData]

@[simp] theorem execPmkDataTail_still (u : Fin 16) (v : Word) : StillNext s (execPmkDataTail u v s) := by simp [execPmkDataTail]

@[simp] theorem execPmkValueWrite_still (u : Fin 16) (hi : Bool) (v : Word) : StillNext s (execPmkValueWrite u hi v s) := by simp [execPmkValueWrite]

@[simp] theorem execLdgSync_still : StillNext s (execLdgSync s) := by simp [execLdgSync]

@[simp] theorem execLdgCfgCommit_still : StillNext s (execLdgCfgCommit s) := by simp [execLdgCfgCommit]

@[simp] theorem execRegisterWrite_still (page : Fin 512) (off : Fin 1024) (v : Word) (path : Fin 4) : StillNext s (execRegisterWrite page off v path s) := by
  simp [execRegisterWrite]

@[simp] theorem execEvtSetInject_still (page : Fin 512) (v : Word) : StillNext s (execEvtSetInject page v s) := by simp [execEvtSetInject]

@[simp] theorem execErrCodeRead_still (page : Fin 512) : StillNext s (execErrCodeRead page s) := by simp [execErrCodeRead]

@[simp] theorem execLoHalfRead_still (page : Fin 512) (off : Fin 1024) : StillNext s (execLoHalfRead page off s) := by simp [execLoHalfRead]

@[simp] theorem execRead_still (errs : List CaseErr) : StillNext s (execRead errs s) := by
  unfold execRead
  split
  · simp
  · next o x arrived =>
    have kept := x.serveRead_still o.pkt errs
    simp [kept, State.takeArrived_some arrived]

@[simp] theorem execWrite_still : StillNext s (execWrite s) := by
  unfold execWrite
  split
  · simp
  · next o x arrived =>
    have kept := x.serveWrite_still o.pkt
    simp [kept, State.takeArrived_some arrived]

@[simp] theorem execAdd32_still (errs : List CaseErr) : StillNext s (execAdd32 errs s) := by
  unfold execAdd32
  split
  · simp
  · have taken := State.takeArrived_some ‹_›
    simp [taken]

@[simp] theorem execGather_still : StillNext s (execGather s) := by
  unfold execGather
  split
  · simp
  · have taken := State.takeArrived_some ‹_›
    simp [taken]

@[simp] theorem execResponse_still : StillNext s (execResponse s) := by
  unfold execResponse
  split
  · simp
  · have taken := State.takeArrived_some ‹_›
    dsimp only
    (repeat' split) <;> simp [taken]

@[simp] theorem execParReady_still : StillNext s (execParReady s) := by
  unfold execParReady
  simp [*] -- TODO

@[simp] theorem execLineOperation_still (wr : Bool) (off : Nat) (n : Nat) (data : Bytes) (errs : List (Nat × Byte)) (grp : List (Fin 15 × List (Nat × Byte))) : StillNext s (execLineOperation wr off n data errs grp s) := by
  unfold execLineOperation
  (repeat' split) <;> simp [*] -- TODO

@[simp] theorem execMr4Poll_still (ch : Fin 128) (temp : Byte) (mult : Fin 3) (above : Bool) : StillNext s (execMr4Poll ch temp mult above s) := by simp [execMr4Poll]

@[simp] theorem execRefresh_still : StillNext s (execRefresh s) := by simp [execRefresh]

@[simp] theorem execRfm_still (ch : Fin 128) : StillNext s (execRfm ch s) := by simp [execRfm]

@[simp] theorem execScrubRead_still (m : Fin 16) (errs : List (Nat × Byte)) : StillNext s (execScrubRead m errs s) := by simp [execScrubRead]

@[simp] theorem execScrubPeriodEnd_still (m : Fin 16) (late : Bool) : StillNext s (execScrubPeriodEnd m late s) := by simp [execScrubPeriodEnd]

@[simp] theorem execWck2dqAdjust_still : StillNext s (execWck2dqAdjust s) := by simp [execWck2dqAdjust]

@[simp] theorem execMemoryTraining_still (m : Fin 16) (us : Nat) (failed : Byte) (avail : List Nat) : StillNext s (execMemoryTraining m us failed avail s) := by
  simp [execMemoryTraining]

@[simp] theorem execHardRepair_still (m : Fin 16) (lacking : List (Nat × Nat)) : StillNext s (execHardRepair m lacking s) := by simp [execHardRepair]

@[simp] theorem execDramWipe_still : StillNext s (execDramWipe s) := by simp [execDramWipe]

@[simp] theorem execWipeComplete_still (m : Fin 16) (failed : Bool) (f0 f1 : Nat) : StillNext s (execWipeComplete m failed f0 f1 s) := by simp [execWipeComplete]

@[simp] theorem execRdmaWrite_still (qp rkey off : Nat) (data : Bytes) (f : FrameInfo) : StillNext s (execRdmaWrite qp rkey off data f s) := by simp [execRdmaWrite]

@[simp] theorem execRdmaRead_still (qp rkey off len : Nat) (f : FrameInfo) : StillNext s (execRdmaRead qp rkey off len f s) := by simp [execRdmaRead]

@[simp] theorem execCommandSend_still (qp : Nat) (msg : Bytes) (f : FrameInfo) : StillNext s (execCommandSend qp msg f s) := by simp [execCommandSend]

@[simp] theorem execCmReq_still (qp role pad slot mtu : Nat) (f : FrameInfo) : StillNext s (execCmReq qp role pad slot mtu f s) := by
  have kept := s.frameIn_still f (s.field pgETH 0x084 12 3)
  unfold execCmReq
  dsimp only
  split
  · simp [kept]
  · split <;> simp [kept]

@[simp] theorem execCmRtu_still (qp : Nat) (f : FrameInfo) : StillNext s (execCmRtu qp f s) := by
  unfold execCmRtu
  dsimp only
  (repeat' split) <;> simp

@[simp] theorem execCmDreq_still (qp : Nat) (f : FrameInfo) : StillNext s (execCmDreq qp f s) := by
  unfold execCmDreq
  dsimp only
  (repeat' split) <;> simp

@[simp] theorem execArpRequest_still (ip : Bytes) (f : FrameInfo) : StillNext s (execArpRequest ip f s) := by simp [execArpRequest]

@[simp] theorem execNeighbourSolicitation_still (ip : Bytes) (f : FrameInfo) : StillNext s (execNeighbourSolicitation ip f s) := by simp [execNeighbourSolicitation]

@[simp] theorem execIcmpEcho_still (ip data : Bytes) (f : FrameInfo) : StillNext s (execIcmpEcho ip data f s) := by simp [execIcmpEcho]

@[simp] theorem execPfcPauseReceive_still (times : List (Fin 8 × Nat)) : StillNext s (execPfcPauseReceive times s) := by simp [execPfcPauseReceive]

@[simp] theorem execMacPauseReceive_still : StillNext s (execMacPauseReceive s) := by simp [execMacPauseReceive]

@[simp] theorem execCnpReceive_still (qp : Nat) (early : Bool) : StillNext s (execCnpReceive qp early s) := by
  unfold execCnpReceive
  dsimp only
  (repeat' split) <;> simp

@[simp] theorem execCnpRateRecovery_still (qp : Nat) : StillNext s (execCnpRateRecovery qp s) := by
  unfold execCnpRateRecovery
  (repeat' split) <;> simp

@[simp] theorem execAckTimeout_still (qp n : Nat) (exceeded : Bool) : StillNext s (execAckTimeout qp n exceeded s) := by
  unfold execAckTimeout
  (repeat' split) <;> simp

@[simp] theorem execPtpEventMessage_still (f : FrameInfo) : StillNext s (execPtpEventMessage f s) := by simp [execPtpEventMessage]

@[simp] theorem execEthAutoneg_still (partner : Fin 32) : StillNext s (execEthAutoneg partner s) := by
  unfold execEthAutoneg
  dsimp only
  (repeat' split) <;> simp

@[simp] theorem execEthLinkDown_still : StillNext s (execEthLinkDown s) := by simp [execEthLinkDown]

@[simp] theorem execEthTestEnd_still : StillNext s (execEthTestEnd s) := by simp [execEthTestEnd]

@[simp] theorem execFrameDiscard_still (why : Discard) : StillNext s (execFrameDiscard why s) := by
  unfold execFrameDiscard
  (repeat' split) <;> simp

@[simp] theorem execMkaFrame_still (live : Bool) : StillNext s (execMkaFrame live s) := by simp [execMkaFrame]

@[simp] theorem execHeartbeatLetter_still : StillNext s (execHeartbeatLetter s) := by simp [execHeartbeatLetter]

@[simp] theorem execSummaryLetter_still (n : Nat) : StillNext s (execSummaryLetter n s) := by simp [execSummaryLetter]

@[simp] theorem execSessionHello_still (q : Fin 64) : StillNext s (execSessionHello q s) := by simp [execSessionHello]

@[simp] theorem execSessionAuth_still (q : Fin 64) : StillNext s (execSessionAuth q s) := by
  refine (stillNext_next _ _).mpr (State.command_still _ _ _ _ fun b r x => ?_)
  dsimp only
  (repeat' split) <;> simp

@[simp] theorem execSessionClose_still (q : Fin 64) : StillNext s (execSessionClose q s) := by simp [execSessionClose]

@[simp] theorem execStateQuery_still (q : Fin 64) : StillNext s (execStateQuery q s) := by simp [execStateQuery]

@[simp] theorem execRegRead_still (q : Fin 64) : StillNext s (execRegRead q s) := by
  refine (stillNext_next _ _).mpr (State.command_still _ _ _ _ fun b r x => ?_)
  dsimp only
  split <;> simp

@[simp] theorem execRegWrite_still (q : Fin 64) : StillNext s (execRegWrite q s) := by
  refine (stillNext_next _ _).mpr (State.command_still _ _ _ _ fun b r x => ?_)
  dsimp only
  (repeat' split) <;> simp

@[simp] theorem execEventSubscribe_still (q : Fin 64) : StillNext s (execEventSubscribe q s) := by simp [execEventSubscribe]

@[simp] theorem execMemMap_still (q : Fin 64) : StillNext s (execMemMap q s) := by
  refine (stillNext_next _ _).mpr (State.command_still _ _ _ _ fun b r x => ?_)
  dsimp only
  (repeat' split) <;> simp

@[simp] theorem execMemUnmap_still (q : Fin 64) : StillNext s (execMemUnmap q s) := by simp [execMemUnmap]

@[simp] theorem execFenceSelf_still (q : Fin 64) : StillNext s (execFenceSelf q s) := by simp [execFenceSelf]

@[simp] theorem execUnknownOpcode_still : StillNext s (execUnknownOpcode s) := by
  unfold execUnknownOpcode
  (repeat' split) <;> simp

@[simp] theorem execModuleReset_still (q : Fin 64) : StillNext s (execModuleReset q s) := by simp [execModuleReset]

@[simp] theorem execTimeArm_still (q : Fin 64) : StillNext s (execTimeArm q s) := by simp [execTimeArm]

@[simp] theorem execPtpOffsetMeasurement_still (off : Int) : StillNext s (execPtpOffsetMeasurement off s) := by
  unfold execPtpOffsetMeasurement
  dsimp only
  (repeat' split) <;> simp

@[simp] theorem execFirmwareActivate_still (q : Fin 64) (fails : Nat) : StillNext s (execFirmwareActivate q fails s) := by simp [execFirmwareActivate]

@[simp] theorem execAttestQuote_still (q : Fin 64) (f0 f1 f2 : Nat) : StillNext s (execAttestQuote q f0 f1 f2 s) := by
  refine (stillNext_next _ _).mpr (State.mgmtCommand_still _ _ _ _ fun b r x => ?_)
  dsimp only
  (repeat' split) <;> simp

@[simp] theorem execWipe_still (q : Fin 64) : StillNext s (execWipe q s) := by simp [execWipe]

@[simp] theorem execLedgerUpdateRequest_still (off : Fin 16384) (data : Bytes) : StillNext s (execLedgerUpdateRequest off data s) := by simp [execLedgerUpdateRequest]

@[simp] theorem execLedgerWrite_still (fails : Nat) : StillNext s (execLedgerWrite fails s) := by simp [execLedgerWrite]

@[simp] theorem execLedgerHourlyRecord_still (fails : Nat) : StillNext s (execLedgerHourlyRecord fails s) := by simp [execLedgerHourlyRecord]

@[simp] theorem execPouchWrite_still (page : Fin 512) (index : Fin 256) (data : Bytes) (last poison : Bool) : StillNext s (execPouchWrite page index data last poison s) := by
  simp [execPouchWrite]

@[simp] theorem execPouchRead_still (page : Fin 512) (index : Fin 256) (bad : Bool) : StillNext s (execPouchRead page index bad s) := by
  unfold execPouchRead
  dsimp only
  (repeat' split) <;> simp

@[simp] theorem execPouchIdleTimeout_still (page : Fin 512) (index : Fin 256) : StillNext s (execPouchIdleTimeout page index s) := by simp [execPouchIdleTimeout]

@[simp] theorem execResetPin_still : StillNext s (execResetPin s) := by simp [execResetPin]

@[simp] theorem execSealBoot_still (fuseErr : Bool) (us pf af f0 f1 : Nat) : StillNext s (execSealBoot fuseErr us pf af f0 f1 s) := by
  unfold execSealBoot
  (repeat' split) <;> simp [*] -- TODO

@[simp] theorem execOtaraquaStart_still : StillNext s (execOtaraquaStart s) := by
  unfold execOtaraquaStart
  (repeat' split) <;> simp [*] -- TODO

@[simp] theorem execOtaraquaRunTimeout_still (af f0 f1 : Nat) : StillNext s (execOtaraquaRunTimeout af f0 f1 s) := by simp [execOtaraquaRunTimeout]

@[simp] theorem execTileSelfTest_still (failing : List (Fin 136)) : StillNext s (execTileSelfTest failing s) := by simp [execTileSelfTest]

@[simp] theorem execWipeToIdle_still : StillNext s (execWipeToIdle s) := by simp [execWipeToIdle]

@[simp] theorem execHandoverPauseStart_still : StillNext s (execHandoverPauseStart s) := by simp [execHandoverPauseStart]

@[simp] theorem execHandoverTimeout_still (us fails : Nat) : StillNext s (execHandoverTimeout us fails s) := by simp [execHandoverTimeout]

@[simp] theorem execWatchdogMiss_still : StillNext s (execWatchdogMiss s) := by simp [execWatchdogMiss]

@[simp] theorem execThrottleRise_still (f : Fin 2) (temps : List (Fin 56 × Nat)) (watts : Nat) : StillNext s (execThrottleRise f temps watts s) := by
  unfold execThrottleRise
  dsimp only
  split
  · simp
  · simp [State.setPower]

@[simp] theorem execThrottleFall_still (f : Fin 2) (temps : List (Fin 56 × Nat)) (watts : Nat) : StillNext s (execThrottleFall f temps watts s) := by
  unfold execThrottleFall
  dsimp only
  split
  · refine (stillNext_next _ _).mpr ((State.setPower_still _ _ rfl rfl rfl).trans ?_)
    simp
  · simp

@[simp] theorem execPwrHot_still (temps : List (Fin 56 × Nat)) : StillNext s (execPwrHot temps s) := by simp [execPwrHot]

@[simp] theorem execDomainPowerOnDone_still (d : Fin 186) : StillNext s (execDomainPowerOnDone d s) := by simp [execDomainPowerOnDone]

@[simp] theorem execDomainFault_still (d : Fin 186) : StillNext s (execDomainFault d s) := by
  unfold execDomainFault
  dsimp only
  (repeat' split) <;> simp

@[simp] theorem execOppChange_still (t : Fin 136) : StillNext s (execOppChange t s) := by simp [execOppChange]

@[simp] theorem execDatelineTick_still : StillNext s (execDatelineTick s) := by simp [execDatelineTick]

@[simp] theorem execPpsEdge_still : StillNext s (execPpsEdge s) := by
  unfold execPpsEdge
  dsimp only
  (repeat' split) <;> simp

@[simp] theorem execPpsServoSecond_still (mean : Int) : StillNext s (execPpsServoSecond mean s) := by simp [execPpsServoSecond]

@[simp] theorem execPpsLoss_still : StillNext s (execPpsLoss s) := by simp [execPpsLoss]

@[simp] theorem execPtpLoss_still : StillNext s (execPtpLoss s) := by simp [execPtpLoss]

end

end Sys2Proof.Machine
end

section
/-! PROOFS. What every command does to the still fields, and from it: the queue (O3), the fuses (R462), the active image (R467), the trip wire and the straps (R529, R531), the closed TAP (R535). -/

namespace Sys2Proof.Machine

/-- What a command of a state can do to the still fields: most keep them; power, trips, firmware, life cycle and the TAP change the ones named here. -/
inductive StillMove (s : State) : Instr → Still → Prop
  | keeps (c : Instr) : StillMove s c s.still
  | powerRises (k : Fin 4) (aux : Bool) : StillMove s (.powerGoodRise k aux)
      { s.still with good := true, strap := k.val, thermN := s.power.thermN && !aux, tap := if aux then .idcode else s.tap }
  | powerFalls : StillMove s .powerGoodFall { s.still with good := false }
  | trips (c : Instr) : StillMove s c { s.still with thermN := true }
  | stages (q : Fin 64) (bad : Bool) (fails slot : Nat) (img : Bytes) (h : slot ≠ s.fwActive % 2) :
      StillMove s (.firmwareStage q bad fails) { s.still with images := kvSet s.sel.images slot img }
  | commits (c : Instr) (img : Bytes) : StillMove s c { s.still with fuses := s.sel.fuses.commit img }
  | blows (c : Instr) (dest : Nat) (uds : Bytes) : StillMove s c
      { s.still with
        fuses := { s.sel.fuses with lc := lcBlow s.sel.fuses.lc dest, uds := uds },
        tap := if tapOpen s.lifeCycle && !tapOpen (lcCode (lcBlow s.sel.fuses.lc dest)) then .idcode else s.tap }
  | selects (c : Instr) (i : TapIns) (h : tapOpen s.lifeCycle = false → i = .bypass ∨ i = .idcode) : StillMove s c { s.still with tap := i }
  | leavesBlank (c : Instr) (h : s.lifeCycle = 0) :
      StillMove s c { s.still with tap := .blankToTest, fuses := { s.sel.fuses with lc := lcBlow s.sel.fuses.lc 1 } }

/-- The outcome is a next state to which the command may lead as far as the still fields go. -/
def StillStep (s : State) (c : Instr) (o : Host.Outcome State Fault Refusal) : Prop := ∃ u, o = .next u ∧ StillMove s c u.still

/-- A command that keeps the still fields makes such a step. -/
theorem StillNext.step {s : State} {o : Host.Outcome State Fault Refusal} (h : StillNext s o) (c : Instr) : StillStep s c o := by
  obtain ⟨u, rfl, hu⟩ := h
  exact ⟨u, rfl, hu ▸ .keeps c⟩

/-- A next state whose still fields are those of a move. -/
theorem StillMove.step {s u : State} {c : Instr} {st : Still} (h : StillMove s c st) (hu : u.still = st) : StillStep s c (.next u) :=
  ⟨u, rfl, hu ▸ h⟩

section
variable (s : State)

/-- A management command keeps the still fields, or runs its own rules on a state that differs in no still field and not in the Seal (R36, R412). -/
theorem State.mgmtCommand_cases (q op : Nat) (own : Bytes → ReplyTo → State → State) :
    (s.mgmtCommand q op own).still = s.still ∨ ∃ b r x, s.mgmtCommand q op own = own b r x ∧ x.still = s.still ∧ x.sel = s.sel := by
  have started (c : Cmd) : (s.started q c).sel = s.sel := by unfold State.started; dsimp only; split <;> rfl
  unfold State.mgmtCommand
  dsimp only
  split
  · split
    · exact .inr ⟨_, _, _, rfl, by simp, rfl⟩
    · exact .inl rfl
  · split
    · exact .inl rfl
    · split
      · exact .inl (by simp)
      · split
        · exact .inl (by simp)
        · exact .inr ⟨_, _, _, rfl, by simp, started _⟩

/-- What drives THERM_TRIP_N low changes that wire alone of the still fields. -/
theorem State.setTherm_still {f : Power → Power} (good : (f s.power).good = s.power.good) (strap : (f s.power).strap = s.power.strap)
    (therm : (f s.power).thermN = true) : (s.setPower f).still = { s.still with thermN := true } := by
  simp only [State.setPower, State.still]
  rw [good, strap, therm]

/-- What follows a trip drives THERM_TRIP_N low (R499, R529). -/
@[simp] theorem State.tripActs_still (fails : Nat) : (s.tripActs fails).still = { s.still with thermN := true } := by
  simp only [State.tripActs, State.ledgerPut_still, State.lifeAdd_still]
  rw [State.setTherm_still _ rfl rfl rfl]
  simp

@[simp] theorem State.trip_still (code info fails : Nat) : (s.trip code info fails).still = { s.still with thermN := true } := by
  simp [State.trip]

/-- The LC fuse of a transition, and the TAP where access closes (R473, R476). -/
theorem State.blowLc_still (dest : Nat) : ∃ uds, (s.blowLc dest).still =
    { s.still with
      fuses := { s.sel.fuses with lc := lcBlow s.sel.fuses.lc dest, uds := uds },
      tap := if tapOpen s.lifeCycle && !tapOpen (lcCode (lcBlow s.sel.fuses.lc dest)) then .idcode else s.tap } := ⟨_, rfl⟩

/-- A change of the images is one of the still fields, and the only one. -/
theorem State.setImages_still (f : AMap Bytes → AMap Bytes) :
    (s.setSel (fun k => { k with images := f k.images })).still = { s.still with images := f s.sel.images } := rfl

section

/-- Power rises: the straps are sampled, and a lost VDD_AUX releases the trip and resets the TAP (R529, R531). -/
theorem execPowerGoodRise_move (straps : Fin 4) (auxLost : Bool) :
    StillStep s (.powerGoodRise straps auxLost) (execPowerGoodRise straps auxLost s) := by
  unfold execPowerGoodRise
  split
  · exact (StillMove.keeps _).step rfl
  · refine (StillMove.powerRises straps auxLost).step ?_
    cases auxLost <;> rw [State.resetTo_still] <;> rfl

theorem execPowerGoodFall_move : StillStep s .powerGoodFall (execPowerGoodFall s) := by
  refine StillMove.powerFalls.step ?_
  have kept := s.resetTo_still .cold none
  simp only [State.still, Still.mk.injEq] at kept ⊢
  simp [kept]

theorem execClockLoss_move (fails : Nat) (c : Instr) : StillStep s c (execClockLoss fails s) := by
  unfold execClockLoss
  split
  · exact (StillMove.keeps _).step rfl
  · split
    · exact (StillMove.keeps _).step (by simp)
    · exact (StillMove.trips _).step (by simp)

theorem execTemperatureTrip_move (sensor : Fin 56) (temp fails : Nat) (c : Instr) : StillStep s c (execTemperatureTrip sensor temp fails s) := by
  unfold execTemperatureTrip
  dsimp only
  split
  · exact (StillMove.keeps _).step (by simp)
  · exact (StillMove.trips _).step (by simp)

theorem execPersistTrip_move (f : Fin 2) (fails : Nat) (c : Instr) : StillStep s c (execPersistTrip f fails s) := by
  unfold execPersistTrip
  dsimp only
  split
  · exact (StillMove.keeps _).step (by simp)
  · exact (StillMove.trips _).step (by simp)

theorem execRailTrip_move (fails : Nat) (c : Instr) : StillStep s c (execRailTrip fails s) := by
  unfold execRailTrip
  split
  · exact (StillMove.keeps _).step rfl
  · exact (StillMove.trips _).step (by simp)

theorem execHandoverComplete_move (us f0 f1 : Nat) (c : Instr) : StillStep s c (execHandoverComplete us f0 f1 s) := by
  unfold execHandoverComplete
  dsimp only
  split
  · exact (StillMove.keeps _).step rfl
  · refine (StillMove.commits _ (s.image (s.fwActive % 2))).step ?_
    have kept : ((s.pauseEnds us stOK 8).lifeAdd 4 1).still = s.still := by simp
    simp only [State.makeAlias_still]
    simp only [State.still, Still.mk.injEq] at kept ⊢
    simp [kept, State.setSel]

theorem execTapReset_move (c : Instr) : StillStep s c (execTapReset s) :=
  (StillMove.selects c .idcode fun _ => .inr rfl).step rfl

theorem execTapInstruction_move (code : Fin 6) (c : Instr) : StillStep s c (execTapInstruction code s) := by
  unfold execTapInstruction
  dsimp only
  split
  · exact (StillMove.selects c .bypass fun _ => .inl rfl).step rfl
  · next open_ =>
    split
    · next blank =>
      obtain ⟨five, zero⟩ := blank
      exact (StillMove.leavesBlank c zero).step (by rw [five]; rfl)
    · refine (StillMove.selects c (tapCode code.val) fun closed => ?_).step rfl
      have low : code.val = 0 ∨ code.val = 1 := by
        simp [closed] at open_
        omega
      rcases low with h | h <;> simp [h, tapCode]

/-- Line operations leave the Seal. -/
theorem linesOnly.sel {s u : State} (h : linesOnly s u) : u.sel = s.sel := by
  unfold linesOnly at h
  rw [h]

/-- Where a change of the images of a state like `s` leads, whatever follows it that keeps the still fields. -/
theorem StillMove.stage {s x y : State} (q : Fin 64) (bad : Bool) (fails slot : Nat) (img : Bytes) (like : x.still = s.still) (other : slot ≠ s.fwActive % 2)
    (hy : y.still = (x.setSel (fun k => { k with images := kvSet k.images slot img })).still) : StillMove s (.firmwareStage q bad fails) y.still := by
  have images : x.sel.images = s.sel.images := congrArg Still.images like
  rw [hy, x.setImages_still (fun m => kvSet m slot img), like, images]
  exact .stages q bad fails slot img other

/-- Staging writes the slot that is not active, with the image or with what the flash then holds; every refusal writes none (R467). -/
theorem execFirmwareStage_move (q : Fin 64) (bad : Bool) (fails : Nat) :
    StillStep s (.firmwareStage q bad fails) (execFirmwareStage q bad fails s) := by
  obtain kept | ⟨b, r, x, hrun, like, hsel⟩ := s.mgmtCommand_cases q.val 0x70 _
  · exact (StillMove.keeps _).step kept
  · refine ⟨_, rfl, ?_⟩
    rw [hrun]
    have refused {y : State} (h : y.still = x.still) : StillMove s (.firmwareStage q bad fails) y.still := (h.trans like) ▸ .keeps _
    have active (off n : Nat) : (x.dramSeen off n).sealCall.fwActive = s.fwActive := by
      change (x.dramSeen off n).sel.cur.data.readLE 0x50 1 = s.sel.cur.data.readLE 0x50 1
      have seen : (x.dramSeen off n).sel = x.sel := (x.dramLoad_lines off n).sel
      rw [seen, hsel]
    have other (off n : Nat) : 1 - (x.dramSeen off n).sealCall.fwActive % 2 ≠ s.fwActive % 2 := by
      rw [active]
      omega
    dsimp only
    split
    · exact refused (by simp)
    · split
      · exact refused (by simp)
      · split
        · exact refused (by simp)
        · split
          · exact .stage (x := { (x.dramSeen (leAt b 0 8) (leAt b 8 4)).sealCall with freeCtr := _ }) q bad fails _ _ (by simp [like]) (other _ _) (by rw [State.mgmtReply_still, State.unstage_still, State.fwReject_still])
          · exact .stage (x := (x.dramSeen (leAt b 0 8) (leAt b 8 4)).sealCall) q bad fails _ _ (by simp [like]) (other _ _) (by rw [State.mgmtReply_still, State.ledgerPut_still])

/-- A transition blows its LC fuse; the Ledger records and the wipe keep the still fields (R476). -/
theorem execLifecycleSet_move (q : Fin 64) (f0 f1 : Nat) (c : Instr) : StillStep s c (execLifecycleSet q f0 f1 s) := by
  obtain kept | ⟨b, r, x, hrun, like, hsel⟩ := s.mgmtCommand_cases q.val 0x73 _
  · exact (StillMove.keeps _).step kept
  · refine ⟨_, rfl, ?_⟩
    rw [hrun]
    have refused {y : State} (h : y.still = x.still) : StillMove s c y.still := (h.trans like) ▸ .keeps _
    dsimp only
    split
    · exact refused (by simp)
    · split
      · exact refused (by simp)
      · split
        · exact refused (by simp)
        · split
          · exact refused (by simp)
          · set y := (x.sealCall.ledgerPut 1 f0 (fun m => (setPendingLc (leAt b 0 1) m).write 0x60 (sliceB b 4 48)) id).1 with hy
            have hyl : y.still = s.still := by simp [hy, like]
            obtain ⟨uds, hblow⟩ := y.blowLc_still (leAt b 0 1)
            have fuses : y.sel.fuses = s.sel.fuses := congrArg Still.fuses hyl
            have tap : y.tap = s.tap := congrArg Still.tap hyl
            have moved : StillMove s c (y.blowLc (leAt b 0 1)).still := by
              rw [hblow, hyl, tap, State.lifeCycle, fuses]
              exact .blows c _ uds
            split <;> simpa using moved

end

/-- What any command does to the still fields. -/
theorem exec_move (c : Instr) : StillStep s c (exec c s) := by
  cases c with
  | powerGoodRise straps auxLost => exact execPowerGoodRise_move s straps auxLost
  | powerGoodFall => exact execPowerGoodFall_move s
  | clockLoss fails => exact execClockLoss_move s fails _
  | temperatureTrip sensor temp fails => exact execTemperatureTrip_move s sensor temp fails _
  | persistTrip f fails => exact execPersistTrip_move s f fails _
  | railTrip fails => exact execRailTrip_move s fails _
  | handoverComplete us f0 f1 => exact execHandoverComplete_move s us f0 f1 _
  | tapReset => exact execTapReset_move s _
  | tapInstruction code => exact execTapInstruction_move s code _
  | firmwareStage q bad fails => exact execFirmwareStage_move s q bad fails
  | lifecycleSet q f0 f1 => exact execLifecycleSet_move s q f0 f1 _
  | _ => exact StillNext.step (by simp [exec]) _
end

/-- What a command does to the still fields. -/
theorem stillMove_of_exec {c : Instr} {s t : State} (h : exec c s = .next t) : StillMove s c t.still := by
  obtain ⟨u, hu, moved⟩ := exec_move s c
  exact Host.Outcome.next.inj (h.symm.trans hu) ▸ moved

section
variable {s : State} {c : Instr} {st : Still} (h : StillMove s c st)
include h

theorem StillMove.pending_eq : st.pending = s.pending := by cases h <;> rfl

theorem StillMove.strap_eq (quiet : ∀ k b, c ≠ .powerGoodRise k b) : st.strap = s.power.strap := by
  cases h with
  | powerRises k aux => exact absurd rfl (quiet k aux)
  | _ => rfl

/-- Only a power rise after a loss of VDD_AUX releases a trip (R529). -/
theorem StillMove.thermN_low (kept : ∀ k, c ≠ .powerGoodRise k true) (low : s.power.thermN = true) : st.thermN = true := by
  cases h with
  | powerRises k aux =>
    cases aux with
    | false => simp [low]
    | true => exact absurd rfl (kept k)
  | trips => rfl
  | _ => exact low

theorem StillMove.images_eq (quiet : ∀ q b f, c ≠ .firmwareStage q b f) : st.images = s.sel.images := by
  cases h with
  | stages q b f => exact absurd rfl (quiet q b f)
  | _ => rfl

/-- The active slot is not the one that staging writes (R467). -/
theorem StillMove.active_image : kvFind st.images (s.fwActive % 2) = kvFind s.sel.images (s.fwActive % 2) := by
  cases h with
  | stages q b f slot img other => exact kvFind_kvSet_ne _ _ other.symm
  | _ => rfl

end

/-- No fuse changes where none does. -/
theorem Fuses.within_refl (f : Fuses) : f.within f := by simp [Fuses.within]

/-- A word keeps its bits when others are set in it. -/
theorem and_or_self (a b : Nat) : a &&& (a ||| b) = a := by
  apply Nat.eq_of_testBit_eq
  intro i
  cases h : a.testBit i <;> simp [h]

/-- A transition unblows no LC fuse (R462). -/
theorem lcBlow_keeps (lc dest : Nat) : lc &&& lcBlow lc dest = lc := by
  unfold lcBlow
  dsimp only
  (repeat' split) <;> exact and_or_self _ _

/-- A new image only adds revocations and only raises SVN_MIN (R468). -/
theorem Fuses.within_commit (f : Fuses) (img : Bytes) : f.within (f.commit img) := by
  refine ⟨Nat.and_self _, and_or_self _ _, and_or_self _ _, ?_, rfl, rfl, rfl⟩
  unfold Fuses.commit
  dsimp only
  split
  · exact le_max_left _ _
  · exact le_rfl

/-- A transition only adds to the LC fuses; the UDS is no part of the claim. -/
theorem Fuses.within_blow (f : Fuses) (dest : Nat) (uds : Bytes) : f.within { f with lc := lcBlow f.lc dest, uds := uds } :=
  ⟨lcBlow_keeps _ _, Nat.and_self _, Nat.and_self _, le_rfl, rfl, rfl, rfl⟩

/-- Every move only blows fuses (R462). -/
theorem StillMove.fuses_within {s : State} {c : Instr} {st : Still} (h : StillMove s c st) : s.sel.fuses.within st.fuses := by
  cases h with
  | commits c img => exact s.sel.fuses.within_commit img
  | blows c dest uds => exact s.sel.fuses.within_blow dest uds
  | leavesBlank => exact s.sel.fuses.within_blow 1 _
  | _ => exact s.sel.fuses.within_refl

/-- Of the LC fuses of a BLANK module, blowing TEST leaves TEST alone blown, with access open (R473, R535). -/
theorem lcCode_blow_test {lc : Nat} (blank : lcCode lc = 0) : lcCode (lcBlow lc 1) = 1 := by
  have others (i : Nat) (hi : i ≠ 0) : bitOf (lc ||| 1) i = bitOf lc i := by
    simp [bitOf, Nat.testBit_one_eq_true_iff_self_eq_zero, hi]
  have lowest : bitOf (lc ||| 1) 0 = true := by simp [bitOf]
  change lcCode (lc ||| 1) = 1
  simp only [lcCode, others, lowest, ne_eq, OfNat.ofNat_ne_zero, not_false_eq_true, one_ne_zero] at blank ⊢
  split_ifs at blank ⊢ <;> simp_all

/-- `tapSafe` of the still fields. -/
def Still.tapSafe (st : Still) : Prop := tapOpen (lcCode st.fuses.lc) = false → st.tap = .bypass ∨ st.tap = .idcode

/-- Every move keeps a closed TAP closed, the transition that closes it included (R476, R535). -/
theorem StillMove.tapSafe {s : State} {c : Instr} {st : Still} (h : StillMove s c st) (safe : Machine.tapSafe s) : st.tapSafe := by
  cases h with
  | powerRises k aux =>
    intro closed
    cases aux with
    | false => exact safe closed
    | true => exact .inr rfl
  | blows c dest uds =>
    intro (closed : tapOpen (lcCode (lcBlow s.sel.fuses.lc dest)) = false)
    cases was : tapOpen s.lifeCycle with
    | true => simp [closed]
    | false => simpa [was] using safe was
  | selects c i sel => exact sel
  | leavesBlank c blank =>
    intro (closed : tapOpen (lcCode (lcBlow s.sel.fuses.lc 1)) = false)
    rw [lcCode_blow_test blank] at closed
    cases closed
  | _ => exact safe

/-- A step runs the front command on the rest of the queue, or idles. -/
theorem step_cases {s t : State} (h : step s = .next t) :
    (s.pending = [] ∧ t = s) ∨ ∃ c r, s.pending = c :: r ∧ exec c { s with pending := r } = .next t := by
  unfold step at h
  split at h
  · next empty => exact .inl ⟨empty, (Host.Outcome.next.inj h).symm⟩
  · next c r front => exact .inr ⟨c, r, front, h⟩

/-- Settles O1: both halves are the two branches of `step`. -/
theorem stepTakesFrontCommand : Obligations.StepTakesFrontCommand :=
  ⟨fun s c r front => by simp [step, front], fun s empty => by simp [step, empty]⟩

/-- Settles O2: `exec_move` names the next state. -/
theorem everyCommandCompletes : Obligations.EveryCommandCompletes := fun c s =>
  let ⟨u, hu, _⟩ := exec_move s c
  ⟨u, hu⟩

/-- Settles O3: no move of the still fields touches the queue, so what is left is the tail that `step` hands on. -/
theorem queueShortens : Obligations.QueueShortens := by
  intro s t h
  obtain ⟨empty, rfl⟩ | ⟨c, r, front, ran⟩ := step_cases h
  · simp [empty]
  · rw [front]
    exact (stillMove_of_exec ran).pending_eq

/-- Settles O51: by the moves of the still fields. -/
theorem fusesOnlyBlow : Obligations.FusesOnlyBlow := by
  intro s t h
  obtain ⟨-, rfl⟩ | ⟨c, r, -, ran⟩ := step_cases h
  · exact t.sel.fuses.within_refl
  · exact (stillMove_of_exec ran).fuses_within

/-- Settles O52: of the moves of the still fields only staging writes an image, and not the active one. -/
theorem activeImageKept : Obligations.ActiveImageKept := fun _ _ _ ran =>
  ⟨(stillMove_of_exec ran).active_image, (stillMove_of_exec ran).images_eq⟩

/-- Settles O56: by the moves of the still fields. -/
theorem tripAndStrapsHeld : Obligations.TripAndStrapsHeld := fun _ _ _ ran =>
  ⟨(stillMove_of_exec ran).thermN_low, (stillMove_of_exec ran).strap_eq⟩

/-- Settles O58: by the moves of the still fields. -/
theorem closedAccessKept : Obligations.ClosedAccessKept := by
  intro s t safe h
  obtain ⟨-, rfl⟩ | ⟨c, r, -, ran⟩ := step_cases h
  · exact safe
  · exact (stillMove_of_exec ran).tapSafe safe

end Sys2Proof.Machine
end

section
/-! PROOFS. The unique device secret (R462): it has no part in what a register shows, and a read carries it along unchanged. -/

namespace Sys2Proof.Machine

section
variable (s : State) (u : Bytes)

/-- What shows other state than the register file shows nothing of the secret, block by block. -/
theorem State.liveView_withUds (b : Blk) (i off : Nat) : (s.withUds u).liveView b i off = s.liveView b i off := by
  cases b <;> rfl

/-- No register shows the secret. -/
theorem State.regView_withUds (p o : Nat) : (s.withUds u).regView p o = s.regView p o := by
  unfold State.regView
  cases pageBlk p with
  | none => rfl
  | some bi =>
    obtain ⟨b, i⟩ := bi
    dsimp only
    rw [s.liveView_withUds u]
    rfl

/-- The secret leaves open what is open without it: the pairs that time advances. -/
theorem State.openPair_withUds (b : Blk) (i off : Nat) : (s.withUds u).openPair b i off = s.openPair b i off := by
  cases b <;> rfl

/-- The same for the single words. -/
theorem State.openWord_withUds (b : Blk) (i off : Nat) : (s.withUds u).openWord b i off = s.openWord b i off := by
  cases b <;> rfl

/-- A read answers the same and captures the same whatever the secret is. -/
theorem State.regRead_withUds (p o : Nat) : (s.withUds u).regRead p o = ((s.regRead p o).1, (s.regRead p o).2.withUds u) := by
  have captured : (s.withUds u).captured = s.captured := rfl
  have domain (d : Nat) : (s.withUds u).domOn d = s.domOn d := rfl
  unfold State.regRead
  simp only [captured, domain, s.regView_withUds u, s.openPair_withUds u, s.openWord_withUds u]
  cases kvFind s.captured (regKey p o) with
  | some v => rfl
  | none =>
    cases pageBlk p with
    | none => rfl
    | some bi =>
      dsimp only
      (repeat' split) <;> rfl

end

/-- Settles O53: `regRead_withUds`, in its two components. -/
theorem secretUnreadable : Obligations.SecretUnreadable := fun s u p o => by
  rw [s.regRead_withUds u p o]
  exact ⟨rfl, rfl⟩

end Sys2Proof.Machine
end

section
/-! PROOFS. A tile fault (R102, R439): what it leaves in the tile and in the error registers before the READY of the tile's step goes out. -/

namespace Sys2Proof.Machine

/-- No page of a tile is the page of the letters. -/
theorem pgPRS_ne_pgSPV (t : Fin 136) : pgPRS t.val ≠ pgSPV := by unfold pgPRS pgSPV; split <;> omega

/-- A faulted tile: it issues no more, and remembers whether its step's READY is the boundary that takes the fault (R102). -/
def State.stopTile (s : State) (p : Nat) : State :=
  s.setTile p { s.tile p with run := .faulted, wait := none, newFault := (match s.step? (s.tile p).step with | some r => r.state == .opened | none => false) }

/-- The tile has stopped and its error registers and PRS_FAULT tell why (R439). -/
def State.faultNoted (s : State) (p code lo hi : Nat) : State :=
  ((s.stopTile p).setErr (pgPRS p) code (lo % 2 ^ 32) ((s.tile p).ctx % 256 * 2 ^ 24 + hi % 2 ^ 24)).latchAt (pgPRS p) 2 (s.tile p).step

section
variable (s : State) (p code lo hi : Nat)

/-- A running tile that faults, but not in a residue check: the fault is noted, then READY goes out with FAULT (R269). -/
theorem State.tileFault_running (run : (s.tile p).run = .running) (code_ne : code ≠ 0x85) :
    s.tileFault p code lo hi = (s.faultNoted p code lo hi).sendReady (s.tile p).step true := by
  unfold State.tileFault
  dsimp only
  rw [if_neg (by simp [run]), if_neg (by simp [run]), if_neg code_ne]
  rfl

/-- The tiles of a noted fault are those of the stopped tile. -/
theorem State.faultNoted_tiles : (s.faultNoted p code lo hi).tiles = (s.stopTile p).tiles := by
  simp [State.faultNoted, State.setErr]

theorem State.faultNoted_tile : (s.faultNoted p code lo hi).tile p =
    { s.tile p with run := .faulted, wait := none, newFault := (match s.step? (s.tile p).step with | some r => r.state == .opened | none => false) } := by
  rw [State.tile, s.faultNoted_tiles]
  exact tile_setTile s p _

theorem State.faultNoted_tilesBut : tilesBut s (s.faultNoted p code lo hi) p :=
  tilesBut_set s _ p _ (s.faultNoted_tiles p code lo hi)

@[simp] theorem State.faultNoted_dram : (s.faultNoted p code lo hi).dram = s.dram := by
  simp [State.faultNoted, State.stopTile, State.setErr]

end

section
variable (s : State) (t : Fin 136) (code lo hi : Nat)

/-- What an error register of a tile's page holds once the fault is noted is what the fault wrote: no letter touches it. -/
theorem State.faultNoted_errRegs {o : Nat} (ho : o = 0x024 ∨ o = 0x028 ∨ o = 0x02C) : (s.faultNoted t.val code lo hi).regN (pgPRS t.val) o =
    ((s.stopTile t.val).setErr (pgPRS t.val) code (lo % 2 ^ 32) ((s.tile t.val).ctx % 256 * 2 ^ 24 + hi % 2 ^ 24)).regN (pgPRS t.val) o := by
  unfold State.faultNoted State.regN
  rw [State.reg_latchAt]
  have := pgPRS_ne_pgSPV t
  simp only [List.mem_cons, List.not_mem_nil, or_false, not_or, regKey]
  omega

theorem State.faultNoted_errCode (h : code < 2 ^ 32) : (s.faultNoted t.val code lo hi).regN (pgPRS t.val) 0x024 = code := by
  rw [s.faultNoted_errRegs t code lo hi (.inl rfl), State.setErr, State.regN_setN_ne _ _ (by unfold regKey; omega), State.regN_setN_ne _ _ (by unfold regKey; omega),
    State.regN_setN_self _ _ _ h]

theorem State.faultNoted_errLo : (s.faultNoted t.val code lo hi).regN (pgPRS t.val) 0x028 = lo % 2 ^ 32 := by
  rw [s.faultNoted_errRegs t code lo hi (.inr (.inl rfl)), State.setErr, State.regN_setN_ne _ _ (by unfold regKey; omega), State.regN_setN_self _ _ _ (by omega)]

theorem State.faultNoted_errHi : (s.faultNoted t.val code lo hi).regN (pgPRS t.val) 0x02C = (s.tile t.val).ctx % 256 * 2 ^ 24 + hi % 2 ^ 24 := by
  rw [s.faultNoted_errRegs t code lo hi (.inr (.inr rfl)), State.setErr, State.regN_setN_self _ _ _ (by omega)]

theorem State.faultNoted_pends : pends (s.faultNoted t.val code lo hi) (pgPRS t.val) 2 := by
  unfold pends State.faultNoted
  rw [State.pend_latchAt _ _ _ _ (pgPRS_ne_pgSPV t)]
  simp

end

/-- A field of a body is below the power of two of its width. -/
theorem bfld_lt (b : Body) (lo len : Nat) : bfld b lo len < 2 ^ len := Nat.mod_lt _ (Nat.two_pow_pos len)

/-- READY goes out only for an opened step (R269). -/
theorem State.sendReady_of_not_open (s : State) (n : Nat) (f : Bool) (closed : ∀ r, s.step? n = some r → r.state ≠ .opened) : s.sendReady n f = s := by
  unfold State.sendReady
  split
  · rfl
  · next r found => exact if_neg (closed r found)

/-- A TRAP at the PC faults its tile with the code of a trap (R121). -/
theorem exec_trap {s : State} {t : Fin 136} {b : Body} (at_ : atPC s t.val 0x05 b) (named : reservedChk b (ones 15 0) [] = []) :
    exec (.trap t b) s = .next (s.tileFault t.val 0x7F (s.tile t.val).pc (bfld b 0 16)) :=
  congrArg _ (issueRaw_ok at_ named rfl)

/-- Settles O7: the state between the noting of the fault and the READY is the witness. -/
theorem tileFaultRegisters : Obligations.TileFaultRegisters := by
  refine ⟨fun t b s at_ named => ?trap, fun n f s closed => s.sendReady_of_not_open n f closed⟩
  have low : bfld b 0 16 % 2 ^ 24 = bfld b 0 16 := Nat.mod_eq_of_lt ((bfld_lt b 0 16).trans (by decide))
  refine ⟨s.faultNoted t.val 0x7F (s.tile t.val).pc (bfld b 0 16), ?_, ?_, ?_, s.faultNoted_tilesBut _ _ _ _, s.faultNoted_errCode t _ _ _ (by decide),
    s.faultNoted_errLo t _ _ _, ?_, s.faultNoted_pends t _ _ _, s.faultNoted_dram _ _ _ _⟩
  · rw [exec_trap at_ named, s.tileFault_running _ _ _ _ (atPC_run at_) (by decide)]
  · rw [State.faultNoted_tile]
  · rw [State.faultNoted_tile]
  · rw [s.faultNoted_errHi t, low]

end Sys2Proof.Machine
end

section
/-! PROOFS. Sequencer instructions without and with a transfer of control (R107, R120 to R123): where the tile goes on, and the one thing that a scalar instruction writes. -/

namespace Sys2Proof.Machine

/-- What an instruction without a failing check does that replaces its tile by one that runs (R107). -/
theorem issue_setTile {s : State} {p op : Nat} {b : Body} {w : Tile → Bool} {c : Tile → List PFault} {f : Tile → Tile} (at_ : atPC s p op b)
    (sound : c (s.tile p) = []) (ready : w (s.tile p) = false) (runs : (f (s.tile p)).run = (s.tile p).run) :
    s.issue p op b w c (fun u => s.setTile p (f u)) = (s.setTile p (f (s.tile p))).advance p := by
  rw [issue_ok at_ sound ready]
  exact goOn_ok (by rw [tile_setTile, runs, atPC_run at_])

/-- A Case read without poison, after which the tile changes and goes on (R77). -/
theorem readThen_modTile {s x : State} {p op : Nat} {b : Body} {ranges : List (Nat × Nat)} {errs : List CaseErr} {f : Tile → Tile} (at_ : atPC s p op b)
    (read : s.caseRead p ranges errs = (x, none)) (runs : (f (x.tile p)).run = (x.tile p).run) :
    s.readThen p ranges errs f = (x.modTile p f).advance p := by
  rw [readThen_none read]
  refine goOn_ok ?_
  rw [State.modTile, tile_setTile, runs, State.caseRead_run read, atPC_run at_]

section
variable (s : State) (p : Nat)

/-- An instruction that ends inside its sheet goes on at the end of its loops, or stops there (R103, R120). -/
theorem State.advance_inside (inside : ((s.tile p).loopEnd (s.tile p).depth).pc < (s.code p).length) :
    s.advance p = s.setTile p (if s.regN (pgPRS p) 0x008 % 2 = 1 then { (s.tile p).loopEnd (s.tile p).depth with stalled := 0, run := .stopped, stopWas := .running }
      else { (s.tile p).loopEnd (s.tile p).depth with stalled := 0 }) := by
  unfold State.advance
  exact if_pos inside

/-- A transfer into the sheet sets the PC alone, or the tile stops there (R103, R120). -/
theorem State.jump_inside {n : Nat} (inside : n < (s.code p).length) :
    s.jump p n = s.setTile p (if s.regN (pgPRS p) 0x008 % 2 = 1 then { s.tile p with pc := n, stalled := 0, run := .stopped, stopWas := .running }
      else { s.tile p with pc := n, stalled := 0 }) := by
  unfold State.jump
  exact if_pos inside

end

section
variable (u : Tile) (d : Nat)

/-- Outside every loop the next instruction follows. -/
theorem Tile.loopEnd_zero : u.loopEnd 0 = { u with pc := u.pc + 1, depth := 0 } := rfl

variable {u d}

/-- Inside a loop that does not end here the next instruction follows. -/
theorem Tile.loopEnd_inside (other : kvGet u.lend d 0 ≠ u.pc) : u.loopEnd (d + 1) = { u with pc := u.pc + 1, depth := d + 1 } :=
  if_neg other

/-- A loop without rounds left closes, and the next outer level decides. -/
theorem Tile.loopEnd_closes (here : kvGet u.lend d 0 = u.pc) (last : kvGet u.lcount d 0 ≤ 1) : u.loopEnd (d + 1) = u.loopEnd d := by
  rw [Tile.loopEnd, if_pos here]
  exact if_neg (Nat.not_lt.mpr last)

/-- A loop with rounds left goes back to its first instruction, one round fewer. -/
theorem Tile.loopEnd_again (here : kvGet u.lend d 0 = u.pc) (more : 1 < kvGet u.lcount d 0) :
    u.loopEnd (d + 1) = { u with pc := kvGet u.lstart d 0, depth := d + 1, lcount := kvSet u.lcount d (kvGet u.lcount d 0 - 1) } := by
  rw [Tile.loopEnd, if_pos here]
  exact if_pos more

end

/-- The end of loops leaves the run state. -/
@[simp] theorem Tile.loopEnd_run (u : Tile) (d : Nat) : (u.loopEnd d).run = u.run := by
  induction d with
  | zero => rfl
  | succ d ih =>
    unfold Tile.loopEnd
    split
    · dsimp only
      split
      · rfl
      · exact ih
    · rfl

section
variable {t : Fin 136} {s : State}

/-- NOP goes on (R107). -/
theorem exec_nop (at_ : atPC s t.val 0 0) : exec (.nop t 0) s = .next (s.advance t.val) := by
  refine congrArg Host.Outcome.next ?_
  rw [issue_ok at_ (by decide) rfl, goOn_ok (atPC_run at_)]

/-- A NOP outside loops, with its successor in the sheet and no STOP. -/
theorem exec_nop_next (at_ : atPC s t.val 0 0) (flat : (s.tile t.val).depth = 0) (inside : (s.tile t.val).pc + 1 < (s.code t.val).length)
    (free : s.regN (pgPRS t.val) 0x008 % 2 = 0) : exec (.nop t 0) s = .next (s.setTile t.val { s.tile t.val with pc := (s.tile t.val).pc + 1, stalled := 0 }) := by
  rw [exec_nop at_, s.advance_inside t.val (by rw [flat]; exact inside), if_neg (by omega), flat, Tile.loopEnd_zero, ← flat]

/-- A NOP at the end of a loop with rounds left. -/
theorem exec_nop_again {d : Nat} (at_ : atPC s t.val 0 0) (deep : (s.tile t.val).depth = d + 1) (here : kvGet (s.tile t.val).lend d 0 = (s.tile t.val).pc)
    (more : 1 < kvGet (s.tile t.val).lcount d 0) (inside : kvGet (s.tile t.val).lstart d 0 < (s.code t.val).length) (free : s.regN (pgPRS t.val) 0x008 % 2 = 0) :
    exec (.nop t 0) s = .next (s.setTile t.val
      { s.tile t.val with pc := kvGet (s.tile t.val).lstart d 0, lcount := kvSet (s.tile t.val).lcount d (kvGet (s.tile t.val).lcount d 0 - 1), stalled := 0 }) := by
  have back := Tile.loopEnd_again here more
  rw [exec_nop at_, s.advance_inside t.val (by rw [deep, back]; exact inside), if_neg (by omega), deep, back, ← deep]

end

/-- Settles O5: NOP by the end of its loops, each scalar instruction by the one write that its issue makes. -/
theorem nopAndScalarInstructions : Obligations.NopAndScalarInstructions := by
  refine ⟨fun t s at_ => exec_nop at_, fun p s => s.advance_inside p, Tile.loopEnd_zero, fun u d => Tile.loopEnd_inside, fun u d => Tile.loopEnd_closes,
    fun t s => exec_nop_next, fun t s d => exec_nop_again, ?alu, ?alui, ?movi, ?sysr, ?dset, ?sset, ?draw, ?tally⟩
  case alu => exact fun t b s at_ named => congrArg _ (issue_setTile at_ named rfl (setReg_run _ _ _))
  case alui => exact fun t b s at_ named => congrArg _ (issue_setTile at_ named rfl (setReg_run _ _ _))
  case movi => exact fun t b s at_ named => congrArg _ (issue_setTile at_ named rfl (setReg_run _ _ _))
  case sysr => exact fun t b s at_ named => congrArg _ (issue_setTile at_ named rfl (setReg_run _ _ _))
  case dset => exact fun t b s at_ named => congrArg _ (issue_setTile at_ named rfl (setDesc_run _ _ _))
  case sset => exact fun t b s at_ named => congrArg _ (issue_setTile at_ named rfl (setStream_run _ _ _))
  case draw => exact fun t b s at_ named => congrArg _ (issue_setTile at_ named rfl (setReg_run _ _ _))
  case tally =>
    intro t b s at_ assign named
    refine Eq.trans (if_neg (by simp [assign])) (congrArg _ ?_)
    exact issue_setTile at_ named rfl rfl

end Sys2Proof.Machine
end

section
/-! PROOFS. Scalar accesses to the Case (R122, R123): what they load and store, and their faults (R77, R102, R119). -/

namespace Sys2Proof.Machine

/-- A changed tile, and every other as it was. -/
theorem State.tile_modTile (s : State) (p r : Nat) (f : Tile → Tile) : (s.modTile p f).tile r = if r = p then f (s.tile p) else s.tile r := by
  split
  · next h => rw [h, State.modTile, tile_setTile]
  · next h => exact tile_setTile_ne _ _ _ _ h

section
variable (s : State) (p : Nat)

/-- Marking a tile for retirement (R74 to R76) leaves what each tile does and the step it works for. -/
theorem State.markTile_tile (r : Nat) : ((s.markTile p).tile r).run = (s.tile r).run ∧ ((s.markTile p).tile r).step = (s.tile r).step := by
  have marked (f : Tile → Tile) (q : Nat) (x : State) (hf : ∀ t, (f t).run = t.run ∧ (f t).step = t.step) :
      ((x.modTile q f).tile r).run = (x.tile r).run ∧ ((x.modTile q f).tile r).step = (x.tile r).step := by
    rw [x.tile_modTile q r f]
    split
    · next h => exact h ▸ hf _
    · exact ⟨rfl, rfl⟩
  have first := marked (fun t => { t with retire := true }) p s fun _ => ⟨rfl, rfl⟩
  unfold State.markTile
  split
  · exact ⟨rfl, rfl⟩
  · dsimp only
    split
    · next q _ =>
      have spare := marked (fun t => { t with wiping := true }) q (s.modTile p fun t => { t with retire := true }) fun _ => ⟨rfl, rfl⟩
      exact ⟨spare.1.trans first.1, spare.2.trans first.2⟩
    · unfold State.fenceFor
      split <;> exact first

@[simp] theorem State.markTile_fmn : (s.markTile p).fmn = s.fmn := by
  unfold State.markTile
  split
  · rfl
  · dsimp only
    split
    · rfl
    · unfold State.fenceFor
      split <;> rfl

/-- A poisoned word latches its event and marks the tile, which runs on for now, for the same step (R77). -/
theorem State.caseUE_tile (r : Nat) : ((s.caseUE p).tile r).run = (s.tile r).run ∧ ((s.caseUE p).tile r).step = (s.tile r).step := by
  have latched : (s.latchAt (pgPRS p) 4 (s.tile p).step).tile r = s.tile r := by simp [State.tile]
  rw [State.caseUE, ← latched]
  exact State.markTile_tile _ p r

@[simp] theorem State.caseUE_fmn : (s.caseUE p).fmn = s.fmn := by simp [State.caseUE]

@[simp] theorem State.faultNoted_fmn (code lo hi : Nat) : (s.faultNoted p code lo hi).fmn = s.fmn := by
  simp [State.faultNoted, State.stopTile, State.setErr]

end

/-- A fault of a running tile whose step is not unreleased is the noted fault: no READY goes out (R102, R269). -/
theorem State.caseFault_quiet (s : State) (p a : Nat) (run : (s.tile p).run = .running) (none_ : s.step? (s.tile p).step = none) :
    s.caseFault p a = (s.caseUE p).faultNoted p 0x80 a 0 := by
  obtain ⟨runs, step⟩ := s.caseUE_tile p p
  have quiet : ((s.caseUE p).faultNoted p 0x80 a 0).step? (s.tile p).step = none := by simpa [State.step?] using none_
  rw [State.caseFault, State.tileFault_running _ _ _ _ _ (runs.trans run) (by decide), step]
  exact State.sendReady_of_not_open _ _ _ fun r found => absurd (found.symm.trans quiet) (by simp)

section
variable {t : Fin 136} {b : Body} {errs : List CaseErr} {s x : State}

/-- LDG that fails no check reads its word (R122). -/
theorem exec_ldg_sound (at_ : atPC s t.val 0x0B b)
    (sound : reservedChk b (ones 55 30) [] ++ scalarChk (s.tile t.val) (addrOff ((s.tile t.val).reg (bfld b 46 5)) (bfld b 30 16)) 8 (bfld b 46 5) = []) :
    exec (.ldg t b errs) s = .next (s.readThen t.val [(addrOff ((s.tile t.val).reg (bfld b 46 5)) (bfld b 30 16), 8)] errs
      fun v => v.setReg (bfld b 51 5) (v.mem.readLE (addrOff ((s.tile t.val).reg (bfld b 46 5)) (bfld b 30 16)) 8)) :=
  congrArg Host.Outcome.next (issueRaw_ok at_ sound rfl)

/-- LDG at an address inside the extent that is no multiple of 8 has one failing check (R119). -/
theorem exec_ldg_misaligned (at_ : atPC s t.val 0x0B b) (named : reservedChk b (ones 55 30) [] = [])
    (odd : addrOff ((s.tile t.val).reg (bfld b 46 5)) (bfld b 30 16) % 8 ≠ 0)
    (inside : addrOff ((s.tile t.val).reg (bfld b 46 5)) (bfld b 30 16) + 8 ≤ (s.tile t.val).extent) :
    exec (.ldg t b errs) s = .next (s.tileFault t.val 0x0C (s.tile t.val).pc (bfld b 46 5)) := by
  have checks : reservedChk b (ones 55 30) [] ++ scalarChk (s.tile t.val) (addrOff ((s.tile t.val).reg (bfld b 46 5)) (bfld b 30 16)) 8 (bfld b 46 5) =
      [{ code := 0x0C, detail := bfld b 46 5 }] := by
    simp [named, scalarChk, failIf, odd, rangeOut, Nat.not_lt.mpr inside]
  have info : ({ code := 0x0C, detail := bfld b 46 5 } : PFault).info = bfld b 46 5 := by
    have := bfld_lt b 46 5
    simp [PFault.info]
    omega
  refine congrArg Host.Outcome.next ((issueRaw_bad at_ (f := { code := 0x0C, detail := bfld b 46 5 }) ?_).trans (by rw [info]))
  dsimp only
  rw [checks]
  rfl

/-- LDG of a poisoned word faults the tile (R77). -/
theorem exec_ldg_poisoned {a : Nat} (at_ : atPC s t.val 0x0B b)
    (sound : reservedChk b (ones 55 30) [] ++ scalarChk (s.tile t.val) (addrOff ((s.tile t.val).reg (bfld b 46 5)) (bfld b 30 16)) 8 (bfld b 46 5) = [])
    (read : s.caseRead t.val [(addrOff ((s.tile t.val).reg (bfld b 46 5)) (bfld b 30 16), 8)] errs = (x, some a)) :
    exec (.ldg t b errs) s = .next (x.caseFault t.val a) := by
  rw [exec_ldg_sound at_ sound, State.readThen, read]

end

/-- Settles O6: each access by its read or write; an LDG fault by its one failing check or its poisoned read. -/
theorem caseMemoryAccesses : Obligations.CaseMemoryAccesses := by
  refine ⟨?ldg, ?stg, ?dld, ?sld, fun t b errs s at_ named => exec_ldg_misaligned at_ named, ?poison⟩
  case ldg =>
    intro t b errs s x at_ sound read
    rw [exec_ldg_sound at_ sound, readThen_modTile at_ read (setReg_run _ _ _)]
  case stg => exact fun t b s at_ sound => congrArg _ (issue_setTile at_ sound rfl (writeAt_run _ _ _))
  case dld =>
    intro t b errs s x at_ sound read
    exact congrArg Host.Outcome.next ((issueRaw_ok at_ sound rfl).trans (readThen_modTile at_ read (setDesc_run _ _ _)))
  case sld =>
    intro t b errs s x at_ sound read
    exact congrArg Host.Outcome.next ((issueRaw_ok at_ sound rfl).trans (readThen_modTile at_ read (setStream_run _ _ _)))
  case poison =>
    intro t b errs a s x at_ sound read
    refine ⟨exec_ldg_poisoned at_ sound read, fun gone => ?_⟩
    obtain ⟨_, _, _, _, _, _, shape, tile, -⟩ := s.caseRead_shape t.val [(addrOff ((s.tile t.val).reg (bfld b 46 5)) (bfld b 30 16), 8)] errs
    rw [read] at shape tile
    have step : x.step? (x.tile t.val).step = none := by
      have fmn : x.fmn = s.fmn := (congrArg State.fmn shape :)
      rw [tile, State.step?, fmn]
      exact gone
    rw [x.caseFault_quiet t.val a ((State.caseRead_run read).trans (atPC_run at_)) step, State.faultNoted_tile]
    exact ⟨rfl, State.faultNoted_errCode _ t _ _ _ (by decide)⟩

end Sys2Proof.Machine
end

section
/-! PROOFS. Control of a tile's sequencer (R99, R118, R120, R121): loops, branches, the ends of sheets, and the switch of contexts. -/

namespace Sys2Proof.Machine

section
variable {t : Fin 136} {b : Body} {s : State}

/-- LOOP without a failing check: past the body for a count of 0, else into a new level (R120). -/
theorem exec_loop_sound (at_ : atPC s t.val 0x01 b)
    (named : reservedChk b (ones 55 55 + (if bbit b 55 then ones 38 34 else ones 54 39) + ones 33 21) [] = [])
    (shallow : (s.tile t.val).depth < 4) (range : rangeChk (s.tile t.val) (s.code t.val).length (((s.tile t.val).pc + bfld b 21 13 + 1 : Nat) : Int) = []) :
    exec (.loop t b) s = .next
      (if (if bbit b 55 then (s.tile t.val).reg (bfld b 34 5) % 2 ^ 32 else bfld b 39 16) = 0 then s.jump t.val ((s.tile t.val).pc + bfld b 21 13 + 2)
      else (s.setTile t.val { s.tile t.val with
        depth := (s.tile t.val).depth + 1,
        lcount := kvSet (s.tile t.val).lcount (s.tile t.val).depth (if bbit b 55 then (s.tile t.val).reg (bfld b 34 5) % 2 ^ 32 else bfld b 39 16),
        lstart := kvSet (s.tile t.val).lstart (s.tile t.val).depth ((s.tile t.val).pc + 1),
        lend := kvSet (s.tile t.val).lend (s.tile t.val).depth ((s.tile t.val).pc + bfld b 21 13 + 1) }).jump t.val ((s.tile t.val).pc + 1)) := by
  refine congrArg Host.Outcome.next (issueRaw_ok at_ ?_ rfl)
  rw [named, range, failIf, if_neg (by simpa using shallow)]
  rfl

/-- BR to an instruction of the sheet (R120). -/
theorem exec_br_sound {n : Nat} (at_ : atPC s t.val 0x02 b) (named : reservedChk b (ones 55 28) [(decide (6 < bfld b 52 4), 52)] = [])
    (target : ((s.tile t.val).pc : Int) + sext 14 (bfld b 28 14) = (n : Int)) (range : rangeChk (s.tile t.val) (s.code t.val).length (n : Int) = []) :
    exec (.br t b) s = .next (if brTaken (bfld b 52 4) ((s.tile t.val).reg (bfld b 47 5)) ((s.tile t.val).reg (bfld b 42 5)) = true then s.jump t.val n else s.advance t.val) := by
  refine congrArg Host.Outcome.next ((issueRaw_ok at_ ?_ rfl).trans ?_)
  · rw [target, named, range]
    rfl
  · rw [target]
    rfl

/-- YIELD with another context leaves the tile yielding, at the next instruction (R99). -/
theorem exec_yield_sound (at_ : atPC s t.val 0x03 0) (others : 2 ≤ (s.tile t.val).slices.length)
    (inside : ((s.tile t.val).loopEnd (s.tile t.val).depth).pc < (s.code t.val).length) :
    exec (.yield t 0) s = .next ((s.advance t.val).setTile t.val { (s.advance t.val).tile t.val with run := .yielding, atPc := (s.tile t.val).pc }) := by
  have goes : ((s.advance t.val).tile t.val).run = .running ∨ ((s.advance t.val).tile t.val).run = .stopped := by
    rw [s.advance_inside t.val inside, tile_setTile]
    split
    · exact .inr rfl
    · exact .inl (((s.tile t.val).loopEnd_run _).trans (atPC_run at_))
  refine congrArg Host.Outcome.next ((issueRaw_ok at_ ?_ rfl).trans (if_pos goes))
  rw [failIf, if_neg (by simp; omega)]
  rfl

/-- END checks that no phase is open (R121). -/
theorem endSheet_sound (outside : bitOf (s.tile t.val).phase 4 = false) :
    reservedChk 0 0 [] ++ failIf (bitOf (s.tile t.val).phase 4) 0x11 (s.tile t.val).phase = [] := by
  rw [failIf, if_neg (by simp [outside])]
  rfl

/-- END outside a phase goes to the next sheet (R121). -/
theorem exec_endSheet_next {nx : Sheet} (at_ : atPC s t.val 0x04 0) (outside : bitOf (s.tile t.val).phase 4 = false) (next : s.nextSheet (s.tile t.val) = some nx) :
    exec (.endSheet t 0) s = .next ((s.setTile t.val
      (({ s.tile t.val with depth := 0, lcount := [], lstart := [], lend := [] } : Tile).applyInits nx)).jump t.val nx.entry) := by
  refine congrArg Host.Outcome.next ((issueRaw_ok at_ (endSheet_sound outside) rfl).trans ?_)
  simp only [next]

/-- END of the last sheet ends the context (R121). -/
theorem exec_endSheet_last {v : Tile} (at_ : atPC s t.val 0x04 0) (outside : bitOf (s.tile t.val).phase 4 = false) (last : s.nextSheet (s.tile t.val) = none)
    (ended : v = { (s.tile t.val).modCtx (s.tile t.val).ctx (fun c => { c with ended := true }) with depth := 0, stalled := 0 }) :
    exec (.endSheet t 0) s = .next (s.setTile t.val { v with run := if v.nextCtx.isSome then .yielding else .idle, atPc := (s.tile t.val).pc }) := by
  subst ended
  refine congrArg Host.Outcome.next ((issueRaw_ok at_ (endSheet_sound outside) rfl).trans ?_)
  simp only [last]

/-- A reserved opcode at the PC faults the tile (R118). -/
theorem exec_opcodeFault_reserved {w : BitVec 64} (word : s.wordAt t.val = some w) (unknown : knownOpcode (w.toNat / 2 ^ 56) = false) :
    exec (.opcodeFault t) s = .next (s.tileFault t.val 1 (s.tile t.val).pc (w.toNat / 2 ^ 56)) := by
  change execOpcodeFault t s = _
  simp only [execOpcodeFault, word, unknown, Bool.false_eq_true, if_false]

end

/-- A context that ended is the only one: no other is next. -/
theorem Tile.nextCtx_ended_only {u : Tile} {c : Ctx} (only : u.slices = [{ c with ended := true }]) : u.nextCtx = none := by
  simp [Tile.nextCtx, only, List.range_succ, Nat.mod_one]

/-- The last sheet of a tile with one context ends in an idle tile (R121). -/
theorem exec_endSheet_only {t : Fin 136} {s : State} {c : Ctx} (at_ : atPC s t.val 0x04 0) (outside : bitOf (s.tile t.val).phase 4 = false)
    (last : s.nextSheet (s.tile t.val) = none) (only : (s.tile t.val).slices = [c]) (first : (s.tile t.val).ctx = 0) :
    exec (.endSheet t 0) s = .next (s.setTile t.val
      { s.tile t.val with slices := [{ c with ended := true }], depth := 0, stalled := 0, run := .idle, atPc := (s.tile t.val).pc }) := by
  have ended : (s.tile t.val).modCtx (s.tile t.val).ctx (fun c => { c with ended := true }) = { s.tile t.val with slices := [{ c with ended := true }] } := by
    simp [Tile.modCtx, only, first]
  rw [exec_endSheet_last at_ outside last rfl, ended, Tile.nextCtx_ended_only (c := c) rfl]
  rfl

/-- What a tile must be for the next context to become resident (R99): it yields, its units are idle. -/
structure Tile.Switches (u : Tile) (c : Nat) (out inc : Ctx) : Prop where
  yields : u.run = .yielding
  platen : u.platen = []
  drainA : u.bankA.drain = none
  drainB : u.bankB.drain = none
  moves : u.moves = []
  next : u.nextCtx = some c
  leaves : u.slices[u.ctx]? = some out
  enters : u.slices[c]? = some inc

section
variable {t : Fin 136} {errs : List CaseErr} {s x : State} {c : Nat} {out inc : Ctx} (ready : (s.tile t.val).Switches c out inc)
  (read : s.caseRead t.val [(0, min out.extent 0x800000)] errs = (x, none)) (mapped : dramMapped out.save (saveHead + min out.extent 0x800000) = true)
  (served : s.memOpen out.save (saveHead + min out.extent 0x800000) = true)
include ready read mapped served

/-- An incoming context that has not started begins its sheet with cleared banks (R99). -/
theorem exec_contextSwitch_begins {sh : Sheet} (fresh : inc.started = false)
    (held : (x.dramKeep out.save ((s.tile t.val).saveRecord (min out.extent 0x800000))).1.sheet? inc.sheet = some sh) :
    exec (.contextSwitch t errs) s = .next ((x.dramKeep out.save ((s.tile t.val).saveRecord (min out.extent 0x800000))).1.setTile t.val
      (s.resumed t.val c (({ (s.tile t.val).clearBanks with ctx := c } : Tile).beginAt sh))) := by
  obtain ⟨yields, platen, drainA, drainB, moves, next, leaves, enters⟩ := ready
  change execContextSwitch t errs s = _
  simp [execContextSwitch, yields, platen, drainA, drainB, moves, next, leaves, enters, read, mapped, served, fresh, held]

/-- One that has started is restored from its own record (R99, R100). -/
theorem exec_contextSwitch_restores {y z : State} {bs : Bytes} (started : inc.started = true)
    (saved : y = (x.dramKeep out.save ((s.tile t.val).saveRecord (min out.extent 0x800000))).1)
    (mapped' : dramMapped inc.save (saveHead + min inc.extent 0x800000) = true) (served' : y.memOpen inc.save (saveHead + min inc.extent 0x800000) = true)
    (load : y.dramLoad inc.save (saveHead + min inc.extent 0x800000) = (bs, false, z)) :
    exec (.contextSwitch t errs) s = .next (z.setTile t.val (s.resumed t.val c ((s.tile t.val).restore bs c (min inc.extent 0x800000)))) := by
  obtain ⟨yields, platen, drainA, drainB, moves, next, leaves, enters⟩ := ready
  subst saved
  change execContextSwitch t errs s = _
  simp [execContextSwitch, yields, platen, drainA, drainB, moves, next, leaves, enters, read, mapped, served, started, mapped', served', load]

end

/-- The initialisers of a sheet set streams and descriptors alone (R135). -/
theorem Tile.inits_keep (l : List (Bool × Nat × Nat)) (u : Tile) :
    (l.foldl (fun (x : Tile) r => if r.1 then x.setStream r.2.1 r.2.2 else x.setDesc r.2.1 (BitVec.ofNat 512 r.2.2)) u).pc = u.pc ∧
    (l.foldl (fun (x : Tile) r => if r.1 then x.setStream r.2.1 r.2.2 else x.setDesc r.2.1 (BitVec.ofNat 512 r.2.2)) u).sheet = u.sheet ∧
    (l.foldl (fun (x : Tile) r => if r.1 then x.setStream r.2.1 r.2.2 else x.setDesc r.2.1 (BitVec.ofNat 512 r.2.2)) u).ctx = u.ctx := by
  induction l generalizing u with
  | nil => exact ⟨rfl, rfl, rfl⟩
  | cons r l ih =>
    obtain ⟨pc, sheet, ctx⟩ := ih (if r.1 then u.setStream r.2.1 r.2.2 else u.setDesc r.2.1 (BitVec.ofNat 512 r.2.2))
    refine ⟨pc.trans ?_, sheet.trans ?_, ctx.trans ?_⟩ <;> split <;> rfl

/-- Settles O8, from the lemma of each instruction and of the two ways a context resumes. -/
theorem controlAndContexts : Obligations.ControlAndContexts := by
  refine ⟨?loop, ?past, fun t b s n => exec_br_sound, fun p n s => s.jump_inside p, fun t s => exec_yield_sound, fun t s nx => exec_endSheet_next,
    fun t s v => exec_endSheet_last, fun t s c => exec_endSheet_only,
    fun t b s => exec_trap, fun t w s => exec_opcodeFault_reserved, ?begins, ?restores, ?resumed, ?begun, fun bs c n u => rfl⟩
  case loop =>
    intro t b s c at_ named shallow range count some_
    rw [exec_loop_sound at_ named shallow range, ← count, if_neg some_]
  case past =>
    intro t b s at_ named shallow range none_
    rw [exec_loop_sound at_ named shallow range, if_pos none_]
  case begins =>
    intro t errs s x out inc c sh yields platen drainA drainB moves next leaves enters read mapped served fresh held
    exact exec_contextSwitch_begins ⟨yields, platen, drainA, drainB, moves, next, leaves, enters⟩ read mapped served fresh held
  case restores =>
    intro t errs s x y z out inc c bs yields platen drainA drainB moves next leaves enters read mapped served started saved mapped' served' load
    exact exec_contextSwitch_restores ⟨yields, platen, drainA, drainB, moves, next, leaves, enters⟩ read mapped served started saved mapped' served' load
  case resumed =>
    intro p c v s free
    exact ⟨if_neg (by omega), rfl, rfl⟩
  case begun =>
    intro u sh
    exact Tile.inits_keep sh.inits _

end Sys2Proof.Machine
end

section
/-! PROOFS. The Galley's banks and their drains (R60, R65, R80 to R87, R125). -/

namespace Sys2Proof.Machine

/-- A bad value that does not occur adds nothing to the reserved fields' check. -/
theorem reservedChk_false (b : Body) (named i : Nat) : reservedChk b named [(false, i)] = reservedChk b named [] := rfl

/-- A bank that waits for nothing waits for no movement. -/
theorem Tile.galleyMove_of_not_wait {u : Tile} {bank : Bool} (free : u.galleyWait bank = false) : u.galleyMove = false := by
  simp only [Tile.galleyWait, Bool.or_eq_false_iff] at free
  exact free.2

/-- Reading the operands of an MMA advances streams alone (R124). -/
theorem mmaOperands_run {u v : Tile} {b : Body} {da db : DescWord} {fs : List PFault} (operands : mmaOperands u b = (da, db, v, fs)) : v.run = u.run := by
  have same : (mmaOperands u b).2.2.1.run = u.run := by
    unfold mmaOperands
    dsimp only
    split <;> split <;> simp
  rw [← same, operands]

section
variable {t : Fin 136} {b : Body} {errs : List CaseErr} {s x : State}

/-- MMA whose operands meet no poison hands its slices to the Platen (R124). -/
theorem exec_mma_sound {da db : DescWord} {v : Tile} {fs : List PFault} (at_ : atPC s t.val 0x20 b) (chk : mmaChk (s.tile t.val) b = []) (room : (s.tile t.val).platenFull = false)
    (still : (s.tile t.val).galleyMove = false) (operands : mmaOperands (s.tile t.val) b = (da, db, v, fs))
    (read : ({ (s.setTile t.val v) with serial := s.serial + 1 } : State).caseRead t.val (descRanges da (dFmt da) (dT da) false ++ descRanges db (dFmt db) (dT db) true) errs = (x, none)) :
    exec (.mma t b errs) s = .next ((x.modTile t.val (fun w => { w with platen := w.platen ++ mmaSlices (bbit b 55) s.serial (s.tile t.val).pc da db w.mem })).advance t.val) := by
  have runs : (x.tile t.val).run = .running := (State.caseRead_run read).trans ((congrArg Tile.run (tile_setTile s t.val v)).trans ((mmaOperands_run operands).trans (atPC_run at_)))
  refine congrArg Host.Outcome.next ((issueRaw_ok at_ chk (by simp [room, still])).trans ?_)
  rw [operands]
  exact (readThen_none read).trans (goOn_ok ((congrArg Tile.run (tile_setTile x t.val _)).trans runs))

/-- The oldest slice whose residue check holds enters its bank (R60, R80). -/
theorem exec_productEntry_enters {k : KSlice} {r : List KSlice} (oldest : (s.tile t.val).platen = k :: r) (free : ((s.tile t.val).bank k.bankB).drain = none)
    (still : (s.tile t.val).galleyMove = false) :
    exec (.productEntry t false) s = .next ((s.setTile t.val (({ s.tile t.val with platen := r } : Tile).setBank k.bankB (((s.tile t.val).bank k.bankB).enterSlice k))).bump64
      (pgPRS t.val) 0x088 k.m1) := by
  change execProductEntry t false s = _
  simp [execProductEntry, oldest, free, still]

/-- One whose residue check fails enters no bank and faults the tile (R81). -/
theorem exec_productEntry_faults {k : KSlice} {r : List KSlice} (oldest : (s.tile t.val).platen = k :: r) (free : ((s.tile t.val).bank k.bankB).drain = none)
    (still : (s.tile t.val).galleyMove = false) :
    exec (.productEntry t true) s = .next (((s.setTile t.val { s.tile t.val with platen := r.filter (fun x => x.mma != k.mma) }).bump64 (pgPRS t.val) 0x088 k.m1).tileFault
      t.val 0x85 k.pc (b2n k.bankB * 2 ^ 16)) := by
  change execProductEntry t true s = _
  simp [execProductEntry, oldest, free, still]

/-- ZERO at the anchor of the instruction (R125). -/
theorem exec_zero_immediate (at_ : atPC s t.val 0x21 b) (src : bfld b 53 2 = 0) (named : reservedChk b (ones 55 53 + ones 44 29) [] = [])
    (free : (s.tile t.val).galleyWait (bbit b 55) = false) (loose : ((s.tile t.val).bank (bbit b 55)).held = false) :
    exec (.zero t b) s = .next ((s.setTile t.val ((s.tile t.val).setBank (bbit b 55) (((s.tile t.val).bank (bbit b 55)).zero (sext 16 (bfld b 29 16))))).advance t.val) := by
  refine congrArg Host.Outcome.next (Eq.trans (issue_setTile at_ ?_ free ?_) ?_)
  · simp [src, reservedChk_false, named, loose, failIf]
  · exact setBank_run _ _ _
  · simp [src]

/-- ZERO at the anchor of two descriptors (R57, R125). -/
theorem exec_zero_scaled (at_ : atPC s t.val 0x21 b) (src : bfld b 53 2 = 1) (named : reservedChk b (ones 55 53 + ones 52 45) [] = [])
    (anchors : anchorChk (s.tile t.val) (bfld b 49 4) (bfld b 45 4) = [])
    (free : (s.tile t.val).galleyWait (bbit b 55) = false) (loose : ((s.tile t.val).bank (bbit b 55)).held = false) :
    exec (.zero t b) s = .next ((s.setTile t.val ((s.tile t.val).setBank (bbit b 55) (((s.tile t.val).bank (bbit b 55)).zero
      (scaleAnchor ((s.tile t.val).desc (bfld b 49 4)) ((s.tile t.val).desc (bfld b 45 4)))))).advance t.val) := by
  refine congrArg Host.Outcome.next (Eq.trans (issue_setTile at_ ?_ free ?_) ?_)
  · simp [src, reservedChk_false, named, anchors, loose, failIf]
  · exact setBank_run _ _ _
  · simp [src]

/-- HOLD marks a bank without a drain (R87). -/
theorem exec_hold_sound (at_ : atPC s t.val 0x24 b) (named : reservedChk b (ones 55 55) [] = []) (free : ((s.tile t.val).bank (bbit b 55)).drain = none)
    (still : (s.tile t.val).galleyMove = false) :
    exec (.hold t b) s = .next ((s.setTile t.val ((s.tile t.val).setBank (bbit b 55) { (s.tile t.val).bank (bbit b 55) with held := true })).advance t.val) :=
  congrArg Host.Outcome.next (issue_setTile at_ named (by simp [free, still]) (setBank_run _ _ _))

/-- MERGE takes the other bank (R86). -/
theorem exec_merge_bank (at_ : atPC s t.val 0x23 b) (other : bbit b 54 = false) (chk : mergeChk (s.tile t.val) b = []) (free : (s.tile t.val).galleyWait (bbit b 55) = false)
    (settled : (s.tile t.val).bankBusy (!bbit b 55) = false) :
    exec (.merge t b errs) s = .next ((s.setTile t.val ((s.tile t.val).setBank (bbit b 55)
      (((s.tile t.val).bank (bbit b 55)).merge ((s.tile t.val).bank (!bbit b 55))))).advance t.val) := by
  refine congrArg Host.Outcome.next ((issueRaw_ok at_ chk (by simp [free, settled])).trans ?_)
  rw [if_neg (by simp [other])]
  exact goOn_ok ((congrArg Tile.run (tile_setTile s t.val _)).trans ((setBank_run _ _ _).trans (atPC_run at_)))

/-- MERGE takes a Case image that meets no poison (R86). -/
theorem exec_merge_image {a : Nat} (at_ : atPC s t.val 0x23 b) (image : bbit b 54 = true) (chk : mergeChk (s.tile t.val) b = []) (free : (s.tile t.val).galleyWait (bbit b 55) = false)
    (from_ : a = (s.tile t.val).reg (bfld b 49 5)) (read : s.caseRead t.val [(a, 65536)] errs = (x, none)) :
    exec (.merge t b errs) s = .next ((x.modTile t.val (fun v => v.setBank (bbit b 55) ((v.bank (bbit b 55)).mergeImage
      (fun i => BitVec.ofNat 112 (v.mem.readLE (a + 16 * i) 14))))).advance t.val) := by
  subst from_
  refine congrArg Host.Outcome.next ((issueRaw_ok at_ chk (by simp [free, image])).trans ?_)
  rw [if_pos image]
  exact (readThen_none read).trans (goOn_ok ((congrArg Tile.run (tile_setTile x t.val _)).trans ((setBank_run _ _ _).trans ((State.caseRead_run read).trans (atPC_run at_)))))

end

/-- What a DRAIN writes: the Case, the Tally and the Fount of its tile (R125). -/
def Tile.Drained (u v : Tile) : Prop := ∃ m tb fs fc, v = { u with mem := m, tlyBin := tb, fntSum := fs, fntCnt := fc }

theorem Tile.Drained.refl (u : Tile) : u.Drained u := ⟨_, _, _, _, rfl⟩

theorem Tile.Drained.trans {u v w : Tile} (h : u.Drained v) (k : v.Drained w) : u.Drained w := by
  obtain ⟨_, _, _, _, rfl⟩ := h
  obtain ⟨m, tb, fs, fc, rfl⟩ := k
  exact ⟨m, tb, fs, fc, rfl⟩

/-- A fold of steps that each only drain only drains. -/
theorem Tile.Drained.foldl {α β : Type} {f : Tile × β → α → Tile × β} (step : ∀ (a : Tile × β) (i : α), a.1.Drained (f a i).1) (l : List α) (a : Tile × β) : a.1.Drained (l.foldl f a).1 := by
  induction l generalizing a with
  | nil => exact .refl _
  | cons i l ih => exact (step a i).trans (ih _)

/-- One element of a drain (R125). -/
theorem State.drainElem_drained (s : State) (b : Body) (d : DescWord) (u : Tile) (i j : Nat) (v : FVal) : u.Drained (s.drainElem b d u i j v).1 := by
  unfold State.drainElem
  dsimp only
  split <;> split <;> exact ⟨_, _, _, _, rfl⟩

/-- Every element of a drain (R125). -/
theorem State.drainAll_drained (s : State) (b : Body) (u : Tile) : u.Drained (s.drainAll b u).1 := by
  unfold State.drainAll
  refine Tile.Drained.foldl (fun a i => ?_) _ (u, false)
  refine Tile.Drained.foldl (fun c j => ?_) _ a
  exact s.drainElem_drained b _ c.1 i j _

/-- DRAIN without a failing check converts its bank and leaves the end to DRAIN_COMPLETE (R125). -/
theorem exec_drain_sound {t : Fin 136} {b : Body} {s : State} {k : Bank} (at_ : atPC s t.val 0x22 b) (chk : drainChk (s.tile t.val) b = [])
    (free : (s.tile t.val).galleyWait (bbit b 55) = false) (bank : k = (s.tile t.val).bank (bbit b 55)) :
    exec (.drain t b) s = .next ((s.setTile t.val ((s.drainAll b (s.tile t.val)).1.setBank (bbit b 55)
      { k with held := k.held && !bbit b 44, drain := some { ovf := s.drainOvf b (s.tile t.val), nonFin := (s.drainAll b (s.tile t.val)).2, phase := (s.tile t.val).inGradPhase, zero := drainZero (s.tile t.val) b } })).advance t.val) := by
  subst bank
  obtain ⟨_, _, _, _, drained⟩ := s.drainAll_drained b (s.tile t.val)
  exact congrArg Host.Outcome.next (issue_setTile at_ chk free ((setBank_run _ _ _).trans (congrArg Tile.run drained :)))

/-! ### The end of a drain (R83) -/

/-- The counters and events of a drain's end: LOSS to both loss counters, OVF counted and latched, a loss latched (R83). -/
def State.drainCounted (s : State) (p step loss : Nat) (ovf : Bool) : State :=
  let s1 := (s.bump64 (pgPRS p) 0x050 loss).bump (pgPRS p) 0x058 loss
  let s2 := if ovf then (s1.bump (pgPRS p) 0x05C 1).latchAt (pgPRS p) 0 step else s1
  if loss = 0 then s2 else s2.latchAt (pgPRS p) 1 step

/-- The sources of R147 of a drain in a gradient phase (R83). -/
def State.drainSources (s : State) (step : Nat) (e : DrainEnd) : State :=
  let s4 := if e.phase && e.ovf then s.ovfSource step 0 else s
  if e.phase && e.nonFin then s4.ovfSource step 1 else s4

/-- A bank at its drain's end: OVF left in it, zeroed where the DRAIN asked for it (R83). -/
def Bank.drainEnds (k : Bank) (e : DrainEnd) : Bank :=
  match e.zero with
  | none => { k with ovf := k.ovf || e.ovf, drain := none }
  | some a => ({ k with ovf := k.ovf || e.ovf, drain := none } : Bank).zero a

theorem exec_drainComplete {t : Fin 136} {bank : Bool} {e : DrainEnd} {s : State} (drains : ((s.tile t.val).bank bank).drain = some e) :
    exec (.drainComplete t bank) s = .next (((s.drainCounted t.val (s.tile t.val).step ((s.tile t.val).bank bank).loss e.ovf).drainSources (s.tile t.val).step e).modTile t.val
      (fun v => v.setBank bank (((s.tile t.val).bank bank).drainEnds e))) := by
  change execDrainComplete t bank s = _
  rw [execDrainComplete]
  simp only [drains]
  rfl

/-- The sources touch the steps of the Foreman alone. -/
theorem State.drainSources_shape (s : State) (step : Nat) (e : DrainEnd) : ∃ f, s.drainSources step e = { s with fmn := f } := by
  unfold State.drainSources
  dsimp only
  split <;> split <;> exact ⟨_, rfl⟩

theorem State.drainCounted_tiles (s : State) (p step loss : Nat) (ovf : Bool) : (s.drainCounted p step loss ovf).tiles = s.tiles := by
  unfold State.drainCounted
  dsimp only
  split <;> split <;> simp [State.bump64, State.set64]

/-- A number put into a pair of registers reads back (R17). -/
theorem State.reg64_set64 (s : State) (p o : Nat) {v : Nat} (fits : v < 2 ^ 64) : (s.set64 p o v).reg64 p o = v := by
  have apart : regKey p o ≠ regKey p (o + 4) := by unfold regKey; omega
  rw [State.reg64, State.set64, State.regN_setN_ne _ _ apart, State.regN_setN_self _ _ _ (Nat.mod_lt _ (by norm_num)), State.regN_setN_self _ _ _ (by omega)]
  omega

theorem satAdd64_lt (a b : Nat) : satAdd64 a b < 2 ^ 64 := by unfold satAdd64; omega

/-- A 64-bit counter after a count: the saturating sum (R17). -/
theorem State.reg64_bump64 (s : State) (p o n : Nat) : (s.bump64 p o n).reg64 p o = satAdd64 (s.reg64 p o) n := s.reg64_set64 p o (satAdd64_lt _ _)

/-- A count in a pair of registers leaves every other register. -/
theorem State.reg_bump64_ne (s : State) {p o q u : Nat} (n : Nat) (low : regKey q u ≠ regKey p o) (high : regKey q u ≠ regKey p (o + 4)) : (s.bump64 p o n).reg q u = s.reg q u := by
  rw [State.bump64, State.set64, State.reg_setN_ne _ _ high, State.reg_setN_ne _ _ low]

theorem State.reg_bump_ne (s : State) {p o q u : Nat} (n : Nat) (other : regKey q u ≠ regKey p o) : (s.bump p o n).reg q u = s.reg q u := State.reg_setN_ne _ _ other

/-- A latch in a tile's block leaves the tile's counters. -/
theorem State.reg_latchAt_counter (s : State) (t : Fin 136) (bit step : Nat) {o : Nat} (counter : 0x024 ≤ o) (inside : o < 0x1000) :
    (s.latchAt (pgPRS t.val) bit step).reg (pgPRS t.val) o = s.reg (pgPRS t.val) o := by
  have := pgPRS_ne_pgSPV t
  apply State.reg_latchAt
  simp only [List.mem_cons, List.not_mem_nil, or_false, not_or, regKey]
  omega

/-- A latched event stays pending through a latch of the same block. -/
theorem State.pends_latchAt (s : State) (t : Fin 136) (bit step : Nat) (small : bit < 32) : pends (s.latchAt (pgPRS t.val) bit step) (pgPRS t.val) bit := by
  unfold pends
  rw [State.pend_latchAt _ _ _ _ (pgPRS_ne_pgSPV t), BitVec.getLsbD_or, getLsbD_single_bit small]
  simp

theorem State.pends_latchAt_of (s : State) (t : Fin 136) (bit step other : Nat) (had : pends s (pgPRS t.val) other) : pends (s.latchAt (pgPRS t.val) bit step) (pgPRS t.val) other := by
  unfold pends at *
  rw [State.pend_latchAt _ _ _ _ (pgPRS_ne_pgSPV t)]
  simp [had]

section
variable (s : State) (t : Fin 136) (step loss : Nat) (ovf : Bool)

/-- Where the loss counters and the count of OVF stand after a drain's end (R83). -/
theorem State.drainCounted_reg (o : Nat) (counter : 0x024 ≤ o) (inside : o < 0x1000) :
    (s.drainCounted t.val step loss ovf).reg (pgPRS t.val) o =
      (if ovf then (((s.bump64 (pgPRS t.val) 0x050 loss).bump (pgPRS t.val) 0x058 loss).bump (pgPRS t.val) 0x05C 1)
        else ((s.bump64 (pgPRS t.val) 0x050 loss).bump (pgPRS t.val) 0x058 loss)).reg (pgPRS t.val) o := by
  unfold State.drainCounted
  dsimp only
  split <;> split <;> simp only [State.reg_latchAt_counter _ t _ _ counter inside]

theorem State.drainCounted_loss32 : (s.drainCounted t.val step loss ovf).regN (pgPRS t.val) 0x058 = satAdd32 (s.regN (pgPRS t.val) 0x058) loss := by
  have apart : regKey (pgPRS t.val) 0x058 ≠ regKey (pgPRS t.val) 0x05C := by unfold regKey; omega
  have kept : (s.bump64 (pgPRS t.val) 0x050 loss).regN (pgPRS t.val) 0x058 = s.regN (pgPRS t.val) 0x058 :=
    congrArg BitVec.toNat (s.reg_bump64_ne loss (by unfold regKey; omega) (by unfold regKey; omega))
  rw [State.regN, s.drainCounted_reg t step loss ovf _ (by norm_num) (by norm_num), ← kept]
  split
  · exact (State.regN_bump_ne _ _ apart).trans (State.regN_bump_self _ _ _ _)
  · exact State.regN_bump_self _ _ _ _

theorem State.drainCounted_ovf : (s.drainCounted t.val step loss ovf).regN (pgPRS t.val) 0x05C = satAdd32 (s.regN (pgPRS t.val) 0x05C) (b2n ovf) := by
  have kept : ((s.bump64 (pgPRS t.val) 0x050 loss).bump (pgPRS t.val) 0x058 loss).regN (pgPRS t.val) 0x05C = s.regN (pgPRS t.val) 0x05C :=
    congrArg BitVec.toNat ((State.reg_bump_ne _ loss (by unfold regKey; omega)).trans (s.reg_bump64_ne loss (by unfold regKey; omega) (by unfold regKey; omega)))
  rw [State.regN, s.drainCounted_reg t step loss ovf _ (by norm_num) (by norm_num), ← kept]
  cases ovf with
  | true => exact State.regN_bump_self _ _ _ _
  | false =>
    have := State.regN_lt ((s.bump64 (pgPRS t.val) 0x050 loss).bump (pgPRS t.val) 0x058 loss) (pgPRS t.val) 0x05C
    simp only [b2n, satAdd32, Bool.false_eq_true, if_false]
    change State.regN _ _ _ = _
    omega

theorem State.drainCounted_loss64 : (s.drainCounted t.val step loss ovf).reg64 (pgPRS t.val) 0x050 = satAdd64 (s.reg64 (pgPRS t.val) 0x050) loss := by
  have kept : ∀ o, o = 0x050 ∨ o = 0x054 → (s.drainCounted t.val step loss ovf).reg (pgPRS t.val) o = (s.bump64 (pgPRS t.val) 0x050 loss).reg (pgPRS t.val) o := by
    intro o low
    rw [s.drainCounted_reg t step loss ovf o (by omega) (by omega)]
    split
    · exact (State.reg_bump_ne _ _ (by unfold regKey; omega)).trans (State.reg_bump_ne _ _ (by unfold regKey; omega))
    · exact State.reg_bump_ne _ _ (by unfold regKey; omega)
  rw [← s.reg64_bump64, State.reg64, State.reg64, State.regN, State.regN, State.regN, State.regN, kept _ (.inl rfl), kept _ (.inr rfl)]

theorem State.drainCounted_pends_ovf (sets : ovf = true) : pends (s.drainCounted t.val step loss ovf) (pgPRS t.val) 0 := by
  subst sets
  unfold State.drainCounted
  dsimp only
  rw [if_pos rfl]
  split
  · exact State.pends_latchAt _ t 0 step (by norm_num)
  · exact State.pends_latchAt_of _ t 1 step 0 (State.pends_latchAt _ t 0 step (by norm_num))

theorem State.drainCounted_pends_loss (lost : loss ≠ 0) : pends (s.drainCounted t.val step loss ovf) (pgPRS t.val) 1 := by
  unfold State.drainCounted
  dsimp only
  rw [if_neg lost]
  exact State.pends_latchAt _ t 1 step (by norm_num)

end

/-- Settles O9, from the lemma of each instruction, of the slice that enters and of the drain's end. -/
theorem galleyAndDrains : Obligations.GalleyAndDrains := by
  refine ⟨fun t b errs s x da db v fs => exec_mma_sound, fun t k r s => exec_productEntry_enters, fun t k r s => exec_productEntry_faults,
    fun t b s => exec_zero_immediate, fun t b s => exec_zero_scaled, fun t b s => exec_hold_sound, fun t b errs s => exec_merge_bank,
    fun t b errs s x a => exec_merge_image, fun t b s k => exec_drain_sound, fun b u s => s.drainAll_drained b u, ?quiet, ?ends⟩
  case quiet =>
    intro t bank e s drains within finite exact_ kept
    have ends : ((s.tile t.val).bank bank).drainEnds e = { (s.tile t.val).bank bank with drain := none } := by
      simp [Bank.drainEnds, kept, within]
    have sources : ∀ x : State, x.drainSources (s.tile t.val).step e = x := by
      intro x
      simp [State.drainSources, within, finite]
    have counted : s.drainCounted t.val (s.tile t.val).step ((s.tile t.val).bank bank).loss e.ovf = (s.bump64 (pgPRS t.val) 0x050 0).bump (pgPRS t.val) 0x058 0 := by
      simp [State.drainCounted, exact_, within]
    refine ⟨_, exec_drainComplete drains, ?_⟩
    rw [sources, ends, counted]
    refine ⟨tile_setTile _ _ _, rfl, fun p o other => ?_⟩
    simp only [List.map_cons, List.map_nil, List.mem_cons, List.not_mem_nil, or_false, not_or] at other
    exact (State.reg_bump_ne _ _ other.2.2).trans (s.reg_bump64_ne _ other.1 other.2.1)
  case ends =>
    intro t bank e s k drains after
    subst after
    obtain ⟨f, sources⟩ := (s.drainCounted t.val (s.tile t.val).step ((s.tile t.val).bank bank).loss e.ovf).drainSources_shape (s.tile t.val).step e
    have tiles := s.drainCounted_tiles t.val (s.tile t.val).step ((s.tile t.val).bank bank).loss e.ovf
    refine ⟨_, exec_drainComplete drains, ?_⟩
    rw [sources]
    refine ⟨?_, fun q other => ?_, s.drainCounted_loss32 t _ _ _, s.drainCounted_ovf t _ _ _, s.drainCounted_loss64 t _ _ _,
      s.drainCounted_pends_ovf t _ _ _, s.drainCounted_pends_loss t _ _ _⟩
    · refine (tile_setTile _ _ _).trans (congrArg₂ (fun v k => Tile.setBank v bank k) (congrArg (fun x => kvGet x t.val Tile.reset) tiles :) ?_)
      cases at_ : e.zero <;> simp only [Bank.drainEnds, at_]
    · exact (tile_setTile_ne _ _ _ _ other).trans (congrArg (fun x => kvGet x q Tile.reset) tiles :)

end Sys2Proof.Machine
end

section
/-! PROOFS. PHASE, the layout switch and HELD_OPEN (R88, R133, R288). -/

namespace Sys2Proof.Machine

/-- The imposition in force lacks the layout of a phase (R288). -/
def State.lacksLayout (s : State) (kind : Nat) : Bool :=
  match s.imp.active with
  | none => false
  | some m => !bitOf m.layouts kind

section
variable {t : Fin 136} {b : Body} {s : State}

/-- PHASE with END = 0 outside a phase (R133). -/
theorem exec_phaseBegin_sound (at_ : atPC s t.val 0x68 b) (begins : bbit b 51 = false) (named : reservedChk b (phaseNamed b) [] = [])
    (outside : bitOf (s.tile t.val).phase 4 = false) :
    exec (.phaseBegin t b) s = .next (((if s.lacksLayout (bfld b 54 2) then s.bump pgIMP 0x068 1 else s).setTile t.val
      { s.tile t.val with phase := bfld b 54 2 + bfld b 52 2 * 4 + 16, layoutSw := some (s.layoutFor (bfld b 54 2)) }).advance t.val) := by
  change execPhaseBegin t b s = _
  rw [execPhaseBegin, if_neg (by simp [begins])]
  refine congrArg Host.Outcome.next ((issue_ok at_ (by simp [named, outside, failIf]) rfl).trans ?_)
  exact goOn_ok ((congrArg Tile.run (tile_setTile _ t.val _)).trans (atPC_run at_))

/-- PHASE with END = 1 of the open phase, up to what it does (R133). -/
theorem exec_phaseEnd_sound (at_ : atPC s t.val 0x68 b) (ends : bbit b 51 = true) (named : reservedChk b (phaseNamed b) [] = [])
    (open_ : (s.tile t.val).phase = bfld b 54 2 + bfld b 52 2 * 4 + 16) :
    exec (.phaseEnd t b) s = .next (if bfld b 54 2 = 2 ∧ (s.tile t.val).bankA.held then s.tileFault t.val 0x81 (s.tile t.val).pc 0
      else if bfld b 54 2 = 2 ∧ (s.tile t.val).bankB.held then s.tileFault t.val 0x81 (s.tile t.val).pc (2 ^ 16)
      else (s.setTile t.val { s.tile t.val with phase := (s.tile t.val).phase % 16 }).advance t.val) := by
  have goes : (s.setTile t.val { s.tile t.val with phase := (s.tile t.val).phase % 16 }).goOn t.val = (s.setTile t.val { s.tile t.val with phase := (s.tile t.val).phase % 16 }).advance t.val :=
    goOn_ok ((congrArg Tile.run (tile_setTile _ t.val _)).trans (atPC_run at_))
  change execPhaseEnd t b s = _
  rw [execPhaseEnd, if_neg (by simp [ends]), ← goes]
  exact congrArg Host.Outcome.next (issueRaw_ok at_ (by simp [named, open_, failIf]) rfl)

/-- A held bank at the end of BWD faults the tile with HELD_OPEN (R88). -/
theorem exec_phaseEnd_held (at_ : atPC s t.val 0x68 b) (ends : bbit b 51 = true) (named : reservedChk b (phaseNamed b) [] = [])
    (open_ : (s.tile t.val).phase = bfld b 54 2 + bfld b 52 2 * 4 + 16) (backward : bfld b 54 2 = 2)
    (held : (s.tile t.val).bankA.held = true ∨ (s.tile t.val).bankB.held = true) :
    exec (.phaseEnd t b) s = .next (s.tileFault t.val 0x81 (s.tile t.val).pc (if (s.tile t.val).bankA.held then 0 else 2 ^ 16)) := by
  rw [exec_phaseEnd_sound at_ ends named open_]
  cases a : (s.tile t.val).bankA.held with
  | true => rw [if_pos ⟨backward, rfl⟩, if_pos rfl]
  | false =>
    have other : (s.tile t.val).bankB.held = true := held.resolve_left (by simp [a])
    rw [if_neg (by simp), if_pos ⟨backward, other⟩, if_neg (by simp)]

end

/-- Settles O14, from the lemma of each instruction; what a fault notes is `State.faultNoted`. -/
theorem phaseInstructionsAndHeldBanks : Obligations.PhaseInstructionsAndHeldBanks := by
  refine ⟨?begins, ?ends, ?switch, fun t b s => exec_phaseEnd_held, ?faults⟩
  case begins =>
    intro t b s at_ begins named outside
    rw [exec_phaseBegin_sound at_ begins named outside, State.lacksLayout]
    cases s.imp.active with
    | none => simp only [Bool.false_eq_true, if_false]
    | some i => cases has : bitOf i.layouts (bfld b 54 2) <;> simp [has]
  case ends =>
    intro t b s at_ ends named open_ loose
    rw [exec_phaseEnd_sound at_ ends named open_, if_neg, if_neg]
    · rintro ⟨backward, held⟩
      simp [(loose backward).2] at held
    · rintro ⟨backward, held⟩
      simp [(loose backward).1] at held
  case switch =>
    intro t l s switches
    change execLayoutSwitchDone t s = _
    simp only [execLayoutSwitchDone, switches]
  case faults =>
    intro t b s at_ ends named open_ backward held unlisted
    refine ⟨_, exec_phaseEnd_held at_ ends named open_ backward (.inl held), ?_⟩
    rw [s.tileFault_running _ _ _ _ (atPC_run at_) (by decide), State.sendReady_of_not_open]
    · exact ⟨congrArg Tile.run (s.faultNoted_tile _ _ _ _), s.faultNoted_errCode t _ _ _ (by decide), s.faultNoted_pends t _ _ _⟩
    · intro r found
      rw [State.step?, State.faultNoted_fmn] at found
      exact absurd (unlisted.symm.trans found) (by simp)

end Sys2Proof.Machine
end

section
/-! PROOFS. Writes of PRS.CTRL (R34, R74, R103). -/

namespace Sys2Proof.Machine

section
variable (s : State) (t : Fin 136)

/-- A write of a tile's CTRL is refused where it changes a field of R34 in STEPPING, and nowhere else. -/
theorem State.regCheck_prsCtrl (v : Nat) :
    s.regCheck (pgPRS t.val) 0x008 v true = if s.fmn.state = .stepping ∧ s.changesNow (pgPRS t.val) .prs t.val 0x008 v = true then stILLEGAL else 0 := by
  simp [State.regCheck, dataPlane]

/-- A write of a tile's CTRL stores both bits and stops the tile or lets it go on (R103). -/
theorem State.regApply_prsCtrl (v : Nat) : s.regApply (pgPRS t.val) 0x008 v true = (s.storeRw (pgPRS t.val) .prs t.val 0x008 v).tileStop t.val (bitOf v 0) := by
  have heeded : s.ignores .prs t.val 0x008 v true = false := rfl
  simp only [State.regApply, pageBlk_pgPRS, heeded]
  rfl

/-- STOP changes the tile alone. -/
theorem State.tileStop_shape (p : Nat) (stop : Bool) : s.tileStop p stop = { s with tiles := (s.tileStop p stop).tiles } := by
  unfold State.tileStop
  dsimp only
  (repeat' split) <;> rfl

/-- What STOP does to the tiles depends on the tiles alone. -/
theorem State.tileStop_tiles {u : State} (p : Nat) (stop : Bool) (same : u.tiles = s.tiles) : (u.tileStop p stop).tiles = (s.tileStop p stop).tiles := by
  have tile : u.tile p = s.tile p := by rw [State.tile, same, State.tile]
  unfold State.tileStop
  rw [tile]
  dsimp only
  (repeat' split) <;> simp [same]

/-- A write of CTRL that R34 allows (R103): the register, the fields held for the boundary and the tile change, and nothing else. -/
theorem State.softWrite_prsCtrl {v : Nat} (allowed : s.fmn.state = .stepping → s.changesNow (pgPRS t.val) .prs t.val 0x008 v = false) :
    ∃ u, s.softWrite (pgPRS t.val) 0x008 v = u ∧ u = { s with regs := u.regs, heldOld := u.heldOld, tiles := (s.tileStop t.val (bitOf v 0)).tiles, answer := 0 } ∧
      u.reg (pgPRS t.val) 0x008 = writtenBits (s.regN (pgPRS t.val) 0x008) v 3 ∧ regsBut s u [(pgPRS t.val, 0x008)] := by
  have made : s.regCheck (pgPRS t.val) 0x008 v true = 0 := by
    rw [s.regCheck_prsCtrl, if_neg]
    rintro ⟨stepping, changes⟩
    simp [allowed stepping] at changes
  obtain ⟨held, stored⟩ := storeRw_shape s (pgPRS t.val) .prs t.val 0x008 v
  refine ⟨_, (softWrite_ok s _ _ _ made).trans (by rw [s.regApply_prsCtrl, State.tileStop_shape, stored]), ?_, ?_, ?_⟩
  · dsimp only
    rw [s.tileStop_tiles _ _ (by simp)]
    rfl
  · exact State.reg_setReg_self s _ _ _
  · exact regsBut_setReg s _ _ _ _ rfl

/-- STOP leaves every other tile. -/
theorem State.tileStop_tilesBut (p : Nat) (stop : Bool) : tilesBut s (s.tileStop p stop) p := by
  unfold State.tileStop
  dsimp only
  (repeat' split) <;> first | exact tilesBut_set s _ p _ rfl | exact fun _ _ => rfl

theorem State.tileStop_running (p : Nat) (runs : (s.tile p).run = .running) : s.tileStop p true = s.setTile p { s.tile p with run := .stopped, stopWas := .running } := by
  simp [State.tileStop, runs]

theorem State.tileStop_idle (p : Nat) (idle : (s.tile p).run = .idle) : s.tileStop p true = s.setTile p { s.tile p with run := .stopped, stopWas := .idle } := by
  simp [State.tileStop, idle]

theorem State.tileStop_resumes (p : Nat) (stopped : (s.tile p).run = .stopped) :
    s.tileStop p false = s.setTile p { s.tile p with run := (s.tile p).stopWas, ran := (s.tile p).ran || (s.tile p).stopWas == .running } := by
  simp [State.tileStop, stopped]

theorem State.tileStop_goes (p : Nat) (goes : (s.tile p).run ≠ .stopped) : s.tileStop p false = s := by
  simp [State.tileStop, goes]

end

/-- The low bit of a CTRL word with STOP. -/
theorem bitOf_stop_word (w : Nat) (stop : Bool) : bitOf (w &&& 2 ||| b2n stop) 0 = stop := by
  cases stop <;> simp [bitOf, b2n]

/-- The low bit of a CTRL word with RETIRE is STOP as it stands. -/
theorem bitOf_retire_word (w : Nat) (retire : Bool) : bitOf (w &&& 1 ||| 2 * b2n retire) 0 = bitOf w 0 := by
  cases retire <;> simp [bitOf, b2n]

/-- RETIRE waits for the boundary, so that R34 does not refuse its write (R34, R74). -/
theorem State.changesNow_retire (s : State) (t : Fin 136) (retire : Bool) :
    s.changesNow (pgPRS t.val) .prs t.val 0x008 (s.regN (pgPRS t.val) 0x008 &&& 1 ||| 2 * b2n retire) = false := by
  have view : s.regView (pgPRS t.val) 0x008 = s.regN (pgPRS t.val) 0x008 := by simp [State.regView, State.liveView, State.prsView]
  have low : (s.regN (pgPRS t.val) 0x008 &&& 1 ||| 2 * b2n retire) &&& 1 = s.regN (pgPRS t.val) 0x008 &&& 1 := by
    rw [Nat.and_or_distrib_right, Nat.and_assoc]
    cases retire <;> simp [b2n]
  simp only [Nat.and_one_is_mod] at low
  simp [State.changesNow, rwMask, boundMask, actMask, view, low]

/-- Settles O15: a write of CTRL that R34 allows does what `State.softWrite_prsCtrl` says, and STOP what the `State.tileStop` lemmas say. -/
theorem tileControlWrites : Obligations.TileControlWrites := by
  refine ⟨?stops, ?resumes, ?retires, ?stop, ?retire, fun t s => s.tileStop_idle t.val, ?refused⟩
  case stops =>
    intro t s free runs
    obtain ⟨u, write, shape, -, regs⟩ := s.softWrite_prsCtrl t (v := s.regN (pgPRS t.val) 0x008 &&& 2 ||| b2n true) (fun h => absurd h free)
    rw [bitOf_stop_word] at shape
    have tiles : ∀ q, u.tile q = (s.tileStop t.val true).tile q := fun q => by rw [shape]; rfl
    refine ⟨u, congrArg Host.Outcome.next write, by rw [shape], ?_, fun q other => (tiles q).trans (s.tileStop_tilesBut _ _ q other), regs⟩
    rw [tiles, s.tileStop_running _ runs, tile_setTile]
  case resumes =>
    intro t s free stopped
    obtain ⟨u, write, shape, -, regs⟩ := s.softWrite_prsCtrl t (v := s.regN (pgPRS t.val) 0x008 &&& 2 ||| b2n false) (fun h => absurd h free)
    rw [bitOf_stop_word] at shape
    have tiles : ∀ q, u.tile q = (s.tileStop t.val false).tile q := fun q => by rw [shape]; rfl
    refine ⟨u, congrArg Host.Outcome.next write, by rw [shape], ?_, fun q other => (tiles q).trans (s.tileStop_tilesBut _ _ q other), regs⟩
    rw [tiles, s.tileStop_resumes _ stopped, tile_setTile]
  case retires =>
    intro t r s free clear goes
    obtain ⟨u, write, shape, word, regs⟩ := s.softWrite_prsCtrl t (v := s.regN (pgPRS t.val) 0x008 &&& 1 ||| 2 * b2n r) (fun h => absurd h free)
    rw [bitOf_retire_word, clear, bitOf, Nat.zero_testBit, s.tileStop_goes _ goes] at shape
    refine ⟨u, congrArg Host.Outcome.next write, shape, ?_, regs⟩
    rw [State.regN, word, clear]
    cases r <;> rfl
  case stop =>
    intro t b v s word allowed
    subst word
    obtain ⟨u, write, shape, stored, regs⟩ := s.softWrite_prsCtrl t allowed
    rw [bitOf_stop_word] at shape
    exact ⟨u, congrArg Host.Outcome.next write, shape, stored, regs⟩
  case retire =>
    intro t b v s word
    subst word
    obtain ⟨u, write, shape, stored, regs⟩ := s.softWrite_prsCtrl t (fun _ => s.changesNow_retire t b)
    exact ⟨u, congrArg Host.Outcome.next write, shape, stored, regs⟩
  case refused =>
    intro t b v s word stepping changes
    subst word
    have refused : s.regCheck (pgPRS t.val) 0x008 (s.regN (pgPRS t.val) 0x008 &&& 2 ||| b2n b) true = stILLEGAL := by
      rw [s.regCheck_prsCtrl, if_pos ⟨stepping, changes⟩]
    refine congrArg Host.Outcome.next ((softWrite_no s _ _ _ ?_).trans ?_)
    · rw [refused]
      decide
    · rw [refused]

end Sys2Proof.Machine
end

section
/-! PROOFS. What leaves the Foreman as it is: the operations of the boundary, of the parameter store and of packets, through which the step's commands go (R269). -/

namespace Sys2Proof.Machine

@[simp] theorem fmn_ite (c : Prop) [Decidable c] (a b : State) : (if c then a else b).fmn = if c then a.fmn else b.fmn := by split <;> rfl

/-- A fold of operations that leave the Foreman leaves it. -/
@[simp] theorem fmn_foldl {α : Type} (g : State → α → State) (l : List α) (s : State) (keeps : ∀ x a, (g x a).fmn = x.fmn) : (l.foldl g s).fmn = s.fmn := by
  induction l generalizing s with
  | nil => rfl
  | cons a r ih => simp only [List.foldl_cons, ih, keeps]

@[simp] theorem fmn_foldl_fst {α β : Type} (g : State × β → α → State × β) (l : List α) (s : State × β) (keeps : ∀ x a, (g x a).1.fmn = x.1.fmn) :
    (l.foldl g s).1.fmn = s.1.fmn := by
  induction l generalizing s with
  | nil => rfl
  | cons a r ih => simp only [List.foldl_cons, ih, keeps]

@[simp] theorem State.set64_fmn (s : State) (page off v : Nat) : (State.set64 s page off v).fmn = s.fmn := by
  unfold State.set64; simp

@[simp] theorem State.bump64_fmn (s : State) (page off n : Nat) : (State.bump64 s page off n).fmn = s.fmn := by
  unfold State.bump64; simp

@[simp] theorem State.pushLetter_fmn (s : State) (q : Nat) (mk : Nat → Letter) : (State.pushLetter s q mk).fmn = s.fmn := by
  unfold State.pushLetter; split <;> simp

@[simp] theorem State.latchRaw_fmn (s : State) (page bit : Nat) : (State.latchRaw s page bit).fmn = s.fmn := by
  unfold State.latchRaw; simp

@[simp] theorem State.letter_fmn (s : State) (page bit step time : Nat) : (State.letter s page bit step time).fmn = s.fmn := by
  unfold State.letter; simp

@[simp] theorem State.fresh_fmn (s : State) : (State.fresh s).2.fmn = s.fmn := by
  unfold State.fresh; simp

@[simp] theorem State.send_fmn (s : State) (p : Packet) (org : Origin) : (State.send s p org).fmn = s.fmn := by
  unfold State.send; simp

@[simp] theorem State.selfReply_fmn (s : State) (p : Packet) (org : Origin) (status : Nat) (data : Bytes) : (State.selfReply s p org status data).fmn = s.fmn := by
  unfold State.selfReply; simp

@[simp] theorem State.recordStatus_fmn (s : State) (src lane tag status : Nat) : (State.recordStatus s src lane tag status).fmn = s.fmn := by
  unfold State.recordStatus; simp

@[simp] theorem State.reply_fmn (s : State) (d : OutPkt) (status : Nat) (data : Bytes) : (State.reply s d status data).fmn = s.fmn := by
  unfold State.reply; simp

@[simp] theorem State.setLink_fmn (s : State) (p v : Nat) : (State.setLink s p v).fmn = s.fmn := by
  unfold State.setLink; simp

@[simp] theorem State.linkNone_fmn (s : State) (p code chip : Nat) : (State.linkNone s p code chip).fmn = s.fmn := by
  rw [State.linkNone, State.setField_fmn, State.setField_fmn, State.setField_fmn, State.setField_fmn, State.setLink_fmn]

@[simp] theorem State.portDown_fmn (s : State) (p code chip : Nat) : (State.portDown s p code chip).fmn = s.fmn := by
  rw [State.portDown, State.latch_fmn, State.bump_fmn, State.linkNone_fmn, State.setPort_fmn]

@[simp] theorem State.sendSlice_fmn (s : State) (dst kind step attempt : Nat) (rest : Bytes) : (State.sendSlice s dst kind step attempt rest).fmn = s.fmn := by
  unfold State.sendSlice; simp

@[simp] theorem State.fenceFor_fmn (s : State) (cause : Nat) : (State.fenceFor s cause).fmn = s.fmn := by
  unfold State.fenceFor; simp

@[simp] theorem State.ledgerUpdate_fmn (s : State) (off : Nat) (bs : Bytes) : (State.ledgerUpdate s off bs).fmn = s.fmn := by
  unfold State.ledgerUpdate; simp

@[simp] theorem State.lifeAdd_fmn (s : State) (i n : Nat) : (State.lifeAdd s i n).fmn = s.fmn := by
  unfold State.lifeAdd; simp

@[simp] theorem State.lineRead_fmn (s : State) (off : Nat) : (State.lineRead s off).fmn = s.fmn := by
  unfold State.lineRead; simp

@[simp] theorem State.linePoison_fmn (s : State) (off : Nat) : (State.linePoison s off).fmn = s.fmn := by
  unfold State.linePoison; simp

@[simp] theorem State.lineLoad_fmn (s : State) (off : Nat) : (State.lineLoad s off).fmn = s.fmn := by
  unfold State.lineLoad; (repeat' split) <;> simp

@[simp] theorem State.dramLoad_fmn (s : State) (off n : Nat) : (State.dramLoad s off n).2.2.fmn = s.fmn := by
  unfold State.dramLoad; simp

@[simp] theorem State.linePut_fmn (s : State) (off : Nat) (bs : Bytes) : (State.linePut s off bs).1.fmn = s.fmn := by
  unfold State.linePut; (repeat' split) <;> simp

@[simp] theorem State.lineWrite_fmn (s : State) (off : Nat) (bs : Bytes) : (State.lineWrite s off bs).1.fmn = s.fmn := by
  unfold State.lineWrite; (repeat' split) <;> simp

@[simp] theorem State.dramStore_fmn (s : State) (off : Nat) (bs : Bytes) : (State.dramStore s off bs).1.fmn = s.fmn := by
  unfold State.dramStore; simp

@[simp] theorem State.chanStore_fmn (s : State) (ch coff : Nat) (bs : Bytes) : (State.chanStore s ch coff bs).1.fmn = s.fmn := by
  unfold State.chanStore; simp

@[simp] theorem State.sendDeltas_fmn (s : State) (ink ch coff : Nat) (old new : Bytes) (held : Bool) (step att serial : Nat) : (State.sendDeltas s ink ch coff old new held step att serial).1.fmn = s.fmn := by
  unfold State.sendDeltas
  split
  · rfl
  · refine fmn_foldl_fst _ _ _ fun _ _ => fmn_foldl_fst _ _ _ fun _ _ => ?_
    split <;> simp

@[simp] theorem State.winPut_fmn (s : State) (ch coff : Nat) (bs : Bytes) : (State.winPut s ch coff bs).1.fmn = s.fmn := by
  unfold State.winPut; simp

@[simp] theorem State.dramWindow_fmn (s : State) (ink off : Nat) (bs : Bytes) (held : Option Item) : (State.dramWindow s ink off bs held).1.fmn = s.fmn := by
  unfold State.dramWindow; dsimp only; split <;> simp

@[simp] theorem State.dramKeep_fmn (s : State) (off : Nat) (bs : Bytes) : (State.dramKeep s off bs).1.fmn = s.fmn := by
  unfold State.dramKeep; dsimp only; (repeat' split) <;> simp

@[simp] theorem State.dramPut_fmn (s : State) (off : Nat) (bs : Bytes) : (State.dramPut s off bs).fmn = s.fmn := by
  unfold State.dramPut; simp

@[simp] theorem State.writeRecord_fmn (s : State) (r : ScaleRec) : (State.writeRecord s r).fmn = s.fmn := by
  unfold State.writeRecord; simp

@[simp] theorem State.putRecord_fmn (s : State) (r : ScaleRec) : (State.putRecord s r).fmn = s.fmn := by
  unfold State.putRecord; simp

@[simp] theorem State.moveRecords_fmn (s : State) : (State.moveRecords s).fmn = s.fmn := by
  unfold State.moveRecords; refine fmn_foldl _ _ _ fun _ _ => ?_; (repeat' split) <;> simp

@[simp] theorem State.trimHistories_fmn (s : State) : (State.trimHistories s).fmn = s.fmn := by
  unfold State.trimHistories; simp

@[simp] theorem State.ttPlace_fmn (s : State) : (State.ttPlace s).fmn = s.fmn := by
  unfold State.ttPlace; simp

@[simp] theorem State.lsLoad_fmn (s : State) : (State.lsLoad s).fmn = s.fmn := by
  unfold State.lsLoad; simp

@[simp] theorem State.takeSnapshots_fmn (s : State) (n : Nat) : (State.takeSnapshots s n).fmn = s.fmn := by
  unfold State.takeSnapshots; simp

@[simp] theorem State.ownHalf_fmn (s : State) (n : Nat) : (State.ownHalf s n).fmn = s.fmn := by
  unfold State.ownHalf; simp

@[simp] theorem State.pghGen_fmn (s : State) (f : Nat) : (State.pghGen s f).fmn = s.fmn := by
  unfold State.pghGen; simp

@[simp] theorem State.fillReply_fmn (s : State) (filler status : Nat) (img : Bytes) : (State.fillReply s filler status img).fmn = s.fmn := by
  unfold State.fillReply; simp

@[simp] theorem State.dropWays_fmn (s : State) (c : Nat) (f : Way → Bool) : (State.dropWays s c f).fmn = s.fmn := by
  unfold State.dropWays; simp

@[simp] theorem State.pghDrop_fmn (s : State) (f : Way → Bool) : (State.pghDrop s f).fmn = s.fmn := by
  unfold State.pghDrop; simp

@[simp] theorem State.pghNofill_fmn (s : State) (f : List Nat → List Nat) : (State.pghNofill s f).fmn = s.fmn := by
  unfold State.pghNofill; simp

@[simp] theorem State.setEdn_fmn (s : State) (x : Shard) (b v : Nat) : (State.setEdn s x b v).fmn = s.fmn := by
  unfold State.setEdn; simp

@[simp] theorem State.setBuf_fmn (s : State) (x : Shard) (b st : Nat) : (State.setBuf s x b st).fmn = s.fmn := by
  unfold State.setBuf; simp

@[simp] theorem State.publishBuf_fmn (s : State) (x : Shard) (b : Nat) : (State.publishBuf s x b).fmn = s.fmn := by
  unfold State.publishBuf; dsimp only; (repeat' split) <;> simp

@[simp] theorem State.publishShard_fmn (s : State) (x : Shard) (st : Nat) : (State.publishShard s x st).fmn = s.fmn := by
  unfold State.publishShard; (repeat' split) <;> simp

@[simp] theorem State.publishAll_fmn (s : State) (st : Nat) : (State.publishAll s st).fmn = s.fmn := by
  unfold State.publishAll; simp

@[simp] theorem State.installRepl_fmn (s : State) (r : Repl) (n : Nat) : (State.installRepl s r n).fmn = s.fmn := by
  unfold State.installRepl; (repeat' split) <;> simp

@[simp] theorem State.installReady_fmn (s : State) : (State.installReady s).fmn = s.fmn := by
  unfold State.installReady; simp

@[simp] theorem State.startTile_fmn (s : State) (p n : Nat) : (State.startTile s p n).fmn = s.fmn := by
  unfold State.startTile; dsimp only; (repeat' split) <;> simp

@[simp] theorem State.startContexts_fmn (s : State) (n : Nat) : (State.startContexts s n).fmn = s.fmn := by
  unfold State.startContexts; simp

@[simp] theorem State.resetFaulted_fmn (s : State) (p : Nat) : (State.resetFaulted s p).fmn = s.fmn := by
  unfold State.resetFaulted; simp

@[simp] theorem State.remapTile_fmn (s : State) (p : Nat) : (State.remapTile s p).fmn = s.fmn := by
  unfold State.remapTile; split <;> simp

@[simp] theorem State.pghApply_fmn (s : State) (f : Nat) : (State.pghApply s f).fmn = s.fmn := by
  unfold State.pghApply; simp

@[simp] theorem State.prfFreeze_fmn (s : State) (i : Nat) : (State.prfFreeze s i).fmn = s.fmn := by
  unfold State.prfFreeze
  split
  · rfl
  · exact (State.setN_fmn _ _ _ _).trans ((fmn_foldl _ _ _ fun _ _ => State.setN_fmn _ _ _ _).trans (State.fresh_fmn s))

@[simp] theorem State.pptApply_fmn (s : State) (p : Nat) : (State.pptApply s p).fmn = s.fmn := by
  unfold State.pptApply; simp

@[simp] theorem State.retireApply_fmn (s : State) (p : Nat) : (State.retireApply s p).fmn = s.fmn := by
  unfold State.retireApply; simp

@[simp] theorem State.cfgKeep_fmn (s : State) (commits : List (Nat × Nat × Nat)) (opt : Bool) : (State.cfgKeep s commits opt).fmn = s.fmn := by
  unfold State.cfgKeep; simp

@[simp] theorem State.writeBlock_fmn (s : State) (r : StepRec) : (State.writeBlock s r).fmn = s.fmn := by
  unfold State.writeBlock; simp

@[simp] theorem State.newestRegs_fmn (s : State) : (State.newestRegs s).fmn = s.fmn := by
  unfold State.newestRegs; split <;> simp

end Sys2Proof.Machine
end

section
/-! PROOFS. The end of a step at a member (R269). -/

namespace Sys2Proof.Machine

/-- The numbers of the unreleased steps. -/
def State.stepNums (s : State) : List Nat := s.fmn.steps.map (·.n)

/-- A step number that is listed nowhere names no step. -/
theorem State.step?_eq_none {s : State} {n : Nat} : s.step? n = none ↔ n ∉ s.stepNums := by
  simp [State.step?, State.stepNums]

/-- What leaves the Foreman lists the same steps. -/
theorem stepNums_of_fmn {s u : State} (same : u.fmn = s.fmn) : u.stepNums = s.stepNums := by rw [State.stepNums, same, State.stepNums]

/-- A change of a step that leaves its number. -/
theorem State.modStep_stepNums (s : State) (n : Nat) {f : StepRec → StepRec} (keeps : ∀ r, (f r).n = r.n) : (s.modStep n f).stepNums = s.stepNums := by
  simp only [State.stepNums, State.modStep, List.map_map]
  refine List.map_congr_left fun r _ => ?_
  simp only [Function.comp]
  split
  · exact keeps r
  · rfl

/-- A fold of operations that list no step and drop none. -/
theorem stepNums_foldl {α : Type} (g : State → α → State) (l : List α) (s : State) (keeps : ∀ x a, (g x a).stepNums = x.stepNums) :
    (l.foldl g s).stepNums = s.stepNums := by
  induction l generalizing s with
  | nil => rfl
  | cons a r ih => simp only [List.foldl_cons, ih, keeps]

/-- NUM collects a tile's counts into a step that is listed (R93, R106, R154). -/
theorem State.collect_stepNums (s : State) (p : Nat) : (((s.collectTally p).collectFount p).collectLoss p).stepNums = s.stepNums := by
  have tally : ∀ x : State, (x.collectTally p).stepNums = x.stepNums := fun x => by
    unfold State.collectTally
    dsimp only
    split
    · rfl
    · exact (stepNums_of_fmn rfl).trans (x.modStep_stepNums _ fun _ => rfl)
  have fount : ∀ x : State, (x.collectFount p).stepNums = x.stepNums := fun x => by
    unfold State.collectFount
    dsimp only
    split
    · rfl
    · exact (stepNums_of_fmn rfl).trans (x.modStep_stepNums _ fun _ => rfl)
  have loss : ∀ x : State, (x.collectLoss p).stepNums = x.stepNums := fun x => by
    unfold State.collectLoss
    dsimp only
    split
    · rfl
    · exact (stepNums_of_fmn ((State.setN_fmn _ _ _ _).trans (State.setN_fmn _ _ _ _))).trans (x.modStep_stepNums _ fun _ => rfl)
  rw [loss, fount, tally]

/-- The boundary lists no step and drops none (R33). -/
theorem State.boundary_stepNums (s : State) : s.boundary.stepNums = s.stepNums := by
  unfold State.boundary
  dsimp only
  (repeat' split) <;>
    simp only [stepNums_foldl, State.collect_stepNums, implies_true, stepNums_of_fmn (State.resetFaulted_fmn _ _), stepNums_of_fmn (State.remapTile_fmn _ _),
      stepNums_of_fmn (State.retireApply_fmn _ _), stepNums_of_fmn (State.trimHistories_fmn _), stepNums_of_fmn (State.moveRecords_fmn _), stepNums_of_fmn (State.cfgKeep_fmn _ _ _),
      stepNums_of_fmn (State.ttPlace_fmn _), stepNums_of_fmn (State.lsLoad_fmn _)] <;>
    exact stepNums_of_fmn (by simp)

/-- A report of a commit lists no step (R222, R269). -/
theorem State.tryCommitDone_stepNums (s : State) : s.tryCommitDone.stepNums = s.stepNums := by
  unfold State.tryCommitDone
  dsimp only
  (repeat' split) <;> simp only [stepNums_of_fmn (State.sendSlice_fmn _ _ _ _ _ _), stepNums_of_fmn (State.pghNofill_fmn _ _), State.modStep_stepNums, State.boundary_stepNums, implies_true]

/-- A step that is dropped is listed no more (R269). -/
theorem State.dropStep_unlists (s : State) (n : Nat) : n ∉ (s.dropStep n).stepNums := by
  have listed : (s.dropStep n).fmn.steps = s.fmn.steps.filter (fun r => r.n != n) := by
    unfold State.dropStep State.quiesce State.setMod
    dsimp only
    (repeat' split) <;> simp [State.setFmn]
  rw [State.stepNums, listed]
  simp

/-- Settles O19: the step is dropped, and what follows in the release lists no further one. -/
theorem releaseEndsStep : Obligations.ReleaseEndsStep := by
  intro s n a r found attempt committed
  rw [State.step?_eq_none, State.takeRelease, found]
  dsimp only
  rw [if_neg (by simp [attempt, committed]), State.tryCommitDone_stepNums]
  have published : ∀ x : State, (((x.publishAll edWaiting).publishAll edBuilt).noteEdition (n + 1)).stepNums = x.stepNums := fun x => by
    simp [State.stepNums, State.noteEdition]
  rw [published]
  exact State.dropStep_unlists _ n

end Sys2Proof.Machine
end

section
/-! PROOFS. The machine right after reset (R500). -/

namespace Sys2Proof.Machine

/-- After reset a register holds its table's value: none has been written. -/
theorem reset_reg (p o : Nat) : State.reset.reg p o = resetVal p o := rfl

/-- No event is pending in a table of R441's registers. -/
theorem resetVal_evtPend (p : Nat) : resetVal p 0x014 = 0 := by
  unfold resetVal
  cases pageBlk p with
  | none => rfl
  | some k =>
    obtain ⟨b, i⟩ := k
    cases b <;> rfl

/-- Settles O4: every register from `reset_reg`, the rest by evaluation. -/
theorem resetState : Obligations.ResetState := by
  refine ⟨rfl, rfl, rfl, reset_dram_wf, rfl, rfl, rfl, ?tap, rfl, reset_reg, ?lanes, ?_, ?_, ?_, ?_, resetVal_evtPend, ?phases⟩
  case tap => exact fun _ => .inr rfl
  case lanes => decide
  case phases => decide
  all_goals decide

end Sys2Proof.Machine
end

section
/-! PROOFS. The vector instructions (R89 to R93, R126 to R129). -/

namespace Sys2Proof.Machine

/-- Uses of a stream advance it alone (R116). -/
@[simp] theorem takeUses_run (n i : Nat) (u : Tile) : (takeUses n i u).2.run = u.run := by
  induction n generalizing u with
  | zero => rfl
  | succ n ih => exact (ih _).trans (setStream_run _ _ _)

/-- The uses of one round leave the run state. -/
theorem takeRound_run (streams : List Nat) (x : List Int × Tile) :
    (streams.foldl (fun (x : List Int × Tile) i => let (u, v) := takeUses 1 i x.2; (x.1 ++ u, v)) x).2.run = x.2.run := by
  induction streams generalizing x with
  | nil => rfl
  | cons i streams ih => exact (ih _).trans (takeUses_run 1 i x.2)

@[simp] theorem takeRounds_run (streams : List Nat) (n : Nat) (u : Tile) : (takeRounds streams n u).2.run = u.run := by
  induction n generalizing u with
  | zero => rfl
  | succ n ih => exact (ih _).trans (takeRound_run streams ([], u))

/-- One vector of VOP writes the Case alone (R126). -/
theorem vopVector_run (b : Body) (u : Tile) (adr : List Int) : (vopVector b u adr).1.run = u.run := by
  unfold vopVector
  dsimp only
  split
  · rfl
  · exact writeAt_run _ _ _

@[simp] theorem vopRun_run (b : Body) (rounds : List (List Int)) (u : Tile) : (vopRun b rounds u).1.run = u.run := by
  have kept : ∀ (l : List (List Int)) (a : Tile × Option Nat),
      (l.foldl (fun (a : Tile × Option Nat) r => if a.2.isSome then a else vopVector b a.1 r) a).1.run = a.1.run := by
    intro l
    induction l with
    | nil => exact fun _ => rfl
    | cons r l ih =>
      intro a
      refine (ih _).trans ?_
      dsimp only
      split
      · rfl
      · exact vopVector_run b a.1 r
  exact kept rounds (u, none)

/-- A tile that is replaced by a running one goes on. -/
theorem State.setTile_goOn {s : State} {p : Nat} {u : Tile} (runs : u.run = .running) : (s.setTile p u).goOn p = (s.setTile p u).advance p :=
  goOn_ok ((congrArg Tile.run (tile_setTile s p u)).trans runs)

/-- A read without poison leaves the replaced tile's run state. -/
theorem State.caseRead_setTile_run {s x : State} {p : Nat} {v : Tile} {ranges : List (Nat × Nat)} {errs : List CaseErr} {o : Option Nat}
    (read : (s.setTile p v).caseRead p ranges errs = (x, o)) : (x.tile p).run = v.run :=
  (State.caseRead_run read).trans (congrArg Tile.run (tile_setTile s p v))

/-- The vectors of a stream that meet no poison are read, and the tile goes on (R116). -/
theorem State.readVecs_none {s x : State} {p st n : Nat} {u v : Tile} {errs : List CaseErr} {as : List Int} (f : List (List Nat) → Tile → Tile)
    (uses : takeUses n st u = (as, v)) (read : (s.setTile p v).caseRead p (as.map (fun a => (a.toNat, 256))) errs = (x, none))
    (runs : ∀ vs w, (f vs w).run = w.run) (running : u.run = .running) :
    s.readVecs p st n u errs f = (x.modTile p (fun w => f (as.map w.vec) w)).advance p := by
  have after : v.run = u.run := by rw [← takeUses_run n st u, uses]
  rw [State.readVecs, uses]
  exact (readThen_none read).trans (State.setTile_goOn ((runs _ _).trans ((State.caseRead_setTile_run read).trans (after.trans running))))

section
variable {t : Fin 136} {b : Body} {errs : List CaseErr} {s x : State}

/-- VOP whose operands meet no poison (R126). -/
theorem exec_vop_sound {rounds : List (List Int)} {v w : Tile} {o : Option Nat} (at_ : atPC s t.val 0x30 b) (chk : vopChk (s.tile t.val) b = [])
    (uses : takeRounds (vopStreams b) (bfld b 14 12 + 1) (s.tile t.val) = (rounds, v)) (read : (s.setTile t.val v).caseRead t.val (vopRanges rounds) errs = (x, o))
    (vectors : vopRun b rounds (x.tile t.val) = (w, none)) :
    exec (.vop t b errs) s = .next ((x.setTile t.val w).advance t.val) := by
  have used : v.run = (s.tile t.val).run := by rw [← takeRounds_run (vopStreams b) (bfld b 14 12 + 1) (s.tile t.val), uses]
  have written : w.run = (x.tile t.val).run := by rw [← vopRun_run b rounds (x.tile t.val), vectors]
  refine congrArg Host.Outcome.next ((issueRaw_ok at_ chk rfl).trans ?_)
  simp only [uses, read, vectors]
  exact State.setTile_goOn (written.trans ((State.caseRead_setTile_run read).trans (used.trans (atPC_run at_))))

/-- VRED whose vectors meet no poison (R127). -/
theorem exec_vred_sound {as : List Int} {v : Tile} (at_ : atPC s t.val 0x31 b)
    (chk : reservedChk b (ones 55 32) [(decide (4 < bfld b 52 4), 52)] ++
      useChk (s.tile t.val) [bfld b 49 3] (takeRounds [bfld b 49 3] (bfld b 32 12 + 1) (s.tile t.val)).1 256 = [])
    (uses : takeUses (bfld b 32 12 + 1) (bfld b 49 3) (s.tile t.val) = (as, v)) (read : (s.setTile t.val v).caseRead t.val (as.map (fun a => (a.toNat, 256))) errs = (x, none)) :
    exec (.vred t b errs) s = .next ((x.modTile t.val (fun w => w.setReg (bfld b 44 5) (vredFn (bfld b 52 4) (as.map w.vec) % 2 ^ 32))).advance t.val) :=
  congrArg Host.Outcome.next ((issueRaw_ok at_ chk rfl).trans (State.readVecs_none _ uses read (fun _ _ => setReg_run _ _ _) (atPC_run at_)))

/-- TOPK whose vectors meet no poison (R127). -/
theorem exec_topk_sound {as ds : List Int} {v v1 : Tile} (at_ : atPC s t.val 0x32 b) (named : reservedChk b (ones 55 29) [] = [])
    (source : useChk (s.tile t.val) [bfld b 49 3] (takeRounds [bfld b 49 3] (bfld b 29 12 + 1) (s.tile t.val)).1 256 = [])
    (uses : takeUses (bfld b 29 12 + 1) (bfld b 49 3) (s.tile t.val) = (as, v)) (target : useChk (s.tile t.val) [bfld b 46 3] (takeRounds [bfld b 46 3] 1 v).1 128 = [])
    (use : takeUses 1 (bfld b 46 3) v = (ds, v1)) (read : (s.setTile t.val v1).caseRead t.val (as.map (fun a => (a.toNat, 256))) errs = (x, none)) :
    exec (.topk t b errs) s = .next ((x.modTile t.val (fun w =>
      w.writeAt (ds.headD 0).toNat (topkImage (bfld b 52 4 + 1) ((s.tile t.val).reg (bfld b 41 5) % 2 ^ 32) (as.map w.vec).flatten))).advance t.val) := by
  have first : v.run = (s.tile t.val).run := by rw [← takeUses_run (bfld b 29 12 + 1) (bfld b 49 3) (s.tile t.val), uses]
  have second : v1.run = v.run := by rw [← takeUses_run 1 (bfld b 46 3) v, use]
  refine congrArg Host.Outcome.next ((issueRaw_ok at_ (by simp only [uses]; rw [named, source, target]; rfl) rfl).trans ?_)
  simp only [uses, use]
  exact (readThen_none read).trans (State.setTile_goOn ((writeAt_run _ _ _).trans ((State.caseRead_setTile_run read).trans (second.trans (first.trans (atPC_run at_))))))

/-- SAMPLE whose weights meet no poison: the index that R91 names, else a free value (R91, R127). -/
theorem exec_sample_sound {as : List Int} {v : Tile} {n : Nat} (count : n = bfld b 27 16 + 1) (at_ : atPC s t.val 0x34 b) (named : reservedChk b (ones 55 27) [] = [])
    (source : useChk (s.tile t.val) [bfld b 53 3] (takeRounds [bfld b 53 3] (ceilDiv n 64) (s.tile t.val)).1 256 = [])
    (uses : takeUses (ceilDiv n 64) (bfld b 53 3) (s.tile t.val) = (as, v)) (read : (s.setTile t.val v).caseRead t.val (sampleRanges as n) errs = (x, none)) :
    ∃ (z : State) (i : Nat), exec (.sample t b errs) s = .next ((z.modTile t.val (fun w => w.setReg (bfld b 43 5) i)).advance t.val) ∧
      (∀ k, sampleFn (((as.map (x.tile t.val).vec).flatten).take n) ((s.tile t.val).reg (bfld b 48 5) % 2 ^ 24) = some k → z = x ∧ i = k) ∧
      (sampleFn (((as.map (x.tile t.val).vec).flatten).take n) ((s.tile t.val).reg (bfld b 48 5) % 2 ^ 24) = none → z = { x with freeCtr := x.freeCtr + 1 }) := by
  subst count
  have used : v.run = (s.tile t.val).run := by rw [← takeUses_run (ceilDiv (bfld b 27 16 + 1) 64) (bfld b 53 3) (s.tile t.val), uses]
  have goes : ∀ i, ((x.tile t.val).setReg (bfld b 43 5) i).run = .running := fun i =>
    (setReg_run _ _ _).trans ((State.caseRead_setTile_run read).trans (used.trans (atPC_run at_)))
  have issued := fun e => issueRaw_ok (s := s) (w := noWait) (c := fun u => reservedChk b (ones 55 27) [] ++ useChk u [bfld b 53 3] (takeRounds [bfld b 53 3] (ceilDiv (bfld b 27 16 + 1) 64) u).1 256)
    (e := e) at_ (by rw [named, source]; rfl) rfl
  cases named_ : sampleFn (((as.map (x.tile t.val).vec).flatten).take (bfld b 27 16 + 1)) ((s.tile t.val).reg (bfld b 48 5) % 2 ^ 24) with
  | some k =>
    refine ⟨x, k, congrArg Host.Outcome.next ((issued _).trans ?_), fun _ same => ⟨rfl, Option.some.inj same⟩, fun none_ => nomatch none_⟩
    simp only [uses, read, named_]
    exact State.setTile_goOn (goes k)
  | none =>
    refine ⟨{ x with freeCtr := x.freeCtr + 1 }, x.fresh.1.toNat % 2 ^ 32, congrArg Host.Outcome.next ((issued _).trans ?_), fun _ some_ => (nomatch some_), fun _ => rfl⟩
    simp only [uses, read, named_]
    exact State.setTile_goOn (goes _)

/-- CVT whose source meets no poison (R128). -/
theorem exec_cvt_sound {w : Tile} {nf : Bool} (at_ : atPC s t.val 0x40 b) (chk : cvtChk (s.tile t.val) b = [])
    (read : s.caseRead t.val (cvtRanges (s.tile t.val) b) errs = (x, none)) (all : x.cvtAll b (x.tile t.val) = (w, nf)) :
    exec (.cvt t b errs) s = .next ((if nf = true ∧ (s.tile t.val).inGradPhase = true then (x.setTile t.val w).ovfSource (s.tile t.val).step 1 else x.setTile t.val w).goOn t.val) := by
  refine congrArg Host.Outcome.next ((issueRaw_ok at_ chk rfl).trans ?_)
  simp only [read, all, Bool.and_eq_true]

/-- TLY with OP = 1 whose vectors meet no poison (R129). -/
theorem exec_tlyCount_sound {as : List Int} {v : Tile} (at_ : atPC s t.val 0x48 b) (counts : bbit b 55 = true)
    (chk : reservedChk b (ones 55 52 + ones 46 32) [] ++
      useChk (s.tile t.val) [bfld b 44 3] (takeRounds [bfld b 44 3] (bfld b 32 12 + 1) (s.tile t.val)).1 256 = [])
    (tagged : (s.tile t.val).tag (bfld b 52 3) ≠ 0xFFFFFFFF) (uses : takeUses (bfld b 32 12 + 1) (bfld b 44 3) (s.tile t.val) = (as, v))
    (read : (s.setTile t.val v).caseRead t.val (as.map (fun a => (a.toNat, 256))) errs = (x, none)) :
    exec (.tlyCount t b errs) s = .next ((x.modTile t.val (fun w => ((as.map w.vec).flatten).foldl (fun (u : Tile) y => u.tally (bfld b 52 3) (f32dec y)) w)).advance t.val) := by
  change execTlyCount t b errs s = _
  rw [execTlyCount, if_neg (by simp [counts])]
  refine congrArg Host.Outcome.next ((issueRaw_ok at_ ?_ rfl).trans
    (State.readVecs_none _ uses read (fun vs w => foldl_run (fun u y => u.tally (bfld b 52 3) (f32dec y)) (fun _ _ => rfl) vs.flatten w) (atPC_run at_)))
  rw [chk, failIf, if_neg (by simpa using tagged)]
  rfl

end

/-- Settles O11, instruction by instruction. -/
theorem vectorInstructions : Obligations.VectorInstructions :=
  ⟨fun _ _ _ _ _ _ _ _ _ => exec_vop_sound, fun _ _ _ _ _ _ _ => exec_vred_sound, fun _ _ _ _ _ _ _ _ _ => exec_topk_sound,
    fun _ _ _ _ _ _ _ _ => exec_sample_sound, fun _ _ _ _ _ _ _ => exec_cvt_sound, fun _ _ _ _ _ _ _ => exec_tlyCount_sound⟩

end Sys2Proof.Machine
end

section
/-! PROOFS. Movement requests and their completion (R95, R130, R131). -/

namespace Sys2Proof.Machine

/-- A check that does not fail. -/
theorem failIf_false {c : Bool} {code detail : Nat} (holds : c = false) : failIf c code detail = [] := by rw [holds, failIf]; rfl

section
variable {s : State} {t : Fin 136} {b : Body}

/-- A request that finds room, and no layout switch where it leaves the module, is made, and the tile goes on (R130, R288). -/
theorem State.moveIssue_ok {p : Nat} {remote : Bool} (f : State → State) (room : (s.tile p).requests < 64) (settled : remote = true → (s.tile p).layoutSw = none) :
    s.moveIssue p remote f = (f s).goOn p := by
  have free : ¬ (remote && (s.tile p).layoutSw.isSome) = true := by
    rintro both
    rw [Bool.and_eq_true] at both
    simp [settled both.1] at both
  rw [State.moveIssue, if_neg (by omega), if_neg free]

/-- A new request leaves the run state of its tile. -/
theorem State.pushMove_run (p grp : Nat) (kind : MoveKind) (parts : Nat) (ready : Bool) : ((s.pushMove p grp kind parts ready).tile p).run = (s.tile p).run :=
  (congrArg Tile.run (tile_setTile s p { s.tile p with moves := (s.tile p).moves ++ [Move.mk s.serial grp (s.tile p).pc kind parts 0 ready (s.moveView (s.tile p) kind)] }) :)

theorem State.pushMove_goOn {p grp parts : Nat} {kind : MoveKind} {ready : Bool} (runs : (s.tile p).run = .running) :
    (s.pushMove p grp kind parts ready).goOn p = (s.pushMove p grp kind parts ready).advance p :=
  goOn_ok ((State.pushMove_run p grp kind parts ready).trans runs)

/-! ### MOV -/

section
variable {errs : List CaseErr} {gl ga n : Nat} (gl_ : gl = (s.tile t.val).reg (bfld b 50 5)) (ga_ : ga = (s.tile t.val).reg (bfld b 45 5))
    (n_ : n = 64 * (bfld b 29 16 + 1)) (at_ : atPC s t.val 0x50 b) (named : reservedChk b (ones 55 26) [] = []) (local_ : localChk (s.tile t.val) gl n (bfld b 50 5) = [])
    (aligned : ga % 64 = 0) (space : gaSpace ga ≤ 1) (view : (s.tile t.val).viewWait gl n = false) (own : s.ownViewWait (s.tile t.val) ga n = false)
    (room : (s.tile t.val).requests < 64)
include gl_ ga_ n_ at_ named local_ aligned space view own room

omit room in
/-- A MOV with no failing check whose views are free has its effect (R130). -/
theorem mov_issues (effect : Tile → State) :
    s.issueRaw t.val 0x50 b (fun u => u.viewWait (u.reg (bfld b 50 5)) (64 * (bfld b 29 16 + 1)) || s.ownViewWait u (u.reg (bfld b 45 5)) (64 * (bfld b 29 16 + 1)))
      (fun u => reservedChk b (ones 55 26) [] ++ localChk u (u.reg (bfld b 50 5)) (64 * (bfld b 29 16 + 1)) (bfld b 50 5) ++ failIf (u.reg (bfld b 45 5) % 64 != 0) 0x0C (bfld b 45 5)
        ++ failIf (decide (1 < gaSpace (u.reg (bfld b 45 5)))) 0x0D (bfld b 45 5)) effect = effect (s.tile t.val) := by
  subst gl_ ga_ n_
  refine issueRaw_ok at_ ?_ ?_
  · rw [named, local_, failIf_false (by simp [aligned]), failIf_false (by simpa using space)]
    rfl
  · rw [view, own]
    rfl

/-- A MOV inside the module becomes a request that is ready (R130). -/
theorem exec_mov_here (here : s.gaHere ga = true) :
    exec (.mov t b errs) s = .next ((s.pushMove t.val (bfld b 26 3) (.mov (bbit b 55) gl ga (bfld b 29 16 + 1)) 0 true).advance t.val) := by
  refine congrArg Host.Outcome.next ((mov_issues gl_ ga_ n_ at_ named local_ aligned space view own _).trans ?_)
  subst gl_ ga_ n_
  refine (State.moveIssue_ok _ room (by simp [here])).trans ?_
  simp only [here, if_true]
  exact State.pushMove_goOn (atPC_run at_)

/-- A MOV to or from another module sends a packet for each piece (R130, R312). -/
theorem exec_mov_away {x : State} (away : s.gaHere ga = false) (settled : (s.tile t.val).layoutSw = none)
    (read : (if bbit b 55 = true ∧ gl < 0x800000 then s.caseRead t.val [(gl, n)] errs else (s, none)) = (x, none)) :
    exec (.mov t b errs) s = .next (((pieces n).foldl (fun (z : State) q =>
        z.send (if bbit b 55 then z.tilePkt (s.tile t.val) 2 (ga + q.1) q.2 ((s.tile t.val).readAt (gl + q.1) q.2) else z.tilePkt (s.tile t.val) 1 (ga + q.1) q.2 []) (.move t.val s.serial q.1))
      (x.pushMove t.val (bfld b 26 3) (.mov (bbit b 55) gl ga (bfld b 29 16 + 1)) (pieces n).length false)).goOn t.val) := by
  refine congrArg Host.Outcome.next ((mov_issues gl_ ga_ n_ at_ named local_ aligned space view own _).trans ?_)
  subst gl_ ga_ n_
  refine (State.moveIssue_ok _ room (fun _ => settled)).trans ?_
  simp only [away, Bool.false_eq_true, if_false, read]

end

/-! ### GATH -/

section
variable {gl ga n : Nat} (gl_ : gl = (s.tile t.val).reg (bfld b 50 5)) (ga_ : ga = (s.tile t.val).reg (bfld b 45 5))
    (n_ : n = 64 * (bfld b 24 16 + 1)) (at_ : atPC s t.val 0x51 b) (named : reservedChk b (ones 54 21) [] = []) (local_ : localChk (s.tile t.val) gl n (bfld b 50 5) = [])
    (aligned : ga % 64 = 0) (space : gaSpace ga = 0) (view : (s.tile t.val).viewWait gl n = false) (room : (s.tile t.val).requests < 64)
include gl_ ga_ n_ at_ named local_ aligned space view room

omit room in
/-- A GATH with no failing check whose view is free has its effect (R130). -/
theorem gath_issues (effect : Tile → State) :
    s.issueRaw t.val 0x51 b (fun u => u.viewWait (u.reg (bfld b 50 5)) (64 * (bfld b 24 16 + 1)))
      (fun u => reservedChk b (ones 54 21) [] ++ localChk u (u.reg (bfld b 50 5)) (64 * (bfld b 24 16 + 1)) (bfld b 50 5) ++ failIf (u.reg (bfld b 45 5) % 64 != 0) 0x0C (bfld b 45 5)
        ++ failIf (gaSpace (u.reg (bfld b 45 5)) != 0) 0x0D (bfld b 45 5)) effect = effect (s.tile t.val) := by
  subst gl_ ga_ n_
  refine issueRaw_ok at_ ?_ view
  rw [named, local_, failIf_false (by simp [aligned]), failIf_false (by simp [space])]
  rfl

/-- A GATH of another module sends a GATHER for each piece (R130, R312). -/
theorem exec_gath_away (away : s.gaHere ga = false) (settled : (s.tile t.val).layoutSw = none) :
    exec (.gath t b) s = .next (((pieces n).foldl (fun (z : State) q =>
        z.send (z.tilePkt (s.tile t.val) 6 (ga + q.1) ((s.tile t.val).reg (bfld b 40 5) % 2 ^ 32) (toLE 4 q.2 ++ toLE 12 0)) (.move t.val s.serial q.1))
      (s.pushMove t.val (bfld b 21 3) (.gath gl ga ((s.tile t.val).reg (bfld b 40 5) % 2 ^ 32) (bfld b 24 16 + 1)) (pieces n).length false)).goOn t.val) := by
  refine congrArg Host.Outcome.next ((gath_issues gl_ ga_ n_ at_ named local_ aligned space view _).trans ?_)
  subst gl_ ga_ n_
  refine (State.moveIssue_ok _ room (fun _ => settled)).trans ?_
  simp only [away, Bool.false_eq_true, if_false]

/-- A GATH of this module's DRAM joins the queue of its line's Inker (R37, R224). -/
theorem exec_gath_here (here : s.gaHere ga = true) (mapped : dramMapped (gaOff ga) n = true) :
    exec (.gath t b) s = .next (((s.pushMove t.val (bfld b 21 3) (.gath gl ga ((s.tile t.val).reg (bfld b 40 5) % 2 ^ 32) (bfld b 24 16 + 1)) 1 false).pushOp (dramLocate (gaOff ga)).1
      { kind := 2, table := 0, row := (s.tile t.val).reg (bfld b 40 5) % 2 ^ 32, step := (s.tile t.val).step, slot := (s.tile t.val).mbSlot, vals := [], addr := gaOff ga, len := n,
        req := .gath t.val s.serial 0 }).goOn t.val) := by
  refine congrArg Host.Outcome.next ((gath_issues gl_ ga_ n_ at_ named local_ aligned space view _).trans ?_)
  subst gl_ ga_ n_
  refine (State.moveIssue_ok _ room (by simp [here])).trans ?_
  simp only [here, if_true, mapped]

end

/-! ### SIGNAL -/

section
variable {ga : Nat} (ga_ : ga = (s.tile t.val).reg (bfld b 50 5)) (at_ : atPC s t.val 0x52 b) (named : reservedChk b (ones 54 31) [] = []) (aligned : ga % 4 = 0)
    (space : gaSpace ga = 1) (own : s.ownViewWait (s.tile t.val) ga 4 = false) (room : (s.tile t.val).requests < 64)
include ga_ at_ named aligned space own room

omit room in
/-- A SIGNAL with no failing check whose view is free has its effect (R130). -/
theorem signal_issues (effect : Tile → State) :
    s.issueRaw t.val 0x52 b (fun u => s.ownViewWait u (u.reg (bfld b 50 5)) 4)
      (fun u => reservedChk b (ones 54 31) [] ++ failIf (u.reg (bfld b 50 5) % 4 != 0) 0x0C (bfld b 50 5) ++ failIf (gaSpace (u.reg (bfld b 50 5)) != 1) 0x0D (bfld b 50 5))
      effect = effect (s.tile t.val) := by
  subst ga_
  refine issueRaw_ok at_ ?_ own
  rw [named, failIf_false (by simp [aligned]), failIf_false (by simp [space])]
  rfl

/-- A SIGNAL inside the module becomes a request that is ready (R130). -/
theorem exec_signal_here (here : s.gaHere ga = true) :
    exec (.signal t b) s = .next ((s.pushMove t.val (bfld b 31 3) (.signal ga (bfld b 34 16)) 0 true).advance t.val) := by
  refine congrArg Host.Outcome.next ((signal_issues ga_ at_ named aligned space own _).trans ?_)
  subst ga_
  refine (State.moveIssue_ok _ room (by simp [here])).trans ?_
  simp only [here, if_true]
  exact State.pushMove_goOn (atPC_run at_)

/-- A SIGNAL to another module sends an ADD32 (R130, R312). -/
theorem exec_signal_away (away : s.gaHere ga = false) (settled : (s.tile t.val).layoutSw = none) :
    exec (.signal t b) s = .next (((s.pushMove t.val (bfld b 31 3) (.signal ga (bfld b 34 16)) 1 false).send (s.tilePkt (s.tile t.val) 3 ga (bfld b 34 16) []) (.move t.val s.serial 0)).goOn t.val) := by
  refine congrArg Host.Outcome.next ((signal_issues ga_ at_ named aligned space own _).trans ?_)
  subst ga_
  refine (State.moveIssue_ok _ room (fun _ => settled)).trans ?_
  simp only [away, Bool.false_eq_true, if_false]

end

/-! ### BKT and SPOST -/

/-- BKT with credit hands its bucket to the Collator, with the errors that its reads meet (R130, R345). -/
theorem exec_bkt_sound {errs : List CaseErr} (at_ : atPC s t.val 0x53 b) (chk : bktChk (s.tile t.val) b = []) (credit : s.bktCredit < 1024) (room : (s.tile t.val).requests < 64) :
    exec (.bkt t b errs) s = .next (((s.caseErrors t.val (bktMeets (s.tile t.val) b errs)).pushMove t.val (bfld b 42 3) (.bkt (s.bktReq (s.tile t.val) b)) 0 false).advance t.val) := by
  obtain ⟨-, -, -, -, -, m, -, read, -⟩ := s.caseErrors_shape t.val (bktMeets (s.tile t.val) b errs)
  refine congrArg Host.Outcome.next ((issueRaw_ok at_ chk rfl).trans ?_)
  rw [if_neg (by omega)]
  refine (State.moveIssue_ok _ room (fun remote => by simp at remote)).trans ?_
  exact State.pushMove_goOn ((congrArg Tile.run read).trans (atPC_run at_))

section
variable {errs : List CaseErr} {ra : Nat} (ra_ : ra = (s.tile t.val).reg (bfld b 48 5)) (at_ : atPC s t.val 0x58 b) (named : reservedChk b (ones 55 45) [] = [])
    (aligned : ra % 64 = 0) (inside : ra + 128 ≤ (s.tile t.val).extent) (folio : bfld b 53 3 / 4 = tileFolio t.val)
include ra_ at_ named aligned inside folio

/-- A SPOST with no failing check has its effect (R130). -/
theorem spost_issues (effect : Tile → State) :
    s.issueRaw t.val 0x58 b noWait (fun u => reservedChk b (ones 55 45) [] ++ failIf (u.reg (bfld b 48 5) % 64 != 0) 0x0C (bfld b 48 5)
      ++ failIf (rangeOut u (u.reg (bfld b 48 5)) 128) 0x0B (bfld b 48 5) ++ failIf (bfld b 53 3 / 4 != tileFolio t.val) 0x0E (bfld b 53 3)) effect = effect (s.tile t.val) := by
  subst ra_
  refine issueRaw_ok at_ ?_ rfl
  rw [named, failIf_false (by simp [aligned]), failIf_false (by simpa [rangeOut] using inside), failIf_false (by simp [folio])]
  rfl

/-- SPOST with room in the Sorter's queue posts the descriptor that it reads (R130, R173). -/
theorem exec_spost_posts {x : State} (on : s.domOn (136 + bfld b 53 3) = true) (free : (s.srt (bfld b 53 3)).queue.length + (s.srt (bfld b 53 3)).posts.length < 256)
    (read : s.caseRead t.val [(ra, 128)] errs = (x, none)) :
    exec (.spost t b errs) s = .next (((x.pushMove t.val (bfld b 45 3) (.spost (bfld b 53 3) s.serial) 0 false).modSrt (bfld b 53 3) (fun k =>
      { k with posts := k.posts ++ [postDesc s.serial ((s.tile t.val).mem.read ra 128) t.val (s.tile t.val)] })).goOn t.val) := by
  refine congrArg Host.Outcome.next ((spost_issues ra_ at_ named aligned inside folio _).trans ?_)
  subst ra_
  simp only [on, Bool.not_true, Bool.false_eq_true, if_false, read]
  rw [if_neg (by omega)]

/-- SPOST to a Sorter whose domain is off completes with NO_RESOURCE (R494). -/
theorem exec_spost_off (off : s.domOn (136 + bfld b 53 3) = false) :
    exec (.spost t b errs) s = .next (((s.pushMove t.val (bfld b 45 3) (.spost (bfld b 53 3) s.serial) 0 true).modTile t.val (fun v =>
      { v with moves := v.moves.map (fun m => if m.serial == s.serial then { m with status := stNORES } else m) })).goOn t.val) := by
  refine congrArg Host.Outcome.next ((spost_issues ra_ at_ named aligned inside folio _).trans ?_)
  subst ra_
  simp only [off, Bool.not_false, if_true]

end

/-! ### The end of a request -/

section
variable {n : Nat} {errs : List CaseErr} {m : Move} {x : State} (ready : (s.tile t.val).moves.find? (fun y => y.serial == n && y.ready) = some m)
include ready

/-- A request that completes without an error leaves the tile (R131). -/
theorem exec_moveComplete_ok (work : s.performMove t.val errs m = (x, some 0)) :
    exec (.moveComplete t n errs) s = .next (x.modTile t.val (fun u => { u with moves := u.moves.filter (fun y => y.serial != n) })) := by
  change execMoveComplete t n errs s = _
  simp only [execMoveComplete, ready, work]

/-- One that ends in an error faults the tile as well (R131). -/
theorem exec_moveComplete_error {c : Nat} (work : s.performMove t.val errs m = (x, some c)) (bad : c ≠ 0) (kind : c ≠ stRETIRED ∨ ∀ gl ga ed k, m.kind ≠ .gath gl ga ed k) :
    exec (.moveComplete t n errs) s = .next ((x.modTile t.val (fun u => { u with moves := u.moves.filter (fun y => y.serial != n) })).tileFault t.val 0x14 m.pc (m.grp * 256 + c % 256)) := by
  change execMoveComplete t n errs s = _
  obtain ⟨k, rfl⟩ := Nat.exists_eq_succ_of_ne_zero bad
  simp only [execMoveComplete, ready, work]
  rw [if_neg]
  split
  · next is_ =>
    rcases kind with other | no
    · simpa using other
    · exact absurd is_ (no _ _ _ _)
  · simp

/-- A GATH of a retired edition asks for the abort of its step as well (R131). -/
theorem exec_moveComplete_retired {gl ga ed k : Nat} (kind : m.kind = .gath gl ga ed k) (work : s.performMove t.val errs m = (x, some stRETIRED)) :
    exec (.moveComplete t n errs) s = .next (((x.modTile t.val (fun u => { u with moves := u.moves.filter (fun y => y.serial != n) })).askAbort
      ((x.modTile t.val (fun u => { u with moves := u.moves.filter (fun y => y.serial != n) })).tile t.val).step 4).tileFault t.val 0x14 m.pc (m.grp * 256 + stRETIRED % 256)) := by
  change execMoveComplete t n errs s = _
  simp only [execMoveComplete, ready, work, kind, stRETIRED, beq_self_eq_true, if_true]

end

end

/-- Settles O12, from the lemma of each instruction and each end of a request. -/
theorem movementAndCompletion : Obligations.MovementAndCompletion := by
  refine ⟨?_, ?_, ?_, ?_, ?_, ?_, fun t b errs s => exec_bkt_sound, ?_, ?_, fun t n errs m s x => exec_moveComplete_ok, ?_, ?_, ?_⟩
  · rintro t b errs s u gl ga n rfl gl_ ga_ n_ at_ named local_ aligned space view own room here
    exact exec_mov_here gl_ ga_ n_ at_ named local_ aligned space view own room here
  · rintro t b errs s x u gl ga n rfl gl_ ga_ n_ at_ named local_ aligned space view own room away settled read
    exact exec_mov_away gl_ ga_ n_ at_ named local_ aligned space view own room away settled read
  · rintro t b s u gl ga n rfl gl_ ga_ n_ at_ named local_ aligned space view room away settled
    exact exec_gath_away gl_ ga_ n_ at_ named local_ aligned space view room away settled
  · rintro t b s u gl ga n rfl gl_ ga_ n_ at_ named local_ aligned space view room here mapped
    exact exec_gath_here gl_ ga_ n_ at_ named local_ aligned space view room here mapped
  · rintro t b s u ga rfl ga_ at_ named aligned space own room here
    exact exec_signal_here ga_ at_ named aligned space own room here
  · rintro t b s u ga rfl ga_ at_ named aligned space own room away settled
    exact exec_signal_away ga_ at_ named aligned space own room away settled
  · rintro t b errs s x u ra rfl ra_ at_ named aligned inside folio on free read
    exact exec_spost_posts ra_ at_ named aligned inside folio on free read
  · rintro t b errs s u ra rfl ra_ at_ named aligned inside folio off
    exact exec_spost_off ra_ at_ named aligned inside folio off
  · rintro t n errs m s x y c ready work bad kind rfl
    exact exec_moveComplete_error ready work bad kind
  · rintro t n gl ga ed k errs m s x y ready kind work rfl
    exact exec_moveComplete_retired ready kind work
  · intro p errs m q s kind
    simp only [State.performMove, kind]

end Sys2Proof.Machine
end

section
/-! PROOFS. WAIT, FENCE and BAR (R132, R134). -/

namespace Sys2Proof.Machine

section
variable {s : State} {t : Fin 136} {b : Body}

/-- WAIT on groups goes on where none of them moves (R132). -/
theorem exec_waitGroups_sound (at_ : atPC s t.val 0x60 b) (kind : bfld b 54 2 = 0) (named : reservedChk b (ones 55 46) [] = []) :
    exec (.waitGroups t b) s = .next (if (s.tile t.val).moves.any (fun x => bitOf (bfld b 46 8) x.grp) then
      s.setTile t.val { s.tile t.val with run := .waiting, wait := some (.groups (bfld b 46 8)) } else s.advance t.val) := by
  change execWaitGroups t b s = _
  rw [execWaitGroups, if_neg (by simp [kind])]
  refine congrArg Host.Outcome.next ((issueRaw_ok at_ named rfl).trans ?_)
  by_cases moves : (s.tile t.val).moves.any (fun x => bitOf (bfld b 46 8) x.grp) = true
  · simp only [State.holdOn, Tile.waitDone, moves, Bool.not_true, Bool.false_eq_true, if_false, if_true]
  · rw [Bool.not_eq_true] at moves
    simp only [State.holdOn, Tile.waitDone, moves, Bool.not_false, Bool.false_eq_true, if_false, if_true]

/-- WAIT on a flag that meets no poison holds issue on it (R132). -/
theorem exec_waitFlag_sound {errs : List CaseErr} {x : State} (at_ : atPC s t.val 0x60 b) (kind : bfld b 54 2 = 1 ∨ bfld b 54 2 = 2)
    (named : reservedChk b (ones 55 54 + ones 45 36) [] = []) (aligned : (s.tile t.val).reg (bfld b 41 5) % 4 = 0)
    (inside : (s.tile t.val).reg (bfld b 41 5) + 4 ≤ (s.tile t.val).extent) (read : s.caseRead t.val [((s.tile t.val).reg (bfld b 41 5), 4)] errs = (x, none)) :
    exec (.waitFlag t b errs) s = .next (x.holdOn t.val (.flag (bfld b 54 2 == 2) ((s.tile t.val).reg (bfld b 41 5)) ((s.tile t.val).reg (bfld b 36 5) % 2 ^ 32))) := by
  have third : (bfld b 54 2 == 3) = false := by rcases kind with one | two <;> simp [*]
  change execWaitFlag t b errs s = _
  rw [execWaitFlag]
  dsimp only
  rw [if_neg (by omega)]
  refine congrArg Host.Outcome.next ((issueRaw_ok at_ ?_ rfl).trans ?_)
  · rw [third, reservedChk_false, if_neg (by omega), named, failIf_false (by simp [aligned]), failIf_false (by simpa [rangeOut] using inside)]
    rfl
  · simp only [read]

/-- FENCE goes on where its units are empty (R132). -/
theorem exec_fence_sound (at_ : atPC s t.val 0x61 b) (named : reservedChk b (ones 55 51) [] = []) :
    exec (.fence t b) s = .next (if (s.tile t.val).fenced (bfld b 51 5) then s.advance t.val else
      s.setTile t.val { s.tile t.val with run := .waiting, wait := some (.fence (bfld b 51 5)) }) :=
  congrArg Host.Outcome.next (issueRaw_ok at_ named rfl)

/-- The end of a wait that reads no flag (R132). -/
theorem exec_waitSatisfied_plain {errs : List CaseErr} {w : Wait} (waits : (s.tile t.val).run = .waiting) (for_ : (s.tile t.val).wait = some w) (plain : ∀ e a v, w ≠ .flag e a v) :
    exec (.waitSatisfied t errs) s = .next (if (s.tile t.val).waitDone w then (s.setTile t.val { s.tile t.val with run := .running, wait := none }).advance t.val else s) := by
  change execWaitSatisfied t errs s = _
  simp only [execWaitSatisfied, for_, waits, ne_eq, not_true_eq_false, if_false]
  cases w with
  | flag e a v => exact absurd rfl (plain e a v)
  | groups m => exact (apply_ite Host.Outcome.next _ _ _).symm
  | fence u => exact (apply_ite Host.Outcome.next _ _ _).symm
  | barrier i => exact (apply_ite Host.Outcome.next _ _ _).symm

/-- The end of a wait on a flag that meets no poison (R132). -/
theorem exec_waitSatisfied_flag {errs : List CaseErr} {e : Bool} {a v : Nat} {x : State} (waits : (s.tile t.val).run = .waiting) (for_ : (s.tile t.val).wait = some (.flag e a v))
    (read : s.caseRead t.val [(a, 4)] errs = (x, none)) :
    exec (.waitSatisfied t errs) s = .next (if (s.tile t.val).waitDone (.flag e a v) then (x.setTile t.val { s.tile t.val with run := .running, wait := none }).advance t.val else x) := by
  change execWaitSatisfied t errs s = _
  simp only [execWaitSatisfied, for_, waits, ne_eq, not_true_eq_false, if_false, read]
  exact (apply_ite Host.Outcome.next _ _ _).symm

/-- BAR of a context that was released already goes on (R132). -/
theorem exec_bar_passed (at_ : atPC s t.val 0x62 b) (fenced : (s.tile t.val).fenced 0x1F = true) (chk : s.barChk (s.tile t.val) b = [])
    (passed : (s.tile t.val).barPassed (bfld b 52 4) = true) :
    exec (.bar t b) s = .next ((s.setTile t.val ((s.tile t.val).modCtx (s.tile t.val).ctx (fun c => { c with bar := none, passed := false }))).advance t.val) := by
  refine congrArg Host.Outcome.next ((issueRaw_ok at_ chk (by simp [fenced])).trans ?_)
  rw [if_pos passed]

/-- BAR of a context that reaches its barrier: it waits, or yields to a context of its tile that the barrier lacks (R132). -/
theorem exec_bar_reaches {m : Nat} {v : Tile} (at_ : atPC s t.val 0x62 b) (fenced : (s.tile t.val).fenced 0x1F = true) (chk : s.barChk (s.tile t.val) b = [])
    (fresh : (s.tile t.val).barPassed (bfld b 52 4) = false) (members : s.barMembers (s.tile t.val) (bfld b 52 4) = some m)
    (marked : v = (s.tile t.val).modCtx (s.tile t.val).ctx (fun c => { c with bar := some (bfld b 52 4), passed := false })) :
    exec (.bar t b) s = .next (s.setTile t.val (if v.barMissing m (bfld b 52 4) then { v with run := .yielding, atPc := v.pc } else { v with run := .waiting, wait := some (.barrier (bfld b 52 4)) })) := by
  subst marked
  refine congrArg Host.Outcome.next ((issueRaw_ok at_ chk (by simp [fenced])).trans ?_)
  rw [if_neg (by simp [fresh]), members]
  rfl

/-- A barrier that every member has reached releases them all (R132). -/
theorem exec_barrierRelease_reached {id m : Nat} (waits : (s.tile t.val).run = .waiting) (for_ : (s.tile t.val).wait = some (.barrier id))
    (members : s.barMembers (s.tile t.val) id = some m) (reached : s.barReached m id = true) :
    exec (.barrierRelease t) s = .next ((barContexts m).foldl (fun (x : State) i => x.barRelease id i) s) := by
  change execBarrierRelease t s = _
  simp [execBarrierRelease, for_, members, waits, reached]

/-- The bitmap of one context (R134). -/
theorem barContexts_single {i : Nat} (small : i < 1024) : barContexts (2 ^ i) = [i] := by
  have names : ∀ j ∈ List.range 1024, bitOf (2 ^ i) j = (j == i) := fun j _ => by
    rw [bitOf, Nat.testBit_two_pow, beq_eq_decide, decide_eq_decide, eq_comm]
  rw [barContexts, List.filter_congr names, List.filter_beq, List.count_eq_one_of_mem List.nodup_range (List.mem_range.mpr small), List.replicate_one]

/-- A barrier of one context, at which it waits, lets its tile go on (R132). -/
theorem exec_barrierRelease_single {id l : Nat} {c : Ctx} (waits : (s.tile t.val).run = .waiting) (for_ : (s.tile t.val).wait = some (.barrier id)) (small : l < 128)
    (members : s.barMembers (s.tile t.val) id = some (2 ^ (8 * l))) (physical : s.physical l = some t.val) (resident : (s.tile t.val).ctx = 0)
    (only : (s.tile t.val).slices = [c]) (bar : c.bar = some id) (fresh : c.passed = false) :
    exec (.barrierRelease t) s = .next ((s.setTile t.val { s.tile t.val with slices := [{ c with bar := none, passed := false }], run := .running, wait := none }).advance t.val) := by
  have at_ : 8 * l / 8 = l := by omega
  have first : 8 * l % 8 = 0 := by omega
  have reached : s.barReached (2 ^ (8 * l)) id = true := by
    simp [State.barReached, barContexts_single (show 8 * l < 1024 by omega), at_, physical, first, only, bar, fresh]
  have cleared : (s.tile t.val).modCtx (s.tile t.val).ctx (fun c => { c with bar := none, passed := false }) =
      { s.tile t.val with slices := [{ c with bar := none, passed := false }] } := by
    simp [Tile.modCtx, only, resident]
  rw [exec_barrierRelease_reached waits for_ members reached, barContexts_single (by omega)]
  simp only [List.foldl_cons, List.foldl_nil, State.barRelease, at_, physical, first]
  rw [if_pos ⟨resident, waits, for_⟩, cleared]

end

/-- Settles O13, from the lemma of each instruction and each release. -/
theorem waitsAndBarriers : Obligations.WaitsAndBarriers :=
  ⟨fun _ _ _ => exec_waitGroups_sound, fun _ _ _ _ _ => exec_waitFlag_sound, fun _ _ _ => exec_fence_sound, fun _ _ _ => rfl, fun _ _ _ _ => exec_waitSatisfied_plain,
    fun _ _ _ _ _ _ _ => exec_waitSatisfied_flag, fun _ _ _ _ _ => exec_bar_reaches, fun _ _ _ => exec_bar_passed, fun _ _ _ _ => exec_barrierRelease_reached,
    fun _ _ _ _ _ => exec_barrierRelease_single⟩

end Sys2Proof.Machine
end

section
/-! PROOFS. Sheets and their installation (R75, R134 to R136, R495). -/

namespace Sys2Proof.Machine

theorem State.sendReply_shape (s : State) (r : Reply) : ∃ regs spv, s.sendReply r = { s with regs := regs, spv := spv } := by
  unfold State.sendReply
  split <;> exact ⟨_, _, rfl⟩

/-- A reply changes the Supervisor and registers alone (R406, R410). -/
theorem State.replyTo_shape (s : State) (r : ReplyTo) (status : Nat) (data : Bytes) : ∃ regs spv, s.replyTo r status data = { s with regs := regs, spv := spv } := by
  unfold State.replyTo
  dsimp only
  split
  · exact ⟨_, _, rfl⟩
  · exact State.sendReply_shape _ _

@[simp] theorem State.replyTo_fmn (s : State) (r : ReplyTo) (status : Nat) (data : Bytes) : (s.replyTo r status data).fmn = s.fmn := by
  obtain ⟨regs, spv, shape⟩ := s.replyTo_shape r status data
  rw [shape]

@[simp] theorem State.replyTo_tiles (s : State) (r : ReplyTo) (status : Nat) (data : Bytes) : (s.replyTo r status data).tiles = s.tiles := by
  obtain ⟨regs, spv, shape⟩ := s.replyTo_shape r status data
  rw [shape]

/-- A sound sheet image carries the CRC of its bytes (R134). -/
theorem crc_of_sheetOk {img : Bytes} (sound : sheetOk img = true) : (crcField0 img 0x3C == leAt img 0x3C 4) = true := by
  simp only [sheetOk, Bool.and_eq_true] at sound
  simp [sound]

/-- A sound install record carries the CRC of its bytes (R136). -/
theorem crc_of_instOk {img : Bytes} (sound : instOk img = true) : (crcField0 img 0xC == leAt img 0xC 4) = true := by
  simp only [instOk, Bool.and_eq_true] at sound
  simp [sound]

/-- A sound sheet image in DRAM is held under its SHEET_ID, which the reply carries (R134). -/
theorem exec_sheetLoad_sound {q : Fin 64} {c : Cmd} {s x y z : State} {img : Bytes} {bad : Bool} (go : starts s q.val 0x30 c) (x_ : x = s.started q.val c)
    (extent : x.extentOk (leAt c.body 0 8) (leAt c.body 8 4) = true) (load : x.dramLoad (leAt c.body 0 8) (leAt c.body 8 4) = (img, bad, y)) (sound : sheetOk img = true)
    (version : leAt img 0x22 2 ≤ 1) (z_ : z = y.imageChecked (crcField0 img 0x3C) true) (room : z.fmn.sheets.length < 256 ∨ kvHas z.fmn.sheets (leAt img 8 2) = true) :
    exec (.sheetLoad q) s = .next ((z.setFmn (fun m => { m with sheets := kvSet m.sheets (leAt img 8 2) (sheetOf img (leAt c.body 0 8)) })).ok (c.ret q.val) (toLE 2 (leAt img 8 2))) := by
  subst x_ z_
  refine congrArg Host.Outcome.next ((cmd_ok go).trans ?_)
  simp only [extent, load, crc_of_sheetOk sound, sound, Bool.not_true, Bool.false_eq_true, if_false]
  rw [if_neg (by omega), if_neg]
  · rfl
  · rintro ⟨full, new⟩
    rcases room with space | held
    · exact absurd full (by omega)
    · simp only [sheetOf, held] at new
      exact absurd new (by simp)

/-- A sound install record waits for the boundary with the sheets as they stand (R136). -/
theorem exec_sheetInstall_sound {q : Fin 64} {c : Cmd} {s x y z : State} {img : Bytes} {bad : Bool} (go : starts s q.val 0x33 c) (x_ : x = s.started q.val c)
    (extent : x.extentOk (leAt c.body 0 8) (leAt c.body 8 4) = true) (load : x.dramLoad (leAt c.body 0 8) (leAt c.body 8 4) = (img, bad, y)) (sound : instOk img = true)
    (z_ : z = (y.sheetsSeen (instEntries img)).imageChecked (crcField0 img 0xC) true) (fits : z.instFits (instEntries img) = true)
    (code : (instEntries img).any (fun e => decide (8192 < tileCode z.fmn.sheets e)) = false) (free : z.fmn.install = none) :
    exec (.sheetInstall q) s = .next (z.setFmn (fun m => { m with install := some (Install.mk (c.ret q.val) (instTiles (instEntries img)) (z.sheetsTaken (instEntries img))) })) := by
  subst x_ z_
  refine congrArg Host.Outcome.next ((cmd_ok go).trans ?_)
  simp only [extent, load, crc_of_instOk sound, sound, fits, code, free, Bool.not_true, Bool.or_self, Bool.false_eq_true, if_false, if_true, Option.isSome_none]

/-- Changes of several tiles, each its own. -/
theorem State.tile_foldl_modTile (f : Tile → Tile) (l : List Nat) (distinct : l.Nodup) (s : State) (p : Nat) :
    (l.foldl (fun (x : State) q => x.modTile q f) s).tile p = if p ∈ l then f (s.tile p) else s.tile p := by
  induction l generalizing s with
  | nil => rfl
  | cons q l ih =>
    obtain ⟨fresh, distinct⟩ := List.nodup_cons.mp distinct
    rw [List.foldl_cons, ih distinct, State.tile_modTile]
    by_cases first : p = q
    · subst first
      simp [fresh]
    · simp [first]

/-- They change tiles alone. -/
theorem State.foldl_modTile_fmn (f : Tile → Tile) (l : List Nat) (s : State) : (l.foldl (fun (x : State) q => x.modTile q f) s).fmn = s.fmn := by
  induction l generalizing s with
  | nil => rfl
  | cons q l ih => exact (ih _).trans rfl

theorem State.enabledTiles_nodup (s : State) : s.enabledTiles.Nodup := List.nodup_range.filter _

/-- An install that takes effect: each enabled tile has its contexts, the sheets are those of the record, and none waits (R136). -/
theorem State.applyInstall_takes {s : State} {i : Install} (waits : s.fmn.install = some i) (idle : s.allIdle = true) :
    s.applyInstall.fmn.install = none ∧ s.applyInstall.fmn.installed = i.sheets ∧
      (∀ p, (s.applyInstall.tile p).slices = if p ∈ s.enabledTiles then (kvGet i.tiles (s.tile p).logical []).map (fun c => Ctx.mk c.1 c.2.1 c.2.2 false false none false)
        else (s.tile p).slices) := by
  have tiles : ∀ x : State, ∀ p, (x.replyTo i.reply 0 []).tile p = x.tile p := fun x p => by rw [State.tile, State.replyTo_tiles, State.tile]
  unfold State.applyInstall
  simp only [waits, idle, Bool.not_true, Bool.false_eq_true, if_false]
  refine ⟨?_, ?_, fun p => ?_⟩
  · rw [State.replyTo_fmn, State.foldl_modTile_fmn]
    rfl
  · rw [State.replyTo_fmn, State.foldl_modTile_fmn]
    rfl
  · rw [tiles, State.tile_foldl_modTile _ _ (State.enabledTiles_nodup _), apply_ite Tile.slices]
    rfl

/-- Settles O16, from the lemma of each command; the install at the boundary is `State.applyInstall_takes`. -/
theorem sheetCommands : Obligations.SheetCommands := by
  refine ⟨fun _ _ _ _ _ _ _ _ => exec_sheetLoad_sound, fun _ _ _ _ _ _ _ _ => exec_sheetInstall_sound, ?apply_, fun _ _ => State.applyInstall_takes, ?spare⟩
  case apply_ =>
    intro s waits idle
    exact congrArg Host.Outcome.next (if_pos (by simp [waits, idle]))
  case spare =>
    intro t s wiping
    change execSpareReady t s = _
    rw [execSpareReady]
    exact if_neg (by simp [wiping])

end Sys2Proof.Machine
end

section
/-! PROOFS. The commands of steps and their opening (R137, R138, R264 to R266, R269, R278, R280). -/

namespace Sys2Proof.Machine

section
variable {q : Fin 64} {c : Cmd} {s x : State}

/-- STEP_OPEN of the next step begins to form it (R266). -/
theorem exec_stepOpen_forms (go : starts s q.val 0x50 c) (x_ : x = s.started q.val c) (own : x.fmn.takeover = false) (free : x.fmn.forming = none)
    (next : leAt c.body 0 8 = x.stepNext) (staged : x.fmn.staged ≠ []) :
    exec (.stepOpen q) s = .next { x with fmn := { x.fmn with forming := some { n := leAt c.body 0 8, reply := c.ret q.val, waited := false, scale := none, recWaited := false } } } := by
  subst x_
  refine congrArg Host.Outcome.next ((cmd_ok go).trans ?_)
  have staged' : ¬ (leAt c.body 0 8 ≠ (s.started q.val c).stepNext ∨ (s.started q.val c).fmn.staged.isEmpty = true) := by simp [next, staged]
  exact (if_neg (by simp [own])).trans ((if_neg (by simp [free])).trans (if_neg staged'))

/-- The next held step of a replacement is placed in ROLLING_BACK (R280). -/
theorem State.openHeld_places {n a : Nat} {rest : List (Nat × Nat)} {r : ReplyTo} (held : x.fmn.held = (n, a) :: rest) (next : n = x.stepNext) (staged : x.fmn.staged ≠ []) :
    (x.openHeld n r).fmn.held = rest ∧ (x.openHeld n r).fmn.staged = [] ∧
      (x.openHeld n r).fmn.steps.any (fun w => w.n == n && w.attempt == a && w.state == .rollingBack && w.rolled) = true := by
  have sound : ¬ (n ≠ x.stepNext ∨ n ≠ n ∨ x.fmn.staged.isEmpty = true) := by simp [next, staged]
  unfold State.openHeld
  simp only [held, if_neg sound]
  simp [State.ok, State.setFmn, State.newStep]

/-- MB_SUBMIT stages a sound descriptor in a free slot (R264, R265). -/
theorem exec_mbSubmit_stages (go : starts s q.val 0x51 c) (x_ : x = s.started q.val c) (slot : leAt c.body 0 1 ≤ 3) (count : leAt (c.body.drop 8) 0 4 ≠ 0)
    (kind : leAt (c.body.drop 8) 4 1 ≤ 1) (zero : allZero (sliceB (c.body.drop 8) 5 3) = true)
    (extent : leAt (c.body.drop 8) 8 8 + leAt (c.body.drop 8) 0x10 8 ≤ dramSize) (free : kvHas x.fmn.staged (leAt c.body 0 1) = false)
    (idle : x.fmn.takeover = true ∨ bitOf x.busySlots (leAt c.body 0 1) = false) :
    exec (.mbSubmit q) s = .next ({ x with fmn := { x.fmn with staged := kvSet x.fmn.staged (leAt c.body 0 1) (sliceB (c.body.drop 8) 0 48) } }.ok (c.ret q.val) []) := by
  subst x_
  refine congrArg Host.Outcome.next ((cmd_ok go).trans ?_)
  have busy : ¬ (kvHas (s.started q.val c).fmn.staged (leAt c.body 0 1) = true ∨ (!(s.started q.val c).fmn.takeover) = true ∧ bitOf (s.started q.val c).busySlots (leAt c.body 0 1) = true) := by
    rcases idle with replaces | unused <;> simp [*]
  dsimp only
  rw [if_neg (by simp [zero, count]; omega), if_neg busy]
  rfl

/-- STEP_ABORT of the step that would open next drops what is staged (R278). -/
theorem exec_stepAbort_next (go : starts s q.val 0x52 c) (x_ : x = s.started q.val c) (free : x.fmn.forming = none) (unlisted : x.step? (leAt c.body 0 8) = none)
    (next : leAt c.body 0 8 = x.stepNext) : exec (.stepAbort q) s = .next ({ x with fmn := { x.fmn with staged := [] } }.ok (c.ret q.val) []) := by
  subst x_
  refine congrArg Host.Outcome.next ((cmd_ok go).trans ?_)
  dsimp only
  split
  · next f forms => exact absurd (free.symm.trans forms) (by simp)
  · exact (if_neg (by simp [unlisted])).trans (if_pos next)

/-- STEP_ABORT of the forming step answers its step.open with STEP_ABORTED (R278). -/
theorem exec_stepAbort_forming {f : Forming} (go : starts s q.val 0x52 c) (x_ : x = s.started q.val c) (forms : x.fmn.forming = some f) (same : leAt c.body 0 8 = f.n) :
    exec (.stepAbort q) s = .next ((({ x with fmn := { x.fmn with forming := none } }.replyTo f.reply stABORTED []).ok (c.ret q.val) []).settle) := by
  subst x_
  refine congrArg Host.Outcome.next ((cmd_ok go).trans ?_)
  simp only [forms]
  exact if_pos same.symm

/-- STEP_ABORT of an unreleased step asks the leader and waits for its decision (R278). -/
theorem exec_stepAbort_listed (go : starts s q.val 0x52 c) (x_ : x = s.started q.val c) (other : ∀ f, x.fmn.forming = some f → leAt c.body 0 8 ≠ f.n)
    (listed : (x.step? (leAt c.body 0 8)).isSome = true) :
    exec (.stepAbort q) s = .next ((x.modStep (leAt c.body 0 8) (fun w => { w with aborters := w.aborters ++ [c.ret q.val] })).askAbort (leAt c.body 0 8) 6) := by
  subst x_
  refine congrArg Host.Outcome.next ((cmd_ok go).trans ?_)
  cases forms : (s.started q.val c).fmn.forming with
  | none => simp only [listed, if_true]
  | some f => simp only [listed, if_true, if_neg (other f forms).symm]

end

section
variable {s : State} {f : Forming}

/-- The forming step's record goes to its slot (R137, R138). -/
theorem exec_scaleRecordWrite_new {ef : Nat} (forms : s.fmn.forming = some f) (lacks : f.scale = none) (fresh : s.recordOf f.n = none) (free : s.slotFree f.n = true)
    (ef_ : s.freeEf = some ef) :
    exec .scaleRecordWrite s = .next ((s.putRecord (s.formRecord f.n ef)).setFmn (fun m => { m with forming := some { f with scale := some (s.formRecord f.n ef) } })) := by
  change execScaleRecordWrite s = _
  simp only [execScaleRecordWrite, forms, lacks, fresh, free, ef_, Option.isSome_none, Bool.false_eq_true, if_false]

/-- The record that an aborted step left serves its number again under the present epoch (R157). -/
theorem exec_scaleRecordWrite_again {r : ScaleRec} (forms : s.fmn.forming = some f) (lacks : f.scale = none) (left : s.recordOf f.n = some r) :
    exec .scaleRecordWrite s = .next ((if r.epoch = s.epoch then s else s.putRecord { r with epoch := s.epoch }).setFmn
      (fun m => { m with forming := some { f with scale := some { r with epoch := s.epoch } } })) := by
  change execScaleRecordWrite s = _
  simp only [execScaleRecordWrite, forms, lacks, left, Option.isSome_none, Bool.false_eq_true, if_false]
  refine congrArg Host.Outcome.next ?_
  split
  · next same => rw [← same]
  · rfl

/-- What the Foreman holds when the forming step has opened (R269). -/
theorem State.openForming_opens (s : State) (f : Forming) (r : ScaleRec) :
    (s.openForming f r).fmn.forming = none ∧ (s.openForming f r).fmn.staged = [] ∧ (s.openForming f r).fmn.state = .stepping ∧
      (s.openForming f r).fmn.steps.any (fun w => w.n == f.n && w.state == .opened) = true := by
  unfold State.openForming
  simp [State.setFmn, State.setMod, State.newStep]

/-- A step that can open, with no spare to wait for, opens (R266, R269). -/
theorem exec_stepOpening_opens {r : ScaleRec} (forms : s.fmn.forming = some f) (mode : s.fmn.state = .joined ∨ s.fmn.state = .stepping) (can : s.canOpen f = true)
    (scale : f.scale = some r) (spare : s.boundary.spareWait = false) : exec .stepOpening s = .next (s.openForming f r) := by
  change execStepOpening s = _
  simp only [execStepOpening, forms, if_pos (And.intro mode can), scale, spare, Bool.false_eq_true, if_false]

end

/-- Settles O17, from the lemma of each command and each opening. -/
theorem stepCommandsAndOpening : Obligations.StepCommandsAndOpening := by
  refine ⟨fun _ _ _ _ => exec_stepOpen_forms, ?held, fun _ _ _ _ => exec_mbSubmit_stages, fun _ _ _ _ => exec_stepAbort_next, fun _ _ _ _ _ => exec_stepAbort_forming,
    fun _ _ _ _ => exec_stepAbort_listed, fun _ _ _ => exec_scaleRecordWrite_new, fun _ _ _ => exec_scaleRecordWrite_again, ?opening, ?ended, ?reopen⟩
  case held =>
    intro q c s x n a r go x_ replaces held same next staged
    refine ⟨_, ?_, rfl, State.openHeld_places held next staged⟩
    subst x_
    refine congrArg Host.Outcome.next ((cmd_ok go).trans ?_)
    simp only [replaces, if_true, same]
  case opening =>
    intro s f r forms mode can scale spare
    exact ⟨_, exec_stepOpening_opens forms mode can scale spare, rfl, s.openForming_opens f r⟩
  case ended =>
    intro s r opened idle still
    change execStepMicroBatchesEnded s = _
    simp only [execStepMicroBatchesEnded, opened, idle, still, Bool.not_false, Bool.and_self, if_true]
  case reopen =>
    intro s n low spare
    change execStepReopen s = _
    simp only [execStepReopen, low, spare, Bool.false_eq_true, if_false]

end Sys2Proof.Machine
end

section
/-! PROOFS. The SLICE messages of the steps (R269 to R278, R313). -/

namespace Sys2Proof.Machine

section
variable {s x : State} {o : OutPkt}

/-- ALL_IN at a collating step begins its exchange (R269, R353). -/
theorem exec_allIn_sound {r : StepRec} (packet : s.sliceIn 2 = some (o, x)) (listed : x.step? (sliceStep o.pkt) = some r) (attempt : r.attempt = sliceAttempt o.pkt)
    (collates : r.state = .collating) (first : x.firstAct 2 (sliceStep o.pkt) (sliceAttempt o.pkt) = true) :
    exec .allIn s = .next ((((x.boundary.acted 2 (sliceStep o.pkt) (sliceAttempt o.pkt)).modStep (sliceStep o.pkt)
      (fun r => { r with state := .deciding, tAllIn := some (x.reg64 pgDTL 0x040) })).exchSend (sliceStep o.pkt) (sliceAttempt o.pkt)).reply o stOK []) := by
  refine congrArg Host.Outcome.next ((slice_ok packet).trans (congrArg (State.reply · o stOK []) ?_))
  simp only [listed]
  exact if_pos ⟨attempt, collates, first⟩

/-- A DECISION is carried out; the deputy notes it (R269, R276). -/
theorem exec_decision_sound {y : State} {d : DecMsg} (packet : s.sliceIn 3 = some (o, x)) (decision : decOf (sliceRest o.pkt) = some d)
    (noted : y = (if x.self = x.deputy then (x.leadFor (sliceStep o.pkt) (sliceAttempt o.pkt)).modLead (sliceStep o.pkt)
      (fun l => if l.attempt = sliceAttempt o.pkt then { l with decided := some d } else l) else x)) :
    exec .decision s = .next ((y.takeDecision (sliceStep o.pkt) (sliceAttempt o.pkt) d).reply o stOK []) := by
  subst noted
  refine congrArg Host.Outcome.next ((slice_ok packet).trans ?_)
  simp only [decision]

section
variable {n a : Nat} {d : DecMsg} {r : StepRec} (listed : s.step? n = some r) (attempt : r.attempt = a) (first : s.firstAct (32 + d.verdict.code) n a = true)
include listed attempt first

/-- COMMIT and SKIP at a deciding step (R269). -/
theorem State.takeDecision_deciding (decides : r.state = .deciding) :
    (d.verdict = .commit → s.takeDecision n a d = s.takeCommit n a d) ∧ (d.verdict = .skip → s.takeDecision n a d = ((s.decided n a d).startRollback n .skip).beginRestores) := by
  have acts : ¬ (r.attempt ≠ a ∨ (!s.firstAct (32 + d.verdict.code) n a) = true) := by simp [attempt, first]
  constructor <;> intro verdict <;>
    · simp only [State.takeDecision, listed, if_neg acts]
      simp [verdict, decides]

/-- REPEAT, SUSPEND and ABORT at a step that is not rolling back (R269). -/
theorem State.takeDecision_rolls (goes : r.state ≠ .rollingBack) (verdict : d.verdict = .repeat ∨ d.verdict = .suspend ∨ d.verdict = .abort) :
    s.takeDecision n a d = (s.decided n a d).rollFrom n d.verdict := by
  have acts : ¬ (r.attempt ≠ a ∨ (!s.firstAct (32 + d.verdict.code) n a) = true) := by simp [attempt, first]
  simp only [State.takeDecision, listed, if_neg acts]
  rcases verdict with v | v | v <;> simp [v, goes, State.takeRoll]

end

/-- A COMMIT_DONE of the attempt is noted (R276). -/
theorem State.takeCommitDone_done {l : LeadRec} {src n a : Nat} (leads : x.lead? n = some l) (attempt : l.attempt = a) :
    x.takeCommitDone src n a false = (x.modLead n (fun l => { l with commits := setIns l.commits src })).checkRelease n := by
  simp [State.takeCommitDone, leads, attempt]

/-- A COMMIT_FAIL of the attempt stops it (R277). -/
theorem State.takeCommitDone_failed {l : LeadRec} {src n a : Nat} (leads : x.lead? n = some l) (attempt : l.attempt = a) :
    x.takeCommitDone src n a true = (x.modLead n (fun l => l.stopped 3 src)).leaderDecide n := by
  simp [State.takeCommitDone, leads, attempt]

/-- RELEASE reaches its step; the deputy notes it (R269, R277). -/
theorem exec_release_sound {y : State} (packet : s.sliceIn 5 = some (o, x))
    (noted : y = (if x.self = x.deputy then (x.leadFor (sliceStep o.pkt) (sliceAttempt o.pkt)).modLead (sliceStep o.pkt)
      (fun l => if l.attempt = sliceAttempt o.pkt then { l with released := true } else l) else x)) :
    exec .release s = .next ((y.takeRelease (sliceStep o.pkt) (sliceAttempt o.pkt)).reply o stOK []) := by
  subst noted
  exact congrArg Host.Outcome.next (slice_ok packet)

/-- RESUME lets the steps that are held for repeat open (R279). -/
theorem exec_resume_sound {y : State} (packet : s.sliceIn 6 = some (o, x))
    (freed : y = { x with fmn := { x.fmn with takeover := !x.fmn.held.isEmpty, resumed := !x.fmn.held.isEmpty, steps := x.fmn.steps.map (fun (r : StepRec) => if r.await then { r with await := false, after := some Verdict.repeat } else r) } }) :
    exec .resume s = .next ((if x.fmn.state = .quiesced ∨ (x.fmn.state = .joined ∧ x.fmn.steps.any (·.await) = true) then (y.setMod .stepping).settle else y).reply o stOK []) := by
  subst freed
  exact congrArg Host.Outcome.next (slice_ok packet)

/-- ABORT_REQ at the leader (R276, R278). -/
theorem exec_abortReq_sound {k : Nat} (packet : s.sliceIn 0x0B = some (o, x)) (leader : x.isLeader = true)
    (cause : k = (if o.pkt.src = x.self then ((x.step? (sliceStep o.pkt)).map (fun r => if r.cause = 0 then 6 else r.cause)).getD 6 else 6)) :
    exec .abortReq s = .next ((x.takeAbort (sliceStep o.pkt) (sliceAttempt o.pkt) k o.pkt.src).reply o stOK []) := by
  subst cause
  refine congrArg Host.Outcome.next ((slice_ok packet).trans ?_)
  simp only [leader, Bool.not_true, Bool.false_eq_true, if_false]
  cases x.step? (sliceStep o.pkt) <;> rfl

end

/-- Settles O18, message by message. -/
theorem sliceMessages : Obligations.SliceMessages := by
  refine ⟨fun _ _ _ packet => congrArg Host.Outcome.next (slice_ok packet), fun _ _ _ _ => exec_allIn_sound, fun _ _ _ _ _ => exec_decision_sound,
    fun _ _ _ _ _ => State.takeDecision_deciding, fun _ _ _ _ _ => State.takeDecision_rolls, ?done, ?failed, fun _ _ _ _ => exec_release_sound,
    fun _ _ _ _ => exec_resume_sound, fun _ _ _ _ => exec_abortReq_sound⟩
  case done =>
    intro s x o l packet leads attempt good
    refine congrArg Host.Outcome.next ((slice_ok packet).trans ?_)
    rw [good, State.takeCommitDone_done leads attempt]
  case failed =>
    intro s x o l packet leads attempt bad
    refine congrArg Host.Outcome.next ((slice_ok packet).trans ?_)
    rw [bad, State.takeCommitDone_failed leads attempt]

end Sys2Proof.Machine
end

section
/-! PROOFS. The leader's deadlines and norm partials (R272, R354). -/

namespace Sys2Proof.Machine

/-- Settles O20, event by event. -/
theorem leaderEvents : Obligations.LeaderEvents := by
  refine ⟨?late, ?partial_, ?norm, ?missing⟩
  case late =>
    intro s n l late leads leader armed waits undecided late_
    subst late_
    change execCollationDeadline n s = _
    simp only [execCollationDeadline, leads]
    exact if_neg (by simp [leader, armed, waits, undecided])
  case partial_ =>
    intro s x e ready x_
    subst x_
    change execNormPartialSend s = _
    simp only [execNormPartialSend, ready]
  case norm =>
    intro s x o l k packet leads rank attempt
    change execCNorm s = _
    simp only [execCNorm, packet, leads, rank]
    exact (if_neg (by omega)).trans (if_neg (by omega))
  case missing =>
    intro s n l missing leads leader allIn undecided missing_
    subst missing_
    change execNormDeadline n s = _
    simp only [execNormDeadline, leads]
    exact if_neg (by simp [leader, allIn, undecided])

end Sys2Proof.Machine
end

section
/-! PROOFS. The registers of training control and of the router (R146, R167, R261, R290, R301, R319, R324). -/

namespace Sys2Proof.Machine

section
variable (s : State) (v : Nat)

/-! ### When their writes are refused -/

/-- With its domain off a block-specific register takes no write (R434). -/
theorem State.regCheck_domOff {p o i : Nat} {b : Blk} (page : pageBlk p = some (b, i)) (aligned : o % 4 = 0) (own : 0x040 ≤ o) (inside : o < 0x1000)
    (off : s.domOn (domainOf b i) = false) : s.regCheck p o v true = stILLEGAL := by
  simp only [State.regCheck, page]
  rw [if_neg (by omega), if_pos ⟨own, by simp [off]⟩]

/-- A refused write of a register from outside. -/
theorem State.softWrite_refused {p o : Nat} (refused : s.regCheck p o v true = stILLEGAL) : s.softWrite p o v = { s with answer := stILLEGAL } := by
  rw [softWrite_no s p o v (by rw [refused]; decide), refused]

variable {s v} in
/-- A write that passes the checks of its page and reaches its block's own rule. -/
theorem State.softWrite_made {p o : Nat} {u : State} (made : s.regCheck p o v true = 0) (applied : s.regApply p o v true = u) : s.softWrite p o v = { u with answer := 0 } := by
  rw [softWrite_ok s p o v made, applied]

theorem State.regCheck_numCfg (on : s.domOn 183 = true) : s.regCheck pgNUM 0x040 v true = 0 := by simp [State.regCheck, domainOf, dataPlane, on]

theorem State.regCheck_ttIndex (on : s.domOn 183 = true) : s.regCheck pgNUM 0x094 v true = 0 := by simp [State.regCheck, domainOf, dataPlane, on]

theorem State.regCheck_ttCommit (on : s.domOn 183 = true) : s.regCheck pgNUM 0x0A4 v true = 0 := by simp [State.regCheck, domainOf, dataPlane, on]

theorem State.regCheck_rptTail (on : s.domOn 183 = true) : s.regCheck pgFMN 0x078 v true = 0 := by simp [State.regCheck, domainOf, dataPlane, on]

/-- STEP_NEXT is written where the Foreman is JOINED with no step (R261). -/
theorem State.regCheck_stepNext (hi : Bool) (on : s.domOn 183 = true) (joined : s.fmn.state = .joined) (free : s.fmn.forming = none) (none_ : s.fmn.steps = []) :
    s.regCheck pgFMN (if hi then 0x044 else 0x040) v true = 0 := by
  cases hi <;> simp [State.regCheck, domainOf, dataPlane, on, joined, free, none_]

/-- Elsewhere its write is refused (R261). -/
theorem State.regCheck_stepNext_refused (hi : Bool) (bad : s.fmn.state ≠ .joined ∨ s.fmn.forming ≠ none ∨ s.fmn.steps ≠ []) :
    s.regCheck pgFMN (if hi then 0x044 else 0x040) v true = stILLEGAL := by
  have illegal : (s.fmn.state != .joined || s.fmn.forming.isSome || !s.fmn.steps.isEmpty) = true := by
    rcases bad with state | forming | steps
    · simp [state]
    · simp [Option.isSome_iff_ne_none.mpr forming]
    · simp [steps]
  cases hi <;> simp [State.regCheck, domainOf, dataPlane, illegal]

/-- The router's registers are written only in IDLE with no imposition active (R301, R324). -/
theorem State.regCheck_router {o : Nat} (named : o = 0x040 ∨ o = 0x044 ∨ o = 0x054) (on : s.domOn 179 = true) (idle : s.fmn.state = .idle) (free : s.imp.active = none) :
    s.regCheck pgRTE o v true = 0 := by
  rcases named with rfl | rfl | rfl <;> simp [State.regCheck, domainOf, on, idle, free, State.idleFree]

theorem State.regCheck_router_refused {o : Nat} (named : o = 0x040 ∨ o = 0x044 ∨ o = 0x054) (bad : s.domOn 179 = false ∨ s.fmn.state ≠ .idle ∨ s.imp.active ≠ none) :
    s.regCheck pgRTE o v true = stILLEGAL := by
  cases on : s.domOn 179 with
  | false => exact s.regCheck_domOff v pageBlk_pgRTE (by omega) (by omega) (by omega) on
  | true =>
    have busy : s.idleFree = false := by
      rcases bad with off | state | active
      · exact absurd (on.symm.trans off) (by simp)
      · simp [State.idleFree, state]
      · simp [State.idleFree, Option.isSome_iff_ne_none.mpr active]
    rcases named with rfl | rfl | rfl <;> simp [State.regCheck, domainOf, on, busy]

/-! ### What they do where they are made -/

/-- LOAD stores LS_CFG and waits for the boundary (R146). -/
theorem State.regApply_numCfg (ok : lsCfgOk v = true) (load : bitOf v 0 = true) :
    s.regApply pgNUM 0x040 v true = { s.storeRw pgNUM .num 0 0x040 v with num := { (s.storeRw pgNUM .num 0 0x040 v).num with load := true } } := by
  have heeded : s.ignores .num 0 0x040 v true = false := by change (!lsCfgOk v) = false; rw [ok]; rfl
  simp only [State.regApply, pageBlk_pgNUM, heeded]
  exact if_pos load

theorem State.regApply_numCfg_bad (bad : lsCfgOk v = false) : s.regApply pgNUM 0x040 v true = s.latch pgNUM 5 := by
  have ignored : s.ignores .num 0 0x040 v true = true := by change (!lsCfgOk v) = true; rw [bad]; rfl
  simp only [State.regApply, pageBlk_pgNUM, ignored]
  rfl

/-- TT_INDEX brings the selected entry into the staging registers (R167). -/
theorem State.regApply_ttIndex : s.regApply pgNUM 0x094 v true = (s.storeRw pgNUM .num 0 0x094 v).ttSelect v := by
  have heeded : s.ignores .num 0 0x094 v true = false := rfl
  simp only [State.regApply, pageBlk_pgNUM, heeded]
  rfl

theorem State.regApply_ttCommit : s.regApply pgNUM 0x0A4 0x8000 true = (s.storeRw pgNUM .num 0 0x0A4 0x8000).ttCommit := by
  have heeded : s.ignores .num 0 0x0A4 0x8000 true = false := rfl
  simp only [State.regApply, pageBlk_pgNUM, heeded]
  change (if bitOf 0x8000 15 = true then (s.storeRw pgNUM .num 0 0x0A4 0x8000).ttCommit else s.storeRw pgNUM .num 0 0x0A4 0x8000) = _
  exact if_pos (by decide)

theorem State.regApply_rptTail : s.regApply pgFMN 0x078 v true = s.setReg pgFMN 0x078 (writtenBits (s.regN pgFMN 0x078) v 0xFFFFFFFF) := by
  have heeded : s.ignores .fmn 0 0x078 v true = false := rfl
  refine Eq.trans ?_ (storeRw_plain s pgFMN .fmn 0 0x078 v rfl)
  simp only [State.regApply, pageBlk_pgFMN, heeded]
  rfl

theorem State.regApply_stepNext (hi : Bool) : s.regApply pgFMN (if hi then 0x044 else 0x040) v true =
    s.setReg pgFMN (if hi then 0x044 else 0x040) (writtenBits (s.regN pgFMN (if hi then 0x044 else 0x040)) v 0xFFFFFFFF) := by
  cases hi with
  | false =>
    have heeded : s.ignores .fmn 0 0x040 v true = false := rfl
    refine Eq.trans ?_ (storeRw_plain s pgFMN .fmn 0 0x040 v rfl)
    simp only [State.regApply, Bool.false_eq_true, if_false, pageBlk_pgFMN, heeded]
    rfl
  | true =>
    have heeded : s.ignores .fmn 0 0x044 v true = false := rfl
    refine Eq.trans ?_ (storeRw_plain s pgFMN .fmn 0 0x044 v rfl)
    simp only [State.regApply, if_true, pageBlk_pgFMN, heeded]
    rfl

/-- WIN_DATA sets the route of WIN_INDEX's chip (R324). -/
theorem State.regApply_winData : s.regApply pgRTE 0x054 v true =
    { s with fab := { s.fab with win := kvSet s.fab.win (s.field pgRTE 0x050 0 14) (BitVec.ofNat 32 v &&& 0xCFF80000#32) } } := by
  have heeded : s.ignores .rte 0 0x054 v true = false := rfl
  simp only [State.regApply, pageBlk_pgRTE, heeded]
  rfl

/-- SELF is stored and goes into the Ledger (R301). -/
theorem State.regApply_rteSelf (ok : s.regN pgRTE 0x044 = 0 ∨ s.chipExists (v % 16384) = true) :
    s.regApply pgRTE 0x040 v true = (s.setReg pgRTE 0x040 (writtenBits (s.regN pgRTE 0x040) v 0x3FFF)).ledgerUpdate 0x900 (toLE 2 (v % 16384)) := by
  have heeded : s.ignores .rte 0 0x040 v true = false := by
    change (s.regN pgRTE 0x044 != 0 && !s.chipExists (v % 16384)) = false
    rcases ok with none_ | exists_ <;> simp [*]
  rw [show (0x3FFF : Nat) = rwMask .rte 0 0x040 from rfl, ← storeRw_plain s pgRTE .rte 0 0x040 v rfl]
  simp only [State.regApply, pageBlk_pgRTE, heeded]
  rfl

theorem State.regApply_rteSelf_bad (shape : s.regN pgRTE 0x044 ≠ 0) (outside : s.chipExists (v % 16384) = false) : s.regApply pgRTE 0x040 v true = s.latch pgRTE 7 := by
  have ignored : s.ignores .rte 0 0x040 v true = true := by
    change (s.regN pgRTE 0x044 != 0 && !s.chipExists (v % 16384)) = true
    simp [shape, outside]
  simp only [State.regApply, pageBlk_pgRTE, ignored]
  rfl

/-- SHAPE is stored, clears the window and goes into the Ledger (R301). -/
theorem State.regApply_rteShape (ok : shapeOk (v % 2 ^ 24) = true) : s.regApply pgRTE 0x044 v true =
    ({ s.setReg pgRTE 0x044 (writtenBits (s.regN pgRTE 0x044) v 0xFFFFFF) with fab := { s.fab with win := [] } } : State).ledgerUpdate 0x902 (toLE 3 v) := by
  have heeded : s.ignores .rte 0 0x044 v true = false := by change (!shapeOk (v % 2 ^ 24)) = false; rw [ok]; rfl
  rw [show (0xFFFFFF : Nat) = rwMask .rte 0 0x044 from rfl, ← storeRw_plain s pgRTE .rte 0 0x044 v rfl]
  simp only [State.regApply, pageBlk_pgRTE, heeded]
  rfl

theorem State.regApply_rteShape_bad (bad : shapeOk (v % 2 ^ 24) = false) : s.regApply pgRTE 0x044 v true = s.latch pgRTE 7 := by
  have ignored : s.ignores .rte 0 0x044 v true = true := by change (!shapeOk (v % 2 ^ 24)) = true; rw [bad]; rfl
  simp only [State.regApply, pageBlk_pgRTE, ignored]
  rfl

end

/-- What TT_INDEX leaves in its three registers (R167). -/
theorem State.ttSelect_regs (s : State) (v : Nat) : (s.ttSelect v).regN pgNUM 0x094 = v % 1024 ∧
    (s.ttSelect v).reg pgNUM 0x098 = BitVec.ofNat 32 (kvGet s.num.table (v % 1024) TensorEnt.clear).tid ∧
    (s.ttSelect v).reg pgNUM 0x09C = BitVec.ofNat 32 ((kvGet s.num.table (v % 1024) TensorEnt.clear).word &&& 0xEFFCFFFF) ∧
    regsBut s (s.ttSelect v) [(pgNUM, 0x094), (pgNUM, 0x098), (pgNUM, 0x09C)] := by
  have selected : (s.setN pgNUM 0x094 (v % 1024)).ttEntry = kvGet s.num.table (v % 1024) TensorEnt.clear := by
    rw [State.ttEntry, State.regN_setN_self _ _ _ (by omega)]
    rfl
  unfold State.ttSelect
  simp only [selected]
  refine ⟨?_, ?_, State.reg_setN_self _ _ _ _, fun p o other => ?_⟩
  · rw [State.regN_setN_ne _ _ (by decide), State.regN_setN_ne _ _ (by decide), State.regN_setN_self _ _ _ (by omega)]
  · rw [State.reg_setN_ne _ _ (by decide), State.reg_setN_self]
  · simp only [List.map_cons, List.map_nil, List.mem_cons, List.not_mem_nil, or_false, not_or] at other
    rw [State.reg_setN_ne _ _ other.2.2, State.reg_setN_ne _ _ other.2.1, State.reg_setN_ne _ _ other.1]

/-- A commit of an entry that R142 allows waits for the boundary (R167). -/
theorem State.ttCommit_takes {s : State} {e : TensorEnt} (e_ : e = { TensorEnt.clear with word := s.regN pgNUM 0x09C }) (mode : e.mode ≠ 3)
    (format : e.mode = 1 → (histTf e.fmt).isSome = true) :
    s.ttCommit = { s with num := { s.num with commits := s.num.commits ++ [(s.regN pgNUM 0x094, s.regN pgNUM 0x098, s.regN pgNUM 0x09C)] } } := by
  subst e_
  refine if_neg ?_
  rintro (three | ⟨history, other⟩)
  · exact mode three
  · simp [Option.isNone_iff_eq_none.mp other] at format
    exact format history

/-- One that it does not allow latches the event (R142, R165). -/
theorem State.ttCommit_refuses {s : State} {e : TensorEnt} (e_ : e = { TensorEnt.clear with word := s.regN pgNUM 0x09C }) (bad : e.mode = 3 ∨ (e.mode = 1 ∧ histTf e.fmt = none)) :
    s.ttCommit = s.numCfgErr := by
  subst e_
  refine if_pos (bad.imp_right fun both => ⟨both.1, ?_⟩)
  rw [both.2]
  rfl

/-- The write of COMMIT leaves the staging registers. -/
theorem State.storeRw_ttCommit_regN (s : State) (o : Nat) (staged : o = 0x094 ∨ o = 0x098 ∨ o = 0x09C) : (s.storeRw pgNUM .num 0 0x0A4 0x8000).regN pgNUM o = s.regN pgNUM o := by
  rw [storeRw_plain _ _ _ _ _ _ rfl]
  exact congrArg BitVec.toNat (State.reg_setReg_ne _ _ (by unfold regKey; omega))

/-- Settles O21: each write by its check and by what it does. -/
theorem trainingRegisterWrites : Obligations.TrainingRegisterWrites := by
  refine ⟨?load, ?loadBad, ?off, ?index, ?commit, ?commitBad, ?tail, ?next, ?nextBad, ?win, ?self, ?shape, ?selfBad, ?shapeBad, ?router⟩
  case load =>
    intro v s on ok
    have load : bitOf (v.toNat ||| 1) 0 = true := by simp [bitOf]
    obtain ⟨held, stored⟩ := storeRw_shape s pgNUM .num 0 0x040 (v.toNat ||| 1)
    refine ⟨_, congrArg Host.Outcome.next (State.softWrite_made (s.regCheck_numCfg _ on) (s.regApply_numCfg _ ok load)), ?_⟩
    rw [stored]
    exact ⟨rfl, State.reg_setReg_self s _ _ _, regsBut_setReg s _ _ _ _ rfl⟩
  case loadBad => exact fun v s on bad => congrArg Host.Outcome.next (State.softWrite_made (s.regCheck_numCfg _ on) (s.regApply_numCfg_bad _ bad))
  case off =>
    intro hi v s off
    have num : ∀ o w, o % 4 = 0 → 0x040 ≤ o → o < 0x1000 → (.next (s.softWrite pgNUM o w) : Host.Outcome State Fault Refusal) = .next { s with answer := stILLEGAL } :=
      fun o w aligned own inside => congrArg Host.Outcome.next (s.softWrite_refused w (s.regCheck_domOff w pageBlk_pgNUM aligned own inside off))
    have fmn : ∀ o w, o % 4 = 0 → 0x040 ≤ o → o < 0x1000 → (.next (s.softWrite pgFMN o w) : Host.Outcome State Fault Refusal) = .next { s with answer := stILLEGAL } :=
      fun o w aligned own inside => congrArg Host.Outcome.next (s.softWrite_refused w (s.regCheck_domOff w pageBlk_pgFMN aligned own inside off))
    exact ⟨num _ _ (by decide) (by decide) (by decide), num _ _ (by decide) (by decide) (by decide), num _ _ (by decide) (by decide) (by decide),
      fmn _ _ (by decide) (by decide) (by decide), fmn _ _ (by cases hi <;> decide) (by cases hi <;> decide) (by cases hi <;> decide)⟩
  case index =>
    intro v s on
    obtain ⟨index, tid, word, others⟩ := (s.setReg pgNUM 0x094 (writtenBits (s.regN pgNUM 0x094) v.toNat (rwMask .num 0 0x094))).ttSelect_regs v.toNat
    refine ⟨_, congrArg Host.Outcome.next (State.softWrite_made (s.regCheck_ttIndex _ on) (s.regApply_ttIndex _)), ?_⟩
    rw [storeRw_plain _ _ _ _ _ _ rfl]
    refine ⟨rfl, index, tid, word, fun p o other => (others p o other).trans (State.reg_setReg_ne _ _ ?_)⟩
    simp only [List.map_cons, List.map_nil, List.mem_cons, List.not_mem_nil, or_false, not_or] at other
    exact other.1
  case commit =>
    intro s e on e_ mode format
    refine ⟨_, congrArg Host.Outcome.next (State.softWrite_made (s.regCheck_ttCommit _ on) s.regApply_ttCommit), ?_⟩
    rw [State.ttCommit_takes (s.storeRw_ttCommit_regN _ (.inr (.inr rfl)) ▸ e_) mode format, s.storeRw_ttCommit_regN _ (.inl rfl), s.storeRw_ttCommit_regN _ (.inr (.inl rfl)),
      s.storeRw_ttCommit_regN _ (.inr (.inr rfl)), storeRw_plain _ _ _ _ _ _ rfl]
    exact ⟨rfl, regsBut_setReg s _ _ _ _ rfl⟩
  case commitBad =>
    intro s e on e_ bad
    refine congrArg Host.Outcome.next ((State.softWrite_made (s.regCheck_ttCommit _ on) s.regApply_ttCommit).trans ?_)
    rw [State.ttCommit_refuses (s.storeRw_ttCommit_regN _ (.inr (.inr rfl)) ▸ e_) bad]
  case tail =>
    exact fun v s on => ⟨_, congrArg Host.Outcome.next (State.softWrite_made (s.regCheck_rptTail _ on) (s.regApply_rptTail _)), rfl, State.reg_setReg_self s _ _ _, regsBut_setReg s _ _ _ _ rfl⟩
  case next =>
    exact fun hi v s on joined free none_ => ⟨_, congrArg Host.Outcome.next (State.softWrite_made (s.regCheck_stepNext _ hi on joined free none_) (s.regApply_stepNext _ hi)), rfl,
      State.reg_setReg_self s _ _ _, regsBut_setReg s _ _ _ _ rfl⟩
  case nextBad => exact fun hi v s _ bad => congrArg Host.Outcome.next (s.softWrite_refused _ (s.regCheck_stepNext_refused _ hi bad))
  case win =>
    intro v s on idle free
    refine congrArg Host.Outcome.next ((State.softWrite_made (s.regCheck_router _ (.inr (.inr rfl)) on idle free) (s.regApply_winData _)).trans ?_)
    rw [BitVec.ofNat_toNat, BitVec.setWidth_eq]
  case self =>
    exact fun v s on idle free ok => ⟨_, congrArg Host.Outcome.next (State.softWrite_made (s.regCheck_router _ (.inl rfl) on idle free) (s.regApply_rteSelf _ ok)), rfl,
      State.reg_setReg_self s _ _ _, regsBut_setReg s _ _ _ _ rfl⟩
  case shape =>
    exact fun v s on idle free ok => ⟨_, congrArg Host.Outcome.next (State.softWrite_made (s.regCheck_router _ (.inr (.inl rfl)) on idle free) (s.regApply_rteShape _ ok)), rfl,
      State.reg_setReg_self s _ _ _, regsBut_setReg s _ _ _ _ rfl⟩
  case selfBad =>
    exact fun v s on idle free shape outside =>
      congrArg Host.Outcome.next (State.softWrite_made (s.regCheck_router _ (.inl rfl) on idle free) (s.regApply_rteSelf_bad _ shape outside))
  case shapeBad =>
    exact fun v s on idle free bad => congrArg Host.Outcome.next (State.softWrite_made (s.regCheck_router _ (.inr (.inl rfl)) on idle free) (s.regApply_rteShape_bad _ bad))
  case router =>
    exact fun v s bad => ⟨congrArg Host.Outcome.next (s.softWrite_refused _ (s.regCheck_router_refused _ (.inr (.inr rfl)) bad)),
      congrArg Host.Outcome.next (s.softWrite_refused _ (s.regCheck_router_refused _ (.inl rfl) bad)),
      congrArg Host.Outcome.next (s.softWrite_refused _ (s.regCheck_router_refused _ (.inr (.inl rfl)) bad))⟩

end Sys2Proof.Machine
end

section
/-! PROOFS. The Collator: contributions (R345 to R351) and results (R352 to R359). -/

namespace Sys2Proof.Machine

section
variable {t : Fin 136} {serial : Nat} {errs : List CaseErr} {s x : State} {m : Move} {r : BktReq} {b : Bucket} {h : BHalf}

/-- The Collator reads the BKT of an outstanding request (R345). -/
theorem exec_bktCollatorRead (outstanding : (s.tile t.val).moves.find? (fun m => m.serial == serial && !m.ready) = some m) (kind : m.kind = .bkt r) :
    exec (.bktCollatorRead t serial errs) s = .next ((s.caseErrors t.val errs).bktRead t.val serial r) := by
  change execBktCollatorRead t serial errs s = _
  simp only [execBktCollatorRead, outstanding, kind]

/-- A BKT without poison that its bucket takes, by the bucket's kind (R345). -/
theorem State.bktRead_fits (clean : firstBad (x.tile t.val).mem (bktEnds r) = none) (bucket : x.bucket? r.bucket = some b) (half : x.bhalf r.bucket r.step r.attempt = some h)
    (fits : x.bktFits r b h = true) :
    (b.kind = 0 → x.bktRead t.val serial r = x.bktAccept t.val serial r b h
      { slot := r.slot, form := r.form, vals := (bktSent (x.tile t.val).mem r).vals, idx := (bktSent (x.tile t.val).mem r).idx, j := (bktSent (x.tile t.val).mem r).j }
      (bktSent (x.tile t.val).mem r).errs (bktSent (x.tile t.val).mem r).bad) ∧
    (b.kind = 1 → x.bktRead t.val serial r = x.bktAccept t.val serial r b h
      { slot := r.slot, form := 0, vals := topkWords (x.tile t.val).mem r, idx := [], j := 0 } (zeroErrs r) false) ∧
    (b.kind = 2 → x.segOver (x.tile t.val).mem r b = false → x.bktRead t.val serial r = x.bktSegs t.val serial (x.tile t.val).mem r b) ∧
    (2 < b.kind → x.bktRead t.val serial r = x.bktReturn t.val serial (x.tile t.val).mem r b) := by
  simp only [State.bktRead, clean, bucket, half, fits, Option.isSome_none, Bool.false_eq_true, Bool.not_true, if_false]
  refine ⟨fun k => if_pos k, fun k => ?_, fun k over_ => ?_, fun k => ?_⟩
  · rw [if_neg (by omega), if_pos k]
  · rw [if_neg (by omega), if_neg (by omega), if_pos k, over_]
    exact if_neg (by simp)
  · rw [if_neg (by omega), if_neg (by omega), if_neg (by omega)]

/-- What a leaf that takes a contribution has left (R345). -/
theorem leafTakes_room {tree : List Nat} {rank : Option Nat} {slot : Nat} (takes : leafTakes tree rank h b slot = true) : h.closed = false ∧ h.leaf.length < b.cpm := by
  simp only [leafTakes, Bool.and_eq_true, decide_eq_true_eq, Bool.not_eq_true'] at takes
  exact ⟨takes.2, takes.1.2⟩

/-- What R345 asks of a contribution. -/
theorem State.bktFits_asks (fits : s.bktFits r b h = true) : (b.kind = 0 → r.rows * r.cols = b.elems) ∧ (b.kind < 2 → h.closed = false ∧ h.leaf.length < b.cpm) ∧
    (b.kind ≠ 0 → r.form = 0) ∧ (b.kind = 3 → (mapAt s.colSec b.offset).home = s.self) := by
  unfold State.bktFits at fits
  dsimp only at fits
  by_cases zero : b.kind = 0
  · rw [if_pos zero, Bool.and_eq_true, decide_eq_true_eq] at fits
    exact ⟨fun _ => fits.1, fun _ => leafTakes_room fits.2, fun other => absurd zero other, fun three => by omega⟩
  · rw [if_neg zero] at fits
    by_cases one : b.kind = 1
    · rw [if_pos one, Bool.and_eq_true, decide_eq_true_eq] at fits
      exact ⟨fun k => absurd k zero, fun _ => leafTakes_room fits.2, fun _ => fits.1.1, fun three => by omega⟩
    · rw [if_neg one] at fits
      by_cases two : b.kind = 2
      · rw [if_pos two, decide_eq_true_eq] at fits
        exact ⟨fun k => absurd k zero, fun k => by omega, fun _ => fits.1, fun three => by omega⟩
      · rw [if_neg two, decide_eq_true_eq] at fits
        exact ⟨fun k => absurd k zero, fun k => by omega, fun _ => fits.1, fun _ => fits.2.1⟩

/-- A BKT of a half that the Collator no longer has (R345). -/
theorem State.bktRead_stale (clean : firstBad (x.tile t.val).mem (bktEnds r) = none) (bucket : x.bucket? r.bucket = some b) (half : x.bhalf r.bucket r.step r.attempt = none) :
    x.bktRead t.val serial r = x.staleDrop.moveDone t.val serial stABORTED := by
  simp only [State.bktRead, clean, bucket, half, Option.isSome_none, Bool.false_eq_true, if_false]

end

/-- Settles O22, from the reading of a BKT and packet by packet. -/
theorem collationContributions : Obligations.CollationContributions := by
  refine ⟨?read, fun _ _ _ _ => State.bktFits_asks, ?stale, ?up, ?topk, ?sign, ?idle, ?send, ?deliver⟩
  case read =>
    intro t serial errs s x m r b h outstanding kind x_ clean bucket half fits
    subst x_
    rw [exec_bktCollatorRead outstanding kind]
    obtain ⟨sum, topk, segs, ret⟩ := State.bktRead_fits (serial := serial) clean bucket half fits
    exact ⟨fun k => congrArg Host.Outcome.next (sum k), fun k => congrArg Host.Outcome.next (topk k), fun k within => congrArg Host.Outcome.next (segs k within),
      fun k => congrArg Host.Outcome.next (ret k)⟩
  case stale =>
    intro t serial errs s x m r b outstanding kind x_ clean bucket half
    subst x_
    rw [exec_bktCollatorRead outstanding kind, State.bktRead_stale clean bucket half]
  case up =>
    intro s x o b packet bucket
    change execCUp s = _
    simp only [execCUp, packet, bucket]
  case topk =>
    intro s x o b h packet bucket half
    change execCTopkTg s = _
    simp only [execCTopkTg, packet, bucket, half]
    exact (apply_ite Host.Outcome.next _ _ _).symm
  case sign =>
    intro s x o b packet bucket half
    change execCSignTg s = _
    simp only [execCSignTg, packet, bucket]
    exact if_neg (by simpa [Option.isSome_iff_ne_none] using half)
  case idle =>
    intro s none_
    change Host.Outcome.next s.sendOut = _
    simp only [State.sendOut, none_]
  case send =>
    intro s x y i o next out x_ y_
    subst x_ y_
    change Host.Outcome.next s.sendOut = _
    simp only [State.sendOut, next, out]
  case deliver =>
    intro s x o packet
    change execCDeliver s = _
    simp only [execCDeliver, packet]

/-- Settles O23, packet by packet. -/
theorem collationResults : Obligations.CollationResults := by
  refine ⟨?done, ?other, ?ends, ?slot, ?stale, ?down, ?result, ?count, ?data, ?ret, ?row⟩
  case done =>
    intro s x o l packet leader leads attempt
    change execCDone s = _
    simp only [execCDone, packet, leader, leads, Bool.not_true, Bool.false_eq_true, if_false]
    exact if_neg (by omega)
  case other =>
    intro s x o packet member
    change execCDone s = _
    simp only [execCDone, packet, member, Bool.not_false, if_true]
  case ends =>
    intro s x o e packet exch last
    change execCRepl s = _
    simp only [execCRepl, packet, exch]
    exact if_pos last
  case slot =>
    intro s x o e tb packet exch more table
    change execCRepl s = _
    simp only [execCRepl, packet, exch, table]
    exact if_neg more
  case stale =>
    intro s x o packet exch
    change execCRepl s = _
    simp only [execCRepl, packet, exch]
  case down =>
    intro s x y o e packet exch y_
    subst y_
    change (_ → execCReplDown s = _) ∧ (∀ tb, _ → _ → execCReplDown s = _)
    simp only [execCReplDown, packet, exch]
    exact ⟨fun last => if_pos last, fun tb more table => by simp only [if_neg more, table]⟩
  case result =>
    intro s x o packet
    change execCResult s = _
    simp only [execCResult, packet]
  case count =>
    intro s x y o i r me h g packet seg y_
    subst y_
    change execA2aCount s = _
    simp only [execA2aCount, packet, seg]
  case data =>
    intro s x o i r me h g packet seg
    change execA2aData s = _
    simp only [execA2aData, packet, seg]
  case ret =>
    intro s x y o b h packet bucket half y_
    subst y_
    change execA2aRet s = _
    simp only [execA2aRet, packet, bucket, half, Bool.and_eq_true, Bool.not_eq_true']
  case row =>
    intro s me b base one
    simp [State.placeRows, one]

end Sys2Proof.Machine
end

section
/-! PROOFS. Heartbeats, probes, fences and the Spine (R25, R368, R370 to R373, R393). -/

namespace Sys2Proof.Machine

/-- A SUSPECT at the judge of a chip starts its probes (R371, R277). -/
theorem exec_suspect_sound {s x y : State} {o : OutPkt} {c : Nat} (packet : s.sliceIn 0x11 = some (o, x)) (c_ : c = leAt (sliceRest o.pkt) 0 2) (y_ : y = (x.resChip c).latch pgPMS 1) :
    exec .suspect s = .next ((if y.judges c = true ∧ c ∈ y.members ∧ kvHas y.res.suspects c = false ∧ c ∉ y.fmn.fencedMembers then y.probe c 1 else y).reply o stOK []) := by
  subst c_ y_
  refine congrArg Host.Outcome.next ((slice_ok packet).trans ?_)
  simp [and_assoc]

/-- The deputy acts for a leader that fenced itself (R277). -/
theorem exec_fencedNotice_leader {s x : State} {o : OutPkt} {c : Nat} (packet : s.sliceIn 0x14 = some (o, x)) (c_ : c = o.pkt.src) (other : c ≠ x.self) (member : c ∈ x.members)
    (leader : c = x.leader) (deputy : x.deputy = x.self) (fresh : c ∉ x.fmn.fencedMembers) :
    exec .fencedNotice s = .next ((x.fenceMember c).reply o stOK []) := by
  subst c_
  refine congrArg Host.Outcome.next ((slice_ok packet).trans (congrArg (State.reply · o stOK []) ?_))
  exact (if_neg other).trans (if_pos ⟨by simpa using member, leader, deputy, by simpa using fresh⟩)

/-- Everyone else notes the chip that has fenced itself, the leader for its members (R276, R372). -/
theorem exec_fencedNotice_noted {s x y : State} {o : OutPkt} {c : Nat} (packet : s.sliceIn 0x14 = some (o, x)) (c_ : c = o.pkt.src) (other : c ≠ x.self)
    (not_ours : c ≠ x.leader ∨ x.deputy ≠ x.self ∨ c ∉ x.members ∨ c ∈ x.fmn.fencedMembers) (y_ : y = ((x.resChip c).cutPorts c).abandonRebuild) :
    exec .fencedNotice s = .next ((if c ∈ x.members ∧ x.isLeader = true then
      ((y.setFmn (fun f => { f with fencedMembers := setIns f.fencedMembers c })).leaderLost c).checkLost else y).reply o stOK []) := by
  subst c_ y_
  refine congrArg Host.Outcome.next ((slice_ok packet).trans (congrArg (State.reply · o stOK []) ?_))
  refine (if_neg other).trans ((if_neg ?_).trans ?_)
  · rintro ⟨member, leader, deputy, fresh⟩
    rcases not_ours with h | h | h | h
    · exact h leader
    · exact h deputy
    · exact h (by simpa using member)
    · simp [h] at fresh
  · simp

/-- Replies to several commands change the Supervisor and registers alone. -/
theorem State.replyAll_fmn (s : State) (rs : List ReplyTo) (status : Nat) : (s.replyAll rs status).fmn = s.fmn :=
  fmn_foldl _ _ _ fun _ _ => State.replyTo_fmn _ _ _ _

/-- A module that a cause fences is FENCED, with no message of the Supervisor outstanding (R373, R418). -/
theorem exec_moduleFence_fences {s : State} {cause : Nat} (fences : s.fencing = some cause) :
    ∃ u, exec .moduleFence s = .next u ∧ u.fmn.state = .fenced ∧ u.spv.mbox = none ∧ u.spv.mwait = [] := by
  change ∃ u, execModuleFence s = .next u ∧ _
  rw [execModuleFence]
  simp only [fences]
  refine ⟨_, rfl, ?_, rfl, rfl⟩
  rw [State.lifeAdd_fmn]
  refine (congrArg Foreman.state (State.replyAll_fmn _ _ _)).trans ?_
  rw [fmn_foldl _ _ _ fun x p => ?_]
  · rw [State.latch_fmn]
    rfl
  · split
    · exact State.portDown_fmn _ _ _ _
    · rfl

/-- A Spine segment that loses a sub-link (R25, R368). -/
theorem exec_spineSublinkFailure_lost {seg : Fin 4} {us n : Nat} {s x y : State} (n_ : n = s.field pgSPN 0x00C (spnLo seg.val) 5) (some_ : 0 < n)
    (up : s.field pgSPN 0x00C (28 + seg.val) 1 ≠ 0) (x_ : x = ((s.setField pgSPN 0x00C (spnLo seg.val) 5 (n - 1)).setN pgSPN 0x050 (min us 0xFFFFFFFF)).latch pgSPN 1)
    (y_ : y = (x.setField pgSPN 0x00C (28 + seg.val) 1 0).latch pgSPN 2) :
    exec (.spineSublinkFailure seg us) s = .next (if 9 ≤ n then x else if 2 ≤ seg.val ∨ y.field pgSPN 0x00C 28 2 = 0 then y.fenceFor 5 else y) := by
  subst y_ x_ n_
  change execSpineSublinkFailure seg us s = _
  rw [execSpineSublinkFailure]
  dsimp only
  rw [if_neg (by omega)]
  by_cases eight : 9 ≤ s.field pgSPN 0x00C (spnLo seg.val) 5
  · rw [if_pos (by omega), if_pos eight]
  · rw [if_neg (by omega), if_neg eight]
    simp only [Bool.or_eq_true, decide_eq_true_eq, beq_iff_eq]
    exact (apply_ite Host.Outcome.next _ _ _).symm

/-- Settles O24, event by event and message by message. -/
theorem heartbeatsFencesAndSpine : Obligations.HeartbeatsFencesAndSpine := by
  refine ⟨fun s beats => if_pos beats, fun s x o packet => congrArg Host.Outcome.next (slice_ok packet), ?silent, fun s x o c y => exec_suspect_sound,
    fun s x o packet => congrArg Host.Outcome.next (slice_ok packet), fun chip s once => if_pos once, fun chip s twice judge => if_pos ⟨twice, judge⟩, ?order,
    fun s x o c => exec_fencedNotice_leader, fun s x y o c => exec_fencedNotice_noted, fun s beats => if_pos beats, fun s cause => exec_moduleFence_fences, fun seg s => rfl,
    fun seg us n s x y => exec_spineSublinkFailure_lost, fun seg us s down => if_pos (.inr down)⟩
  case silent =>
    intro chip s beats neighbour member unfenced
    exact if_pos (by rw [beats, neighbour, member, unfenced]; rfl)
  case order =>
    intro s x y o c packet c_ y_
    subst c_ y_
    exact congrArg Host.Outcome.next (slice_ok packet)

end Sys2Proof.Machine
end

section
/-! PROOFS. The messages of parity and of quiet periods (R369, R377, R380, R385 to R387), and the epoch change (R283, R284, R286). -/

namespace Sys2Proof.Machine

/-- A message for the Postmaster waits while a handover pauses it (R508). -/
theorem State.slice_waits {s : State} {kind : Nat} {own : Packet → State → State} (waits : s.postWaits kind = true) : s.slice kind own = s := if_pos waits

theorem State.postWaits_paused {s : State} {kind : Nat} (paused : s.mgmt.handover = .paused) (behind : 0x10 < kind) (no_probe : kind ≠ 0x12) : s.postWaits kind = true := by
  simp [State.postWaits, paused, behind, no_probe]

section
variable {s x : State} {o : OutPkt}

/-- A UNIT_READ is answered with what its unit holds (R386, R390). -/
theorem exec_unitRead_sound (packet : s.sliceIn 0x1A = some (o, x)) :
    exec .unitRead s = .next ((x.unitBytes (sliceRest o.pkt)).2.2.reply o (x.unitBytes (sliceRest o.pkt)).1 (x.unitBytes (sliceRest o.pkt)).2.1) := by
  unfold State.sliceIn at packet
  split at packet
  · exact absurd packet (by simp)
  · next heeded =>
    change execUnitRead s = _
    rw [execUnitRead, if_neg heeded, packet]

/-- It is refused outside the quiet period (R386). -/
theorem State.unitBytes_refused (busy : x.res.quietSent = false) (bs : Bytes) : x.unitBytes bs = (stILLEGAL, [], x) := by
  unfold State.unitBytes
  simp [busy]

end

/-- Settles O26, message by message. -/
theorem parityMessages : Obligations.ParityMessages := by
  refine ⟨?delta, ?busy, ?quietReached, fun _ _ _ packet => congrArg Host.Outcome.next (slice_ok packet), fun _ _ _ packet => congrArg Host.Outcome.next (slice_ok packet),
    ?sync, ?paused, ?refused, fun _ _ _ => exec_unitRead_sound, ?repair⟩
  case delta =>
    intro s x o packet
    change execParityDelta s = _
    simp only [execParityDelta, packet]
  case busy =>
    intro s x o packet low high
    exact congrArg Host.Outcome.next ((slice_ok packet).trans (congrArg (State.reply · o stOK []) (if_neg (by omega))))
  case quietReached =>
    intro s busy unsent held
    exact if_pos (by rw [busy, unsent, held]; rfl)
  case sync =>
    intro s x y o b k packet b_ k_ y_
    subst y_ k_ b_
    exact congrArg Host.Outcome.next (slice_ok packet)
  case paused =>
    intro s paused
    have waits : ∀ kind own, 0x10 < kind → kind ≠ 0x12 → (.next (s.slice kind own) : Host.Outcome State Fault Refusal) = .next s :=
      fun kind own behind no_probe => congrArg Host.Outcome.next (State.slice_waits (State.postWaits_paused paused behind no_probe))
    exact ⟨waits _ _ (by decide) (by decide), waits _ _ (by decide) (by decide), waits _ _ (by decide) (by decide), waits _ _ (by decide) (by decide),
      waits _ _ (by decide) (by decide), waits _ _ (by decide) (by decide), waits _ _ (by decide) (by decide), waits _ _ (by decide) (by decide),
      if_pos (State.postWaits_paused paused (by decide) (by decide)), waits _ _ (by decide) (by decide)⟩
  case refused =>
    intro s x o packet busy
    rw [exec_unitRead_sound packet, State.unitBytes_refused busy]
  case repair =>
    intro s x o packet leader fresh
    exact congrArg Host.Outcome.next ((slice_ok packet).trans (congrArg (State.reply · o stOK []) (if_neg (by simp [leader, fresh]))))

section
variable {q : Fin 64} {c : Cmd} {s x : State}

/-- A checked image is staged with its epoch (R283). -/
theorem exec_impositionStage_stages {v y z w : State} {img : Bytes} {bad : Bool} {m : Impo} (go : starts s q.val 0x31 c) (x_ : x = s.started q.val c)
    (extent : x.extentOk (leAt c.body 0 8) (leAt c.body 8 4) = true) (load : x.dramLoad (leAt c.body 0 8) (leAt c.body 8 4) = (img, bad, v))
    (y_ : y = v.pmkCheck 4 (crc32c (patchB img 0x64 [0, 0, 0, 0])) (imageCrc img) 0) (sound : y.stageCheck img (leAt c.body 8 4) = stOK) (m_ : m = impoOf img)
    (z_ : z = (y.replyAll y.imp.replies stEPOCH).setImp (fun i => { i with staged := some m, accepted := false, replies := [], drainSent := false, activateRx := false, confirms := [] }))
    (w_ : w = (((z.setN pgIMP 0x044 m.epoch).set64 pgCOL 0x050 (areaNeed m z.self)).latch pgIMP 0).ok (c.ret q.val) []) :
    exec (.impositionStage q) s = .next (if w.fmn.state = .idle then w.sendDrained else w) := by
  subst w_ z_ m_ y_ x_
  refine congrArg Host.Outcome.next ((cmd_ok go).trans ?_)
  simp only [extent, load, sound, Bool.not_true, Bool.false_eq_true, ne_eq, not_true_eq_false, if_false]

/-- An activation of the staged epoch waits for the drain without a reply (R284). -/
theorem exec_impositionActivate_waits {m : Impo} (go : starts s q.val 0x32 c) (x_ : x = s.started q.val c) (staged : x.imp.staged = some m) (same : m.epoch = leAt c.body 0 4)
    (on : x.someReqOff = false) :
    exec (.impositionActivate q) s = .next { x with imp := { x.imp with accepted := true, replies := x.imp.replies ++ [c.ret q.val] } } := by
  subst x_
  refine congrArg Host.Outcome.next ((cmd_ok go).trans ?_)
  dsimp only
  split
  · next none_ => exact absurd (staged.symm.trans none_) (by simp)
  · next m' staged' =>
    obtain rfl := Option.some.inj (staged.symm.trans staged')
    exact (if_neg (by simp [same])).trans (if_neg (by simp [on]))

/-- An activation of another epoch is EPOCH_MISMATCH (R284). -/
theorem exec_impositionActivate_mismatch {m : Impo} (go : starts s q.val 0x32 c) (x_ : x = s.started q.val c) (staged : x.imp.staged = some m) (other : m.epoch ≠ leAt c.body 0 4) :
    exec (.impositionActivate q) s = .next (x.replyTo (c.ret q.val) stEPOCH []) := by
  subst x_
  refine congrArg Host.Outcome.next ((cmd_ok go).trans ?_)
  simp only [staged, if_pos other]

end

/-- Settles O27, command by command and message by message. -/
theorem epochChanges : Obligations.EpochChanges := by
  refine ⟨fun _ _ _ _ _ _ _ _ _ _ _ => exec_impositionStage_stages, fun _ _ _ _ _ => exec_impositionActivate_waits, fun _ _ _ _ _ => exec_impositionActivate_mismatch, ?drain, ?drained,
    ?activate, ?member, ?leaver, ?confirm, ?confirmed⟩
  case drain =>
    intro s unsent staged ready
    refine (if_neg ?_).trans (if_pos ?_)
    · rw [unsent, Bool.false_or, Option.isNone_iff_eq_none]
      exact Option.isSome_iff_ne_none.mp staged
    · simpa using ready
  case drained =>
    intro s x y o e packet e_ y_
    subst y_ e_
    refine ⟨fun none_ => ?_, fun m staged => ?_⟩
    · refine congrArg Host.Outcome.next ((slice_ok packet).trans (congrArg (State.reply · o stOK []) ?_))
      simp only [State.setImp, none_]
    · refine congrArg Host.Outcome.next ((slice_ok packet).trans (congrArg (State.reply · o stOK []) ?_))
      dsimp only
      split
      · next none_ => exact absurd (staged.symm.trans none_) (by simp)
      · next m' staged' =>
        obtain rfl := Option.some.inj (staged.symm.trans staged')
        simp only [List.contains_iff_mem]
        rfl
  case activate =>
    intro s x o packet names
    exact congrArg Host.Outcome.next ((slice_ok packet).trans (congrArg (State.reply · o stOK []) (if_pos names)))
  case member =>
    intro s m staged listed armed
    change execEpochActivation s = _
    simp [execEpochActivation, staged, listed, armed]
  case leaver =>
    intro s m staged unlisted accepted sent out
    change execEpochActivation s = _
    simp [execEpochActivation, staged, unlisted, accepted, sent, out]
  case confirm =>
    intro s x y z o e packet e_ y_ z_
    subst z_ y_ e_
    refine congrArg Host.Outcome.next ((slice_ok packet).trans (congrArg (State.reply · o stOK []) ?_))
    simp only [Bool.and_eq_true, beq_iff_eq, and_assoc]
  case confirmed =>
    intro s x o packet epoch active
    refine congrArg Host.Outcome.next ((slice_ok packet).trans (congrArg (State.reply · o stOK []) ?_))
    exact if_pos ⟨epoch, active⟩

end Sys2Proof.Machine
end

section
/-! PROOFS. Row operations and commits of an Inker (R38, R205, R209 to R225), and tier transfers (R179, R231, R232, R405). -/

namespace Sys2Proof.Machine

section
variable {ink : Fin 128} {s : State} {i : Nat} {o : RowOp}

/-- A row operation of another kind than the event's stays in its queue. -/
theorem State.runOp_other {kinds : List Nat} {f : RowOp → State → State} (next : s.nextOp ink.val = some (i, o)) (other : kinds.contains o.kind = false) :
    s.runOp ink.val kinds f = s := by
  simp only [State.runOp, next, other, Bool.false_eq_true, false_and, if_false]

/-- One behind a commit of an older step stays in its queue (R38, R209). -/
theorem State.runOp_behind {kinds : List Nat} {f : RowOp → State → State} (next : s.nextOp ink.val = some (i, o)) (behind : s.itemFirst ink.val o.step = true) :
    s.runOp ink.val kinds f = s := by
  simp only [State.runOp, next, behind, Bool.not_true, Bool.false_eq_true, and_false, if_false]

/-- DENSE_SUM writes the sum, and tells the Collator of one that it waits for (R209, R351). -/
theorem exec_denseSum_sound (next : s.nextOp ink.val = some (i, o)) (first : s.itemFirst ink.val o.step = false) (kind : o.kind = 3) :
    (∀ b k, o.req = .sum b k → exec (.denseSum ink) s = .next (((s.takeOp ink.val i).writeSum o).sumWritten b o.step o.slot k)) ∧
      ((∀ b k, o.req ≠ .sum b k) → exec (.denseSum ink) s = .next ((s.takeOp ink.val i).writeSum o)) := by
  refine ⟨fun b k sum => congrArg Host.Outcome.next ((runOp_ok next (by rw [kind]; rfl) first).trans ?_),
    fun none_ => congrArg Host.Outcome.next ((runOp_ok next (by rw [kind]; rfl) first).trans ?_)⟩
  · simp only [sum]
  · dsimp only
    split
    · next b k sum => exact absurd sum (none_ b k)
    · rfl

/-- The oldest committing step's next item runs when its shard has a construction buffer (R225). -/
theorem exec_commitBufferResume_free {it : Item} {x : Shard} (next : s.nextItem ink.val = some it) (kind : it.kind = .shard) (waited : it.waited = true)
    (shard : s.par.shards.find? (fun x => x.table == it.table && x.index == it.idx) = some x) (free : x.freeBuf.isSome = true) :
    exec (.commitBufferResume ink) s = .next (s.commitStep it) := by
  change execCommitBufferResume ink s = _
  simp [execCommitBufferResume, next, shard, kind, waited, free]

end

/-- Settles O28, event by event. -/
theorem inkerOperations : Obligations.InkerOperations := by
  refine ⟨?ops, ?other, ?behind, ?contrib, ?commit, fun _ _ _ _ => exec_commitBufferResume_free, ?restore⟩
  case ops =>
    intro ink s x i o next first x_
    subst x_
    have runs : ∀ ks f u, ks.contains o.kind = true → f o (s.takeOp ink.val i) = u → (.next (s.runOp ink.val ks f) : Host.Outcome State Fault Refusal) = .next u :=
      fun ks f u listed done => congrArg Host.Outcome.next ((runOp_ok next listed first).trans done)
    refine ⟨fun kind => ⟨runs _ _ _ (by rw [kind]; rfl) rfl, runs _ _ _ (by rw [kind]; rfl) (by rw [if_pos kind])⟩,
      fun kind => ⟨runs _ _ _ (by rw [kind]; rfl) rfl, runs _ _ _ (by rw [kind]; rfl) (by rw [if_neg (by omega), if_pos kind])⟩,
      fun kind => ⟨runs _ _ _ (by rw [kind]; rfl) rfl, runs _ _ _ (by rw [kind]; rfl) (by rw [if_neg (by omega), if_neg (by omega)])⟩,
      exec_denseSum_sound next first⟩
  case other => exact fun ink s i o next kind => congrArg Host.Outcome.next (State.runOp_other next (by simpa using kind))
  case behind => exact fun ink s i o next behind => ⟨congrArg Host.Outcome.next (State.runOp_behind next behind), congrArg Host.Outcome.next (State.runOp_behind next behind)⟩
  case contrib =>
    intro ink s o plain
    unfold State.runContrib
    cases table : s.table? o.table with
    | none => rfl
    | some t => simp [plain t table]
  case commit =>
    intro ink s it next
    change execInkerCommit ink s = _
    simp only [execInkerCommit, next]
  case restore =>
    intro ink s x y n step restores x_ y_
    subst y_ x_
    change execInkerRestore ink s = _
    have listed : (!s.par.restoring.contains ink.val) = false := by simpa using restores
    simp only [execInkerRestore, step, listed, Bool.false_eq_true, if_false, List.isEmpty_iff]
    rfl

section
variable {i : Nat} {s : State} {f : Fetch} {t : Table}

/-- A fetch that is not issued and has its entry or its slot: its RDMA READ leaves, is held at the bounds, or fails without its queue pair (R37, R179, R405). -/
theorem State.sendFetch_reserved (fetch : s.par.fetches[i]? = some f) (unissued : f.issued = false) (place : f.put.isSome = true ∨ f.promote = true) (table : f.table = t.id) :
    (s.tierUp t.tierQp = true → s.fetchesOut (some t.tierQp) < 64 → s.fetchesOut none < 16384 →
      s.sendFetch i t = (((s.setFetch i { f with issued := true }).bump (pgSRT (s.tierAgent t f)) 0x06C 1).bump64 (pgINK f.ink) 0x040 1).ethSend
        (.tierRead t.tierQp t.tierKey (t.hostAddr f.row) t.recB)) ∧
    (s.tierUp t.tierQp = true → (64 ≤ s.fetchesOut (some t.tierQp) ∨ 16384 ≤ s.fetchesOut none) → bitOf f.counted 0 = true → s.sendFetch i t = s) ∧
    (s.tierUp t.tierQp = false → s.sendFetch i t = s.fetchFailed i f) := by
  have ready : ¬ (f.issued = true ∨ (f.put.isNone = true ∧ (!f.promote) = true) ∨ f.table ≠ t.id) := by
    rintro (issued | ⟨no_entry, no_slot⟩ | other)
    · simp [unissued] at issued
    · rcases place with entry | slot
      · simp [Option.isNone_iff_eq_none.mp no_entry] at entry
      · simp [slot] at no_slot
    · exact other table
  unfold State.sendFetch
  simp only [fetch, if_neg ready]
  refine ⟨fun up below below' => ?_, fun up bound counted => ?_, fun down => ?_⟩
  · rw [if_neg (by simp [up]), if_neg (by omega)]
  · rw [if_neg (by simp [up]), if_pos bound, if_pos counted]
  · rw [if_pos (by simp [down])]

/-- A write-back that ends in an error is kept to be tried again (R231). -/
theorem exec_tierWritebackComplete_fails {err : Bool} {b : Writeback} (back : s.par.backs[i]? = some b) (going : b.failed = false) (bad : err = true ∨ s.backDown b = true) :
    exec (.tierWritebackComplete i err) s = .next (({ s with par := { s.par with backs := setNth s.par.backs i { b with failed := true } } } : State).latch (pgINK b.ink) 7) := by
  change execTierWritebackComplete i err s = _
  simp only [execTierWritebackComplete, back]
  refine (if_neg (by simp [going])).trans ((if_pos (by simpa using bad)).trans ?_)
  rfl

/-- One that ends without an error counts, and leaves its half or its slot free (R231, R232). -/
theorem exec_tierWritebackComplete_ends {x : State} {b : Writeback} (back : s.par.backs[i]? = some b) (going : b.failed = false) (up : s.backDown b = false)
    (x_ : x = (({ s with par := { s.par with backs := dropNth s.par.backs i } } : State).bump (pgINK b.ink) 0x090 1).bump64 (pgINK b.ink) 0x040 1) :
    (∀ k, b.put = some k → exec (.tierWritebackComplete i false) s = .next ((x.modEnt (inkFolio b.ink) k (fun e => e.written b.step)).freeEnts (inkFolio b.ink))) ∧
    (∀ t, b.put = none → x.table? b.table = some t →
      exec (.tierWritebackComplete i false) s = .next ((x.winPut b.ink (t.promo + b.row * t.promoStride + t.recB) (toLE 8 0)).1.bump (pgINK b.ink) 0x08C 1)) := by
  subst x_
  change (∀ k, _ → execTierWritebackComplete i false s = _) ∧ (∀ t, _ → _ → execTierWritebackComplete i false s = _)
  refine ⟨fun k half => ?_, fun t slot table => ?_⟩
  · simp only [execTierWritebackComplete, back, going, up, half, Bool.or_self, Bool.false_eq_true, if_false]
    rfl
  · simp only [execTierWritebackComplete, back, going, up, slot, Bool.or_self, Bool.false_eq_true, if_false]
    split
    · next none_ => exact absurd (table.symm.trans none_) (by simp)
    · next t' table' =>
      obtain rfl := Option.some.inj (table.symm.trans table')
      rfl

/-- One that failed is tried again, and counted (R231). -/
theorem exec_tierWritebackRetry_retries {x : State} {b : Writeback} (back : s.par.backs[i]? = some b) (failed : b.failed = true)
    (x_ : x = ({ s with par := { s.par with backs := setNth s.par.backs i { b with failed := false } } } : State).bump (pgINK b.ink) 0x094 1) (table : x.table? b.table = some t) :
    exec (.tierWritebackRetry i) s = .next (x.sendBack t b) := by
  subst x_
  change execTierWritebackRetry i s = _
  simp only [execTierWritebackRetry, back, failed, if_true]
  refine congrArg Host.Outcome.next ?_
  split
  · next t' table' =>
    obtain rfl := Option.some.inj (table.symm.trans table')
    rfl
  · next none_ => exact absurd (table.symm.trans none_) (by simp)

end

/-- Settles O29, event by event. -/
theorem tierTransfers : Obligations.TierTransfers := by
  refine ⟨?issue, ?wait, fun _ _ _ _ => State.sendFetch_reserved, ?grant, ?complete, ?fail, fun _ _ _ _ => exec_tierWritebackComplete_fails,
    fun _ _ _ _ => exec_tierWritebackComplete_ends, fun _ _ _ _ _ => exec_tierWritebackRetry_retries⟩
  case issue =>
    intro i s x f t fetch table unissued reserved
    change execTierFetchIssue i s = _
    simp only [execTierFetchIssue, fetch, table, unissued, reserved, Bool.false_eq_true, if_false]
  case wait =>
    intro i s f t fetch table unissued none_
    change execTierFetchIssue i s = _
    simp only [execTierFetchIssue, fetch, table, unissued, none_, Bool.false_eq_true, if_false]
    exact (apply_ite Host.Outcome.next _ _ _).symm
  case grant =>
    intro folio s x i f t first fetch table room reserved
    change execPutEntryGrant folio s = _
    simp only [execPutEntryGrant, first, fetch, table, reserved]
    exact if_neg (by omega)
  case complete =>
    intro i data s f t fetch table issued
    change execTierFetchComplete i data false s = _
    simp only [execTierFetchComplete, fetch, table, issued, Bool.not_true, Bool.false_eq_true, if_false]
    rfl
  case fail =>
    intro i data s f t fetch table issued
    change execTierFetchComplete i data true s = _
    simp only [execTierFetchComplete, fetch, table, issued, Bool.not_true, Bool.false_eq_true, if_false, if_true]

end Sys2Proof.Machine
end

section
/-! PROOFS. The events of a Sorter (R172 to R187, R189, R190). -/

namespace Sys2Proof.Machine

section
variable {q : Fin 8} {ecc : CacheEcc} {errs : List (Fin 136 × CaseErr)} {s x y z : State} {d : SDesc}

/-- The first posted descriptor joins a queue that has room, with its refusal where it is not sound (R172, R173). -/
theorem exec_sorterPostAccept_room {r : List SDesc} (posts : (s.srt q.val).posts = d :: r) (room : (s.srt q.val).queue.length < 256) :
    exec (.sorterPostAccept q) s = .next (s.modSrt q.val (fun k => { k with posts := r, queue := k.queue ++ [if d.fail.isNone && s.descBadArg d then { d with fail := some (0, stBAD) } else d] })) := by
  change execSorterPostAccept q s = _
  simp only [execSorterPostAccept, posts]
  exact if_neg (by omega)

/-- A pass starts on the next descriptor that is ready (R184). -/
theorem exec_passStart_next {e : SDesc} (first : s.nextPass q.val = some e) (x_ : x = s.srtErrs e errs) (next : x.nextPass q.val = some d)
    (y_ : y = x.modDesc q.val d.serial (fun u => { u with running := true, passEnd := if d.op = 2 then d.nbags else planPass (fun b => (x.offAt d b).1) d.nbags d.nextBag 65536 d.nextBag, passes := u.passes + 1 }))
    (z_ : z = (if d.passes = 0 then y else (y.bump (pgSRT q.val) 0x04C 1).latchAt (pgSRT q.val) 6 d.step)) :
    exec (.passStart q errs) s = .next ((if d.op = 2 then z.dispatchStart q.val d else z).srtSettle q.val d.serial) := by
  subst x_ y_ z_
  change execPassStart q errs s = _
  simp only [execPassStart, first, next]

/-- The next index of the pass is issued once it and its weight are read (R178). -/
theorem State.issueOne_reads {h : Bool} {b o0 len idx : Nat} {wb : Bytes} (running : (s.srt q.val).queue.find? (·.running) = some d) (x_ : x = s.srtErrs d errs)
    (open_ : x.stepWaits d = false) (bags : d.nextPos ≠ 0 ∨ d.op = 1 ∨ x.openBags q.val < 16) (room : (x.srt q.val).lookups.length < 8192) (b_ : b = d.nextBag)
    (o0_ : o0 = (x.offAt d b).1) (len_ : len = (x.offAt d (b + 1)).1 - o0) (index : x.idxAt d (o0 + d.nextPos) = (idx, 0, y))
    (weight : (if d.wen then y.srtRead (d.at 0x28 8 + 4 * (o0 + d.nextPos)) 4 else ([], 0, y)) = (wb, 0, z)) :
    s.issueOne q.val ecc errs h = x.issueAs z q.val d len (o0 + d.nextPos) idx (d.weightOf (leNat wb) len) 0 ecc h := by
  subst x_ b_ o0_ len_
  have bagOpen : ¬ ((d.nextPos == 0 && d.op != 1) = true ∧ 16 ≤ (s.srtErrs d errs).openBags q.val) := by
    rintro ⟨fresh, full⟩
    obtain begun | home | few := bags
    · simp [begun] at fresh
    · simp [home] at fresh
    · omega
  simp only [State.issueOne, running, open_, bagOpen, Bool.false_eq_true, or_self, if_false, Nat.not_le_of_lt room, index, weight, if_true]

/-- The five ways of a look-up: a table row, its home, a buffer row, a zero row, and a failure (R178 to R187). -/
theorem State.issueAs_ways {q len e idx w : Nat} {u : Lookup}
    (u_ : u = { id := s.serial, desc := d.serial, bag := d.nextBag, pos := d.nextPos, row := idx, weight := w, fill := none, data := none, status := 0, path := 0 }) :
    (∀ t y h, idx < s.descRows d → d.op ≠ 1 → d.src = false → s.table? d.table = some t → z.rowRead q d t u ecc h = some y → s.issueAs z q d len e idx w 0 ecc h = y.issued q d len) ∧
    (∀ t, idx < s.descRows d → d.op = 1 → s.table? d.table = some t → s.issueAs z q d len e idx w 0 ecc false = z.issueHome q d len w idx u t) ∧
    (idx < s.descRows d → d.op ≠ 1 → d.src = true → s.issueAs z q d len e idx w 0 ecc false = z.issueSrc q d len e idx u) ∧
    (s.descRows d ≤ idx → d.oobZero = true → s.issueAs z q d len e idx w 0 ecc false = z.issueOob q d len w) ∧
    (s.descRows d ≤ idx → d.oobZero = false → s.issueAs z q d len e idx w 0 ecc false = z.modDesc q d.serial (fun x => x.failAt d.nextBag stBAD)) := by
  subst u_
  refine ⟨fun t y h inside pooled rows table read => ?_, fun t inside home table => ?_, fun inside pooled buffer => ?_, fun outside zero => ?_, fun outside fails => ?_⟩
  · simp only [State.issueAs, Nat.not_le_of_lt inside, pooled, rows, table, read, ne_eq, not_true_eq_false, Bool.false_eq_true, if_false]
  · simp only [State.issueAs, Nat.not_le_of_lt inside, home, table, ne_eq, not_true_eq_false, Bool.false_eq_true, if_false, if_true]
  · simp only [State.issueAs, Nat.not_le_of_lt inside, pooled, buffer, ne_eq, not_true_eq_false, Bool.false_eq_true, if_false, if_true]
  · simp only [State.issueAs, outside, zero, ne_eq, not_true_eq_false, Bool.not_true, Bool.false_eq_true, if_false, if_true]
  · simp only [State.issueAs, outside, fails, ne_eq, not_true_eq_false, Bool.not_false, Bool.false_eq_true, if_false, if_true]

/-- With no pass under way nothing is issued. -/
theorem State.issueOne_empty {q : Nat} {h : Bool} (empty : (s.srt q).queue = []) : s.issueOne q ecc errs h = s := by
  simp only [State.issueOne, empty, List.find?_nil]

/-- The data of a look-up enters its bag, or fails its descriptor (R175, R186). -/
theorem exec_lookupReply_enters {i : Nat} {u : Lookup} {data : Bytes} (lookup : (s.srt q.val).lookups[i]? = some u) (arrived : u.data = some data)
    (x_ : x = (s.modSrt q.val (fun k => { k with lookups := dropNth k.lookups i })).fillData q.val u data) (desc : x.desc? q.val u.desc = some d)
    (live : ∀ f, d.fail = some f → u.bag < f.1) :
    exec (.lookupReply q i) s = .next ((if u.status = 0 then x.takeRow q.val d u data else x.modDesc q.val d.serial (fun x => x.failAt u.bag u.status)).flush q.val d.serial) := by
  subst x_
  change execLookupReply q i s = _
  simp only [execLookupReply, lookup, arrived, desc]
  rw [if_neg]
  case hnc =>
    cases fail : d.fail with
    | none => simp
    | some f => simpa using live f fail
  by_cases good : u.status = 0
  · rw [if_neg (by simpa using good), if_pos good]
  · rw [if_pos good, if_neg good]

/-- A finished descriptor writes its record where that is allowed, leaves the queue and completes (R174). -/
theorem exec_descriptorComplete_done {st : Nat} (done : (s.srt q.val).queue.find? (s.descDone q.val) = some d) (st_ : st = (match d.fail with | some f => f.2 | none => 0))
    (x_ : x = (if s.bufOk d.statAddr 64 = true ∧ gaSpace d.statAddr = 1 then s.ownWrite d.statAddr d.stat else s))
    (y_ : y = (x.modSrt q.val (fun k => { k with queue := k.queue.filter (fun x => x.serial != d.serial) })).bump (pgSRT q.val) 0x048 1) :
    exec (.descriptorComplete q) s = .next ((if st = 0 then y else y.latchAt (pgSRT q.val) (if st = stABORTED then 5 else 4) d.step).moveDone d.tile d.move st) := by
  subst st_ x_ y_
  change execDescriptorComplete q s = _
  simp only [execDescriptorComplete, done, Bool.and_eq_true, beq_iff_eq]
  rw [apply_ite (fun b => State.latchAt _ (pgSRT q.val) b d.step)] <;> rfl

end

/-- Settles O32, event by event. -/
theorem sorterEvents : Obligations.SorterEvents := by
  refine ⟨fun _ _ _ _ => exec_sorterPostAccept_room, fun _ _ _ _ _ _ _ _ => exec_passStart_next, ?issue, fun _ _ _ _ _ _ _ _ _ _ => State.issueAs_ways, ?empty,
    fun _ _ _ _ _ _ _ => exec_lookupReply_enters, fun _ _ _ _ _ _ => exec_descriptorComplete_done, ?fill⟩
  case issue =>
    intro q ecc errs h s x y z d b o0 len idx wb running x_ open_ bags room b_ o0_ len_ index weight
    have issued : ∀ h, s.issueOne q.val ecc errs h = x.issueAs z q.val d len (o0 + d.nextPos) idx (d.weightOf (leNat wb) len) 0 ecc h :=
      fun h => State.issueOne_reads running x_ open_ bags room b_ o0_ len_ index weight
    cases h with
    | false => exact congrArg Host.Outcome.next (issued false)
    | true => exact congrArg Host.Outcome.next (issued true)
  case empty =>
    exact fun q ecc errs s empty => ⟨congrArg Host.Outcome.next (State.issueOne_empty empty), congrArg Host.Outcome.next (State.issueOne_empty empty)⟩
  case fill =>
    intro folio s w y way
    change execPghFillComplete folio s = _
    simp only [execPghFillComplete, way]

end Sys2Proof.Machine
end

section
/-! PROOFS. Flits that leave a port, flits that arrive, and their resend (R302, R304, R306 to R309). -/

namespace Sys2Proof.Machine

section
variable {p : Fin 12} {s x y : State} {f : Flit}

/-- The next flit of a resend leaves, with the current link fields (R308). -/
theorem exec_flitTransmit_resent {r : List Flit} (up : s.link p.val = 2) (free : (s.port p.val).hold = false) (resend : (s.port p.val).resendQ = f :: r) :
    exec (.flitTransmit p) s = .next (((s.setPort p.val { s.port p.val with resendQ := r }).flitGone p.val (s.stampFlit p.val f)).bump64 (pgPPT p.val) 0x078 1) := by
  change execFlitTransmit p s = _
  simp only [execFlitTransmit, up, free, ne_eq, not_true_eq_false, Bool.false_eq_true, or_self, if_false, resend]

/-- With nothing to send a null flit leaves (R307). -/
theorem exec_flitTransmit_null (up : s.link p.val = 2) (free : (s.port p.val).hold = false) (done : (s.port p.val).resendQ = []) (x_ : x = s.countShorts p.val)
    (none_ : (x.port p.val).pick = none) : exec (.flitTransmit p) s = .next (x.flitGone p.val (x.stampFlit p.val nullFlit)) := by
  subst x_
  change execFlitTransmit p s = _
  simp only [execFlitTransmit, up, free, ne_eq, not_true_eq_false, Bool.false_eq_true, or_self, if_false, done, none_]

/-- The next flit of the first lane that is ready leaves, where the replay buffer has room for it (R306, R308). -/
theorem exec_flitTransmit_new {k : Nat} {v : Port} (up : s.link p.val = 2) (free : (s.port p.val).hold = false) (done : (s.port p.val).resendQ = []) (x_ : x = s.countShorts p.val)
    (ready : (x.port p.val).pick = some k) (room : (x.port p.val).replay.length < 32768) (flit : (x.port p.val).takeFlit k = (v, f)) (y_ : y = x.setPort p.val v) :
    exec (.flitTransmit p) s = .next ((y.flitGone p.val (y.stampFlit p.val f)).bump64 (pgPPT p.val) 0x078 1) := by
  subst x_ y_
  change execFlitTransmit p s = _
  simp only [execFlitTransmit, up, free, ne_eq, not_true_eq_false, Bool.false_eq_true, or_self, if_false, done, ready, flit]
  exact if_neg (by omega)

variable {fec : FecCount} {uncorr : Bool}

/-- A flit that arrives at a port in service, after its codewords are counted (R302, R308). -/
theorem exec_flitReceive_up (up : s.link p.val = 2) (x_ : x = s.countFec p.val fec) :
    exec (.flitReceive p f uncorr fec) s = .next (if uncorr ∨ flitGood f = false then x.badFlit p.val
      else if f.null then x.takeControl p.val f
      else if f.lseq = (x.port p.val).rxNext then
        (((x.setPort p.val { x.port p.val with rxNext := ((x.port p.val).rxNext + 1) % 65536, nakEp := false }).bump64 (pgPPT p.val) 0x080 1).takeData p.val f).takeControl p.val f
      else (x.bump (pgPPT p.val) 0x050 1).takeControl p.val f) := by
  subst x_
  change execFlitReceive p f uncorr fec s = _
  simp only [execFlitReceive, up, ne_eq, not_true_eq_false, if_false, apply_ite Host.Outcome.next, Bool.not_eq_true']
  cases uncorr with
  | true => simp only [true_or, if_true]
  | false => simp only [Bool.false_eq_true, false_or, if_false]

/-- Outside service no flit is taken. -/
theorem exec_flitReceive_down (down : s.link p.val ≠ 2) : exec (.flitReceive p f uncorr fec) s = .next s := by
  change execFlitReceive p f uncorr fec s = _
  simp only [execFlitReceive, down, ne_eq, not_false_eq_true, if_true]

/-- The flit that is expected is taken (R308). -/
theorem exec_flitReceive_expected (up : s.link p.val = 2) (x_ : x = s.countFec p.val fec) (good : flitGood f = true) (data : f.null = false) (seq : f.lseq = (x.port p.val).rxNext) :
    exec (.flitReceive p f false fec) s = .next ((((x.setPort p.val { x.port p.val with rxNext := ((x.port p.val).rxNext + 1) % 65536, nakEp := false }).bump64 (pgPPT p.val) 0x080 1).takeData p.val f).takeControl p.val f) := by
  rw [exec_flitReceive_up up x_, if_neg (by simp [good]), if_neg (by simp [data]), if_pos seq]

/-- Another number gives its link fields alone (R308). -/
theorem exec_flitReceive_other (up : s.link p.val = 2) (x_ : x = s.countFec p.val fec) (good : flitGood f = true) (data : f.null = false) (seq : f.lseq ≠ (x.port p.val).rxNext) :
    exec (.flitReceive p f false fec) s = .next ((x.bump (pgPPT p.val) 0x050 1).takeControl p.val f) := by
  rw [exec_flitReceive_up up x_, if_neg (by simp [good]), if_neg (by simp [data]), if_neg seq]

/-- An unacknowledged flit is resent, and after eight resends the port retrains (R308, R309). -/
theorem exec_replayTimeout_resends (up : s.link p.val = 2) (unacked : (s.port p.val).replay ≠ []) :
    exec (.replayTimeout p) s = .next (if 8 ≤ (s.port p.val).resends then s.laneFault p.val
      else ((s.setPort p.val { s.port p.val with resendQ := (s.port p.val).replay, resends := (s.port p.val).resends + 1 }).bump (pgPPT p.val) 0x058 1).latch (pgPPT p.val) 3) := by
  change execReplayTimeout p s = _
  exact if_neg (by simp [up, unacked])

end

/-- Settles O33, event by event. -/
theorem flitTransfers : Obligations.FlitTransfers := by
  refine ⟨fun _ _ _ _ => exec_flitTransmit_resent, fun _ _ _ => exec_flitTransmit_null, fun _ _ _ _ _ _ _ => exec_flitTransmit_new, ?fields,
    fun _ _ _ _ _ => exec_flitReceive_expected, fun _ _ _ _ _ => exec_flitReceive_other, ?null, ?bad, fun _ _ _ _ _ => exec_flitReceive_down, fun _ _ => exec_replayTimeout_resends⟩
  case fields => exact fun v k => ⟨rfl, rfl, rfl, rfl, rfl, rfl⟩
  case null =>
    intro p f fec s up good null
    rw [exec_flitReceive_up up rfl, if_neg (by simp [good]), if_pos null]
  case bad =>
    intro p f u fec s up bad
    rw [exec_flitReceive_up up rfl, if_pos bad]

end Sys2Proof.Machine
end

section
/-! PROOFS. Link training and lane tests (R303 to R310, R328, R423, R424). -/

namespace Sys2Proof.Machine

/-- A module in SERVICE whose ETH.CTRL.RATE_MAX is 3, the reserved value with which R424 ignores a write. -/
def reservedRateModule : State := ({ State.reset with fmn := { Foreman.reset with state := .service } } : State).setN pgETH 0x008 0x30

/-- A write of TEST that carries a RATE_MAX of 3 along is ignored: the link does not leave for TEST. -/
theorem reservedRateModule_staysDown {u : State} (done : exec .ethTestEnter reservedRateModule = .next u) : u.ethLink = 0 := by
  change Host.Outcome.next (reservedRateModule.softWrite pgETH 0x008 (reservedRateModule.regN pgETH 0x008 ||| 4)) = _ at done
  obtain rfl := Host.Outcome.next.inj done
  decide

/-- Refutes O34: the clause on ETH_TEST_ENTER with no queue pair and the link NONE leaves out that ETH.CTRL.RATE_MAX is not 3; with 3 the write is ignored (R424) and the link stays. -/
theorem not_linkTrainingAndLaneTests : ¬ Obligations.LinkTrainingAndLaneTests := by
  rintro ⟨-, -, -, -, -, -, -, -, -, enter, -⟩
  obtain ⟨u, done, -, test, -⟩ := enter reservedRateModule (by decide) (by decide) (by decide)
  exact absurd (test.symm.trans (reservedRateModule_staysDown done)) (by decide)

end Sys2Proof.Machine
end

section
/-! PROOFS. Packets that enter the router, pass it and leave it, and their end-to-end resend (R311, R315 to R320). -/

namespace Sys2Proof.Machine

section
variable {i : Nat} {s x y : State} {o : OutPkt}

/-- An admitted packet enters the router, on a tagged lane with the next tag of its pair (R311, R315). -/
theorem exec_packetInject_admitted (issues : s.mayIssue i = true) (waits : s.fab.out[i]? = some o) (first : s.pairBefore i o.pkt = false) (leaves : s.mayLeave o.pkt = true)
    (x_ : x = { s with fab := { s.fab with out := dropNth s.fab.out i } }) :
    (taggedLane o.pkt.lane = true → s.pairOut o.pkt.dst o.pkt.lane < 64 → s.fab.unreplied.length < 32768 → exec (.packetInject i) s = .next (x.enterTagged o)) ∧
    (taggedLane o.pkt.lane = false → exec (.packetInject i) s = .next (x.enterRouter o.pkt)) := by
  subst x_
  change (_ → _ → _ → execPacketInject i s = _) ∧ (_ → execPacketInject i s = _)
  constructor
  · intro tagged pair bound
    simp only [execPacketInject, issues, if_true, State.inject, waits, first, leaves, tagged, Bool.not_true, Bool.false_eq_true, if_false, Nat.not_le_of_lt pair, Nat.not_le_of_lt bound]
  · intro untagged
    simp only [execPacketInject, issues, if_true, State.inject, waits, first, leaves, untagged, Bool.not_true, Bool.false_eq_true, if_false]

/-- A tagged packet is kept until its reply, is in the router with its tag, and the pair's next tag is one further (R315, R318). -/
theorem State.enterTagged_takesTag {q : Packet} (q_ : q = { o.pkt with tag := kvGet s.fab.nextTag (pairKey o.pkt.dst o.pkt.lane) 0 }) :
    (s.enterTagged o).fab.unreplied = s.fab.unreplied ++ [Unreplied.mk q o.org 0] ∧ (s.enterTagged o).fab.router = s.fab.router ++ [{ pkt := q, inPort := 12 }] ∧
      kvGet (s.enterTagged o).fab.nextTag (pairKey o.pkt.dst o.pkt.lane) 0 = (kvGet s.fab.nextTag (pairKey o.pkt.dst o.pkt.lane) 0 + 1) % 65536 := by
  subst q_
  refine ⟨rfl, rfl, ?_⟩
  change kvGet (kvSet s.fab.nextTag (pairKey o.pkt.dst o.pkt.lane) _) (pairKey o.pkt.dst o.pkt.lane) 0 = _
  simp [kvGet]

/-- The first packet that does not end here goes to its first usable port, or is dropped (R320). -/
theorem exec_packetForward_first {r : InRouter} (first : firstIdx (fun r => !s.endsHere r.pkt) s.fab.router = some i) (packet : s.fab.router[i]? = some r)
    (x_ : x = ({ s with fab := { s.fab with router := dropNth s.fab.router i } } : State).freeCredit r) :
    (r.pkt.lane = 7 → exec .packetForward s = .next (x.bump pgRTE 0x08C 1)) ∧
    (r.pkt.lane ≠ 7 → (routeValid (s.route r.pkt.layout r.pkt.dst) = false ∨ s.pickPort r.pkt = none) → exec .packetForward s = .next (x.pathDrop r)) ∧
    (∀ o, r.pkt.lane ≠ 7 → routeValid (s.route r.pkt.layout r.pkt.dst) = true → s.pickPort r.pkt = some o →
      exec .packetForward s = .next (x.setPort o { x.port o with queue := (x.port o).queue ++ [{ r.pkt with dclass := s.classAt r o }] })) := by
  subst x_
  change (_ → execPacketForward s = _) ∧ (_ → _ → execPacketForward s = _) ∧ ∀ o, _ → _ → _ → execPacketForward s = _
  refine ⟨fun reserved => ?_, fun lane lost => ?_, fun o lane valid port => ?_⟩
  · simp only [execPacketForward, State.forwardOne, first, packet, reserved, if_true]
  · simp only [execPacketForward, State.forwardOne, first, packet, lane, if_false]
    obtain invalid | none_ := lost
    · simp only [invalid, Bool.not_false, if_true]
    · simp only [none_, ite_self]
  · simp only [execPacketForward, State.forwardOne, first, packet, lane, valid, port, Bool.not_true, Bool.false_eq_true, if_false]

/-- What becomes of a packet that leaves the router at this chip (R285, R306, R311). -/
theorem State.ejectAt_ends {r : InRouter} (x_ : x = ({ s with fab := { s.fab with router := dropNth s.fab.router i } } : State).freeCredit r)
    (y_ : y = x.pmkCheck 1 (pktChk r.pkt) r.pkt.good (r.pkt.src % 2 ^ 14)) :
    (r.pkt.lane = 7 → s.ejectAt i r = x.bump pgRTE 0x08C 1) ∧
    (r.pkt.lane ≠ 7 → r.pkt.good = false → s.ejectAt i r = (y.bump pgRTE 0x078 1).rteErr 4 1 r.pkt) ∧
    (r.pkt.lane ≠ 7 → r.pkt.good = true → r.pkt.dst ≠ s.self → s.ejectAt i r = (y.bump pgRTE 0x07C 1).rteErr 3 2 r.pkt) ∧
    (r.pkt.lane ≠ 7 → r.pkt.good = true → r.pkt.dst = s.self → knownType r.pkt = true → s.epochCase r.pkt = .deliver → s.ejectAt i r = y.accept r.pkt) ∧
    (r.pkt.lane ≠ 7 → r.pkt.good = true → r.pkt.dst = s.self → knownType r.pkt = true → s.epochCase r.pkt = .hold →
      s.ejectAt i r = { y with imp := { y.imp with poste := y.imp.poste ++ [r] } }) := by
  subst x_ y_
  refine ⟨fun reserved => if_pos reserved, fun lane bad => ?_, fun lane good other => ?_, fun lane good here known deliver => ?_, fun lane good here known hold => ?_⟩
  · exact (if_neg lane).trans (if_pos (by simp [bad]))
  · exact (if_neg lane).trans ((if_neg (by simp [good])).trans (if_pos other))
  · refine (if_neg lane).trans ((if_neg (by simp [good])).trans ((if_neg (by simp [here])).trans ((if_neg (by simp [known])).trans ?_)))
    simp only [deliver]
  · refine (if_neg lane).trans ((if_neg (by simp [good])).trans ((if_neg (by simp [here])).trans ((if_neg (by simp [known])).trans ?_)))
    simp only [hold]

end

/-- Settles O35, event by event. -/
theorem packetMovement : Obligations.PacketMovement := by
  refine ⟨fun _ _ _ _ => exec_packetInject_admitted, fun _ _ _ => State.enterTagged_takesTag, ?absent, fun _ _ _ _ => exec_packetForward_first, ?eject,
    fun _ _ _ _ _ => State.ejectAt_ends, ?resend, ?fail⟩
  case absent =>
    intro i s absent
    change execPacketInject i s = _
    simp only [execPacketInject, State.inject, absent, ite_self]
  case eject =>
    intro s x i r x_ first packet
    subst x_
    change execPacketEject s = _
    simp only [execPacketEject, State.ejectOne, first, packet]
  case resend =>
    intro chip lane s on due
    change execE2eResend chip lane s = _
    simp only [execE2eResend, State.resendAll, on, due, Bool.not_true, Bool.false_eq_true, if_false]
  case fail =>
    intro chip lane s u found
    change execE2eFail chip lane s = _
    simp only [execE2eFail, State.e2eFail, found]

end Sys2Proof.Machine
end

section
/-! PROOFS. Requests that other modules send, and the replies (R193, R312, R316, R385, R401, R403). -/

namespace Sys2Proof.Machine

section
variable {s x : State} {p : Packet} {errs : List CaseErr} {o : OutPkt}

/-- A read of another chip's address is answered BAD_ARGUMENT (R312). -/
theorem State.serveRead_otherChip (other : s.gaHere p.addr = false) : s.serveRead p errs = (stBAD, [], s) := by
  simp only [State.serveRead, other, Bool.not_false, Bool.true_or, if_true]

/-- What a read of this chip returns, by its space: memory, a register, or the diagnostic view of a cache (R193, R312). -/
theorem State.serveRead_here (here : s.gaHere p.addr = true) (bare : p.payload = []) (length : fabricLen (gaSpace p.addr) (p.arg % 8192) = true) :
    (∀ st bs x, gaSpace p.addr ≤ 1 → (s.spaceErrs (gaSpace p.addr) (gaOff p.addr) (p.arg % 8192) p.src errs).spaceRead (gaSpace p.addr) (gaOff p.addr) (p.arg % 8192) p.src = (bs, st, x) →
      s.serveRead p errs = (st, if st = 0 then bs else [], x)) ∧
    (∀ g, gaSpace p.addr = 2 → gaOff p.addr % 4 = 0 → regPage (gaOff p.addr) = some g →
      s.serveRead p errs = (0, pad16 (toLE 4 (s.regRead g (gaOff p.addr % 4096)).1), (s.regRead g (gaOff p.addr % 4096)).2)) ∧
    (gaSpace p.addr = 3 → gaOff p.addr < 2 ^ 31 → s.serveRead p errs = s.diagRead (gaOff p.addr) (p.arg % 8192)) := by
  refine ⟨fun st bs x memory read => ?_, fun g registers aligned page => ?_, fun cache below => ?_⟩
  · have known : ¬ 3 < gaSpace p.addr := by omega
    have noRegister : gaSpace p.addr ≠ 2 := by omega
    have noCache : gaSpace p.addr ≠ 3 := by omega
    simp only [State.serveRead, here, bare, length, known, noRegister, noCache, read, Bool.not_true, List.isEmpty_nil, Bool.or_self, Bool.false_eq_true, if_false]
  · rw [registers] at length
    simp only [State.serveRead, here, bare, registers, length, aligned, page, Bool.not_true, List.isEmpty_nil, Bool.or_self, Bool.false_eq_true, if_false, if_true, ne_eq,
      not_true_eq_false]
    exact if_neg (by decide)
  · rw [cache] at length
    have small : gaOff p.addr / 2 ^ 31 = 0 := Nat.div_eq_of_lt below
    simp only [State.serveRead, here, bare, cache, length, small, Bool.not_true, List.isEmpty_nil, Bool.or_self, Bool.false_eq_true, if_false, if_true, ne_eq, not_true_eq_false]
    exact (if_neg (by decide)).trans (if_neg (by decide))

/-- A write of another chip's address is answered BAD_ARGUMENT (R312). -/
theorem State.serveWrite_otherChip (other : s.gaHere p.addr = false) : s.serveWrite p = (stBAD, s) := by
  simp only [State.serveWrite, other, Bool.not_false, if_true]

/-- What a write of this chip does, by its space: DRAM, a Case, or a register (R312). -/
theorem State.serveWrite_here {n : Nat} (here : s.gaHere p.addr = true) (n_ : n = p.arg % 8192) (length : fabricLen (gaSpace p.addr) n = true)
    (data : p.payload.length = (pad16 (List.replicate n (0 : Byte))).length) :
    (gaSpace p.addr = 0 → s.serveWrite p = s.dramLines (gaOff p.addr) (p.payload.take n) p.src) ∧
    (gaSpace p.addr = 1 → s.serveWrite p = s.spaceWrite 1 (gaOff p.addr) (p.payload.take n) p.src) ∧
    (∀ g, gaSpace p.addr = 2 → gaOff p.addr % 4 = 0 → regPage (gaOff p.addr) = some g → s.serveWrite p = s.regWrite g (gaOff p.addr % 4096) (leNat (p.payload.take n)) true) := by
  subst n_
  have fits : (p.payload.length != (pad16 (List.replicate (p.arg % 8192) (0 : Byte))).length) = false := by simpa using data
  refine ⟨fun dram => ?_, fun case_ => ?_, fun g registers aligned page => ?_⟩
  · rw [dram] at length
    simp only [State.serveWrite, here, dram, length, fits, Bool.not_true, Bool.or_self, Bool.false_eq_true, if_false, if_true]
    exact (if_neg (by decide)).trans ((if_neg (by decide)).trans (if_neg (by decide)))
  · rw [case_] at length
    simp only [State.serveWrite, here, case_, length, fits, Bool.not_true, Bool.or_self, Bool.false_eq_true, if_false]
    exact (if_neg (by decide)).trans ((if_neg (by decide)).trans ((if_neg (by decide)).trans (if_neg (by decide))))
  · rw [registers] at length
    simp only [State.serveWrite, here, registers, length, fits, aligned, page, Bool.not_true, Bool.or_self, Bool.false_eq_true, if_false, if_true, ne_eq, not_true_eq_false]
    exact (if_neg (by decide)).trans (if_neg (by decide))

/-- A GATHER of this chip's DRAM joins the queue of its line's Inker (R224, R312). -/
theorem exec_gather_queues (first : s.takeArrived (fun p => p.type == 6) = some (o, x)) (here : x.gaHere o.pkt.addr = true) (dram : gaSpace o.pkt.addr = 0)
    (list : o.pkt.payload.length = 16) (reserved : allZero (o.pkt.payload.drop 4) = true) (length : fabricLen 0 (leAt o.pkt.payload 0 4) = true)
    (mapped : dramMapped (gaOff o.pkt.addr) (leAt o.pkt.payload 0 4) = true) :
    exec .gather s = .next (x.pushOp (dramLocate (gaOff o.pkt.addr)).1 { kind := 2, table := 0, row := o.pkt.arg % 2 ^ 32, step := (lowest (x.fmn.steps.map (·.n))).getD x.curStep, slot := o.pkt.slot, vals := [], addr := gaOff o.pkt.addr, len := leAt o.pkt.payload 0 4, req := .packet o }) := by
  change execGather s = _
  simp only [execGather, first, here, dram, list, reserved, length, mapped, Bool.not_true, Bool.false_eq_true, if_false]
  exact (if_neg (by decide)).trans (if_neg (by decide))

/-- The end of a quiet period before its held writes: its record is cleared and its event latches (R385). -/
def State.quietCleared (s : State) : State :=
  let y : State := { s with res := { s.res with busy := none, quietSent := false, job := none } }
  (State.setEth (if y.field pgPMS 0x044 28 4 = 3 then y else y.setField pgPMS 0x044 28 4 2) (fun e => { e with held := [] })).latch pgPMS 7

/-- The writes that a quiet period held are performed in order (R403). -/
theorem State.quietEnds_eq (s : State) : s.quietEnds = s.eth.held.foldl (fun (w : State) h => w.hostWrite h.qp h.off h.data) s.quietCleared := by
  simp only [State.quietEnds, State.quietCleared]
  split <;> rfl

/-- A quiet period that has ended holds nothing, and DRAM is as it was (R385). -/
theorem State.quietCleared_keeps (s : State) : s.quietCleared.res.busy = none ∧ s.quietCleared.res.quietSent = false ∧ s.quietCleared.res.job = none ∧
    s.quietCleared.eth.held = [] ∧ s.quietCleared.dram = s.dram := by
  simp only [State.quietCleared, State.latch_res, State.latch_eth, State.latch_dram, State.setEth_res, State.setEth_eth, State.setEth_dram, true_and]
  split <;> exact ⟨rfl, rfl, rfl, rfl⟩

end

/-- Settles O36, packet by packet. -/
theorem fabricRequests : Obligations.FabricRequests := by
  refine ⟨?readOther, ?read, fun _ _ _ => State.serveRead_here, ?writeOther, ?write, fun _ _ _ => State.serveWrite_here, ?add, fun _ _ _ => exec_gather_queues, ?bulk, ?reply, ?late,
    ?parReady, ?performs⟩
  case readOther =>
    intro errs s x o first other
    change execRead errs s = _
    simp only [execRead, first, State.serveRead_otherChip other]
  case read =>
    intro errs s x y o st bs first served
    change execRead errs s = _
    simp only [execRead, first, served]
  case writeOther =>
    intro s x o first other
    change execWrite s = _
    simp only [execWrite, first, State.serveWrite_otherChip other]
  case write =>
    intro s x y o st first served
    change execWrite s = _
    simp only [execWrite, first, served]
  case add =>
    intro errs s x o first here case_ aligned bare
    change execAdd32 errs s = _
    simp only [execAdd32, first, here, case_, aligned, bare, Bool.not_true, Bool.false_eq_true, if_false]
    exact (if_neg (by decide)).trans (if_neg (by decide))
  case bulk =>
    intro s x o q first bulk
    change execResponse s = _
    simp only [execResponse, first, bulk]
  case reply =>
    intro s x o u first single waiting
    change execResponse s = _
    simp only [execResponse, first, single, waiting]
  case late =>
    intro s x o first single none_
    change execResponse s = _
    simp only [execResponse, first, single, none_]
  case performs =>
    intro s
    obtain ⟨busy, sent, job, held, dram⟩ := s.quietCleared_keeps
    exact ⟨s.quietCleared, busy, sent, job, held, dram, s.quietEnds_eq⟩
  case parReady => exact fun s x o packet => congrArg Host.Outcome.next (slice_ok packet)

end Sys2Proof.Machine
end

section
/-! PROOFS. Line operations, refresh, scrub, training, repair and the wipe of DRAM (R243 to R255). -/

namespace Sys2Proof.Machine

section
variable {off n len : Nat} {data : Bytes} {errs : List (Nat × Byte)} {grp : List (Fin 15 × List (Nat × Byte))} {s x y z : State}

/-- What every line operation asks first (R240, R243, R255). -/
theorem exec_lineOperation_open {wr : Bool} (len_ : len = min n (64 - off % 64)) (mapped : dramMapped off len = true) (open_ : s.memOpen off len = true)
    (room : (s.inker (dramLocate off).1).queue.length < 512) (free : s.lineLocked off = false) :
    exec (.lineOperation wr off n data errs grp) s = if wr then
      let x := if wholeLine off (sliceB data 0 len) = true then s else s.lineFetch off errs grp
      let y := (x.linePut off (sliceB data 0 len)).1
      let bad := (x.linePut off (sliceB data 0 len)).2
      .next { (if bad = true then y else (y.sendDeltas (dramLocate off).1 (dramLocate off).1 (dramLocate off).2 (x.dram.read off len) (sliceB data 0 len) false 0 0 0).1) with
        answer := if bad = true then stPOISON else stOK }
    else
      let x := if (lineParts off len).isEmpty then s else s.lineFetch off errs grp
      .next { x with answer := if x.dramBad off len = true then stPOISON else stOK, readData := BitVec.ofNat 32 (leAt (x.dram.read off len) 0 4) } := by
  subst len_
  change execLineOperation wr off n data errs grp s = _
  simp only [execLineOperation, mapped, open_, free, Bool.not_true, Bool.false_eq_true, if_false, Nat.not_le_of_lt room]

/-- A line part is written after the read that a write of less than the part needs, with its parity deltas (R244, R381). -/
theorem exec_lineOperation_writes {bad : Bool} (len_ : len = min n (64 - off % 64)) (mapped : dramMapped off len = true) (open_ : s.memOpen off len = true)
    (room : (s.inker (dramLocate off).1).queue.length < 512) (free : s.lineLocked off = false)
    (x_ : x = (if wholeLine off (sliceB data 0 len) = true then s else s.lineFetch off errs grp)) (put : x.linePut off (sliceB data 0 len) = (y, bad))
    (z_ : z = (if bad = true then y else (y.sendDeltas (dramLocate off).1 (dramLocate off).1 (dramLocate off).2 (x.dram.read off len) (sliceB data 0 len) false 0 0 0).1)) :
    exec (.lineOperation true off n data errs grp) s = .next { z with answer := if bad = true then stPOISON else stOK } := by
  subst z_
  rw [exec_lineOperation_open len_ mapped open_ room free, if_pos rfl]
  simp only [← x_, put]

/-- A line part is read (R243 to R249). -/
theorem exec_lineOperation_reads (some_ : 0 < n) (len_ : len = min n (64 - off % 64)) (mapped : dramMapped off len = true) (open_ : s.memOpen off len = true)
    (room : (s.inker (dramLocate off).1).queue.length < 512) (free : s.lineLocked off = false) (x_ : x = s.lineFetch off errs grp) :
    exec (.lineOperation false off n data errs grp) s = .next { x with answer := if x.dramBad off len = true then stPOISON else stOK, readData := BitVec.ofNat 32 (leAt (x.dram.read off len) 0 4) } := by
  subst x_
  have part : (lineParts off len).isEmpty = false := by
    have nonzero : len ≠ 0 := by omega
    simp [lineParts, nonzero]
  rw [exec_lineOperation_open len_ mapped open_ room free, if_neg (by decide)]
  simp only [part, Bool.false_eq_true, if_false]

/-- Poison tags are no part of the bytes that a read gives. -/
theorem Ram.read_untagged (m : Ram) (tags : List Nat) (a n : Nat) : ({ m with poison := tags } : Ram).read a n = m.read a n := by
  induction n generalizing a with
  | zero => rfl
  | succ n ih => exact congrArg (m.get a :: ·) (ih (a + 1))

/-- A whole line is written, and reads as it was written (R244). -/
theorem State.linePut_whole (k : Nat) (whole : data.length = 64) (s : State) :
    (s.linePut (64 * k) data).2 = false ∧ (s.linePut (64 * k) data).1.dram.read (64 * k) 64 = data := by
  have line : wholeLine (64 * k) data = true := by simp [wholeLine, whole]
  simp only [State.linePut, line, Bool.not_true, Bool.false_and, Bool.false_eq_true, if_false, true_and, Ram.writeClean, Ram.read_untagged]
  have written := Ram.read_write s.dram (64 * k) data
  rw [whole] at written
  exact written

variable {m : Fin 16}

/-- The scrub of an idle controller reads its next data line (R251). -/
theorem exec_scrubRead_next {pos c : Nat} (on : s.regN (pgMEM m.val) 0x008 % 2 ≠ 0) (rate : s.regN (pgMEM m.val) 0x044 ≠ 0) (ready : s.phaseOf m.val = 4)
    (pos_ : pos = kvGet s.mem.scrub m.val 0) (more : pos < 8 * linesPerChan) (idle : ∀ k < 8, (s.inker (8 * m.val + k)).queue = []) (c_ : c = 8 * m.val + pos / linesPerChan)
    (off_ : off = dramOffset c (pos % linesPerChan * 64)) (x_ : x = { s with mem := { s.mem with scrub := kvSet s.mem.scrub m.val (pos + 1) } }) :
    exec (.scrubRead m errs) s = .next (if s.dram.bad (off / 64) = true then x else if errs = [] then x.lineRead off else (x.lineRead off).lineDecode off errs 2) := by
  subst pos_ c_ off_ x_
  change execScrubRead m errs s = _
  rw [execScrubRead, if_neg (by simpa using idle)]
  refine congrArg Host.Outcome.next ?_
  rw [State.scrubNext, if_neg]
  case hnc =>
    rintro (off | off | off | off)
    exacts [on off, rate off, off ready, absurd more (Nat.not_lt_of_le off)]
  simp only [List.isEmpty_iff]

/-- A controller that does not scrub reads nothing. -/
theorem exec_scrubRead_off (disabled : s.regN (pgMEM m.val) 0x008 % 2 = 0) : exec (.scrubRead m errs) s = .next s := by
  change execScrubRead m errs s = _
  rw [execScrubRead, State.scrubNext, if_pos (Or.inl disabled), ite_self]

/-- A change of channels leaves the scrubber's positions. -/
theorem State.foldl_modChan_scrub (l : List Nat) (g : Nat → Nat) (f : Chan → Chan) (s : State) :
    (l.foldl (fun (x : State) k => x.modChan (g k) f) s).mem.scrub = s.mem.scrub := by
  induction l generalizing s with
  | nil => rfl
  | cons k ks ih => exact ih (s.modChan (g k) f)

/-- The end of a scrub period starts over at the first line, with its event (R251, R252). -/
theorem exec_scrubPeriodEnd_restarts {late : Bool} (on : s.regN (pgMEM m.val) 0x008 % 2 ≠ 0) (rate : s.regN (pgMEM m.val) 0x044 ≠ 0)
    (all : 8 * linesPerChan ≤ kvGet s.mem.scrub m.val 0) :
    ∃ u, exec (.scrubPeriodEnd m late) s = .next u ∧ kvGet u.mem.scrub m.val 0 = 0 ∧ pends u (pgMEM m.val) 2 := by
  refine ⟨_, rfl, ?_⟩
  rw [State.scrubEnd, if_neg]
  case hnc =>
    rintro (off | off | off)
    exacts [on off, rate off, absurd off (Nat.not_lt_of_le all)]
  constructor
  · simp only [State.latch_mem]
    have start : ∀ z : State, z.mem.scrub = kvSet s.mem.scrub m.val 0 → kvGet z.mem.scrub m.val 0 = 0 := by
      intro z scrub
      simp [scrub, kvGet]
    refine start _ ?_
    split
    · exact State.foldl_modChan_scrub _ _ _ _
    · exact State.foldl_modChan_scrub _ _ _ _
  · rw [pends, State.latch, State.pend_latchAt _ _ _ _ (by simp only [pgMEM, pgSPV]; omega)]
    simp

/-- A row that can be repaired leaves the list of its channel, which has one resource less (R253). -/
theorem State.repairRow_repairs {m k row : Nat} (left : 0 < (s.chan (8 * m + k)).avail) :
    ((s.repairRow m k row false).chan (8 * m + k)).repair = (s.chan (8 * m + k)).repair.filter (· != row) ∧
    ((s.repairRow m k row false).chan (8 * m + k)).avail = (s.chan (8 * m + k)).avail - 1 := by
  have repaired : (s.repairRow m k row false).chan (8 * m + k) = (s.modChan (8 * m + k) (fun x => { x with repair := x.repair.filter (· != row), used := satAdd32 x.used 1, avail := x.avail - 1 })).chan (8 * m + k) := by
    rw [State.repairRow, if_neg (by simp; omega)]
    rfl
  rw [repaired, State.chan_modChan_self]
  exact ⟨rfl, rfl⟩

/-- A controller's phase after a phase was written, of this controller or of another. -/
theorem State.phaseOf_setPhase {k v : Nat} (m : Nat) (same : v < 16) (had : m = k ∨ s.phaseOf m = v) : (s.setPhase k v).phaseOf m = v := by
  by_cases key : regKey (pgMEM m) 0x00C = regKey (pgMEM k) 0x00C
  · have self := s.field_setField_self (pgMEM k) 0x00C (lo := 0) (len := 4) (by decide) v
    rw [Nat.mod_eq_of_lt (by omega : v < 2 ^ 4)] at self
    have page : pgMEM m = pgMEM k := by simp only [regKey] at key; omega
    rw [State.phaseOf, page]
    exact self
  · obtain rfl | phase := had
    · exact absurd rfl key
    · rw [State.phaseOf, State.field, State.setPhase, State.setField, State.reg_setReg_ne _ _ key]
      exact phase

/-- Every controller of a list takes the phase, and no line or controller's readiness changes. -/
theorem State.foldl_setPhase (l : List Nat) {v : Nat} (small : v < 16) (s : State) :
    (l.foldl (fun (x : State) k => x.setPhase k v) s).dram = s.dram ∧ (l.foldl (fun (x : State) k => x.setPhase k v) s).mem = s.mem ∧
      ∀ m, m ∈ l ∨ s.phaseOf m = v → (l.foldl (fun (x : State) k => x.setPhase k v) s).phaseOf m = v := by
  induction l generalizing s with
  | nil => exact ⟨rfl, rfl, fun m had => had.resolve_left (List.not_mem_nil)⟩
  | cons k ks ih =>
    obtain ⟨dram, mem, phase⟩ := ih (s.setPhase k v)
    refine ⟨dram, mem, fun m had => phase m ?_⟩
    obtain (_ | ⟨_, inRest⟩) | had := had
    · exact .inr (State.phaseOf_setPhase k small (.inl rfl))
    · exact .inl inRest
    · exact .inr (State.phaseOf_setPhase m small (.inr had))

/-- Every data line is empty, every check cache and row-error table is cleared, and no controller takes an access (R255). -/
def State.emptied (s : State) : State :=
  { s with dram := Ram.wiped, mem := { s.mem with chans := (List.range 128).foldl (fun m c => kvMod m c Chan.reset (fun x => { x with wr := satAdd64 x.wr linesPerChan, cache := [], rows := [] })) s.mem.chans, shut := List.range 16 } }

/-- The wipe empties DRAM, takes every controller to WIPING and counts (R255). -/
theorem State.wipeDram_eq (s : State) : s.wipeDram = ((List.range 16).foldl (fun (x : State) m => x.setPhase m 3) s.emptied).lifeAdd 8 1 := rfl

/-- A lifetime counter is no part of DRAM and its controllers (R489). -/
theorem State.lifeAdd_memory (s : State) (i n : Nat) : (s.lifeAdd i n).dram = s.dram ∧ (s.lifeAdd i n).mem = s.mem ∧ ∀ m, (s.lifeAdd i n).phaseOf m = s.phaseOf m :=
  ⟨rfl, rfl, fun _ => rfl⟩

/-- The wipe of start-up leaves DRAM empty, and every controller wipes and takes no access (R255). -/
theorem exec_dramWipe_wipes (wipe : s.fmn.state = .wipe) (ready : ∀ m : Fin 16, s.phaseOf m.val = 2) :
    ∃ u, exec .dramWipe s = .next u ∧ u.dram = Ram.wiped ∧ ∀ m : Fin 16, u.phaseOf m.val = 3 ∧ m.val ∈ u.mem.shut := by
  refine ⟨s.wipeDram, ?_, ?_⟩
  · change execDramWipe s = _
    refine if_pos ⟨wipe, List.all_eq_true.mpr fun m below => ?_⟩
    simpa using ready ⟨m, List.mem_range.mp below⟩
  · obtain ⟨dram, mem, phase⟩ := State.foldl_setPhase (List.range 16) (v := 3) (by decide) s.emptied
    obtain ⟨lifeDram, lifeMem, lifePhase⟩ := State.lifeAdd_memory ((List.range 16).foldl (fun (x : State) m => x.setPhase m 3) s.emptied) 8 1
    simp only [State.wipeDram_eq, lifeDram, lifeMem, lifePhase, dram, mem]
    exact ⟨rfl, fun m => ⟨phase m.val (.inl (List.mem_range.mpr m.isLt)), List.mem_range.mpr m.isLt⟩⟩

end

/-- Settles O38, command by command and event by event. -/
theorem memoryCommands : Obligations.MemoryCommands := by
  refine ⟨?unmapped, ?shut, fun _ _ _ _ _ _ _ _ _ _ _ => exec_lineOperation_writes, fun k data s whole => State.linePut_whole k whole s, fun _ _ _ _ _ _ _ _ => exec_lineOperation_reads, ?poll,
    fun _ => ⟨rfl, rfl⟩, ?rfm, fun _ _ _ => exec_scrubRead_off, fun _ _ _ _ _ _ _ => exec_scrubRead_next, fun _ _ _ => exec_scrubPeriodEnd_restarts, ?training, ?repair,
    fun _ _ _ _ _ => State.repairRow_repairs, fun _ => exec_dramWipe_wipes, ?wipeFails, ?wipeEnds⟩
  case unmapped =>
    intro wr off n data errs grp s unmapped
    exact if_pos (by simp [unmapped])
  case shut =>
    intro wr off n data errs grp s mapped shut
    exact (if_neg (by simp [mapped])).trans (if_pos (by simp [shut]))
  case poll =>
    intro c t m hot s x x_
    subst x_
    rfl
  case rfm =>
    intro c s
    refine ⟨_, rfl, rfl, ?_, fun d other => State.chan_modChan_ne _ _ other⟩
    rw [State.chan_modChan_self]
  case training =>
    intro m us failed avail s x boot on phase x_
    subst x_
    change execMemoryTraining m us failed avail s = _
    refine (if_neg (by simp [boot, on, phase])).trans ?_
    exact (apply_ite Host.Outcome.next _ _ _).symm
  case repair =>
    intro m lacking s boot phase
    exact if_neg (by simp [boot, phase])
  case wipeFails =>
    intro m f0 f1 s phase shut
    exact (if_neg (by simp [phase, shut])).trans (if_pos rfl)
  case wipeEnds =>
    intro m f0 f1 s phase shut
    exact (if_neg (by simp [phase, shut])).trans (if_neg (by decide))

end Sys2Proof.Machine
end

section
/-! PROOFS. Queue pairs: memory requests, commands, connections, congestion and retries (R398 to R403, R406, R409, R410). -/

namespace Sys2Proof.Machine

section
variable {qp rkey off : Nat} {f : FrameInfo} {s x y : State} {k : Qp}

/-- A WRITE inside a region is performed, or held where it touches the parity window in a quiet period (R401 to R403). -/
theorem exec_rdmaWrite_inside {data : Bytes} (pair : s.qp? qp = some k) (live : k.live = true) (frame : s.frameIn f k.prio = (x, true)) (role : k.role = 1)
    (length : data.length ≤ 2 ^ 31) (unheld : x.eth.held.any (fun h => h.qp == qp) = false) (region : x.regionOk rkey off data.length 1 = true) :
    exec (.rdmaWrite qp rkey off data f) s = .next (if x.res.busy.isSome = true ∧ x.touchesWindow off data.length = true
      then ((x.setEth (fun e => { e with held := e.held ++ [HeldWrite.mk qp off data] })).bump pgETH 0x080 1).latch pgETH 4 else x.hostWrite qp off data) := by
  refine congrArg Host.Outcome.next ((onQp_ok pair live frame).trans ?_)
  simp only [role, Nat.not_lt_of_le length, unheld, region, ne_eq, not_true_eq_false, or_self, Bool.not_true, Bool.false_eq_true, if_false, Bool.and_eq_true]

/-- A WRITE on another role's queue pair, or one that is too long, gets a NAK (R401). -/
theorem exec_rdmaWrite_invalid {data : Bytes} (pair : s.qp? qp = some k) (live : k.live = true) (frame : s.frameIn f k.prio = (x, true))
    (invalid : k.role ≠ 1 ∨ 2 ^ 31 < data.length) : exec (.rdmaWrite qp rkey off data f) s = .next (x.nak qp 3) :=
  congrArg Host.Outcome.next ((onQp_ok pair live frame).trans (if_pos invalid))

/-- A READ inside a region is answered with its data, and with a NAK where they are poisoned (R401, R402). -/
theorem exec_rdmaRead_inside {len : Nat} {bs : Bytes} {bad : Bool} (pair : s.qp? qp = some k) (live : k.live = true) (frame : s.frameIn f k.prio = (x, true)) (role : k.role = 1)
    (length : len ≤ 2 ^ 31) (unheld : x.eth.held.any (fun h => h.qp == qp) = false) (region : x.regionOk rkey off len 0 = true) (load : x.dramLoad off len = (bs, bad, y)) :
    exec (.rdmaRead qp rkey off len f) s = .next (if bad = true then y.nak qp 3 else y.ethSend (.read qp bs)) := by
  refine congrArg Host.Outcome.next ((onQp_ok pair live frame).trans ?_)
  simp only [role, Nat.not_lt_of_le length, unheld, region, load, ne_eq, not_true_eq_false, or_self, Bool.not_true, Bool.false_eq_true, if_false]

/-- A READ outside its region ends the queue pair (R401). -/
theorem exec_rdmaRead_outside {len : Nat} (pair : s.qp? qp = some k) (live : k.live = true) (frame : s.frameIn f k.prio = (x, true)) (role : k.role = 1)
    (length : len ≤ 2 ^ 31) (unheld : x.eth.held.any (fun h => h.qp == qp) = false) (region : x.regionOk rkey off len 0 = false) :
    exec (.rdmaRead qp rkey off len f) s = .next ((x.ethSend (.nak qp)).qpError qp 2) := by
  refine congrArg Host.Outcome.next ((onQp_ok pair live frame).trans ?_)
  simp only [role, Nat.not_lt_of_le length, unheld, region, ne_eq, not_true_eq_false, or_self, Bool.not_false, Bool.false_eq_true, if_false, if_true]
  rfl

/-- A sound command joins its queue, a sequenced one by its number (R406, R409). -/
theorem exec_commandSend_sound {msg : Bytes} {c : Cmd} {crc : Nat} (pair : s.qp? qp = some k) (live : k.live = true) (frame : s.frameIn f k.prio = (x, true)) (role : k.role = 0)
    (header : 16 ≤ msg.length) (length : msg.length ≤ 4096) (room : (x.queue k.slot).entries.length < 256) (crc_ : crc = crc32c (patchB msg 0xC (toLE 4 0)))
    (check : crc = leAt msg 0xC 4) (kind : leAt msg 1 1 = 1) (slot : leAt msg 4 1 = k.slot) (y_ : y = x.pmkCheck 2 crc true k.slot)
    (c_ : c = { ver := leAt msg 0 1, op := leAt msg 2 2, seq := leAt msg 8 4, body := sliceB (msg.drop 16) 0 (leAt msg 6 2), started := false, dup := false }) :
    (unsequenced c.op = false → exec (.commandSend qp msg f) s = .next (y.sequenced k.slot c)) ∧
    (unsequenced c.op = true →
      exec (.commandSend qp msg f) s = .next (y.modQueue k.slot (fun m => { m with entries := m.entries ++ [{ c with seq := m.freeKey c.seq }] }))) := by
  have good : (decide (16 ≤ msg.length) && crc32c (patchB msg 0xC (toLE 4 0)) == leAt msg 0xC 4) = true := by
    rw [← crc_, check]
    simp [header]
  have taken : execCommandSend qp msg f s = .next (if unsequenced (leAt msg 2 2) = true
      then y.modQueue k.slot (fun m => { m with entries := m.entries ++ [{ c with seq := m.freeKey c.seq }] }) else y.sequenced k.slot c) := by
    subst y_ c_ crc_
    refine congrArg Host.Outcome.next ((onQp_ok pair live frame).trans ?_)
    simp only [role, Nat.not_lt_of_le length, Nat.not_le_of_lt room, good, kind, slot, ne_eq, not_true_eq_false, or_self, if_false, Bool.not_true, bne_self_eq_false, Bool.or_self,
      Bool.false_eq_true]
  subst c_
  exact ⟨fun sequenced_ => taken.trans (congrArg Host.Outcome.next (if_neg (by simpa using sequenced_))), fun free => taken.trans (congrArg Host.Outcome.next (if_pos free))⟩

/-- The distance of the number that is expected (R409). -/
theorem seqDistance_self (n : Nat) : sext 32 ((n + 2 ^ 32 - n) % 2 ^ 32) = 0 := by
  have zero : (n + 2 ^ 32 - n) % 2 ^ 32 = 0 := by omega
  rw [zero]
  decide

/-- The distance of the number after it (R409). -/
theorem seqDistance_next (n : Nat) : sext 32 ((n + 1 + 2 ^ 32 - n) % 2 ^ 32) = 1 := by
  have one : (n + 1 + 2 ^ 32 - n) % 2 ^ 32 = 1 := by omega
  rw [one]
  decide

variable {q : Nat} {c : Cmd}

/-- The command that is expected joins its queue, and the next number is expected (R409). -/
theorem State.sequenced_expected (expected : c.seq = (s.queue q).next) :
    ((s.sequenced q c).queue q).next = (c.seq + 1) % 2 ^ 32 ∧ ((s.sequenced q c).queue q).entries = (s.queue q).entries ++ [c] := by
  have zero : sext 32 ((c.seq + 2 ^ 32 - (s.queue q).next) % 2 ^ 32) = 0 := by
    rw [← expected]
    exact seqDistance_self _
  have queue : ∀ (z : State) (p o n : Nat), (z.bump64 p o n).queue q = z.queue q := fun _ _ _ _ => rfl
  have changed : ∀ (g : CmdQueue → CmdQueue), (s.modQueue q g).queue q = g (s.queue q) := fun g => by
    simp [State.queue, State.modQueue, kvMod, kvGet]
  rw [State.sequenced, if_pos zero, queue, changed, expected]
  exact ⟨rfl, rfl⟩

/-- A number from the future is refused (R409). -/
theorem State.sequenced_future (future : c.seq = (s.queue q).next + 1) :
    s.sequenced q c = (s.bump pgSPV 0x05C 1).sendReply { queue := q, seq := c.seq, op := c.op, status := stBAD, data := [] } := by
  have one : sext 32 ((c.seq + 2 ^ 32 - (s.queue q).next) % 2 ^ 32) = 1 := by
    rw [future]
    exact seqDistance_next _
  rw [State.sequenced, one]
  exact (if_neg (by decide)).trans (if_pos (by decide))

/-- A connection request is answered as R399 says of the data it brings. -/
theorem exec_cmReq_answered {role pad slot mtu : Nat} (frame : s.frameIn f (s.field pgETH 0x084 12 3) = (x, true)) (fresh : kvHas x.eth.qps qp = false) :
    (x.cmRefusal role pad slot = none → exec (.cmReq qp role pad slot mtu f) s = .next (x.cmAccept qp role slot mtu)) ∧
    (∀ st, x.cmRefusal role pad slot = some st → exec (.cmReq qp role pad slot mtu f) s = .next ((x.bump pgETH 0x064 1).ethSend (.cm qp (some st)))) := by
  change (_ → execCmReq qp role pad slot mtu f s = _) ∧ ∀ st, _ → execCmReq qp role pad slot mtu f s = _
  refine ⟨fun taken => ?_, fun st refused => ?_⟩
  · simp only [execCmReq, frame, fresh, taken, Bool.not_true, Bool.or_self, Bool.false_eq_true, if_false]
  · simp only [execCmReq, frame, fresh, refused, Bool.not_true, Bool.or_self, Bool.false_eq_true, if_false]

/-- A role with a free slot that exists, where a queue pair is left, is not refused (R399). -/
theorem State.cmRefusal_free {role slot : Nat} (known : role ≤ 2) (command : role = 0 → slot < 64) (tier : role = 2 → slot < 1024) (free : s.slotTaken role slot = false)
    (room : s.eth.qps.length < 1024) : s.cmRefusal role 0 slot = none := by
  rw [State.cmRefusal, if_neg, if_neg, if_neg, if_neg]
  · omega
  · simp only [ne_eq, not_true_eq_false, or_false]
    omega
  · rintro ⟨isTier, taken | past⟩
    · simp [free] at taken
    · have := tier isTier
      omega
  · rintro ⟨isCommand, taken | past⟩
    · simp [free] at taken
    · have := command isCommand
      omega

/-- A MEMORY queue pair shares its role and slot, so that none makes way for it (R399). -/
theorem State.cmAccept_memory {slot mtu : Nat} :
    s.cmAccept qp 1 slot mtu = (s.setEth (fun e => { e with qps := kvSet e.qps qp (Qp.mk 1 slot (s.rolePrio 1) mtu false false (2 ^ 64)) })).ethSend (.cm qp none) := by
  have none_ : s.eth.qps.filter (fun p => (1 : Nat) != 1 && p.2.role == 1 && p.2.slot == slot) = [] := by simp
  rw [State.cmAccept, none_]
  rfl

end

/-- Settles O40, frame by frame and event by event. -/
theorem queuePairs : Obligations.QueuePairs := by
  refine ⟨fun _ _ _ _ _ _ _ _ => exec_rdmaWrite_inside, fun _ _ _ _ _ _ _ _ => exec_rdmaWrite_invalid, fun _ _ _ _ _ _ _ _ _ _ _ => exec_rdmaRead_inside,
    fun _ _ _ _ _ _ _ _ => exec_rdmaRead_outside, fun _ _ _ _ _ _ _ _ _ => exec_commandSend_sound, fun _ _ _ expected _ => ⟨_, rfl, State.sequenced_expected expected⟩,
    fun _ _ _ future _ => State.sequenced_future future, fun _ _ _ _ _ _ _ _ => exec_cmReq_answered, fun _ _ _ => State.cmRefusal_free, fun _ _ _ _ => State.cmAccept_memory, ?rtu, ?dreq, ?cnp, ?recovery, ?timeout⟩
  case rtu =>
    intro qp f s x y k pair frame live err y_
    subst y_
    change execCmRtu qp f s = _
    simp only [execCmRtu, pair, frame, live, err, Bool.not_true, Bool.or_self, Bool.false_eq_true, if_false]
  case dreq =>
    intro qp f s x k pair frame
    change execCmDreq qp f s = _
    simp only [execCmDreq, pair, frame, if_true]
  case cnp =>
    intro qp s k pair
    change execCnpReceive qp true s = _ ∧ execCnpReceive qp false s = _
    simp only [execCnpReceive, pair, if_true, Bool.false_eq_true, if_false, and_self]
  case recovery =>
    intro qp s k pair
    change execCnpRateRecovery qp s = _
    simp only [execCnpRateRecovery, pair]
    rfl
  case timeout =>
    intro qp n s k pair live role
    change execAckTimeout qp n false s = _ ∧ execAckTimeout qp n true s = _
    simp only [execAckTimeout, pair, live, role, Bool.not_true, Bool.false_eq_true, or_self, if_false, if_true, and_self]

end Sys2Proof.Machine
end

section
/-! PROOFS. Ethernet frames and link events, and the letters of a subscriber (R395 to R398, R419 to R425). -/

namespace Sys2Proof.Machine

section
variable {ip data : Bytes} {f : FrameInfo} {s x : State}

/-- A request for the module's own IPv4 address is answered with its MAC address (R396, R479). -/
theorem exec_arpRequest_own (frame : s.frameIn f 0 = (x, true)) (own : ip = x.config 0x10 4) (set_ : allZero ip = false) :
    exec (.arpRequest ip f) s = .next (x.ethSend (.frame (x.config 0x08 6 ++ ip))) := by
  change execArpRequest ip f s = _
  simp only [execArpRequest, frame, set_, ← own, beq_self_eq_true, Bool.not_false, Bool.and_self, if_true]

/-- A request for another address is not answered (R396). -/
theorem exec_arpRequest_other (frame : s.frameIn f 0 = (x, true)) (other : ip ≠ x.config 0x10 4) : exec (.arpRequest ip f) s = .next x := by
  change execArpRequest ip f s = _
  simp only [execArpRequest, frame, beq_eq_false_iff_ne.mpr other, Bool.and_false, Bool.false_and, Bool.false_eq_true, if_false]

/-- An echo request to an address of the module is answered with its data (R396). -/
theorem exec_icmpEcho_own (frame : s.frameIn f 0 = (x, true)) (own : x.ownIp6 ip = true ∨ (ip = x.config 0x10 4 ∧ allZero ip = false)) :
    exec (.icmpEcho ip data f) s = .next (x.ethSend (.frame (ip ++ data))) := by
  have addressed : (x.ownIp6 ip || (ip == x.config 0x10 4 && !allZero ip)) = true := by
    obtain six | ⟨four, set_⟩ := own
    · simp [six]
    · simp [← four, set_]
  change execIcmpEcho ip data f s = _
  simp only [execIcmpEcho, frame, addressed, Bool.and_self, if_true]

/-- A pause time is kept for its priority alone, and 0 resumes it (R396). -/
theorem Eth.pause_byPriority (e : Eth) (p q : Nat) {n : Nat} (time : n ≠ 0) :
    kvFind (e.pause p n).paused p = some n ∧ kvFind (e.pause p 0).paused p = none ∧ (q ≠ p → kvFind (e.pause p n).paused q = kvFind e.paused q) := by
  simp only [Eth.pause, time, if_false, if_true, kvFind_kvSet_self, kvFind_kvDel, true_and]
  exact fun other => kvFind_kvSet_ne _ _ other

/-- Negotiation brings the link up at the highest common rate, or goes on trying (R395, R424). -/
theorem exec_ethAutoneg_result {o : Fin 32} (on : s.domOn 178 = true) (warm : s.fmn.state ≠ .cold) (started : s.fmn.state ≠ .boot) (down : s.ethLink ≤ 1)
    (x_ : x = s.setEth (fun e => { e with used := true })) :
    (bestMode o.val (3 - s.field pgETH 0x008 4 2) = none → exec (.ethAutoneg o) s = .next (x.setField pgETH 0x00C 28 4 1)) ∧
    (∀ m, bestMode o.val (3 - s.field pgETH 0x008 4 2) = some m →
      exec (.ethAutoneg o) s = .next ((((x.setField pgETH 0x00C 28 4 2).setField pgETH 0x00C 26 2 m.1).setField pgETH 0x00C 24 2 m.2).latch pgETH 0)) := by
  subst x_
  change (_ → execEthAutoneg o s = _) ∧ ∀ m, _ → execEthAutoneg o s = _
  refine ⟨fun none_ => ?_, fun m common => ?_⟩
  · simp only [execEthAutoneg, on, warm, started, Nat.not_lt_of_le down, none_, Bool.not_true, Bool.false_eq_true, or_self, if_false]
  · simp only [execEthAutoneg, on, warm, started, Nat.not_lt_of_le down, common, Bool.not_true, Bool.false_eq_true, or_self, if_false]

/-- The one connected subscriber gets a heartbeat with its next number (R419, R421). -/
theorem exec_heartbeatLetter_one {q : Nat} {u : Sub} (up : s.ethLink = 2) (one : s.subs = [(q, u)]) (beat : u.beat = true) (connected : s.connected q = true) :
    exec .heartbeatLetter s = .next { s with letters := s.letters ++ [s.beatLetter q u.next], subs := [(q, { u with next := u.next + 1 })] } := by
  change execHeartbeatLetter s = _
  refine (if_neg (by simp [up])).trans ?_
  simp [one, beat, connected, State.pushLetter, kvFind, kvSet]

/-- The first letter leaves, counted, unless its priority is paused (R396, R454). -/
theorem State.sendLetter_leaves {l : Letter} {r : List Letter} (letters : s.letters = l :: r) (free : s.txPaused l.queue = false) :
    s.sendLetter = (({ s with letters := r } : State).bump64 pgSPV 0x068 1).pmkMessage 3 (crc32c (patchB l.message 0xC (toLE 4 0)) ^^^ algXor 0) ∧ s.sendLetter.letters = r := by
  have sent : s.sendLetter = (({ s with letters := r } : State).bump64 pgSPV 0x068 1).pmkMessage 3 (crc32c (patchB l.message 0xC (toLE 4 0)) ^^^ algXor 0) := by
    simp only [State.sendLetter, letters, free, Bool.false_eq_true, if_false]
  exact ⟨sent, by rw [sent]; rfl⟩

end

/-- Settles O41, frame by frame and event by event. -/
theorem ethernetFramesAndLetters : Obligations.EthernetFramesAndLetters := by
  refine ⟨fun _ _ _ _ => exec_arpRequest_own, fun _ _ _ _ => exec_arpRequest_other, ?neighbour, fun _ _ _ _ _ => exec_icmpEcho_own, ?ptp, fun _ _ up => if_neg (by simp [up]),
    fun e p q _ time => e.pause_byPriority p q time, fun _ => rfl, ?discard, fun _ _ up => if_neg (by simp [up]), fun _ _ _ => exec_ethAutoneg_result, by decide,
    fun _ up => if_neg (by simp [up]), fun _ test => if_neg (by simp [test]), fun _ up => if_neg (by simp [up]), fun _ _ _ => exec_heartbeatLetter_one,
    fun _ _ up => if_neg (by simp [up]), ?withheld, ?paused, fun _ _ _ => State.sendLetter_leaves, fun _ _ down => ⟨if_pos down, if_pos down⟩⟩
  case neighbour =>
    intro ip f s x frame own
    change execNeighbourSolicitation ip f s = _
    simp only [execNeighbourSolicitation, frame, own, Bool.and_self, if_true]
  case ptp =>
    intro f s x frame
    change execPtpEventMessage f s = _
    simp only [execPtpEventMessage, frame, if_true]
    rfl
  case discard =>
    intro s up
    have inService : ¬ s.ethLink ≠ 2 := by simp [up]
    exact ⟨if_neg inService, if_neg inService, if_neg inService, if_neg inService⟩
  case withheld =>
    intro s none_
    rw [State.summaries, none_]
    rfl
  case paused =>
    intro s l r letters paused
    simp only [State.sendLetter, letters, paused, if_true]

end Sys2Proof.Machine
end

section
/-! PROOFS. Sessions, registers, subscriptions and regions of the Sprinov port (R401, R407, R408, R413, R415, R420, R500). -/

namespace Sys2Proof.Machine

section
variable {q : Fin 64} {c : Cmd} {s x : State}

/-- A hello with no version in common is refused (R407). -/
theorem exec_sessionHello_noVersion (go : starts s q.val 1 c) (x_ : x = s.started q.val c) (differ : leAt c.body 0 2 &&& x.regN pgSPV 0x07C &&& 2 = 0) :
    exec (.sessionHello q) s = .next (x.refuse (c.ret q.val) 1 stVERSION) := by
  subst x_
  exact congrArg Host.Outcome.next ((cmd_ok go).trans (if_pos differ))

/-- A hello opens a session with a fresh nonce, and answers its next number (R407). -/
theorem exec_sessionHello_opens {y z : State} (go : starts s q.val 1 c) (x_ : x = s.started q.val c) (shared : leAt c.body 0 2 &&& x.regN pgSPV 0x07C &&& 2 ≠ 0)
    (y_ : y = { x with freeCtr := x.freeCtr + 1 })
    (z_ : z = y.modQueue q.val (fun k => k.opened (toLE 16 ((Config.freeValue x.freeCtr).toNat % 2 ^ 128)) (bitOf (leAt c.body 2 1) 0) (leAt c.body 4 4))) :
    exec (.sessionHello q) s = .next (z.ok (c.ret q.val) (toLE 1 1 ++ toLE 1 0 ++ toLE 2 z.self ++ toLE 4 (z.queue q.val).next ++ toLE 16 ((Config.freeValue x.freeCtr).toNat % 2 ^ 128))) := by
  subst x_ y_ z_
  exact congrArg Host.Outcome.next ((cmd_ok go).trans (if_neg shared))

/-- A valid signature of an operator key authenticates its queue (R408). -/
theorem exec_sessionAuth_valid {i : Nat} (go : starts s q.val 2 c) (x_ : x = s.started q.val c) (key : x.keySlotOf (sliceB c.body 0 97) = some i)
    (session : (x.queue q.val).session = true) (signed : Config.ecdsaVerify (sliceB c.body 0 97) (x.authDigest q.val) (sliceB c.body 100 96) = true) :
    exec (.sessionAuth q) s = .next ((x.modQueue q.val (fun k => { k with auth := true, keySlot := i })).ok (c.ret q.val) (toLE 1 i)) := by
  subst x_
  refine congrArg Host.Outcome.next ((cmd_ok go).trans ?_)
  simp only [key, session, signed, Bool.and_self, if_true]

/-- A key that is no operator's is refused (R408). -/
theorem exec_sessionAuth_noKey (go : starts s q.val 2 c) (x_ : x = s.started q.val c) (key : x.keySlotOf (sliceB c.body 0 97) = none) :
    exec (.sessionAuth q) s = .next ((x.latchErr pgSPV 2 2 (c.seq % 2 ^ 32) (spvHi 2 q.val)).refuse (c.ret q.val) 2 stAUTH) := by
  subst x_
  refine congrArg Host.Outcome.next ((cmd_ok go).trans ?_)
  simp only [key]
  rfl

variable {p : Nat} {offs : List Nat}

/-- The registers of one page are read in order (R415). -/
theorem exec_regRead_reads (go : starts s q.val 0x11 c) (x_ : x = s.started q.val c) (names : regOffsets c.body = some (p, offs)) :
    exec (.regRead q) s = .next ((x.readRegs p offs).2.ok (c.ret q.val) (x.readRegs p offs).1) := by
  subst x_
  refine congrArg Host.Outcome.next ((cmd_ok go).trans ?_)
  simp only [names]

/-- The registers of one page are all written, or the lowest refused one answers (R415). -/
theorem exec_regWrite_writes (go : starts s q.val 0x12 c) (x_ : x = s.started q.val c) (names : regOffsets c.body = some (p, offs)) :
    ((∀ w ∈ regWrites c.body offs, x.regCheck p w.1 w.2 true = 0) →
      exec (.regWrite q) s = .next (((regWrites c.body offs).foldl (fun (y : State) w => y.regApply p w.1 w.2 true) x).ok (c.ret q.val) [])) ∧
    (∀ st, ((regWrites c.body offs).map (fun w => x.regCheck p w.1 w.2 true)).find? (· != 0) = some st → exec (.regWrite q) s = .next (x.refuse (c.ret q.val) 0x12 st)) := by
  subst x_
  refine ⟨fun allowed => congrArg Host.Outcome.next ((cmd_ok go).trans ?_), fun st refused => congrArg Host.Outcome.next ((cmd_ok go).trans ?_)⟩
  · have none_ : ((regWrites c.body offs).map (fun w => (s.started q.val c).regCheck p w.1 w.2 true)).find? (· != 0) = none := by
      rw [List.find?_eq_none]
      intro st refusal
      obtain ⟨w, listed, rfl⟩ := List.mem_map.mp refusal
      simp [allowed w listed]
    simp only [names, none_]
  · simp only [names, refused]

/-- A region takes the lowest free number and a fresh rkey (R401). -/
theorem exec_memMap_maps {i : Nat} (go : starts s q.val 0x20 c) (x_ : x = s.started q.val c) (aligned : leAt c.body 0 8 % 4096 = 0) (pages : leAt c.body 8 8 % 4096 = 0)
    (mapped : dramMapped (leAt c.body 0 8) (leAt c.body 8 8) = true) (free : (List.range 4096).find? (fun i => !kvHas x.eth.regions i) = some i) :
    exec (.memMap q) s = .next (({ x with freeCtr := x.freeCtr + 1, eth := { x.eth with regions := kvSet x.eth.regions i { off := leAt c.body 0 8, len := leAt c.body 8 8, access := leAt c.body 16 1 % 8, rkey := (Config.freeValue x.freeCtr).toNat % 2 ^ 32 } } } : State).ok (c.ret q.val)
      (toLE 2 i ++ toLE 2 0 ++ toLE 4 ((Config.freeValue x.freeCtr).toNat % 2 ^ 32))) := by
  subst x_
  refine congrArg Host.Outcome.next ((cmd_ok go).trans ?_)
  simp only [aligned, pages, mapped, free, ne_eq, not_true_eq_false, Bool.not_true, Bool.false_eq_true, or_self, if_false]
  rfl

/-- A region is unmapped (R401). -/
theorem exec_memUnmap_unmaps (go : starts s q.val 0x21 c) (x_ : x = s.started q.val c) (region : kvHas x.eth.regions (leAt c.body 0 2) = true) :
    exec (.memUnmap q) s = .next (({ x with eth := { x.eth with regions := kvDel x.eth.regions (leAt c.body 0 2) } } : State).ok (c.ret q.val) []) := by
  subst x_
  exact congrArg Host.Outcome.next ((cmd_ok go).trans (if_pos region))

/-- An opcode that no command has is sequenced (R409). -/
theorem unsequenced_unknown {op : Nat} (unknown : knownOp op = false) : unsequenced op = false := by
  rw [← Bool.not_eq_true]
  intro free
  simp only [unsequenced, Bool.or_eq_true, beq_iff_eq] at free
  obtain (rfl | rfl) | rfl := free <;> exact absurd unknown (by decide)

/-- An opcode that no command has fails the layout check of an authenticated queue (R408, R413). -/
theorem State.precheck_unknown {q : Nat} (unknown : knownOp c.op = false) (version : c.ver = 1) (auth : (s.queue q).auth = true) : s.precheck q c = some stBAD := by
  have layout : layoutOk c.op c.body = false := by simp [layoutOk, unknown]
  simp only [State.precheck, version, auth, layout, ne_eq, not_true_eq_false, and_false, if_false, Bool.not_true, Bool.and_false, Bool.false_eq_true, Bool.not_false, if_true]

/-- An unknown opcode is answered BAD_ARGUMENT (R413). -/
theorem exec_unknownOpcode_refused {q : Nat} (next : s.nextStart = some (q, c)) (unknown : knownOp c.op = false) (version : c.ver = 1) (x_ : x = s.started q c)
    (auth : (x.queue q).auth = true) : exec .unknownOpcode s = .next (x.refuse (c.ret q) c.op stBAD) := by
  subst x_
  have startable : s.startable q c.op = some c := by
    simp only [State.startable, unsequenced_unknown unknown, next, and_self, Bool.false_eq_true, if_false, if_true]
  change execUnknownOpcode s = _
  simp only [execUnknownOpcode, next, unknown, Bool.false_eq_true, if_false, State.command, startable, State.precheck_unknown unknown version auth]
  rfl

/-- A reset replies, and goes to BOOT with DRAM as it was (R413, R500). -/
theorem exec_moduleReset_boots (go : starts s q.val 0x76 c) (x_ : x = s.started q.val c) :
    ∃ u, exec (.moduleReset q) s = .next u ∧ u = (x.ok (c.ret q.val) []).resetTo .boot (some 1) ∧ u.fmn.state = .boot ∧ u.dram = (x.ok (c.ret q.val) []).dram := by
  subst x_
  exact ⟨_, congrArg Host.Outcome.next (cmd_ok go), rfl, rfl, rfl⟩

end

/-- Settles O42, command by command. -/
theorem sprinovCommands : Obligations.SprinovCommands := by
  refine ⟨fun _ _ _ _ => exec_sessionHello_noVersion, fun _ _ _ _ _ _ => exec_sessionHello_opens, fun _ _ _ _ _ => exec_sessionAuth_valid, fun _ _ _ _ => exec_sessionAuth_noKey, ?close, ?query,
    fun _ _ _ => ⟨rfl, rfl, rfl⟩, fun _ _ _ _ _ _ => exec_regRead_reads, fun _ _ _ => rfl, fun _ _ _ _ _ _ => exec_regWrite_writes, ?subscribe, fun _ _ _ _ _ => exec_memMap_maps,
    fun _ _ _ _ => exec_memUnmap_unmaps, fun _ _ _ _ => exec_unknownOpcode_refused, fun _ _ _ _ => exec_moduleReset_boots⟩
  case close =>
    intro q c s x go x_
    subst x_
    exact congrArg Host.Outcome.next (cmd_ok go)
  case query =>
    intro q c s x go x_
    subst x_
    exact congrArg Host.Outcome.next (cmd_ok go)
  case subscribe =>
    intro q c s x go x_
    subst x_
    exact congrArg Host.Outcome.next (cmd_ok go)

end Sys2Proof.Machine
end

section
/-! PROOFS. Creating and deleting tables (R168, R202, R204, R230, R242), and rows that are replaced or migrate (R226 to R229). -/

namespace Sys2Proof.Machine

section
variable {q : Fin 64} {c : Cmd} {s x : State}

/-- A sound table whose areas fit where they are placed is created, where there is room (R168). -/
theorem exec_tableCreate_fits {v : State} {p : Placement} {t : Table} (go : starts s q.val 0x40 c) (x_ : x = s.started q.val c)
    (active : x.imp.active.isSome = true) (id : leAt c.body 0 2 < 4096) (args : x.tableArgsOk c.body = true) (fresh : kvHas x.par.tables (leAt c.body 0 2) = false)
    (unmade : x.par.creating.any (fun t => t.id == leAt c.body 0 2) = false) (v_ : v = (if leAt c.body 0x40 1 = 1 then x.takeShards (leAt c.body 0 2) else x))
    (t_ : t = tableOf c.body (x.sec 7) p) (fits : v.placeWindow t p = true) (below : v.pastChannel t = false) :
    exec (.tableCreate q (some p)) s = .next (if x.hasRoom v t p = true then (x.createPending t p).ok (c.ret q.val) [] else x.replyTo (c.ret q.val) stNORES []) := by
  subst x_ v_ t_
  refine congrArg Host.Outcome.next ((cmd_ok go).trans ?_)
  simp only [← Option.not_isSome, active, args, fresh, unmade, Bool.not_true, Bool.or_self, Bool.false_eq_true, if_false, Nat.not_le_of_lt id, Option.getD_some,
    fits, below, or_self, Bool.not_eq_true', ← Bool.not_eq_true, ite_not]

/-- A number past the last table finds no room (R168). -/
theorem exec_tableCreate_pastIds {p : Option Placement} (go : starts s q.val 0x40 c) (x_ : x = s.started q.val c) (active : x.imp.active.isSome = true)
    (id : 4096 ≤ leAt c.body 0 2) : exec (.tableCreate q p) s = .next (x.replyTo (c.ret q.val) stNORES []) := by
  subst x_
  refine congrArg Host.Outcome.next ((cmd_ok go).trans ?_)
  simp only [← Option.not_isSome, active, id, Bool.not_true, Bool.false_eq_true, if_false, if_true]

/-- Outside a slice no table is created (R375). -/
theorem exec_tableCreate_noSlice {p : Option Placement} (go : starts s q.val 0x40 c) (x_ : x = s.started q.val c) (inactive : x.imp.active = none) :
    exec (.tableCreate q p) s = .next (x.refuse (c.ret q.val) 0x40 stILLEGAL) := by
  subst x_
  refine congrArg Host.Outcome.next ((cmd_ok go).trans ?_)
  simp only [inactive, Option.isNone_none, if_true]

/-- PUT areas are placed for tables of the tier alone (R230). -/
theorem State.newPuts_noTier {t : Table} (p : Placement) (flat : t.hasTier = false) : s.newPuts t p = [] := by
  simp [State.newPuts, flat]

/-- A PUT area is no part of the tables that are created. -/
theorem State.modPut_creating (s : State) (f : Nat) (g : PutFolio → PutFolio) : (s.modPut f g).par.creating = s.par.creating := by
  simp only [State.modPut, State.setPar]
  split <;> rfl

/-- A sparse table that takes effect initialises its Inkers and their descriptors (R202, R208). -/
theorem State.enterTable_sparse {y z : State} {t : Table} (y_ : y = s.setPar (fun p => { p with tables := kvSet p.tables t.id t })) (sparse : t.dense = false)
    (z_ : z = (y.inksOf t).foldl (fun (w : State) i => w.initSparse t i) y) : s.enterTable t = z.cfgTable t.id (z.inksOf t) t.descr := by
  subst y_ z_
  simp only [State.enterTable, sparse, Bool.false_eq_true, if_false]

/-- A deletion that nothing hinders waits for the boundary without a reply (R204). -/
theorem exec_tableDelete_waits {t : Table} (go : starts s q.val 0x41 c) (x_ : x = s.started q.val c) (table : x.table? (leAt c.body 0 2) = some t)
    (repls : x.par.repls.any (fun u => u.table == leAt c.body 0 2) = false) (migs : x.par.migs.any (fun m => m.table == leAt c.body 0 2) = false)
    (unused : t.dense = false ∨ x.gradTable (leAt c.body 0 2) = false) (first : x.par.deleting.any (fun d => d.id == leAt c.body 0 2) = false) :
    exec (.tableDelete q) s = .next (x.setPar (fun p => { p with deleting := p.deleting ++ [{ id := leAt c.body 0 2, reply := c.ret q.val }] })) := by
  subst x_
  refine congrArg Host.Outcome.next ((cmd_ok go).trans ?_)
  have free : ¬ (t.dense = true ∧ (s.started q.val c).gradTable (leAt c.body 0 2) = true) := by
    obtain sparse | ungraded := unused
    · simp [sparse]
    · simp [ungraded]
  simp only [table, repls, migs, free, first, Bool.false_eq_true, or_self, if_false]

/-- The end of an INIT notes how long it took; that of a REBUILD also loads what the rebuilt areas hold (R369, R387). -/
theorem State.workEnded_timed {ms : Nat} {j : Job} (short : ms < 2 ^ 32) (x_ : x = (s.setJob none).setN pgPMS 0x058 ms) :
    (j.reason = 1 → s.workEnded j ms = x) ∧ (j.reason = 2 → s.workEnded j ms = x.loadConfig.latch pgPMS 4) := by
  subst x_
  have kept : min ms 0xFFFFFFFF = ms := by omega
  constructor
  · intro init
    simp only [State.workEnded, init, kept]
    exact if_neg (by decide)
  · intro rebuild
    simp only [State.workEnded, rebuild, kept, if_true]
    exact if_neg (by decide)

end

/-- Settles O30, command by command and event by event. -/
theorem tableCommands : Obligations.TableCommands := by
  refine ⟨fun _ _ _ _ _ _ _ => exec_tableCreate_fits, fun _ _ _ _ _ => exec_tableCreate_pastIds, fun _ _ _ _ _ => exec_tableCreate_noSlice, ?pending, ?createApply,
    fun _ _ _ _ => State.enterTable_sparse, fun _ _ _ _ _ => exec_tableDelete_waits, ?deleteApply, ?done, fun _ _ _ _ => State.workEnded_timed⟩
  case pending =>
    intro s t p
    refine ⟨?_, fun flat => by rw [State.createPending, State.newPuts_noTier p flat]; rfl⟩
    have kept : ∀ (l : List (Nat × Nat)) (z : State), (l.foldl (fun (z : State) u => z.modPut u.1 (fun f => { f with base := some u.2 })) z).par.creating = z.par.creating :=
      fun l => by induction l with
        | nil => intro z; rfl
        | cons u us ih => intro z; exact (ih (z.modPut u.1 (fun f => { f with base := some u.2 }))).trans (z.modPut_creating _ _)
    exact congrArg (· ++ [t]) (kept _ s)
  case createApply =>
    intro s x waiting quiet x_
    subst x_
    change execTableCreateApply s = _
    exact if_neg (by simp [waiting, quiet])
  case deleteApply =>
    intro s x waiting steps forming quiet x_
    subst x_
    change execTableDeleteApply s = _
    exact if_neg (by simp [waiting, steps, forming, quiet])
  case done =>
    intro ms s x j job all x_
    subst x_
    change execParityWorkDone ms s = _
    simp only [execParityWorkDone, job]
    exact if_neg (by omega)

section
variable {q : Fin 64} {c : Cmd} {s x : State} {t : Table}

/-- Rows that can be staged are (R226). -/
theorem exec_rowReplace_stages {rows : List Nat} (quiet : s.res.busy = none) (go : starts s q.val 0x42 c) (x_ : x = s.started q.val c) (table : x.table? (leAt c.body 0 2) = some t)
    (sparse : t.dense = false) (flags : leAt c.body 4 1 ≤ 1) (extent : x.extentOk (leAt c.body 24 8) (leAt c.body 16 4 * (64 + t.img)) = true)
    (rows_ : rows = x.stagedRows t (leAt c.body 24 8) (leAt c.body 16 4)) (status : x.replaceStatus t rows = stOK) :
    exec (.rowReplace q) s = .next ((x.stageAll t c.body rows).ok (c.ret q.val) []) := by
  subst x_ rows_
  change execRowReplace q s = _
  rw [execRowReplace, if_neg (by simp [quiet])]
  refine congrArg Host.Outcome.next ((cmd_ok go).trans ?_)
  simp only [table, sparse, extent, status, Nat.not_lt_of_le flags, Bool.not_true, Bool.false_eq_true, or_self, if_false, ne_eq, not_true_eq_false]

/-- One row after a decision was taken goes into its replacement area and waits there (R226, R227). -/
theorem State.stageAll_one {b : Bytes} {row : Nat} (one : leAt b 16 4 = 1) (decided : s.fmn.anyDecided = true) :
    s.stageAll t b [row] = (s.dramSeen (leAt b 24 8) (64 + t.img)).stageRow t row (leAt b 2 2) (leAt b 8 8) (bitOf (leAt b 4 1) 0) none (s.dram.read (leAt b 24 8 + 64) t.img) := by
  simp only [State.stageAll, one, decided, Bool.not_true, Bool.and_false, Bool.false_eq_true, if_false, List.zipIdx_cons, List.zipIdx_nil, List.foldl_cons, List.foldl_nil,
    Nat.zero_mul, Nat.add_zero, Nat.one_mul]

/-- A row that may migrate gets a forwarding entry, and its reservation leaves for the destination (R228). -/
theorem exec_tableMigrate_reserves {row d ink : Nat} (quiet : s.res.busy = none) (go : starts s q.val 0x43 c) (x_ : x = s.started q.val c)
    (table : x.table? (leAt c.body 0 2) = some t) (row_ : row = leAt c.body 8 8) (d_ : d = leAt c.body 2 2) (can : x.canMigrate t row d = true) (ink_ : ink = (x.rowKey t row).1)
    (room : (x.par.migs.filter (fun m => m.ink == ink)).length < 4096) :
    exec (.tableMigrate q) s = .next ((x.setPar (fun p => { p with migs := p.migs ++
      [{ table := t.id, row := row, ink := ink, dest := d, state := .reserving, epoch := x.epoch, reply := some (c.ret q.val), key := 0 }] })).send
      (x.mkPkt 0x60 6 d (t.id * 2 ^ 40 + row) 0 []) (.migrate t.id row 0)) := by
  subst x_ row_ d_ ink_
  change execTableMigrate q s = _
  rw [execTableMigrate, if_neg (by simp [quiet])]
  refine congrArg Host.Outcome.next ((cmd_ok go).trans ?_)
  simp only [table, can, Bool.not_true, Bool.false_eq_true, if_false]
  exact if_neg (by omega)

variable {o : OutPkt}

/-- A reservation the table can take is acknowledged where the row has a slot, and otherwise gets one (R228, R229). -/
theorem exec_migReserve_fits {id row ink : Nat} (first : s.takeArrived (fun p => p.type == 0x60) = some (o, x)) (id_ : id = fld o.pkt.addr 40 12)
    (row_ : row = fld o.pkt.addr 0 40) (table : x.table? id = some t) (form : reserveForm t o.pkt = true) (ink_ : ink = rowHash id row % 128) :
    (x.par.migIns.any (fun m => m.table == id && m.row == row) = true → exec .migReserve s = .next (x.reply o stOK [])) ∧
    (∀ i, x.par.migIns.any (fun m => m.table == id && m.row == row) = false → ink ∈ x.inksOf t → x.migSlot t row ink = some i →
      exec .migReserve s = .next ((x.setPar (fun p => { p with migIns := p.migIns ++ [{ table := id, row := row, ink := ink, slot := i, valid := false }] })).reply o stOK [])) := by
  subst id_ row_ ink_
  change (_ → execMigReserve s = _) ∧ ∀ i, _ → _ → _ → execMigReserve s = _
  constructor
  · intro held
    simp only [execMigReserve, first, table, form, held, Bool.not_true, Bool.false_eq_true, if_false, if_true]
  · intro i fresh here slot
    simp only [execMigReserve, first, table, form, fresh, List.contains_iff_mem.mpr here, slot, Bool.not_true, Bool.false_eq_true, if_false, if_true]

/-- A shipped row is installed in the slot that waits for it (R228). -/
theorem exec_ship_installs {m : MigIn} (first : s.takeArrived (fun p => p.type == 0x61) = some (o, x)) (table : x.table? (fld o.pkt.addr 40 12) = some t)
    (form : migForm o.pkt = true) (slot : x.par.migIns.find? (fun m => m.table == fld o.pkt.addr 40 12 && m.row == fld o.pkt.addr 0 40 && !m.valid) = some m) :
    exec .ship s = .next ((x.installShip t m o.pkt.payload).reply o stOK []) := by
  change execShip s = _
  simp only [execShip, first, table, form, slot, if_true]

/-- A record with nothing behind it brings no Delta slots (R312). -/
theorem shippedSlots_recordOnly {b : Bytes} (record : b.length = t.recB) : shippedSlots t b = [] := by
  simp [shippedSlots, record]

/-- A request for a row that is homed here joins the queue of its Inker (R209, R312). -/
theorem State.takeRowOp_homed {p : Packet} (table : s.table? (p.addr / 2 ^ 40) = some t) (id : p.addr / 2 ^ 40 < 4096) (sparse : t.dense = false)
    (row : fld p.addr 0 40 < t.rows) (here : s.homedHere t (fld p.addr 0 40) = true) (form : (p.type = 4 ∧ p.payload = []) ∨ (p.type = 5 ∧ p.payload.length = 4 * t.width)) :
    s.takeRowOp o p = s.pushOp (s.rowKey t (fld p.addr 0 40)).1 { kind := p.type - 4, table := p.addr / 2 ^ 40, row := fld p.addr 0 40, step := s.fullStep p.arg, slot := p.slot, vals := (List.range (p.payload.length / 4)).map (fun j => leAt p.payload (4 * j) 4), addr := 0, len := 0, req := .packet o } := by
  have found : (if p.addr / 2 ^ 40 < 4096 then s.table? (p.addr / 2 ^ 40) else none) = some t := (if_pos id).trans table
  have inTable : ¬ t.rows ≤ fld p.addr 0 40 := by omega
  obtain ⟨type, empty⟩ | ⟨type, length⟩ := form
  · simp only [State.takeRowOp, found, sparse, here, inTable, type, empty, decide_false, Bool.true_or, Bool.not_true, if_true, List.isEmpty_nil, Bool.or_self, Bool.false_eq_true, if_false, Nat.sub_self]
  · have other : ¬ 5 = 4 := by decide
    simp only [State.takeRowOp, found, sparse, here, inTable, type, length, other, decide_false, Bool.true_or, Bool.not_true, if_false, beq_self_eq_true, Bool.and_self, Bool.or_self,
      Bool.false_eq_true]

end

/-- Settles O31, command by command and packet by packet. -/
theorem rowMovement : Obligations.RowMovement := by
  refine ⟨fun _ _ busy => ⟨if_pos busy, if_pos busy⟩, fun _ _ _ _ _ _ => exec_rowReplace_stages, fun _ _ _ _ => State.stageAll_one, fun _ _ _ _ _ _ _ _ => exec_tableMigrate_reserves,
    ?unknown, fun _ _ _ _ _ _ _ => exec_migReserve_fits, ?noTable, fun _ _ _ _ _ => exec_ship_installs, ?install, ?read, ?contrib, ?forward,
    fun _ _ _ _ => State.takeRowOp_homed⟩
  case unknown =>
    intro s x o first none_
    change execMigReserve s = _
    simp only [execMigReserve, first, none_]
  case noTable =>
    intro s x o first none_
    change execShip s = _
    simp only [execShip, first, none_]
  case install =>
    intro s t m b record
    simp only [State.installShip, shippedSlots_recordOnly record, List.foldl_nil]
  case read =>
    intro s x o first
    change execRowRead s = _
    simp only [execRowRead, first]
  case contrib =>
    intro s x o first
    change execContrib s = _
    simp only [execContrib, first]
  case forward =>
    intro s x o first
    change execForward s = _
    simp only [execForward, first]
    cases migForm o.pkt <;> rfl

end Sys2Proof.Machine
end

section
/-! PROOFS. Register writes and reads from outside the blocks (R15, R17, R433, R439, R442, R443, R455). -/

namespace Sys2Proof.Machine

/-- The word of a register's number is the register. -/
theorem State.ofNat_regN (s : State) (p o : Nat) : BitVec.ofNat 32 (s.regN p o) = s.reg p o := by
  simp [State.regN]

/-- The bits of a word that a mask does not name, as a difference. -/
theorem ofNat_sub_and (x v : Word) : BitVec.ofNat 32 (x.toNat - (x.toNat &&& v.toNat)) = x &&& ~~~v := by
  have apart : (x &&& v) &&& (x &&& ~~~v) = 0 := by
    ext i hi
    cases h : v[i] <;> simp [h]
  have whole : (x &&& v) + (x &&& ~~~v) = x := by
    rw [BitVec.add_eq_or_of_and_eq_zero _ _ apart]
    ext i hi
    cases h : v[i] <;> simp [h]
  have part : (x &&& v).toNat ≤ x.toNat := by
    rw [BitVec.toNat_and]
    exact Nat.and_le_left
  have difference : BitVec.ofNat 32 (x.toNat - (x &&& v).toNat) = x - (x &&& v) := by
    apply BitVec.eq_of_toNat_eq
    rw [BitVec.toNat_sub_of_le part, BitVec.toNat_ofNat, Nat.mod_eq_of_lt (by omega)]
  rw [← BitVec.toNat_and, difference]
  conv => lhs; lhs; rw [← whole]
  rw [BitVec.add_comm]
  exact BitVec.add_sub_cancel _ _

/-- A write of EVT_MASK replaces the implemented bits (R442). -/
theorem exec_registerWrite_inkMask (t : Fin 128) (v : Word) {s : State} (idle : s.fmn.state ≠ .stepping) :
    exec (.registerWrite ⟨0x0C0 + t.val, by omega⟩ 6 v 0) s = .next { s.setReg (pgINK t.val) 0x018 (writtenBits (s.regN (pgINK t.val) 0x018) v.toNat 0x7FF) with answer := 0 } := by
  have made : s.regCheck (pgINK t.val) 0x018 v.toNat true = 0 := s.regCheck_common (pageBlk_pgINK t) (by decide) rfl (by decide) (by decide) v.toNat true (.inl idle)
  have stored : s.regApply (pgINK t.val) 0x018 v.toNat true = s.setReg (pgINK t.val) 0x018 (writtenBits (s.regN (pgINK t.val) 0x018) v.toNat 0x7FF) := by
    rw [s.regApply_stored (pageBlk_pgINK t) (by decide) (by decide) (by decide) (by decide) (by decide) (by decide), storeRw_plain _ _ _ _ _ _ rfl]
    rfl
  rw [exec_registerWrite_host, ← stored]
  exact congrArg Host.Outcome.next (softWrite_ok s (pgINK t.val) 0x018 v.toNat made)

/-- A write of 1 to a bit of EVT_PEND clears it (R442). -/
theorem exec_registerWrite_impPend (v : Word) (s : State) :
    exec (.registerWrite ⟨pgIMP, by decide⟩ 5 v 0) s = .next { s.setReg pgIMP 0x014 (s.reg pgIMP 0x014 &&& ~~~v) with answer := 0 } := by
  have made : s.regCheck pgIMP 0x014 v.toNat true = 0 := s.regCheck_common pageBlk_pgIMP (by decide) rfl (by decide) (by decide) v.toNat true (.inr (.inl rfl))
  have cleared : s.regApply pgIMP 0x014 v.toNat true = s.setReg pgIMP 0x014 (s.reg pgIMP 0x014 &&& ~~~v) := by
    rw [← ofNat_sub_and (s.reg pgIMP 0x014) v]
    rfl
  rw [exec_registerWrite_host, ← cleared]
  exact congrArg Host.Outcome.next (softWrite_ok s pgIMP 0x014 v.toNat made)

/-- A write from outside is made, or a rule refuses it (R433). -/
theorem State.softWrite_eq (s : State) (p o v : Nat) :
    s.softWrite p o v = if s.regCheck p o v true = 0 then { s.regApply p o v true with answer := 0 } else { s with answer := s.regCheck p o v true } := by
  split
  · next made => exact softWrite_ok s p o v made
  · next refused => exact softWrite_no s p o v refused

/-- A read from outside answers what the register read gives (R433). -/
theorem State.softRead_page {s x : State} {p o v : Nat} (page : pageBlk p ≠ none) (read : s.regRead p o = (v, x)) :
    s.softRead p o = { x with answer := 0, readData := BitVec.ofNat 32 v } := by
  simp only [State.softRead, read]
  exact if_neg (by simpa using page)

/-- Outside the page map a read answers BAD_ARGUMENT (R433). -/
theorem State.softRead_noPage {s : State} {p o : Nat} (page : pageBlk p = none) : s.softRead p o = { s with answer := stBAD } :=
  if_pos (by simp [page])

/-- A read of ERR_CODE captures both ERR_INFO registers (R439). -/
theorem State.regRead_fmnErr {s : State} (live : kvFind s.captured (regKey pgFMN 0x024) = none) :
    s.regRead pgFMN 0x024 = (s.regN pgFMN 0x024, { s with captured := kvSet (kvSet s.captured (regKey pgFMN 0x028) (s.reg pgFMN 0x028)) (regKey pgFMN 0x02C) (s.reg pgFMN 0x02C) }) := by
  have views : ∀ o, o = 0x024 ∨ o = 0x028 ∨ o = 0x02C → s.regView pgFMN o = s.regN pgFMN o := by
    rintro o (rfl | rfl | rfl) <;> rfl
  simp only [State.regRead, live, pageBlk_pgFMN, views _ (.inl rfl), views _ (.inr (.inl rfl)), views _ (.inr (.inr rfl)), State.ofNat_regN]
  rfl

/-- A read of the Dateline's low half captures its upper half (R17). -/
theorem State.regRead_datelineLow {s : State} (on : s.domOn 181 = true) (live : kvFind s.captured (regKey pgDTL 0x040) = none) :
    s.regRead pgDTL 0x040 = (s.regN pgDTL 0x040, { s with captured := kvSet s.captured (regKey pgDTL 0x044) (s.reg pgDTL 0x044) }) := by
  have views : ∀ o, o = 0x040 ∨ o = 0x044 → s.regView pgDTL o = s.regN pgDTL o := by
    rintro o own
    have powered : ¬ (0x040 ≤ o ∧ (!s.domOn (domainOf .dtl 0)) = true) := by
      rintro ⟨-, off⟩
      exact absurd on (by simpa [domainOf] using off)
    simp only [State.regView, pageBlk_pgDTL, if_neg powered]
    obtain rfl | rfl := own <;> rfl
  simp only [State.regRead, live, pageBlk_pgDTL, views _ (.inl rfl), views _ (.inr rfl), State.ofNat_regN]
  rfl

/-- A captured upper half answers once (R17). -/
theorem State.regRead_captured {s : State} {p o : Nat} {v : Word} (held : kvFind s.captured (regKey p o) = some v) :
    s.regRead p o = (v.toNat, { s with captured := kvDel s.captured (regKey p o) }) := by
  simp only [State.regRead, held]

/-- Settles O43, access by access. -/
theorem registerAccesses : Obligations.RegisterAccesses := by
  refine ⟨fun t v _ => exec_registerWrite_inkMask t v, exec_registerWrite_impPend, ?inject, ?errCode, ?low, ?high, ?host, ?postmaster, ?set_, ?read, ?noPage⟩
  case inject =>
    intro k s
    obtain ⟨u, done, only, regs, counted⟩ := eventSetInjects.2 ⟨pgIMP, by decide⟩ (BitVec.ofNat 32 (2 ^ k.val)) 0 .imp s pageBlk_pgIMP (.inr rfl)
    obtain ⟨-, pend⟩ := counted (by decide)
    refine ⟨u, done, only, ?_, regs⟩
    have bit := pend ⟨k.val, by omega⟩
    rw [pends, bit]
    have own : k.val < Blk.imp.events := k.isLt
    have named : (BitVec.ofNat 32 (2 ^ k.val)).getLsbD k.val = true := by
      rw [BitVec.getLsbD_ofNat, Nat.testBit_two_pow_self]
      simp only [Bool.and_true, decide_eq_true_eq]
      omega
    simp only [own, named, decide_true, Bool.and_self, Bool.or_true]
  case errCode =>
    intro s live
    refine ⟨_, congrArg Host.Outcome.next (State.softRead_page (by decide) (State.regRead_fmnErr live)), by rw [State.ofNat_regN], ?_, ?_⟩
    · exact (kvFind_kvSet_ne _ _ (by decide)).trans (kvFind_kvSet_self _ _ _)
    · exact kvFind_kvSet_self _ _ _
  case low =>
    intro s on live
    exact ⟨_, congrArg Host.Outcome.next (State.softRead_page (by decide) (State.regRead_datelineLow on live)), by rw [State.ofNat_regN], kvFind_kvSet_self _ _ _⟩
  case high =>
    intro s v held
    refine (congrArg Host.Outcome.next (State.softRead_page (by decide) (State.regRead_captured held))).trans ?_
    simp
  case host =>
    intro page off v st s st_
    subst st_
    rw [exec_registerWrite_host, State.softWrite_eq]
  case postmaster =>
    intro page off v st s x y x_ st_ y_
    have written : (let (st, z) := x.regWrite page.val (4 * off.val) v.toNat false; ({ z with answer := st } : State)) = y := by
      subst st_ y_
      simp only [State.regWrite]
      split <;> rfl
    subst x_
    rw [← written]
    exact ⟨rfl, rfl, rfl⟩
  case set_ =>
    intro page v st s st_
    subst st_
    rw [exec_evtSetInject, State.softWrite_eq]
  case read =>
    intro page off s x v mapped read
    refine ⟨congrArg Host.Outcome.next (State.softRead_page mapped read), fun err => congrArg Host.Outcome.next (State.softRead_page mapped ?_)⟩
    rw [err] at read
    exact read
  case noPage => exact fun page off s none_ => ⟨congrArg Host.Outcome.next (State.softRead_noPage none_), congrArg Host.Outcome.next (State.softRead_noPage none_)⟩

end Sys2Proof.Machine
end

section
/-! PROOFS. The Postmark units (R452 to R460) and the control of the Ledger (R487). -/

namespace Sys2Proof.Machine

section
variable {s u : State} {ks : List (Nat × Nat)} {p o v : Nat}

/-- No register changes where nothing is written. -/
theorem regsBut_refl (s : State) (ks : List (Nat × Nat)) : regsBut s s ks := fun _ _ _ => rfl

/-- A write of a listed register leaves the others. -/
theorem regsBut_write {w : Word} (but : regsBut s u ks) (listed : (p, o) ∈ ks) : regsBut s (u.setReg p o w) ks := by
  intro q r apart
  have other : regKey q r ≠ regKey p o := fun key => apart (List.mem_map.mpr ⟨(p, o), listed, key.symm⟩)
  rw [State.reg_setReg_ne _ _ other]
  exact but q r apart

/-- A pair of registers holds the low 64 bits of what is written to it. -/
theorem State.reg64_set64_mod (s : State) (p o v : Nat) : (s.set64 p o v).reg64 p o = v % 2 ^ 64 := by
  have apart : regKey p o ≠ regKey p (o + 4) := by unfold regKey; omega
  rw [State.reg64, State.set64, State.regN_setN_ne _ _ apart, State.regN_setN_self _ _ _ (Nat.mod_lt _ (by norm_num)), State.regN, State.reg_setN_self, BitVec.toNat_ofNat]
  omega

end

section
variable (s : State) (i : Nat)

/-- The algorithm is one of four. -/
theorem State.pmkAlg_lt : s.pmkAlg i < 4 := Nat.mod_lt _ (by decide)

/-- A register above VALUE is no part of a unit's algorithm and value. -/
theorem State.pmk_setReg (o : Nat) {w : Word} (above : 0x048 ≤ o) :
    (s.setReg (pgPMK i) o w).pmkAlg i = s.pmkAlg i ∧ (s.setReg (pgPMK i) o w).pmkValue i = s.pmkValue i := by
  have own : ∀ q, q = 0x008 ∨ q = 0x040 ∨ q = 0x044 → (s.setReg (pgPMK i) o w).reg (pgPMK i) q = s.reg (pgPMK i) q :=
    fun q named => State.reg_setReg_ne _ _ (by unfold regKey; omega)
  simp only [State.pmkAlg, State.pmkValue, State.field, State.reg64, State.regN, own _ (.inl rfl), own _ (.inr (.inl rfl)), own _ (.inr (.inr rfl)), and_self]

/-- The running value that is stored, in the width of the algorithm (R453). -/
theorem State.pmkValue_setPmk (v : Nat) : (s.setPmk i v).pmkValue i = v % 2 ^ algWidth (s.pmkAlg i) := by
  have alg : (s.setPmk i v).pmkAlg i = s.pmkAlg i := by
    have ctrl : (s.setPmk i v).reg (pgPMK i) 0x008 = s.reg (pgPMK i) 0x008 :=
      (State.reg_setN_ne _ _ (by unfold regKey; omega)).trans (State.reg_setN_ne _ _ (by unfold regKey; omega))
    simp only [State.pmkAlg, State.field, ctrl]
  have value : (s.setPmk i v).reg64 (pgPMK i) 0x040 = v % 2 ^ 64 := s.reg64_set64_mod (pgPMK i) 0x040 v
  have narrow : algWidth (s.pmkAlg i) ≤ 64 := by
    unfold algWidth
    split_ifs <;> decide
  rw [State.pmkValue, alg, value, Nat.mod_mod_of_dvd _ (Nat.pow_dvd_pow 2 narrow)]

variable {s i} in
/-- A stored value is in VALUE_LO and VALUE_HI (R460). -/
theorem regsBut_setPmk {u : State} {ks : List (Nat × Nat)} (but : regsBut s u ks) (low : (pgPMK i, 0x040) ∈ ks) (high : (pgPMK i, 0x044) ∈ ks) (v : Nat) :
    regsBut s (u.setPmk i v) ks := regsBut_write (regsBut_write but low) high

/-- What a word of CTRL names: INIT or CMP, and the algorithm (R457). -/
theorem pmkCtrl_word : ∀ a < 4, (bitOf (a * 4 + 1) 0 = true ∧ bitOf (a * 4 + 1) 1 = false ∧ fld (a * 4 + 1) 2 2 = a) ∧
    (bitOf (a * 4 + 2) 0 = false ∧ bitOf (a * 4 + 2) 1 = true ∧ fld (a * 4 + 2) 2 2 = a) := by decide

/-- INIT loads the initial value of the algorithm in force (R457). -/
theorem State.pmkCtrl_init : s.pmkCtrl i (s.pmkAlg i * 4 + 1) = (s.setField (pgPMK i) 0x008 2 2 (s.pmkAlg i)).setPmk i (algStart (s.pmkAlg i)) := by
  obtain ⟨⟨init, noCompare, alg⟩, -⟩ := pmkCtrl_word _ (s.pmkAlg_lt i)
  simp only [State.pmkCtrl, init, noCompare, alg, Bool.false_eq_true, if_false, true_or, if_true]

/-- CMP compares, with the algorithm in force (R457). -/
theorem State.pmkCtrl_compare : s.pmkCtrl i (s.pmkAlg i * 4 + 2) = (s.pmkCompare i).setField (pgPMK i) 0x008 2 2 (s.pmkAlg i) := by
  obtain ⟨-, noInit, compare, alg⟩ := pmkCtrl_word _ (s.pmkAlg_lt i)
  simp only [State.pmkCtrl, noInit, compare, alg, Bool.false_eq_true, if_true, ne_eq, not_true_eq_false, or_self, if_false]

end

section
variable {i o v : Nat} (unit : i < 16) (s : State)
include unit

/-- The page of a unit. -/
theorem pageBlk_pmk : pageBlk (pgPMK i) = some (.pmk, i) := pageBlk_pgPMK ⟨i, unit⟩

/-- A write to a unit is made where its domain is on and the path is not refused in STEPPING (R34, R434). -/
theorem State.regCheck_pmk (aligned : o % 4 = 0) (inside : o < 0x1000) (other : o ≠ 0x030) (reached : o < 0x040 ∨ s.domOn 183 = true) (free : 2 ≤ i ∨ s.fmn.state ≠ .stepping) :
    s.regCheck (pgPMK i) o v true = 0 := by
  have powered : ¬ (0x040 ≤ o ∧ (!s.domOn (domainOf .pmk i)) = true) := by
    rintro ⟨own, off⟩
    obtain low | on := reached
    · omega
    · exact absurd on (by simpa [domainOf] using off)
  have moving : ¬ (True ∧ s.fmn.state = .stepping ∧ dataPlane .pmk i = true ∧ s.changesNow (pgPMK i) .pmk i o v = true) := by
    rintro ⟨-, stepping, fabric, -⟩
    obtain other | idle := free
    · simp only [dataPlane, decide_eq_true_eq] at fabric
      omega
    · exact idle stepping
  simp only [State.regCheck, pageBlk_pmk unit]
  rw [if_neg (by omega), if_neg powered, if_neg moving, if_neg (fun h => other h.1)]
  rfl

/-- In STEPPING a write to a unit of the fabric's path is refused (R34). -/
theorem State.regCheck_pmkFabric (fabric : i < 2) (aligned : o % 4 = 0) (inside : o < 0x1000) (stepping : s.fmn.state = .stepping)
    (acts : s.changesNow (pgPMK i) .pmk i o v = true) : s.regCheck (pgPMK i) o v true = stILLEGAL := by
  have moving : True ∧ s.fmn.state = .stepping ∧ dataPlane .pmk i = true ∧ s.changesNow (pgPMK i) .pmk i o v = true :=
    ⟨trivial, stepping, by simpa [dataPlane] using fabric, acts⟩
  simp only [State.regCheck, pageBlk_pmk unit]
  rw [if_neg (by omega), if_pos moving, ite_self]

/-- A write that the unit ignores latches its event (R460). -/
theorem State.regApply_pmkIgnored (ignored : s.ignores .pmk i o v true = true) : s.regApply (pgPMK i) o v true = s.latch (pgPMK i) 2 := by
  simp only [State.regApply, pageBlk_pmk unit, ignored]
  rfl

variable (general : 10 ≤ i)
include general

/-- A write of CTRL of a general unit (R457). -/
theorem State.regApply_pmkCtrl : s.regApply (pgPMK i) 0x008 v true = s.pmkCtrl i v := by
  have heeded : s.ignores .pmk i 0x008 v true = false := decide_eq_false (by omega)
  simp only [State.regApply, pageBlk_pmk unit, heeded]
  rfl

/-- A write of VALUE of a general unit (R460). -/
theorem State.regApply_pmkValue (hi : Bool) : s.regApply (pgPMK i) (if hi then 0x044 else 0x040) v true = s.pmkSet i (if hi then 0x044 else 0x040) v := by
  cases hi with
  | false =>
    have heeded : s.ignores .pmk i 0x040 v true = false := decide_eq_false (by omega)
    simp only [State.regApply, pageBlk_pmk unit, Bool.false_eq_true, if_false, heeded]
    rfl
  | true =>
    have heeded : s.ignores .pmk i 0x044 v true = false := decide_eq_false (by omega)
    simp only [State.regApply, pageBlk_pmk unit, if_true, heeded]
    rfl

/-- A write of DATA of a general unit takes its four bytes in (R453). -/
theorem State.regApply_pmkData : s.regApply (pgPMK i) 0x048 v true =
    (s.setReg (pgPMK i) 0x048 (s.reg (pgPMK i) 0x048)).setPmk i (pmBytes (s.pmkAlg i) (s.pmkValue i) (toLE 4 v)) := by
  have heeded : s.ignores .pmk i 0x048 v true = false := decide_eq_false (by omega)
  have stored : s.storeRw (pgPMK i) .pmk i 0x048 v = s.setReg (pgPMK i) 0x048 (s.reg (pgPMK i) 0x048) := by
    rw [storeRw_plain _ _ _ _ _ _ rfl]
    exact congrArg _ (writtenBits_mask_zero _ _)
  have applied : s.regApply (pgPMK i) 0x048 v true = (s.storeRw (pgPMK i) .pmk i 0x048 v).regEffect .pmk i 0x048 v := by
    simp only [State.regApply, pageBlk_pmk unit, heeded]
    rfl
  rw [applied, stored]
  obtain ⟨alg, value⟩ := s.pmk_setReg i 0x048 (w := s.reg (pgPMK i) 0x048) (by decide)
  simp only [State.regEffect, alg, value]

/-- A write of DATA_TAIL of a general unit takes its named low bytes in (R460). -/
theorem State.regApply_pmkTail (some_ : fld v 24 2 ≠ 0) : s.regApply (pgPMK i) 0x04C v true =
    (s.setReg (pgPMK i) 0x04C (s.reg (pgPMK i) 0x04C)).setPmk i (pmBytes (s.pmkAlg i) (s.pmkValue i) (toLE (fld v 24 2) v)) := by
  have heeded : s.ignores .pmk i 0x04C v true = false := by
    change (decide (i < 10) || fld v 24 2 == 0) = false
    simp only [Nat.not_lt_of_le general, beq_eq_false_iff_ne.mpr some_, decide_false, Bool.or_self]
  have stored : s.storeRw (pgPMK i) .pmk i 0x04C v = s.setReg (pgPMK i) 0x04C (s.reg (pgPMK i) 0x04C) := by
    rw [storeRw_plain _ _ _ _ _ _ rfl]
    exact congrArg _ (writtenBits_mask_zero _ _)
  have applied : s.regApply (pgPMK i) 0x04C v true = (s.storeRw (pgPMK i) .pmk i 0x04C v).regEffect .pmk i 0x04C v := by
    simp only [State.regApply, pageBlk_pmk unit, heeded]
    rfl
  rw [applied, stored]
  obtain ⟨alg, value⟩ := s.pmk_setReg i 0x04C (w := s.reg (pgPMK i) 0x04C) (by decide)
  simp only [State.regEffect, alg, value]

end

section
variable {i : Nat} (unit : i < 16) (general : 10 ≤ i) {s : State}
include unit general

/-- PMK_INIT of a general unit (R452, R457). -/
theorem softWrite_pmkInit : s.softWrite (pgPMK i) 0x008 (s.pmkAlg i * 4 + 1) =
    { (s.setField (pgPMK i) 0x008 2 2 (s.pmkAlg i)).setPmk i (algStart (s.pmkAlg i)) with answer := 0 } :=
  State.softWrite_made (State.regCheck_pmk unit s rfl (by decide) (by decide) (.inl (by decide)) (.inl (by omega)))
    ((State.regApply_pmkCtrl unit s general).trans (s.pmkCtrl_init i))

/-- PMK_COMPARE of a general unit (R456, R457). -/
theorem softWrite_pmkCompare : s.softWrite (pgPMK i) 0x008 (s.pmkAlg i * 4 + 2) =
    { (s.pmkCompare i).setField (pgPMK i) 0x008 2 2 (s.pmkAlg i) with answer := 0 } :=
  State.softWrite_made (State.regCheck_pmk unit s rfl (by decide) (by decide) (.inl (by decide)) (.inl (by omega)))
    ((State.regApply_pmkCtrl unit s general).trans (s.pmkCtrl_compare i))

end

section
variable {i : Nat} {s : State}

/-- A compare that holds is shown in STATE and counted (R456, R458). -/
theorem State.pmkCompare_holds (equal : s.pmkResult i = s.reg64 (pgPMK i) 0x050 % 2 ^ algWidth (s.pmkAlg i)) :
    s.pmkCompare i = (s.setField (pgPMK i) 0x00C 0 2 3).bump64 (pgPMK i) 0x060 1 := by
  simp only [State.pmkCompare, equal, beq_self_eq_true, if_true]
  rfl

/-- One that fails is also counted as a mismatch, with its event (R456, R458). -/
theorem State.pmkCompare_fails (differ : s.pmkResult i ≠ s.reg64 (pgPMK i) 0x050 % 2 ^ algWidth (s.pmkAlg i)) :
    s.pmkCompare i = ((((s.setField (pgPMK i) 0x00C 0 2 1).bump64 (pgPMK i) 0x060 1).bump (pgPMK i) 0x068 1).latchErr (pgPMK i) 0 1 (s.pmkResult i % 2 ^ 32) 0) := by
  simp only [State.pmkCompare, beq_eq_false_iff_ne.mpr differ, Bool.false_eq_true, if_false]
  rfl

/-- What the registers of a unit hold after a compare that holds, whatever CTRL is written to. -/
theorem State.pmkCompare_holds_regs (a : Nat) (equal : s.pmkResult i = s.reg64 (pgPMK i) 0x050 % 2 ^ algWidth (s.pmkAlg i)) :
    ((s.pmkCompare i).setField (pgPMK i) 0x008 2 2 a).field (pgPMK i) 0x00C 0 2 = 3 ∧ ((s.pmkCompare i).setField (pgPMK i) 0x008 2 2 a).reg64 (pgPMK i) 0x060 = satAdd64 (s.reg64 (pgPMK i) 0x060) 1 ∧
      regsBut s ((s.pmkCompare i).setField (pgPMK i) 0x008 2 2 a) [(pgPMK i, 0x008), (pgPMK i, 0x00C), (pgPMK i, 0x060), (pgPMK i, 0x064)] := by
  rw [State.pmkCompare_holds equal]
  have other : ∀ (z : State) (o : Nat), o = 0x00C ∨ o = 0x060 ∨ o = 0x064 → (z.setField (pgPMK i) 0x008 2 2 a).reg (pgPMK i) o = z.reg (pgPMK i) o :=
    fun z o named => State.reg_setReg_ne _ _ (by unfold regKey; omega)
  refine ⟨?_, ?_, ?_⟩
  · rw [State.field, other _ _ (.inl rfl), State.reg_bump64_ne _ _ (by unfold regKey; omega) (by unfold regKey; omega)]
    exact s.field_setField_self (pgPMK i) 0x00C (by decide) 3
  · have count : ∀ z : State, (z.setField (pgPMK i) 0x008 2 2 a).reg64 (pgPMK i) 0x060 = z.reg64 (pgPMK i) 0x060 := fun z => by
      simp only [State.reg64, State.regN, other z _ (.inr (.inl rfl)), other z _ (.inr (.inr rfl))]
    have before : (s.setField (pgPMK i) 0x00C 0 2 3).reg64 (pgPMK i) 0x060 = s.reg64 (pgPMK i) 0x060 := by
      have apart : ∀ o, o = 0x060 ∨ o = 0x064 → (s.setField (pgPMK i) 0x00C 0 2 3).reg (pgPMK i) o = s.reg (pgPMK i) o :=
        fun o named => State.reg_setReg_ne _ _ (by unfold regKey; omega)
      simp only [State.reg64, State.regN, apart _ (.inl rfl), apart _ (.inr rfl)]
    rw [count, State.reg64_bump64, before]
  · exact regsBut_write (regsBut_write (regsBut_write (regsBut_write (regsBut_refl s _) (by simp)) (by simp)) (by simp)) (by simp)

/-- What the registers of a unit hold after a compare that fails, whatever CTRL is written to. -/
theorem State.pmkCompare_fails_regs (a : Nat) (unit : i < 16) (differ : s.pmkResult i ≠ s.reg64 (pgPMK i) 0x050 % 2 ^ algWidth (s.pmkAlg i)) :
    ((s.pmkCompare i).setField (pgPMK i) 0x008 2 2 a).field (pgPMK i) 0x00C 0 2 = 1 ∧ pends ((s.pmkCompare i).setField (pgPMK i) 0x008 2 2 a) (pgPMK i) 0 ∧
      ((s.pmkCompare i).setField (pgPMK i) 0x008 2 2 a).regN (pgPMK i) 0x024 = 1 ∧ ((s.pmkCompare i).setField (pgPMK i) 0x008 2 2 a).regN (pgPMK i) 0x068 = satAdd32 (s.regN (pgPMK i) 0x068) 1 := by
  rw [State.pmkCompare_fails differ]
  have other : ∀ (z : State) (o : Nat), o = 0x00C ∨ o = 0x014 ∨ o = 0x024 ∨ o = 0x068 → (z.setField (pgPMK i) 0x008 2 2 a).reg (pgPMK i) o = z.reg (pgPMK i) o :=
    fun z o named => State.reg_setReg_ne _ _ (by unfold regKey; omega)
  have latched : ∀ (z : State) (o : Nat), o = 0x00C ∨ o = 0x024 ∨ o = 0x068 → (z.latch (pgPMK i) 0).reg (pgPMK i) o = z.reg (pgPMK i) o :=
    fun z o named => State.reg_latch _ _ _ _ _ (by simp only [List.mem_cons, List.not_mem_nil, or_false, not_or, regKey, pgPMK, pgSPV]; omega)
  have noted : ∀ (z : State) (lo hi o : Nat), o = 0x00C ∨ o = 0x068 → (z.setErr (pgPMK i) 1 lo hi).reg (pgPMK i) o = z.reg (pgPMK i) o :=
    fun z lo hi o named => (State.reg_setN_ne _ _ (by unfold regKey; omega)).trans ((State.reg_setN_ne _ _ (by unfold regKey; omega)).trans (State.reg_setN_ne _ _ (by unfold regKey; omega)))
  refine ⟨?_, ?_, ?_, ?_⟩
  · rw [State.field, other _ _ (.inl rfl), State.latchErr, latched _ _ (.inl rfl), noted _ _ _ _ (.inl rfl), State.reg_bump_ne _ _ (by unfold regKey; omega),
      State.reg_bump64_ne _ _ (by unfold regKey; omega) (by unfold regKey; omega)]
    exact s.field_setField_self (pgPMK i) 0x00C (by decide) 1
  · rw [pends, other _ _ (.inr (.inl rfl)), State.latchErr, State.latch, State.pend_latchAt _ _ _ _ (by simp only [pgPMK, pgSPV]; omega)]
    simp
  · rw [State.regN, other _ _ (.inr (.inr (.inl rfl))), State.latchErr, latched _ _ (.inr (.inl rfl)), State.setErr, State.reg_setN_ne _ _ (by unfold regKey; omega),
      State.reg_setN_ne _ _ (by unfold regKey; omega), State.reg_setN_self]
    rfl
  · have before : ((s.setField (pgPMK i) 0x00C 0 2 1).bump64 (pgPMK i) 0x060 1).regN (pgPMK i) 0x068 = s.regN (pgPMK i) 0x068 := by
      rw [State.regN, State.reg_bump64_ne _ _ (by unfold regKey; omega) (by unfold regKey; omega)]
      exact congrArg BitVec.toNat (State.reg_setReg_ne _ _ (by unfold regKey; omega))
    rw [State.regN, other _ _ (.inr (.inr (.inr rfl))), State.latchErr, latched _ _ (.inr (.inr rfl)), noted _ _ _ _ (.inr rfl)]
    exact (State.regN_setN_self _ _ _ (satAdd32_lt _ _)).trans (by rw [before])

/-- A written register is a change of the registers. -/
theorem State.setReg_onlyRegs {z : State} (only : ∃ g, z = { s with regs := g }) (p o : Nat) (w : Word) : ∃ g, z.setReg p o w = { s with regs := g } := by
  obtain ⟨g, rfl⟩ := only
  exact ⟨_, rfl⟩

/-- An event that latches after changes of registers changes registers and letters (R441). -/
theorem State.latch_onlyEvents {z : State} (only : ∃ g, z = { s with regs := g }) (p b : Nat) : ∃ g l w u, z.latch p b = { s with regs := g, letters := l, withheld := w, subs := u } := by
  obtain ⟨g, rfl⟩ := only
  obtain ⟨r, l, w, u, latched⟩ := State.latchAt_shape { s with regs := g } p b { s with regs := g }.curStep
  exact ⟨r, l, w, u, latched⟩

/-- A compare writes registers of the unit, and brings letters where it fails. -/
theorem State.pmkCompare_shape (i a : Nat) : ∃ g l w u, (s.pmkCompare i).setField (pgPMK i) 0x008 2 2 a = { s with regs := g, letters := l, withheld := w, subs := u } := by
  by_cases equal : s.pmkResult i = s.reg64 (pgPMK i) 0x050 % 2 ^ algWidth (s.pmkAlg i)
  · rw [State.pmkCompare_holds equal]
    exact ⟨_, _, _, _, rfl⟩
  · rw [State.pmkCompare_fails equal, State.latchErr, State.setErr]
    have counted : ∃ g, ((s.setField (pgPMK i) 0x00C 0 2 1).bump64 (pgPMK i) 0x060 1).bump (pgPMK i) 0x068 1 = { s with regs := g } :=
      State.setReg_onlyRegs (State.setReg_onlyRegs (State.setReg_onlyRegs (State.setReg_onlyRegs ⟨s.regs, rfl⟩ _ _ _) _ _ _) _ _ _) _ _ _
    obtain ⟨g, l, w, u, latched⟩ := State.latch_onlyEvents (State.setReg_onlyRegs (State.setReg_onlyRegs (State.setReg_onlyRegs counted (pgPMK i) 0x024 (BitVec.ofNat 32 1)) (pgPMK i) 0x028
      (BitVec.ofNat 32 (s.pmkResult i % 2 ^ 32))) (pgPMK i) 0x02C (BitVec.ofNat 32 0)) (pgPMK i) 0
    simp only [State.setN]
    rw [latched]
    exact ⟨_, _, _, _, rfl⟩

/-- The answer of an access is no register. -/
theorem State.reg_answer (z : State) (n p o : Nat) : ({ z with answer := n } : State).reg p o = z.reg p o := rfl

/-- What a state shows in its registers, another with the same registers shows. -/
theorem State.shows_of_reg (s : State) {z w : State} (same : ∀ p o, z.reg p o = w.reg p o) (p o lo len bit : Nat) (ks : List (Nat × Nat)) :
    z.field p o lo len = w.field p o lo len ∧ z.regN p o = w.regN p o ∧ z.reg64 p o = w.reg64 p o ∧ (pends z p bit ↔ pends w p bit) ∧ (regsBut s z ks ↔ regsBut s w ks) := by
  simp only [State.field, State.regN, State.reg64, pends, regsBut, same, and_self]

/-- A compare that holds, from outside (R456 to R458). -/
theorem softWrite_pmkCompare_holds (unit : i < 16) (general : 10 ≤ i) (equal : s.pmkResult i = s.reg64 (pgPMK i) 0x050 % 2 ^ algWidth (s.pmkAlg i)) :
    ∃ u, s.softWrite (pgPMK i) 0x008 (s.pmkAlg i * 4 + 2) = u ∧ u = { s with regs := u.regs, answer := 0 } ∧
      u.field (pgPMK i) 0x00C 0 2 = 3 ∧ u.reg64 (pgPMK i) 0x060 = satAdd64 (s.reg64 (pgPMK i) 0x060) 1 ∧
      regsBut s u [(pgPMK i, 0x008), (pgPMK i, 0x00C), (pgPMK i, 0x060), (pgPMK i, 0x064)] := by
  obtain ⟨shown, counted, but⟩ := State.pmkCompare_holds_regs (s.pmkAlg i) equal
  have same := fun p o => State.reg_answer ((s.pmkCompare i).setField (pgPMK i) 0x008 2 2 (s.pmkAlg i)) 0 p o
  refine ⟨_, softWrite_pmkCompare unit general, ?_, ?_, ?_, ?_⟩
  · rw [State.pmkCompare_holds equal]
    rfl
  · exact (s.shows_of_reg same _ _ _ _ 0 []).1.trans shown
  · exact (s.shows_of_reg same _ _ 0 0 0 []).2.2.1.trans counted
  · exact (s.shows_of_reg same 0 0 0 0 0 _).2.2.2.2.mpr but

/-- One that fails (R456 to R458). -/
theorem softWrite_pmkCompare_fails (unit : i < 16) (general : 10 ≤ i) (differ : s.pmkResult i ≠ s.reg64 (pgPMK i) 0x050 % 2 ^ algWidth (s.pmkAlg i)) :
    ∃ u, s.softWrite (pgPMK i) 0x008 (s.pmkAlg i * 4 + 2) = u ∧ u = { s with regs := u.regs, letters := u.letters, withheld := u.withheld, subs := u.subs, answer := 0 } ∧
      u.field (pgPMK i) 0x00C 0 2 = 1 ∧ pends u (pgPMK i) 0 ∧ u.regN (pgPMK i) 0x024 = 1 ∧ u.regN (pgPMK i) 0x068 = satAdd32 (s.regN (pgPMK i) 0x068) 1 := by
  obtain ⟨shown, pend, code, counted⟩ := State.pmkCompare_fails_regs (s.pmkAlg i) unit differ
  have same := fun p o => State.reg_answer ((s.pmkCompare i).setField (pgPMK i) 0x008 2 2 (s.pmkAlg i)) 0 p o
  refine ⟨_, softWrite_pmkCompare unit general, ?_, ?_, ?_, ?_, ?_⟩
  case refine_2 => exact (s.shows_of_reg same _ _ _ _ 0 []).1.trans shown
  case refine_3 => exact (s.shows_of_reg same _ 0 0 0 _ []).2.2.2.1.mpr pend
  case refine_4 => exact (s.shows_of_reg same _ _ 0 0 0 []).2.1.trans code
  case refine_5 => exact (s.shows_of_reg same _ _ 0 0 0 []).2.1.trans counted
  obtain ⟨g, l, w, u, shape⟩ := s.pmkCompare_shape i (s.pmkAlg i)
  rw [shape]

end

section
variable {i v : Nat} (unit : i < 16) (general : 10 ≤ i) {s : State} (on : s.domOn 183 = true)
include unit general on

/-- Four bytes enter the running value of a general unit (R453). -/
theorem softWrite_pmkData : s.softWrite (pgPMK i) 0x048 v =
    { (s.setReg (pgPMK i) 0x048 (s.reg (pgPMK i) 0x048)).setPmk i (pmBytes (s.pmkAlg i) (s.pmkValue i) (toLE 4 v)) with answer := 0 } :=
  State.softWrite_made (State.regCheck_pmk unit s rfl (by decide) (by decide) (.inr on) (.inl (by omega))) (State.regApply_pmkData unit s general)

/-- The named low bytes of a word enter it (R460). -/
theorem softWrite_pmkTail (some_ : fld v 24 2 ≠ 0) : s.softWrite (pgPMK i) 0x04C v =
    { (s.setReg (pgPMK i) 0x04C (s.reg (pgPMK i) 0x04C)).setPmk i (pmBytes (s.pmkAlg i) (s.pmkValue i) (toLE (fld v 24 2) v)) with answer := 0 } :=
  State.softWrite_made (State.regCheck_pmk unit s rfl (by decide) (by decide) (.inr on) (.inl (by omega))) (State.regApply_pmkTail unit s general some_)

/-- A value is written to a general unit (R460). -/
theorem softWrite_pmkValue (hi : Bool) {u : State} (set_ : s.pmkSet i (if hi then 0x044 else 0x040) v = u) :
    s.softWrite (pgPMK i) (if hi then 0x044 else 0x040) v = { u with answer := 0 } := by
  refine State.softWrite_made (State.regCheck_pmk unit s ?_ ?_ ?_ (.inr on) (.inl (by omega))) ((State.regApply_pmkValue unit s general hi).trans set_)
  all_goals cases hi <;> decide

/-- A tail of no bytes is ignored with the unit's event (R460). -/
theorem softWrite_pmkNoTail (none_ : fld v 24 2 = 0) : s.softWrite (pgPMK i) 0x04C v = { s.latch (pgPMK i) 2 with answer := 0 } := by
  refine State.softWrite_made (State.regCheck_pmk unit s rfl (by decide) (by decide) (.inr on) (.inl (by omega))) (State.regApply_pmkIgnored unit s ?_)
  change (decide (i < 10) || fld v 24 2 == 0) = true
  simp [none_]

end

section
variable {i o v : Nat} (unit : i < 16) {s : State}
include unit

/-- Every write to a unit of a path is ignored with its event (R457, R460). -/
theorem softWrite_pmkPath (path : i < 10) (own : o = 0x008 ∨ o = 0x040 ∨ o = 0x044 ∨ o = 0x048 ∨ o = 0x04C) (reached : o < 0x040 ∨ s.domOn 183 = true)
    (free : 2 ≤ i ∨ s.fmn.state ≠ .stepping) : s.softWrite (pgPMK i) o v = { s.latch (pgPMK i) 2 with answer := 0 } := by
  refine State.softWrite_made (State.regCheck_pmk unit s (by omega) (by omega) (by omega) reached free) (State.regApply_pmkIgnored unit s ?_)
  obtain rfl | rfl | rfl | rfl | rfl := own
  · exact decide_eq_true path
  · exact decide_eq_true path
  · exact decide_eq_true path
  · exact decide_eq_true path
  · change (decide (i < 10) || fld v 24 2 == 0) = true
    simp [path]

/-- With the domain off a write of a data or value register is refused (R434). -/
theorem softWrite_pmkOff (off : s.domOn 183 = false) (aligned : o % 4 = 0) (own : 0x040 ≤ o) (inside : o < 0x1000) : s.softWrite (pgPMK i) o v = { s with answer := stILLEGAL } :=
  State.softWrite_refused _ _ (State.regCheck_domOff _ _ (pageBlk_pmk unit) aligned own inside off)

end

section
variable {i : Nat} {s : State}

/-- A word with INIT or CMP acts at once (R34). -/
theorem State.changesNow_pmkCtrl (k : Nat) (acts : k = 1 ∨ k = 2) : s.changesNow (pgPMK i) .pmk i 0x008 (s.pmkAlg i * 4 + k) = true := by
  have act : ∀ a < 4, (a * 4 + k) &&& 3 ≠ 0 := by
    obtain rfl | rfl := acts
    · decide
    · decide
  have moves : ((s.pmkAlg i * 4 + k) &&& (actMask .pmk 0x008 - (actMask .pmk 0x008 &&& boundMask .pmk 0x008)) != 0) = true := bne_iff_ne.mpr (act _ (s.pmkAlg_lt i))
  simp only [State.changesNow, moves, Bool.or_true, Bool.true_or]

/-- A word of data that is not 0 acts at once (R34). -/
theorem State.changesNow_pmkData {o : Nat} (data : o = 0x048 ∨ o = 0x04C) (v : Word) (some_ : v ≠ 0) : s.changesNow (pgPMK i) .pmk i o v.toNat = true := by
  have act : v.toNat &&& 0xFFFFFFFF ≠ 0 := by
    have whole : v.toNat &&& 0xFFFFFFFF = v.toNat := (Nat.and_two_pow_sub_one_eq_mod v.toNat 32).trans (Nat.mod_eq_of_lt v.isLt)
    rw [whole]
    exact fun zero => some_ (BitVec.eq_of_toNat_eq zero)
  have moves : (v.toNat &&& (actMask .pmk o - (actMask .pmk o &&& boundMask .pmk o)) != 0) = true := by
    obtain rfl | rfl := data
    · exact bne_iff_ne.mpr act
    · exact bne_iff_ne.mpr act
  simp only [State.changesNow, moves, Bool.or_true, Bool.true_or]

/-- A write of LDG.CTRL is made, but for CFG_COMMIT outside IDLE and SERVICE (R487). -/
theorem State.regCheck_ldgCtrl (v : Nat) : s.regCheck pgLDG 0x008 v true = if bitOf v 1 && s.fmn.state != .idle && s.fmn.state != .service then stILLEGAL else 0 := by
  simp [State.regCheck, dataPlane]

/-- A write of LDG.CTRL stores nothing and acts (R487). -/
theorem State.regApply_ldgCtrl (v : Nat) : s.regApply pgLDG 0x008 v true = (s.setReg pgLDG 0x008 (s.reg pgLDG 0x008)).ldgCtrl v := by
  have heeded : s.ignores .ldg 0 0x008 v true = false := rfl
  have stored : s.storeRw pgLDG .ldg 0 0x008 v = s.setReg pgLDG 0x008 (s.reg pgLDG 0x008) := by
    rw [storeRw_plain _ _ _ _ _ _ rfl]
    exact congrArg _ (writtenBits_mask_zero _ _)
  rw [← stored]
  simp only [State.regApply, pageBlk_pgLDG, heeded]
  rfl

/-- Updates that are requested one after the other wait in that order (R480). -/
theorem State.foldl_ledgerUpdate {β : Type} (l : List β) (off : β → Nat) (bs : β → Bytes) (s : State) : l.foldl (fun (x : State) p => x.ledgerUpdate (off p) (bs p)) s =
    { s with sel := { s.sel with updates := s.sel.updates ++ l.map (fun p => (off p, bs p)) } } := by
  induction l generalizing s with
  | nil => simp
  | cons p ps ih =>
    rw [List.foldl_cons, ih]
    simp [State.ledgerUpdate, State.setSel]

/-- CFG_COMMIT puts every staged byte into the next record (R487). -/
theorem State.ldgCtrl_commit : s.ldgCtrl 2 = { s with sel := { s.sel with updates := s.sel.updates ++ s.sel.cfg.map (fun p => (0x900 + p.1, [p.2])), cfg := [] } } := by
  have commit : bitOf 2 1 = true := rfl
  have noSync : bitOf 2 0 = false := rfl
  simp only [State.ldgCtrl, commit, noSync, if_true, Bool.false_eq_true, if_false, State.foldl_ledgerUpdate]
  rfl

end

/-- The general units are 10 to 15 (R454). -/
theorem generalUnit_lt (n : Fin 6) : 10 + n.val < 16 := Nat.add_lt_add_left n.isLt 10

/-- Settles O48, write by write. -/
theorem postmarkAndLedgerControl : Obligations.PostmarkAndLedgerControl := by
  refine ⟨?init, ?holds, ?fails, ?data, ?tail, ?value, ?noHigh, ?wide, ?noTail, ?path, ?pathData, ?fabric, ?off, ?sync, ?commit, ?noCommit⟩
  case init => exact fun n s => congrArg Host.Outcome.next (softWrite_pmkInit (generalUnit_lt n) (Nat.le_add_right 10 n.val))
  case holds =>
    intro n s equal
    obtain ⟨u, done, changed⟩ := softWrite_pmkCompare_holds (generalUnit_lt n) (Nat.le_add_right 10 n.val) equal
    exact ⟨u, congrArg Host.Outcome.next done, changed⟩
  case fails =>
    intro n s differ
    obtain ⟨u, done, changed⟩ := softWrite_pmkCompare_fails (generalUnit_lt n) (Nat.le_add_right 10 n.val) differ
    exact ⟨u, congrArg Host.Outcome.next done, changed⟩
  case data =>
    intro n v s on
    refine ⟨_, congrArg Host.Outcome.next (softWrite_pmkData (generalUnit_lt n) (Nat.le_add_right 10 n.val) on), rfl, ?_, ?_⟩
    · refine (State.pmkValue_setPmk _ _ _).trans ?_
      rw [(s.pmk_setReg (10 + n.val) 0x048 (by decide)).1]
    · exact regsBut_setPmk (regsBut_write (regsBut_refl s _) (by simp)) (by simp) (by simp) _
  case tail =>
    intro n v s on some_
    refine ⟨_, congrArg Host.Outcome.next (softWrite_pmkTail (generalUnit_lt n) (Nat.le_add_right 10 n.val) on some_), rfl, ?_, ?_⟩
    · refine (State.pmkValue_setPmk _ _ _).trans ?_
      rw [(s.pmk_setReg (10 + n.val) 0x04C (by decide)).1]
    · exact regsBut_setPmk (regsBut_write (regsBut_refl s _) (by simp)) (by simp) (by simp) _
  case value =>
    intro n v s on narrow
    have set_ : s.pmkSet (10 + n.val) 0x040 v.toNat = s.setPmk (10 + n.val) (v.toNat % 2 ^ algWidth (s.pmkAlg (10 + n.val))) := by
      simp only [State.pmkSet, narrow, if_false, if_true]
    refine ⟨_, congrArg Host.Outcome.next (softWrite_pmkValue (generalUnit_lt n) (Nat.le_add_right 10 n.val) on false set_), rfl, ?_, ?_⟩
    · exact (State.pmkValue_setPmk _ _ _).trans (Nat.mod_mod _ _)
    · exact regsBut_setPmk (regsBut_refl s _) (by simp) (by simp) _
  case noHigh =>
    intro n v s on narrow
    have set_ : s.pmkSet (10 + n.val) 0x044 v.toNat = s := by
      simp only [State.pmkSet, narrow, if_false]
      exact if_neg (by decide)
    exact congrArg Host.Outcome.next (softWrite_pmkValue (generalUnit_lt n) (Nat.le_add_right 10 n.val) on true set_)
  case wide =>
    intro n v s on wide
    have low : s.pmkSet (10 + n.val) 0x040 v.toNat = { s with mgmt := { s.mgmt with stage := kvSet s.mgmt.stage (10 + n.val) v.toNat } } := (if_pos wide).trans (if_pos rfl)
    have high : s.pmkSet (10 + n.val) 0x044 v.toNat = ({ s with mgmt := { s.mgmt with stage := kvDel s.mgmt.stage (10 + n.val) } } : State).setPmk (10 + n.val) (kvGet s.mgmt.stage (10 + n.val) (s.regN (pgPMK (10 + n.val)) 0x040) + v.toNat * 2 ^ 32) :=
      (if_pos wide).trans (if_neg (by decide))
    exact ⟨congrArg Host.Outcome.next (softWrite_pmkValue (generalUnit_lt n) (Nat.le_add_right 10 n.val) on false low),
      congrArg Host.Outcome.next (softWrite_pmkValue (generalUnit_lt n) (Nat.le_add_right 10 n.val) on true high)⟩
  case noTail => exact fun n v s on none_ => congrArg Host.Outcome.next (softWrite_pmkNoTail (generalUnit_lt n) (Nat.le_add_right 10 n.val) on none_)
  case path =>
    intro u s path free
    exact ⟨congrArg Host.Outcome.next (softWrite_pmkPath u.isLt path (.inl rfl) (.inl (by decide)) free),
      congrArg Host.Outcome.next (softWrite_pmkPath u.isLt path (.inl rfl) (.inl (by decide)) free)⟩
  case pathData =>
    intro u hi v s path on free
    refine ⟨congrArg Host.Outcome.next (softWrite_pmkPath u.isLt path (by simp) (.inr on) free), congrArg Host.Outcome.next (softWrite_pmkPath u.isLt path (by simp) (.inr on) free),
      congrArg Host.Outcome.next (softWrite_pmkPath u.isLt path ?_ (.inr on) free)⟩
    cases hi <;> simp
  case fabric =>
    intro u v s stepping
    have refused : ∀ o w, o % 4 = 0 → o < 0x1000 → s.changesNow (pgPMK u.val) .pmk u.val o w = true → s.softWrite (pgPMK u.val) o w = { s with answer := stILLEGAL } :=
      fun o w aligned inside acts => State.softWrite_refused _ _ (State.regCheck_pmkFabric (by omega) s u.isLt aligned inside stepping acts)
    refine ⟨congrArg Host.Outcome.next (refused _ _ rfl (by decide) (State.changesNow_pmkCtrl 1 (.inl rfl))),
      congrArg Host.Outcome.next (refused _ _ rfl (by decide) (State.changesNow_pmkCtrl 2 (.inr rfl))), fun some_ => ⟨?_, ?_⟩⟩
    · exact congrArg Host.Outcome.next (refused _ _ rfl (by decide) (State.changesNow_pmkData (.inl rfl) v some_))
    · exact congrArg Host.Outcome.next (refused _ _ rfl (by decide) (State.changesNow_pmkData (.inr rfl) v some_))
  case off =>
    intro u hi v s off
    refine ⟨congrArg Host.Outcome.next (softWrite_pmkOff u.isLt off rfl (by decide) (by decide)), congrArg Host.Outcome.next (softWrite_pmkOff u.isLt off rfl (by decide) (by decide)),
      congrArg Host.Outcome.next (softWrite_pmkOff u.isLt off ?_ ?_ ?_)⟩
    all_goals cases hi <;> decide
  case sync =>
    intro s
    have made : s.regCheck pgLDG 0x008 1 true = 0 := by
      rw [State.regCheck_ldgCtrl]
      rfl
    refine ⟨_, congrArg Host.Outcome.next (State.softWrite_made made (State.regApply_ldgCtrl 1)), rfl, ?_⟩
    exact regsBut_write (regsBut_refl s _) (by simp)
  case commit =>
    intro s ready
    have made : s.regCheck pgLDG 0x008 2 true = 0 := by
      rw [State.regCheck_ldgCtrl]
      obtain idle | service := ready
      · simp [idle]
      · simp [service]
    refine ⟨_, congrArg Host.Outcome.next (State.softWrite_made made ((State.regApply_ldgCtrl 2).trans State.ldgCtrl_commit)), rfl, ?_⟩
    exact regsBut_write (regsBut_refl s _) (by simp)
  case noCommit =>
    intro s idle service
    refine congrArg Host.Outcome.next (State.softWrite_refused _ _ ?_)
    have commit : bitOf 2 1 = true := rfl
    rw [State.regCheck_ldgCtrl]
    simp [idle, service, commit]

end Sys2Proof.Machine
end

section
/-! PROOFS. The transfers of a Pouch (R445, R448 to R451). -/

namespace Sys2Proof.Machine

/-- A small Pouch has at most 64 words (R450). -/
theorem pouchSlots_small {p : Nat} (i : Nat) (small : smallPouch p = true) : pouchSlots p i ≤ 64 := by
  rw [pouchSlots, if_pos small]
  exact Nat.pow_le_pow_right (by decide) (Nat.min_le_left 6 _)

section
variable {p : Fin 512} {i : Fin 256} {s : State}

/-- A Pouch is replaced, and no other with it. -/
theorem State.pouch_setPouch (w : Pouch) : (s.setPouch p.val i.val w).pouch p.val i.val = w ∧
    ∀ (q : Fin 512) (j : Fin 256), (q, j) ≠ (p, i) → (s.setPouch p.val i.val w).pouch q.val j.val = s.pouch q.val j.val := by
  refine ⟨kvGet_kvSet_self _ _ _ _, fun q j other => kvGet_kvSet_ne _ _ _ ?_⟩
  intro key
  have page : q.val = p.val := by omega
  have index : j.val = i.val := by omega
  exact other (Prod.ext (Fin.ext page) (Fin.ext index))

/-- A Pouch with room takes a word behind the others (R445). -/
theorem exec_pouchWrite_room {data : Bytes} {last poison : Bool} {w : Pouch} (w_ : w = s.pouch p.val i.val) (room : w.words.length < pouchSlots p.val i.val) :
    exec (.pouchWrite p i data last poison) s = .next (s.setPouch p.val i.val { w with words := w.words ++ [{ data := data, last := last, poison := poison }] }) := by
  subst w_
  exact if_neg (Nat.not_le_of_lt room)

/-- With nothing in it a Pouch gives its consumer nothing, and no idle start (R448, R451). -/
theorem exec_pouchRead_empty {bad : Bool} (empty : (s.pouch p.val i.val).words = []) : exec (.pouchRead p i bad) s = .next s ∧ exec (.pouchIdleTimeout p i) s = .next s := by
  constructor
  · change execPouchRead p i bad s = _
    simp only [execPouchRead, empty]
  · exact if_pos (by simp [empty])

/-- The consumer of a large Pouch waits for a whole packet or 16 words (R451). -/
theorem exec_pouchRead_waits {bad : Bool} {w : Pouch} (w_ : w = s.pouch p.val i.val) (large : largePouch p.val = true) (idle : w.begun = false) (partial_ : w.packets = 0)
    (few : w.words.length < 16) : exec (.pouchRead p i bad) s = .next s := by
  subst w_
  have waits : (s.pouch p.val i.val).mayRead (largePouch p.val) = false := by
    simp only [Pouch.mayRead, large, idle, partial_, Nat.not_le_of_lt few, Bool.not_true, Bool.or_self, decide_false]
    decide
  change execPouchRead p i bad s = _
  simp only [execPouchRead, waits, Bool.not_false, if_true]
  split <;> rfl

/-- A Pouch whose consumer may read gives its first word (R448, R449). -/
theorem exec_pouchRead_takes {bad : Bool} {w : PouchWord} {r : List PouchWord} (first : (s.pouch p.val i.val).words = w :: r)
    (ready : largePouch p.val = true → (s.pouch p.val i.val).begun = true ∨ 1 ≤ (s.pouch p.val i.val).packets ∨ 16 ≤ (s.pouch p.val i.val).words.length) :
    exec (.pouchRead p i bad) s = .next { (if bad && !w.poison then ((s.setPouch p.val i.val { words := r, begun := largePouch p.val && !(w.taken bad).last }).bump pgGLB 0x050 1).latchErr pgGLB 0 1 (p.val * 65536 + i.val) 0
        else s.setPouch p.val i.val { words := r, begun := largePouch p.val && !(w.taken bad).last }) with
      answer := (if (w.taken bad).poison then stPOISON else stOK) + 256 * b2n (w.taken bad).last + (if smallPouch p.val then 2 ^ 16 * (s.pouch p.val i.val).count else 0), readData := BitVec.ofNat 32 (leAt (w.taken bad).data 0 4) } := by
  have may : (s.pouch p.val i.val).mayRead (largePouch p.val) = true := by
    cases large : largePouch p.val with
    | false => rfl
    | true =>
      obtain begun | whole | many := ready large
      · simp [Pouch.mayRead, begun]
      · simp [Pouch.mayRead, whole]
      · simp [Pouch.mayRead, many]
  change execPouchRead p i bad s = _
  simp only [execPouchRead, first, may, Bool.not_true, Bool.false_eq_true, if_false]

/-- The consumer of a large Pouch begins at its idle start, which is counted (R451). -/
theorem exec_pouchIdleTimeout_begins {c : Pouch} (c_ : c = s.pouch p.val i.val) (large : largePouch p.val = true) (some_ : c.words ≠ []) (idle : c.begun = false) :
    exec (.pouchIdleTimeout p i) s = .next ((s.setPouch p.val i.val { c with begun := true }).bump pgGLB 0x058 1) := by
  subst c_
  exact if_neg (by simp [large, some_, idle])

end

/-- Settles O49, transfer by transfer. -/
theorem pouchTransfers : Obligations.PouchTransfers := by
  refine ⟨fun _ _ _ _ _ _ full => if_pos full, fun _ i small => pouchSlots_small i small, fun _ _ _ _ _ _ _ => exec_pouchWrite_room, fun _ _ w _ => State.pouch_setPouch w,
    fun _ _ _ _ => exec_pouchRead_empty, fun _ _ _ _ _ => exec_pouchRead_waits, ?good, ?bad, fun _ _ _ _ => exec_pouchIdleTimeout_begins, ?unmoved⟩
  case good =>
    intro p i s c w r c_ first ready
    subst c_
    exact exec_pouchRead_takes (bad := false) first ready
  case bad =>
    intro p i s x y c w r c_ first ready x_ y_
    subst c_ x_ y_
    refine (exec_pouchRead_takes (bad := true) first ready).trans ?_
    have ended : (w.taken true).last = true ∧ (w.taken true).poison = true ∧ (w.taken true).data = w.data := ⟨rfl, rfl, rfl⟩
    obtain ⟨last, poison, data⟩ := ended
    simp only [last, poison, data, Bool.not_true, Bool.and_false, Bool.true_and, if_true]
    cases w.poison <;> rfl
  case unmoved =>
    intro p i s still
    refine if_pos ?_
    obtain other | begun := still
    · simp [other]
    · simp [begun]

end Sys2Proof.Machine
end

section
/-! PROOFS. Firmware, attestation, life cycle, wipe and the Ledger (R467, R468, R472 to R477, R480, R481, R489). -/

namespace Sys2Proof.Machine

section
variable {q : Fin 64} {bad : Bool} {fails : Nat} {c : Cmd} {s x y z : State}

/-- A staging array outside DRAM is refused (R467). -/
theorem exec_firmwareStage_noExtent (go : mails s q.val 0x70 c) (x_ : x = s.mailed q.val c) (outside : x.extentOk (leAt c.body 0 8) (leAt c.body 8 4) = false) :
    exec (.firmwareStage q bad fails) s = .next (x.mgmtReply (c.ret q.val) stBAD []) := by
  subst x_
  exact congrArg Host.Outcome.next ((mail_ok go).trans (if_pos (by simp [outside])))

/-- One of another length than its header says is refused (R467). -/
theorem exec_firmwareStage_length (go : mails s q.val 0x70 c) (x_ : x = s.mailed q.val c) (inside : x.extentOk (leAt c.body 0 8) (leAt c.body 8 4) = true)
    (length : leAt c.body 8 4 ≠ 256 + leAt (x.dram.read (leAt c.body 0 8) (leAt c.body 8 4)) 0xC 4 + 2048) :
    exec (.firmwareStage q bad fails) s = .next ((x.dramSeen (leAt c.body 0 8) (leAt c.body 8 4)).mgmtReply (c.ret q.val) stBAD []) := by
  subst x_
  exact congrArg Host.Outcome.next ((mail_ok go).trans ((if_neg (by simp [inside])).trans (if_pos (bne_iff_ne.mpr length))))

section
variable {slot : Nat} {img : Bytes} (go : mails s q.val 0x70 c) (x_ : x = s.mailed q.val c) (img_ : img = x.dram.read (leAt c.body 0 8) (leAt c.body 8 4))
  (inside : x.extentOk (leAt c.body 0 8) (leAt c.body 8 4) = true) (length : leAt c.body 8 4 = 256 + leAt img 0xC 4 + 2048)
  (y_ : y = (x.dramSeen (leAt c.body 0 8) (leAt c.body 8 4)).sealCall) (slot_ : slot = 1 - y.fwActive % 2)
include go x_ img_ inside length y_ slot_

/-- A staging array of the right form is checked against the inactive slot (R465, R467). -/
theorem exec_firmwareStage_checked : exec (.firmwareStage q bad fails) s = .next (
    if y.sel.fuses.fwCheck img ≠ 0 then ((y.fwReject (y.sel.fuses.fwCheck img) slot).unstage fails).mgmtRefuse (c.ret q.val) 0x70
      (if y.sel.fuses.fwCheck img ≠ 1 then stAUTH else if leAt img 0 4 = 0x4C4D4657 ∧ 1 < leAt img 4 2 then stVERSION else stBAD)
    else if bad then (((({ y with freeCtr := y.freeCtr + 1 } : State).setSel (fun k => { k with images := kvSet k.images slot (Config.flashContent y.freeCtr) })).fwReject 7 slot).unstage fails).mgmtReply (c.ret q.val) stNORES []
    else
      let (z, ok) := (y.setSel (fun k => { k with images := kvSet k.images slot img })).ledgerPut 1 fails (setStaged slot) id
      z.mgmtReply (c.ret q.val) (if ok then stOK else stNORES) []) := by
  subst x_ img_ y_ slot_
  exact congrArg Host.Outcome.next ((mail_ok go).trans ((if_neg (by simp [inside])).trans (if_neg (by simpa using length))))

/-- An image that fails a check is refused, and nothing stays staged (R467). -/
theorem exec_firmwareStage_rejected {code : Nat} (code_ : code = y.sel.fuses.fwCheck img) (fault : code ≠ 0) :
    exec (.firmwareStage q bad fails) s = .next (((y.fwReject code slot).unstage fails).mgmtRefuse (c.ret q.val) 0x70
      (if code ≠ 1 then stAUTH else if leAt img 0 4 = 0x4C4D4657 ∧ 1 < leAt img 4 2 then stVERSION else stBAD)) := by
  rw [exec_firmwareStage_checked go x_ img_ inside length y_ slot_, ← code_, if_pos fault]

/-- A slot that reads back wrong is refused, and nothing stays staged (R467). -/
theorem exec_firmwareStage_readBack (sound : y.sel.fuses.fwCheck img = 0)
    (z_ : z = ({ y with freeCtr := y.freeCtr + 1 } : State).setSel (fun k => { k with images := kvSet k.images slot (Config.flashContent y.freeCtr) })) :
    exec (.firmwareStage q true fails) s = .next (((z.fwReject 7 slot).unstage fails).mgmtReply (c.ret q.val) stNORES []) := by
  rw [exec_firmwareStage_checked go x_ img_ inside length y_ slot_, if_neg (by simp [sound]), if_pos rfl, z_]

/-- A checked image stands in the inactive slot, recorded as staged (R467). -/
theorem exec_firmwareStage_stages {ok : Bool} (sound : y.sel.fuses.fwCheck img = 0)
    (put : (y.setSel (fun k => { k with images := kvSet k.images slot img })).ledgerPut 1 fails (setStaged slot) id = (z, ok)) :
    exec (.firmwareStage q false fails) s = .next (z.mgmtReply (c.ret q.val) (if ok then stOK else stNORES) []) := by
  rw [exec_firmwareStage_checked go x_ img_ inside length y_ slot_, if_neg (by simp [sound]), if_neg (by decide), put]

end

/-- Without a staged slot an activation is refused (R468). -/
theorem exec_firmwareActivate_unstaged (go : mails s q.val 0x71 c) (x_ : x = s.mailed q.val c) (none_ : x.fwStaged = 0xFF) :
    exec (.firmwareActivate q fails) s = .next (x.mgmtReply (c.ret q.val) stBAD []) := by
  subst x_
  exact congrArg Host.Outcome.next ((mail_ok go).trans (if_pos none_))

/-- A staged slot that fails its check is refused (R468). -/
theorem exec_firmwareActivate_rejected {code : Nat} (go : mails s q.val 0x71 c) (x_ : x = s.mailed q.val c) (staged : x.fwStaged ≠ 0xFF)
    (code_ : code = x.sealCall.sel.fuses.fwCheck (x.sealCall.image x.fwStaged)) (fault : code ≠ 0) :
    exec (.firmwareActivate q fails) s = .next ((x.sealCall.fwReject code x.fwStaged).mgmtReply (c.ret q.val) (if code = 1 then stBAD else stAUTH) []) := by
  subst x_ code_
  exact congrArg Host.Outcome.next ((mail_ok go).trans ((if_neg staged).trans (if_pos fault)))

/-- A sound slot is recorded as active, and its handover waits for the boundary (R468, R508). -/
theorem exec_firmwareActivate_waits {ok : Bool} (go : mails s q.val 0x71 c) (x_ : x = s.mailed q.val c) (staged : x.fwStaged ≠ 0xFF)
    (sound : x.sealCall.sel.fuses.fwCheck (x.sealCall.image x.fwStaged) = 0) (put : x.sealCall.ledgerPut 1 fails (fun m => setStaged 0xFF (setActive x.fwStaged m)) id = (y, ok)) :
    exec (.firmwareActivate q fails) s = .next (if ok then (y.mboxDone (c.ret q.val)).setMgmt (fun g => { g with handover := .waiting, activate := some (q.val, c.seq), oldSlot := x.sealCall.fwActive })
      else y.mgmtReply (c.ret q.val) stNORES []) := by
  subst x_
  refine congrArg Host.Outcome.next ((mail_ok go).trans ((if_neg staged).trans ((if_neg (by simpa using sound)).trans ?_)))
  simp only [put]
  cases ok <;> rfl

variable {f0 f1 f2 : Nat}

/-- Without an identity there is no quote (R472). -/
theorem exec_attestQuote_noIdentity (go : mails s q.val 0x72 c) (x_ : x = s.mailed q.val c) (none_ : x.sealCall.hasIdentity = false) :
    exec (.attestQuote q f0 f1 f2) s = .next (x.sealCall.mgmtRefuse (c.ret q.val) 0x72 stILLEGAL) := by
  subst x_
  exact congrArg Host.Outcome.next ((mail_ok go).trans (if_pos (by simp [none_])))

/-- Without an endorsed key and its free index there is none (R471, R472). -/
theorem exec_attestQuote_noAlias (go : mails s q.val 0x72 c) (x_ : x = s.mailed q.val c) (identity : x.sealCall.hasIdentity = true) (y_ : y = x.sealCall.makeAlias f0 f1)
    (lacks : y.sel.cur.endorse = none ∨ y.aliasValid = false) : exec (.attestQuote q f0 f1 f2) s = .next (y.mgmtReply (c.ret q.val) stNORES []) := by
  subst x_ y_
  refine congrArg Host.Outcome.next ((mail_ok go).trans ((if_neg (by simp [identity])).trans ?_))
  dsimp only
  split
  · rfl
  · next e endorsed =>
    obtain unendorsed | invalid := lacks
    · exact absurd (endorsed.symm.trans unendorsed) (by simp)
    · exact if_pos (by simp [invalid])

/-- A quote takes the index that a record reserves (R471, R472). -/
theorem exec_attestQuote_quotes {ok : Bool} {e : Endorse} (go : mails s q.val 0x72 c) (x_ : x = s.mailed q.val c) (identity : x.sealCall.hasIdentity = true)
    (y_ : y = x.sealCall.makeAlias f0 f1) (valid : y.aliasValid = true) (endorse : y.sel.cur.endorse = some e)
    (put : y.ledgerPut 1 f2 (fun m => m.writeLE 0x58 4 (y.aliasQ + 1)) id = (z, ok)) :
    exec (.attestQuote q f0 f1 f2) s = .next (if ok then ((z.bump pgSEL 0x084 1).lifeAdd 9 1).mgmtReply (c.ret q.val) stOK (z.quote e y.aliasQ c.body) else z.mgmtReply (c.ret q.val) stNORES []) := by
  subst x_ y_
  refine congrArg Host.Outcome.next ((mail_ok go).trans ((if_neg (by simp [identity])).trans ?_))
  simp only [endorse, valid, put, Bool.not_true, Bool.false_eq_true, if_false, Bool.not_eq_true', ← Bool.not_eq_true, ite_not]

variable {dest : Nat}

/-- A transition off the list changes no fuse (R474). -/
theorem exec_lifecycleSet_offList (go : mails s q.val 0x73 c) (x_ : x = s.mailed q.val c) (off : lcAllowed x.sealCall.lifeCycle (leAt c.body 0 1) = false) :
    exec (.lifecycleSet q f0 f1) s = .next (x.sealCall.mgmtReply (c.ret q.val) stBAD []) := by
  subst x_
  exact congrArg Host.Outcome.next ((mail_ok go).trans (if_pos (by simp [off])))

/-- One without its token changes no fuse (R475). -/
theorem exec_lifecycleSet_noToken (go : mails s q.val 0x73 c) (x_ : x = s.mailed q.val c) (allowed : lcAllowed x.sealCall.lifeCycle (leAt c.body 0 1) = true)
    (guarded : leAt c.body 0 1 ≠ 5) (token : x.sealCall.tokenOk c.body = false) :
    exec (.lifecycleSet q f0 f1) s = .next ((x.sealCall.latchErr pgSEL 2 8 0 0).mgmtReply (c.ret q.val) stAUTH []) := by
  subst x_
  exact congrArg Host.Outcome.next ((mail_ok go).trans ((if_neg (by simp [allowed])).trans (if_pos ⟨guarded, by simp [token]⟩)))

/-- One to RMA with none left changes no fuse (R473). -/
theorem exec_lifecycleSet_noRma (go : mails s q.val 0x73 c) (x_ : x = s.mailed q.val c) (allowed : lcAllowed x.sealCall.lifeCycle 4 = true) (rma : leAt c.body 0 1 = 4)
    (token : x.sealCall.tokenOk c.body = true) (used : rmaLeft x.sealCall.sel.fuses.lc = 0) : exec (.lifecycleSet q f0 f1) s = .next (x.sealCall.mgmtReply (c.ret q.val) stNORES []) := by
  subst x_
  exact congrArg Host.Outcome.next ((mail_ok go).trans ((if_neg (by simp [rma, allowed])).trans ((if_neg (by simp [token])).trans (if_pos ⟨rma, used⟩))))

section
variable (go : mails s q.val 0x73 c) (x_ : x = s.mailed q.val c) (dest_ : dest = leAt c.body 0 1) (allowed : lcAllowed x.sealCall.lifeCycle dest = true)
  (token : dest = 5 ∨ x.sealCall.tokenOk c.body = true) (left : dest = 4 → rmaLeft x.sealCall.sel.fuses.lc ≠ 0)
include go x_ dest_ allowed token left

/-- A transition whose first record fails changes no fuse (R476). -/
theorem exec_lifecycleSet_noRecord (put : x.sealCall.ledgerPut 1 f0 (fun m => (setPendingLc dest m).write 0x60 (sliceB c.body 4 48)) id = (y, false)) :
    exec (.lifecycleSet q f0 f1) s = .next (y.mgmtReply (c.ret q.val) stNORES []) := by
  subst x_ dest_
  have granted : ¬ (leAt c.body 0 1 ≠ 5 ∧ (!(s.mailed q.val c).sealCall.tokenOk c.body) = true) := by
    rintro ⟨guarded, missing⟩
    simp [token.resolve_left guarded] at missing
  refine congrArg Host.Outcome.next ((mail_ok go).trans ((if_neg (by simp [allowed])).trans ((if_neg granted).trans ((if_neg (fun h => left h.1 h.2)).trans ?_))))
  simp only [put]
  exact if_pos rfl

/-- A transition blows its fuse, and its wipe follows whatever its second record does (R476). -/
theorem exec_lifecycleSet_wipes {ok : Bool} {w : State} (put : x.sealCall.ledgerPut 1 f0 (fun m => (setPendingLc dest m).write 0x60 (sliceB c.body 4 48)) id = (y, true))
    (second : (y.blowLc dest).ledgerPut 1 f1 (lcRecord x.sealCall.lifeCycle dest y.lcCount (y.reg64 pgDTL 0x040) (sliceB c.body 4 48)) id = (z, ok))
    (w_ : w = (z.lifeAdd 5 1).wipeAll.setSel (fun k => { k with target := some dest })) :
    exec (.lifecycleSet q f0 f1) s = .next (if ok then w.setMgmt (fun g => { g with wipes := g.wipes ++ [(q.val, c.seq)] }) else w.mgmtReply (c.ret q.val) stNORES []) := by
  subst x_ dest_ w_
  have granted : ¬ (leAt c.body 0 1 ≠ 5 ∧ (!(s.mailed q.val c).sealCall.tokenOk c.body) = true) := by
    rintro ⟨guarded, missing⟩
    simp [token.resolve_left guarded] at missing
  refine congrArg Host.Outcome.next ((mail_ok go).trans ((if_neg (by simp [allowed])).trans ((if_neg granted).trans ((if_neg (fun h => left h.1 h.2)).trans ?_))))
  simp only [put, second]
  exact if_neg (by decide)

end

end

/-- Settles O50, command by command and event by event. -/
theorem sealCommands : Obligations.SealCommands := by
  refine ⟨fun _ _ _ _ _ _ => exec_firmwareStage_noExtent, fun _ _ _ _ _ _ => exec_firmwareStage_length, fun _ _ _ _ _ _ _ _ _ _ go x_ img_ inside length y_ slot_ => exec_firmwareStage_rejected go x_ img_ inside length y_ slot_,
    fun _ _ _ _ _ _ _ _ _ => exec_firmwareStage_readBack, fun _ _ _ _ _ _ _ _ _ _ go x_ img_ inside length y_ slot_ => exec_firmwareStage_stages go x_ img_ inside length y_ slot_, fun _ _ _ _ _ => exec_firmwareActivate_unstaged,
    fun _ _ _ _ _ _ => exec_firmwareActivate_rejected, fun _ _ _ _ _ _ _ => exec_firmwareActivate_waits, fun _ _ _ _ _ _ _ => exec_attestQuote_noIdentity,
    fun _ _ _ _ _ _ _ _ => exec_attestQuote_noAlias, fun _ _ _ _ _ _ _ _ _ _ _ => exec_attestQuote_quotes, fun _ _ _ _ _ _ => exec_lifecycleSet_offList,
    fun _ _ _ _ _ _ => exec_lifecycleSet_noToken, fun _ _ _ _ _ _ => exec_lifecycleSet_noRma, fun _ _ _ _ _ _ _ _ => exec_lifecycleSet_noRecord,
    fun _ _ _ _ _ _ _ _ _ _ _ go x_ dest_ allowed token left => exec_lifecycleSet_wipes go x_ dest_ allowed token left, ?wipe, ?update, ?write, ?noWrite, fun _ _ hour => if_neg (by simp [hour]), fun _ _ other => if_pos other⟩
  case wipe =>
    intro q c s x go x_
    subst x_
    exact congrArg Host.Outcome.next (mail_ok go)
  case update =>
    intro off data s x e x_ e_
    subst x_ e_
    exact (apply_ite Host.Outcome.next _ _ _).symm
  case write => exact fun fails s some_ pause => if_neg (by simp [some_, pause])
  case noWrite =>
    intro fails s still
    exact if_pos (still.imp_left (by simp))

end Sys2Proof.Machine
end

section
/-! PROOFS. Power, reset, start-up and handover: O54. -/

namespace Sys2Proof.Machine

section
variable {s : State}

/-! ## Domains that power on stay on -/

/-- The status of a domain after any domain's status is set. -/
theorem State.domStatus_setDom_self (s : State) (d v : Nat) : (s.setDom d v).domStatus d = v :=
  kvGet_kvSet_self _ _ _ _

theorem State.domOn_setDom_self (s : State) (d : Nat) : (s.setDom d 1).domOn d = true := by
  simp [State.domOn, State.domStatus_setDom_self]

theorem State.domOn_setDom_one {d : Nat} (e : Nat) (on : s.domOn d = true) : (s.setDom e 1).domOn d = true := by
  rcases eq_or_ne d e with rfl | ne
  · exact s.domOn_setDom_self d
  · simpa [State.domOn, State.domStatus, State.setDom, kvGet_kvSet_ne _ _ _ ne] using on

theorem State.domOn_domainsOn_of_on {d : Nat} (ds : List Nat) (on : s.domOn d = true) : (s.domainsOn ds).domOn d = true := by
  induction ds generalizing s with
  | nil => exact on
  | cons e ds ih => exact ih (State.domOn_setDom_one e on)

theorem State.domOn_domainsOn_of_mem {d : Nat} (ds : List Nat) (mem : d ∈ ds) : (s.domainsOn ds).domOn d = true := by
  induction ds generalizing s with
  | nil => cases mem
  | cons e ds ih =>
    rcases List.mem_cons.mp mem with rfl | tail
    · exact State.domOn_domainsOn_of_on ds (s.domOn_setDom_self d)
    · exact ih tail

theorem State.domOn_tileOn {d : Nat} (p : Nat) (on : s.domOn d = true) : (s.tileOn p).domOn d = true :=
  State.domOn_setDom_one p (s := s.modTile p _) on

theorem State.domOn_tilesOn {d : Nat} (ps : List Nat) (on : s.domOn d = true) :
    (ps.foldl (fun (y : State) p => y.tileOn p) s).domOn d = true := by
  induction ps generalizing s with
  | nil => exact on
  | cons p ps ih => exact ih (State.domOn_tileOn p on)

/-- Whatever else powers on after them, the always-on domains are on (R493, R502). -/
theorem State.alwaysOn_domOn {d : Nat} (ds ps : List Nat) (mem : d ∈ alwaysOn) :
    (ps.foldl (fun (y : State) p => y.tileOn p) ((s.domainsOn alwaysOn).domainsOn ds)).domOn d = true :=
  State.domOn_tilesOn ps (State.domOn_domainsOn_of_on ds (State.domOn_domainsOn_of_mem alwaysOn mem))

/-! ## The conditions of WIPE_TO_IDLE -/

theorem State.controllersWiped_iff : (List.range 16).all (fun m => s.phaseOf m == 4) = true ↔ ∀ m : Fin 16, s.phaseOf m.val = 4 := by
  simp [List.all_eq_true, List.mem_range, Fin.forall_iff]

theorem State.portsTrained_iff : (List.range 12).all (fun p => !s.domOn (166 + p) || s.link p != 1) = true ↔
    ∀ p : Fin 12, s.domOn (166 + p.val) = false ∨ s.link p.val ≠ 1 := by
  simp [List.all_eq_true, List.mem_range, Fin.forall_iff]

end

/-- Settles O54, event after event: each either takes its branch or, where its condition does not hold, leaves the state. -/
theorem startAndHandover : Obligations.StartAndHandover := by
  unfold Obligations.StartAndHandover
  refine ⟨?rise, ?riseNot, ?fall, ?pin, ?pinNot, ?booted, ?fuseErr, ?noRecord, ?firstBoot, ?record, fun _ _ _ _ _ => rfl, ?started, ?timeout, ?notStarted,
    ?selfTest, ?selfTestNot, ?idle, ?idleNot, ?pause, ?pauseNot, ?complete, ?back, ?noPause, ?watchdog, ?watchdogNot⟩
  case rise =>
    intro k s cold
    constructor
    · change execPowerGoodRise k false s = _
      simp [execPowerGoodRise, cold, State.setPower]
    · change execPowerGoodRise k true s = _
      simp [execPowerGoodRise, cold, State.setPower]
  case riseNot => exact fun k b s warm => if_pos warm
  case fall => exact fun s => ⟨_, rfl, rfl, rfl, rfl, rfl, rfl, rfl, rfl, rfl⟩
  case pin => exact fun s good => ⟨_, if_pos good, rfl, rfl, rfl⟩
  case pinNot => exact fun s bad => if_neg (by simp [bad])
  case booted => exact fun e us pf af f0 f1 s gone => if_pos gone
  case fuseErr =>
    intro us pf af f0 f1 s boot fresh
    exact (if_neg (by simp [boot, fresh])).trans (if_pos rfl)
  case noRecord =>
    intro us pf af f0 f1 s boot fresh empty old
    change execSealBoot false us pf af f0 f1 s = _
    simp [execSealBoot, boot, fresh, empty, old]
  case firstBoot =>
    intro us pf af f0 f1 s x boot fresh empty new x_
    change execSealBoot false us pf af f0 f1 s = _
    subst x_
    simp [execSealBoot, boot, fresh, empty, Nat.not_le.mpr new]
  case record =>
    intro us pf af f0 f1 s x r boot fresh newest x_
    change execSealBoot false us pf af f0 f1 s = _
    subst x_
    simp [execSealBoot, boot, fresh, newest]
  case started =>
    intro s x boot ready down x_
    subst x_
    exact ⟨_, if_neg (by simp [boot, ready, State.postmasterUp, down]), rfl, fun d mem => State.alwaysOn_domOn _ _ mem⟩
  case timeout => exact fun af f0 f1 s boot ready down => if_neg (by simp [boot, ready, State.postmasterUp, down])
  case notStarted => exact fun af f0 f1 s other => ⟨if_pos other, if_pos other⟩
  case selfTest =>
    intro failing s x y boot up untested x_ y_
    subst x_ y_
    exact if_neg (by simp [boot, State.postmasterUp, up, untested])
  case selfTestNot => exact fun failing s other => if_pos (by simpa [State.postmasterUp] using other)
  case idle =>
    exact fun s wipe wiped trained up => if_pos ⟨wipe, State.controllersWiped_iff.mpr wiped, State.portsTrained_iff.mpr trained, up⟩
  case idleNot =>
    intro s other
    refine if_neg fun ⟨wipe, wiped, trained, up⟩ => ?_
    rcases other with noWipe | ⟨m, busy⟩ | ⟨p, on, training⟩ | down
    · exact noWipe wipe
    · exact busy (State.controllersWiped_iff.mp wiped m)
    · rcases State.portsTrained_iff.mp trained p with off | done
      · exact absurd (on.symm.trans off) (by decide)
      · exact done training
    · exact down up
  case pause => exact fun s waiting free => if_neg (by simp [waiting, free])
  case pauseNot =>
    intro s other
    exact if_pos (other.imp_right Option.isSome_iff_ne_none.mpr)
  case complete =>
    intro us f0 f1 s x img paused img_ x_
    subst img_ x_
    exact if_neg (by simp [paused])
  case back => exact fun us fails s paused => if_neg (by simp [paused])
  case noPause => exact fun us f0 f1 fails s other => ⟨if_pos other, if_pos other⟩
  case watchdog => exact fun s other up => if_neg (by simp [other, State.postmasterUp, up])
  case watchdogNot => exact fun s other => if_pos (by simpa [State.postmasterUp] using other)

end Sys2Proof.Machine
end

section
/-! PROOFS. Clock loss, domains, operating points, throttling, trips and power requests: O55. -/

namespace Sys2Proof.Machine

/-! ## What a trip leaves of the power state -/

section
variable {s : State}

theorem State.foldl_power {α : Type} (g : State → α → State) (l : List α) (s : State) (keeps : ∀ x a, (g x a).power = x.power) :
    (l.foldl g s).power = s.power := by
  induction l generalizing s with
  | nil => rfl
  | cons a l ih => exact (ih _).trans (keeps s a)

theorem State.foldl_setDom_power (ds : List Nat) (v : Nat) (s : State) :
    (ds.foldl (fun (x : State) d => x.setDom d v) s).power = { s.power with dom := ds.foldl (fun m d => kvSet m d v) s.power.dom } := by
  induction ds generalizing s with
  | nil => rfl
  | cons d ds ih => exact ih _

theorem State.fenceFor_power (cause : Nat) : (s.fenceFor cause).power = s.power := by
  unfold State.fenceFor
  split <;> rfl

theorem State.portDown_power (p code chip : Nat) : (s.portDown p code chip).power = s.power := by
  simp [State.portDown, State.linkNone, State.setLink]

theorem State.pmkMessage_power (u r : Nat) : (s.pmkMessage u r).power = s.power := by
  rw [State.pmkMessage, State.setN_power, State.setN_power]
  simp [State.bump64, State.set64]

theorem State.pmkCheck_power (u r info : Nat) (ok : Bool) : (s.pmkCheck u r ok info).power = s.power := by
  unfold State.pmkCheck
  dsimp only
  split
  · exact State.pmkMessage_power _ _
  · rw [State.latchErr_power, State.bump_power, State.pmkMessage_power]

theorem State.ledgerPut_power (w fails : Nat) (edit : Ram → Ram) (en : Option Endorse → Option Endorse) : (s.ledgerPut w fails edit en).1.power = s.power := by
  unfold State.ledgerPut
  dsimp only
  split
  · rfl
  · split <;> simp [State.pmkCheck_power, State.fresh]

/-- A trip powers its domains off, drives THERM_TRIP_N low and is noted (R499). -/
theorem State.tripActs_power (fails : Nat) : (s.tripActs fails).power =
    { s.power with dom := tripDomains.foldl (fun m d => kvSet m d 0) s.power.dom, tripped := true, thermN := true } := by
  have ports : ∀ (x : State) (p : Nat), (if x.link p = 0 then x else x.portDown p 0).power = x.power := by
    intro x p
    split
    · rfl
    · exact State.portDown_power _ _ _
  simp only [State.tripActs, State.ledgerPut_power, State.lifeAdd, State.setSel_power, State.setPower_power, State.foldl_setDom_power,
    State.foldl_power _ _ _ ports, State.fenceFor_power]

/-- A domain set with others to one status has it. -/
theorem kvGet_foldl_kvSet {α : Type} (ds : List Nat) (v : α) {d : Nat} (mem : d ∈ ds) (m : AMap α) (z : α) :
    kvGet (ds.foldl (fun m d => kvSet m d v) m) d z = v := by
  induction ds using List.reverseRecOn with
  | nil => cases mem
  | append_singleton ds e ih =>
    rw [List.foldl_append, List.foldl_cons, List.foldl_nil]
    rcases eq_or_ne d e with rfl | ne
    · exact kvGet_kvSet_self _ _ _ _
    · rw [kvGet_kvSet_ne _ _ _ ne]
      exact ih ((List.mem_append.mp mem).resolve_right (by simpa using ne))

theorem State.domStatus_tripActs (fails : Nat) {d : Nat} (mem : d ∈ tripDomains) : (s.tripActs fails).domStatus d = 0 := by
  simp only [State.domStatus, State.tripActs_power, kvGet_foldl_kvSet tripDomains 0 mem]

theorem State.tripActs_tripped (fails : Nat) : (s.tripActs fails).power.tripped = true ∧ (s.tripActs fails).power.thermN = true := by
  rw [State.tripActs_power]
  exact ⟨rfl, rfl⟩

end

/-! ## Throttling -/

/-- The machine with a Folio's throttle level set. -/
def State.setLevel (s : State) (f l : Nat) : State := { s with power := { s.power with level := kvSet s.power.level f l } }

/-- The machine after a measuring period with these readings and this power. -/
def State.measured (s : State) (temps : List (Fin 56 × Nat)) (w : Nat) : State := { s.sense temps with power := { (s.sense temps).power with watts := w } }

section
variable {f : Fin 2} {temps : List (Fin 56 × Nat)} {w : Nat} {s x : State} (x_ : x = s.measured temps w)
include x_

theorem execThrottleRise_up {hot cap : Bool} {y z : State}
    (hot_ : hot = (bitOf (x.regN pgPWR 0x008) 0 && (folioSensors f.val).any (fun i => decide (x.tThrottle ≤ x.temp i))))
    (cap_ : cap = (bitOf (x.regN pgPWR 0x008) 1 && decide (x.regN pgPWR 0x044 ≤ w)))
    (over_ : (hot || cap || x.memTemp f.val) = true) (room : x.throttle f.val < 7) (y_ : y = x.setLevel f.val (x.throttle f.val + 1))
    (z_ : z = (if cap then (y.bump pgPWR 0x06C 1).latch pgPWR 1 else y)) :
    exec (.throttleRise f temps w) s = .next (if x.throttle f.val = 0 then (z.bump pgPWR 0x068 1).latch pgPWR 0 else z) := by
  subst z_ y_ hot_ cap_ x_
  refine if_neg ?_
  rintro (calm | top)
  · exact absurd (calm.symm.trans (congrArg not over_)) (by decide)
  · exact absurd room (Nat.not_lt.mpr top)

theorem execThrottleRise_hot (counts : bitOf (x.regN pgPWR 0x008) 0 = true) (uncapped : bitOf (x.regN pgPWR 0x008) 1 = false)
    (sensor : ∃ i ∈ folioSensors f.val, x.tThrottle ≤ x.temp i) (risen : 1 ≤ x.throttle f.val) (room : x.throttle f.val < 7) :
    exec (.throttleRise f temps w) s = .next (x.setLevel f.val (x.throttle f.val + 1)) := by
  have hot : true = (bitOf (x.regN pgPWR 0x008) 0 && (folioSensors f.val).any (fun i => decide (x.tThrottle ≤ x.temp i))) := by
    rw [counts, Bool.true_and, eq_comm, List.any_eq_true]
    simpa using sensor
  have cap : false = (bitOf (x.regN pgPWR 0x008) 1 && decide (x.regN pgPWR 0x044 ≤ w)) := by rw [uncapped, Bool.false_and]
  exact (execThrottleRise_up x_ hot cap rfl room rfl rfl).trans (congrArg Host.Outcome.next (if_neg (by omega)))

theorem execThrottleRise_stays
    (calm : 7 ≤ x.throttle f.val ∨ ((bitOf (x.regN pgPWR 0x008) 0 = false ∨ ∀ i ∈ folioSensors f.val, x.temp i < x.tThrottle) ∧
      (bitOf (x.regN pgPWR 0x008) 1 = false ∨ w < x.regN pgPWR 0x044) ∧ x.memTemp f.val = false)) :
    exec (.throttleRise f temps w) s = .next x := by
  subst x_
  refine if_pos ?_
  rcases calm with top | ⟨cool, under, memory⟩
  · exact .inr top
  · have noHot : (bitOf ((s.measured temps w).regN pgPWR 0x008) 0 &&
        (folioSensors f.val).any (fun i => decide ((s.measured temps w).tThrottle ≤ (s.measured temps w).temp i))) = false := by
      rw [Bool.and_eq_false_iff, List.any_eq_false]
      simpa using cool
    have noCap : (bitOf ((s.measured temps w).regN pgPWR 0x008) 1 && decide ((s.measured temps w).regN pgPWR 0x044 ≤ w)) = false := by
      rw [Bool.and_eq_false_iff]
      simpa using under
    exact .inl (by rw [Bool.not_eq_true', Bool.or_eq_false_iff, Bool.or_eq_false_iff]; exact ⟨⟨noHot, noCap⟩, memory⟩)

theorem execThrottleFall_down (cool : ∀ i ∈ folioSensors f.val, x.temp i + 40 ≤ x.tThrottle) (under : w + 50 ≤ x.regN pgPWR 0x044)
    (memory : x.memTemp f.val = false) (risen : 0 < x.throttle f.val) :
    exec (.throttleFall f temps w) s = .next (x.setLevel f.val (x.throttle f.val - 1)) := by
  subst x_
  exact if_pos ⟨List.all_eq_true.mpr fun i mem => decide_eq_true (cool i mem), under, congrArg not memory, risen⟩

theorem execThrottleFall_stays
    (near : (∃ i ∈ folioSensors f.val, x.tThrottle < x.temp i + 40) ∨ x.regN pgPWR 0x044 < w + 50 ∨ x.memTemp f.val = true ∨ x.throttle f.val = 0) :
    exec (.throttleFall f temps w) s = .next x := by
  subst x_
  refine if_neg fun ⟨cool, under, memory, risen⟩ => ?_
  rcases near with ⟨i, mem, warm⟩ | above | hot | bottom
  · exact absurd (of_decide_eq_true (List.all_eq_true.mp cool i mem)) (not_le.mpr warm)
  · exact absurd under (Nat.not_le.mpr above)
  · exact absurd (memory.symm.trans (congrArg not hot)) (by decide)
  · exact absurd bottom (Nat.ne_of_gt risen)

end

/-! ## Power requests -/

section
variable {s : State} {page i : Nat} {b : Blk} (paged : pageBlk page = some (b, i))
include paged

/-- What refuses a write of PWR.REQ (R34, R494). -/
theorem State.regCheck_power (v : Nat) : s.regCheck page 0x030 v true =
    if s.fmn.state = .stepping ∧ dataPlane b i = true ∧ s.changesNow page b i 0x030 v = true then stILLEGAL
    else if pwrSw b i = true ∧ v % 2 = 0 ∧ s.fmn.state ≠ .idle ∧ s.fmn.state ≠ .service then stILLEGAL else 0 := by
  cases b <;> simp [State.regCheck, paged]

/-- What a write of PWR.REQ does (R438, R494). -/
theorem State.regApply_power (v : Nat) : s.regApply page 0x030 v true = if pwrSw b i then (s.storeRw page b i 0x030 v).followReq b i else s := by
  simp [State.regApply, paged, s.ignores_common b i v true (show 0x030 < 0x040 by decide) (by decide)]

/-- On a page whose domain does not switch, PWR.REQ is no field that a write changes. -/
theorem State.changesNow_power_fixed (fixed : pwrSw b i = false) (v : Nat) : s.changesNow page b i 0x030 v = false := by
  have mask : rwMask b i 0x030 = 0 := by simp [rwMask, fixed, b2n]
  have acts : actMask b 0x030 = 0 := by cases b <;> rfl
  simp [State.changesNow, mask, acts]

theorem State.softWrite_power {v : Nat} (switched : pwrSw b i = true)
    (plane : ¬ (s.fmn.state = .stepping ∧ dataPlane b i = true ∧ s.changesNow page b i 0x030 v = true))
    (state : s.fmn.state = .idle ∨ s.fmn.state = .service ∨ v % 2 ≠ 0) :
    s.softWrite page 0x030 v = { (s.storeRw page b i 0x030 v).followReq b i with answer := 0 } := by
  refine State.softWrite_made ?_ ((s.regApply_power paged v).trans (if_pos switched))
  rw [s.regCheck_power paged, if_neg plane, if_neg]
  rintro ⟨-, even, notIdle, notService⟩
  exact state.elim notIdle fun other => other.elim notService fun odd => odd even

theorem State.softWrite_power_fixed (fixed : pwrSw b i = false) (v : Nat) : s.softWrite page 0x030 v = { s with answer := 0 } := by
  refine State.softWrite_made ?_ ((s.regApply_power paged v).trans (if_neg (by simp [fixed])))
  rw [s.regCheck_power paged, if_neg (by simp [s.changesNow_power_fixed paged fixed]), if_neg (by simp [fixed])]

theorem State.softWrite_power_off (switched : pwrSw b i = true) (notIdle : s.fmn.state ≠ .idle) (notService : s.fmn.state ≠ .service) {v : Nat} (even : v % 2 = 0) :
    s.softWrite page 0x030 v = { s with answer := stILLEGAL } := by
  refine State.softWrite_refused s v ?_
  rw [s.regCheck_power paged, if_pos (show _ ∧ _ from ⟨switched, even, notIdle, notService⟩), ite_self]

end

/-- The low bit of a register after a write of its bit 0. -/
theorem bitOf_writtenBits_one (w : Word) (v : Nat) : bitOf (writtenBits w.toNat v 1).toNat 0 = bitOf v 0 := by
  have small := w.isLt
  simp only [bitOf, writtenBits, Nat.testBit_zero, BitVec.toNat_ofNat, Nat.and_one_is_mod]
  exact decide_eq_decide.mpr (by omega)

section
variable {s : State} {i : Nat} (sorter : i < 8)
include sorter

theorem pageBlk_srt : pageBlk (pgSRT i) = some (.srt, i) := by
  unfold pageBlk pgSRT
  rw [if_neg (by omega), if_neg (by omega), if_neg (by omega), if_pos (by omega), Nat.add_sub_cancel_left]

/-- A write of a Sorter's PWR.REQ in SERVICE (R438, R494). -/
theorem State.softWrite_srtPower (service : s.fmn.state = .service) (r : Bool) :
    s.softWrite (pgSRT i) 0x030 (b2n r) =
      { (s.setReg (pgSRT i) 0x030 (writtenBits (s.reg (pgSRT i) 0x030).toNat (b2n r) 1)).followReq .srt i with answer := 0 } := by
  rw [State.softWrite_power (pageBlk_srt sorter) rfl (by simp [service]) (.inr (.inl service)), storeRw_plain _ _ _ _ _ _ rfl]
  rfl

end

section
variable {s : State} (i : Nat) (w : Word)

theorem State.domReq_srt_setReg : (s.setReg (pgSRT i) 0x030 w).domReq .srt i = bitOf w.toNat 0 := by
  simp [State.domReq, State.regN]

theorem State.followReq_srt_off (off : bitOf w.toNat 0 = false) :
    (s.setReg (pgSRT i) 0x030 w).followReq .srt i = (s.setReg (pgSRT i) 0x030 w).setDom (136 + i) 0 := by
  simp [State.followReq, State.domReq_srt_setReg, off, domainOf]

theorem State.followReq_srt_on (on : bitOf w.toNat 0 = true) (down : s.domStatus (136 + i) = 0) :
    (s.setReg (pgSRT i) 0x030 w).followReq .srt i = (s.setReg (pgSRT i) 0x030 w).setDom (136 + i) 2 := by
  have down' : (s.setReg (pgSRT i) 0x030 w).domStatus (136 + i) = 0 := down
  simp [State.followReq, State.domReq_srt_setReg, on, domainOf, down']

end

/-! ## A spare whose domain fails -/

section
variable {d : Fin 186} {s x : State} (tile : d.val < 136) (x_ : x = (s.setDom d.val 3).latchErr pgPWR 4 1 d.val s.pwrHi)
include tile x_

theorem execDomainFault_spare {y : State} (spare : (x.tile d.val).role = .spare) (y_ : y = (x.retireSpare d.val).setDom d.val 3) :
    exec (.domainFault d) s =
      match (List.range 136).find? (fun p => tileFolio p == tileFolio d.val && (y.tile p).role == .enabled && (y.tile p).retire) with
      | some p => if (x.tile d.val).ready || (x.tile d.val).wiping then .next ((y.modTile p (fun u => { u with retire := false })).markTile p) else .next y
      | none => .next y := by
  subst y_ x_
  exact (if_neg (Nat.not_le.mpr tile)).trans ((if_neg (by rw [spare]; decide)).trans (if_pos spare))

end

/-- Settles O55, event after event: the branch of each condition, the power state after a trip, and what PWR.REQ makes of a domain. -/
theorem powerAndHeat : Obligations.PowerAndHeat := by
  unfold Obligations.PowerAndHeat
  refine ⟨?clock, ?clockAgain, ?cold, fun fails d s mem => State.domStatus_tripActs fails mem, ?tileOn, ?otherOn, ?notChanging, ?otherFault, ?tileFault, ?spareFault,
    ?spareAlone, ?retiredFault, ?point, ?noPoint, ?rise, ?riseHot, ?riseNot, ?fall, ?fallNot, fun _ _ => rfl, ?trip, ?noTrip, ?persist, ?noPersist, ?rail,
    ?srtOff, ?srtOn, ?num, ?request, ?refused, ?fixed, ?stepping, ?noPage⟩
  case clock =>
    intro fails s x warm fresh x_
    subst x_
    exact ⟨_, (if_neg warm).trans (congrArg Host.Outcome.next (if_neg (by simp [fresh]))), rfl, State.tripActs_tripped fails⟩
  case clockAgain => exact fun fails s warm again => (if_neg warm).trans (congrArg Host.Outcome.next (if_pos again))
  case cold => exact fun fails s cold => ⟨if_pos cold, if_pos (.inl cold)⟩
  case tileOn =>
    intro d s changing tile
    refine ⟨_, (if_neg (by simp [changing])).trans (if_pos tile), ?_, ?_⟩
    · exact s.domStatus_setDom_self d.val 1
    · exact tile_setTile _ _ _
  case otherOn =>
    intro d s changing other
    refine (if_neg (by simp [changing])).trans ((if_neg (Nat.not_lt.mpr other)).trans ?_)
    rw [apply_ite Host.Outcome.next, apply_ite Host.Outcome.next]
    rfl
  case notChanging => exact fun d s other => if_pos other
  case otherFault => exact fun d s other => if_pos other
  case tileFault =>
    intro d s x tile x_ enabled
    subst x_
    exact (if_neg (Nat.not_le.mpr tile)).trans (if_pos enabled)
  case spareFault =>
    intro d s x y p tile x_ spare y_ found
    rw [execDomainFault_spare tile x_ spare y_, found, apply_ite Host.Outcome.next]
  case spareAlone =>
    intro d s x y tile x_ spare y_ found
    rw [execDomainFault_spare tile x_ spare y_, found]
  case retiredFault =>
    intro d s x tile x_ notEnabled notSpare
    subst x_
    exact (if_neg (Nat.not_le.mpr tile)).trans ((if_neg notEnabled).trans (if_neg notSpare))
  case point =>
    intro t s k enabled on k_
    subst k_
    exact if_neg (by simp [enabled, on])
  case noPoint => exact fun t s other => if_pos (other.imp_right (by simp))
  case rise => exact fun f temps w cap hot s x y z x_ hot_ cap_ above room y_ z_ => execThrottleRise_up x_ hot_ cap_ above room y_ z_
  case riseHot => exact fun f temps w s x x_ counts uncapped sensor risen room => execThrottleRise_hot x_ counts uncapped sensor risen room
  case riseNot => exact fun f temps w s x x_ calm => execThrottleRise_stays x_ calm
  case fall => exact fun f temps w s x x_ cool under memory risen => execThrottleFall_down x_ cool under memory risen
  case fallNot => exact fun f temps w s x x_ near => execThrottleFall_stays x_ near
  case trip =>
    intro i temp fails s x x_ hot fresh
    subst x_
    exact ⟨_, if_neg (by rw [not_or]; exact ⟨not_lt.mpr hot, by simp [fresh]⟩), rfl, State.tripActs_tripped fails⟩
  case noTrip =>
    intro i temp fails s x x_ other
    subst x_
    exact if_pos other
  case persist =>
    intro f fails o s top o_ hot fresh
    subst o_
    refine if_neg ?_
    rw [not_or, not_or]
    refine ⟨not_not.mpr top, ?_, by simp [fresh]⟩
    rw [Bool.and_eq_true, not_and_or, Option.isNone_iff_eq_none]
    exact hot.imp_right (by simp)
  case noPersist =>
    intro f fails s other
    refine if_pos (other.imp_right (Or.imp_left ?_))
    rintro ⟨cool, memory⟩
    rw [Bool.and_eq_true, Option.isNone_iff_eq_none, List.find?_eq_none]
    exact ⟨fun i mem => by simpa using cool i mem, by rw [memory]; rfl⟩
  case rail =>
    intro fails s warm
    change execRailTrip fails s = _
    unfold execRailTrip
    simp only [warm, false_or]
    exact (apply_ite Host.Outcome.next _ _ _).symm
  case srtOff =>
    intro i s service
    refine ⟨_, congrArg Host.Outcome.next (State.softWrite_srtPower i.isLt service false), ?_⟩
    rw [State.followReq_srt_off _ _ (bitOf_writtenBits_one _ _)]
    exact ⟨rfl, State.domStatus_setDom_self _ _ _, regsBut_setReg _ _ _ _ _ rfl⟩
  case srtOn =>
    intro i s service down
    refine ⟨_, congrArg Host.Outcome.next (State.softWrite_srtPower i.isLt service true), ?_⟩
    rw [State.followReq_srt_on _ _ (bitOf_writtenBits_one _ _) down]
    exact ⟨rfl, State.domStatus_setDom_self _ _ _, regsBut_setReg _ _ _ _ _ rfl⟩
  case num =>
    exact fun r s service => congrArg Host.Outcome.next (State.softWrite_power_fixed (b := .num) (i := 0) (by decide) rfl _)
  case request =>
    intro page r b i s paged switched state
    refine congrArg Host.Outcome.next (State.softWrite_power paged switched ?_ ?_)
    · rintro ⟨stepping, -⟩
      rcases state with idle | service | ⟨-, other⟩
      · exact absurd (idle.symm.trans stepping) (by decide)
      · exact absurd (service.symm.trans stepping) (by decide)
      · exact other stepping
    · exact state.imp_right (Or.imp_right fun on => by simp [on.1, b2n])
  case refused => exact fun page b i s paged switched notIdle notService => congrArg Host.Outcome.next (State.softWrite_power_off paged switched notIdle notService rfl)
  case fixed => exact fun page r b i s paged fixed => congrArg Host.Outcome.next (State.softWrite_power_fixed paged fixed _)
  case stepping =>
    intro page b i s paged switched stepping
    refine congrArg Host.Outcome.next ?_
    split
    next barred =>
      refine State.softWrite_refused s _ ?_
      rw [s.regCheck_power paged]
      exact if_pos ⟨stepping, Bool.and_eq_true_iff.mp barred⟩
    next free => exact State.softWrite_power paged switched (fun barred => free (Bool.and_eq_true_iff.mpr barred.2)) (.inr (.inr (by decide)))
  case noPage =>
    intro page r s none_
    refine congrArg Host.Outcome.next ?_
    have bad : s.regCheck page.val 0x030 (b2n r) true = stBAD := by simp [State.regCheck, none_]
    rw [softWrite_no _ _ _ _ (by rw [bad]; decide), bad]

end Sys2Proof.Machine
end

section
/-! PROOFS. The Dateline, its sources, and the TAP: O57. -/

namespace Sys2Proof.Machine

section
variable {s : State}

/-! ## The Dateline -/

/-- The state after a PPS edge is captured and counted (R506). -/
def State.edgeCaptured (s : State) : State :=
  (s.set64 pgDTL 0x048 (wrapN 64 ((s.reg64 pgDTL 0x040 : Int) - (s.regN pgDTL 0x058 % 65536 : Nat)))).bump pgDTL 0x064 1

theorem cableDelay_cast (n : Nat) : ((n % 65536 : Nat) : Int) = (n : Int) % 65536 := Int.natCast_emod _ _

theorem State.edgeCaptured_dateline : s.edgeCaptured.dateline = s.dateline := by simp [State.edgeCaptured, State.set64]

/-- Capturing an edge leaves STATE. -/
theorem State.edgeCaptured_field (lo len : Nat) : s.edgeCaptured.field pgDTL 0x00C lo len = s.field pgDTL 0x00C lo len := by
  have apart : ∀ o, o = 0x064 ∨ o = 0x048 ∨ o = 0x04C → regKey pgDTL 0x00C ≠ regKey pgDTL o := by
    rintro o (rfl | rfl | rfl) <;> decide
  have reg : s.edgeCaptured.reg pgDTL 0x00C = s.reg pgDTL 0x00C := by
    rw [State.edgeCaptured, State.reg_bump_ne _ _ (apart _ (.inl rfl)), State.set64,
      State.reg_setN_ne _ _ (apart _ (.inr (.inr rfl))), State.reg_setN_ne _ _ (apart _ (.inr (.inl rfl)))]
  simp only [State.field, reg]

theorem State.edgeCaptured_mode : s.edgeCaptured.mode = s.mode := State.edgeCaptured_field 28 4

section
variable (warm : s.fmn.state ≠ .cold)
include warm

theorem execPpsEdge_free (free : s.dateline.arm = none) :
    exec .ppsEdge s = .next (if s.mode = 4 ∧ s.edgeCaptured.field pgDTL 0x00C 27 1 = 1 then s.edgeCaptured.setMode 2 else s.edgeCaptured) := by
  have captured := s.edgeCaptured_dateline
  have mode := s.edgeCaptured_mode
  change execPpsEdge s = _
  simp only [State.edgeCaptured, cableDelay_cast] at captured mode ⊢
  simp only [execPpsEdge, warm, if_false, captured, mode, free]
  rw [apply_ite Host.Outcome.next]

section
variable {a : Arm} (armed : s.dateline.arm = some a)
include armed

/-- An edge of an arm that does not wait for one, or whose master is not known, is captured only (R506). -/
theorem execPpsEdge_waits (waits : a.pps = false ∨ (a.ptp = true ∧ s.dateline.master = none)) : exec .ppsEdge s = .next s.edgeCaptured := by
  have captured := s.edgeCaptured_dateline
  change execPpsEdge s = _
  simp only [State.edgeCaptured, cableDelay_cast] at captured ⊢
  rcases waits with noPps | ⟨ptp, unknown⟩
  · simp only [execPpsEdge, warm, if_false, captured, armed, noPps, Bool.not_false, if_true]
  · simp only [execPpsEdge, warm, if_false, captured, armed, ptp, unknown, Bool.not_true, Bool.false_eq_true, ite_self]

/-- The edge of an arm by PPS alone is the armed second (R506). -/
theorem execPpsEdge_second (pps : a.pps = true) (noPtp : a.ptp = false) : exec .ppsEdge s =
    .next ((s.edgeCaptured.align (((a.seconds * 10 ^ 9 : Nat) : Int) + (s.regN pgDTL 0x058 % 65536 : Nat)) 2).set64 pgDTL 0x048 (wrapN 64 ((a.seconds * 10 ^ 9 : Nat) : Int))) := by
  have captured := s.edgeCaptured_dateline
  change execPpsEdge s = _
  simp only [State.edgeCaptured, cableDelay_cast] at captured ⊢
  simp only [execPpsEdge, warm, if_false, captured, armed, pps, noPtp, Bool.not_false, Bool.not_true, Bool.false_eq_true, if_true]

/-- The edge of an arm by PPS and PTP is the master's nearest second (R506). -/
theorem execPpsEdge_master (pps : a.pps = true) (ptp : a.ptp = true) {m t : Int} (known : s.dateline.master = some m)
    (t_ : t = nearestSecond ((s.reg64 pgDTL 0x040 : Int) - (s.regN pgDTL 0x058 % 65536 : Nat) + m)) :
    exec .ppsEdge s = .next ((s.edgeCaptured.align (t + (s.regN pgDTL 0x058 % 65536 : Nat)) 2).set64 pgDTL 0x048 (wrapN 64 t)) := by
  have captured := s.edgeCaptured_dateline
  change execPpsEdge s = _
  simp only [State.edgeCaptured, cableDelay_cast] at captured ⊢
  simp only [execPpsEdge, warm, if_false, captured, armed, pps, ptp, known, t_, cableDelay_cast, Bool.not_true, Bool.false_eq_true]

end

end

/-! ## The servo -/

theorem clampI_bounds (x : Int) {lo hi : Int} (ordered : lo ≤ hi) : lo ≤ clampI x lo hi ∧ clampI x lo hi ≤ hi :=
  ⟨le_max_left _ _, max_le ordered (min_le_left _ _)⟩

theorem ppsServo_bounds (i e : Int) : -100000 ≤ (ppsServo i e).1 ∧ (ppsServo i e).1 ≤ 100000 ∧ -500000 ≤ (ppsServo i e).2 ∧ (ppsServo i e).2 ≤ 500000 :=
  have integ := clampI_bounds (i - e.tdiv 8) (lo := -100000) (hi := 100000) (by decide)
  have adj := clampI_bounds ((ppsServo i e).1 - e.tdiv 2) (lo := -500000) (hi := 500000) (by decide)
  ⟨integ.1, integ.2, adj.1, adj.2⟩

/-! ## The TAP and the life cycle -/

theorem tapOpen_of_closed {lc : Nat} (closed : lc = 2 ∨ lc = 3) : tapOpen lc = false := by
  rcases closed with rfl | rfl <;> rfl

theorem tapOpen_of_open {lc : Nat} (notTwo : lc ≠ 2) (notThree : lc ≠ 3) : tapOpen lc = true := by simp [tapOpen, notTwo, notThree]

/-- A BLANK part whose first LC fuse is blown is TEST (R473). -/
theorem lcCode_or_one {lc : Nat} (blank : lcCode lc = 0) : lcCode (lc ||| 1) = 1 := by
  have kept : ∀ k, k ≠ 0 → bitOf (lc ||| 1) k = bitOf lc k := by
    intro k pos
    simp [bitOf, Nat.testBit_one_eq_true_iff_self_eq_zero, pos]
  have set_ : bitOf (lc ||| 1) 0 = true := by simp [bitOf]
  unfold lcCode at blank ⊢
  simp only [kept _ (Nat.succ_ne_zero _), set_] at blank ⊢
  split_ifs at blank ⊢
  simp_all

end

/-- Settles O57, event after event: the edge through what it captures, the servo through the bounds of its clamp, the TAP through the life cycle. -/
theorem timeAndTap : Obligations.TimeAndTap := by
  unfold Obligations.TimeAndTap
  refine ⟨?tick, fun s cold => ⟨if_pos cold, if_pos cold⟩, ?edge, ?edgeHoldover, ?edgePps, ?edgeBoth, ?edgeWaits, ppsServo_bounds, ?second, fun mean s ptp => if_pos ptp,
    fun mean s notPps notPtp => if_pos ⟨notPps, notPtp⟩, fun s => (apply_ite Host.Outcome.next _ _ _).symm, fun s source ptp => if_pos ⟨source, ptp⟩, ?ptpNot, fun _ => rfl,
    ?tapClosed, ?tapOpen, fun _ _ => rfl, ?tapBlank, ?arm, ?alignNow, ?armBad, ?offset, ?offsetHoldover, ?offsetKept⟩
  case tick =>
    intro s f warm f_
    subst f_
    exact if_neg warm
  case edge =>
    exact fun s warm free other => (execPpsEdge_free warm free).trans (congrArg Host.Outcome.next (if_neg fun holdover => other holdover.1))
  case edgeHoldover =>
    intro s x warm free holdover x_
    rw [execPpsEdge_free warm free, x_]
    simp only [holdover, true_and, State.edgeCaptured]
  case edgePps =>
    intro s x a warm armed pps ptp x_
    rw [execPpsEdge_second warm armed pps ptp, x_, State.edgeCaptured]
  case edgeBoth =>
    intro s x a m t warm armed pps ptp known x_ t_
    rw [execPpsEdge_master warm armed pps ptp known t_, x_, State.edgeCaptured]
  case edgeWaits => exact fun s a warm armed waits => execPpsEdge_waits warm armed waits
  case second =>
    intro mean e n s x y mode e_ n_ x_ y_
    subst y_ x_ n_ e_
    refine (if_neg (by tauto)).trans ?_
    simp only [Bool.or_eq_true, decide_eq_true_eq]
    exact (apply_ite Host.Outcome.next _ _ _).symm
  case ptpNot =>
    intro s other
    refine if_neg fun ⟨mode, ptp⟩ => ?_
    rcases other with ⟨notPps, notPtp⟩ | noPtp
    · exact mode.elim notPps notPtp
    · exact noPtp ptp
  case tapClosed =>
    intro c s closed
    change execTapInstruction c s = _
    have shut := tapOpen_of_closed closed
    have notBlank : s.lifeCycle ≠ 0 := by omega
    fin_cases c <;> simp [execTapInstruction, shut, notBlank, tapCode]
  case tapOpen =>
    intro c s notTwo notThree noFuse
    exact (if_neg (by simp [tapOpen_of_open notTwo notThree])).trans (if_neg (by tauto))
  case tapBlank =>
    intro s blank
    exact ⟨_, (if_neg (by rw [blank]; decide)).trans (if_pos ⟨rfl, blank⟩), rfl, lcCode_or_one blank⟩
  case arm =>
    intro q c s x go x_ pos small
    subst x_
    refine congrArg Host.Outcome.next ((mail_ok go).trans ?_)
    rw [if_neg (Nat.not_le.mpr small)]
    simp only [Nat.ne_of_gt pos, if_false]
    rfl
  case alignNow =>
    intro q c s x go x_ none_
    subst x_
    refine congrArg Host.Outcome.next ((mail_ok go).trans ?_)
    simp only [none_, Nat.zero_mod, Nat.zero_div, if_true, show ¬ 4 ≤ 0 by decide, if_false]
  case armBad =>
    intro q c s x go x_ large
    subst x_
    exact congrArg Host.Outcome.next ((mail_ok go).trans (if_pos large))
  case offset =>
    intro off s a armed ptp noPps
    change execPtpOffsetMeasurement off s = _
    simp only [execPtpOffsetMeasurement, armed]
    exact if_pos (by simp [ptp, noPps])
  case offsetHoldover =>
    intro off s free holdover ptp noPps
    change execPtpOffsetMeasurement off s = _
    simp only [execPtpOffsetMeasurement, free]
    exact if_pos ⟨holdover, ptp, noPps⟩
  case offsetKept =>
    intro off s other
    change execPtpOffsetMeasurement off s = _
    rcases other with ⟨a, armed, without⟩ | ⟨free, without⟩
    · simp only [execPtpOffsetMeasurement, armed]
      exact if_neg (by rcases without with h | h <;> simp [h])
    · simp only [execPtpOffsetMeasurement, free]
      refine if_neg fun ⟨holdover, ptp, noPps⟩ => ?_
      exact without.elim (· holdover) fun rest => rest.elim (· ptp) (· noPps)

end Sys2Proof.Machine
end
